-- ==== Sys2Proof/Word.lean ====
section
/-! DEFINITION. Word.lean: the word types of the VG7420 model (R2, R5).

A `BitVec` is used for what the manual reads and writes as bits (registers, packet bytes, counters
that wrap); counts, instants and exact arithmetic are `Nat` and `Int`. -/

namespace Sys2Proof

/-- One byte of a packet, image, record or buffer. -/
abbrev Byte := BitVec 8
/-- A byte string, first byte at the lowest offset. -/
abbrev Bytes := List Byte
/-- A 16-bit field. -/
abbrev W16 := BitVec 16
/-- A register (R363: registers are doublewords). -/
abbrev W32 := BitVec 32
/-- A 64-bit value (R370). -/
abbrev W64 := BitVec 64

/-- A finite map, kept as a list of pairs in strictly ascending key order (`fwf`). -/
abbrev FMap (α : Type) := List (Nat × α)

end Sys2Proof
end

