-- ==== Sys2Proof/Syntax.lean ====
section
/-! DEFINITION. Syntax.lean: the steps of spec/opcode_table.json as one inductive type, `Instr`, with the
operands of each step. A host command (`CMD_…`) carries the accepted request; a register access carries the
port and the doubleword; an event carries what the outside world supplies (a frame, a level, a measurement). -/

namespace Sys2Proof

/-- The two ports that reach the registers and the commands (R365, R386 ORIGIN). -/
inductive Port where
  /-- the PCIe port (ORIGIN 0, PORT 0) -/
  | pcie
  /-- the side-band port of MG (ORIGIN 1, PORT 1) -/
  | sideBand
deriving DecidableEq, Repr

/-- Where an accepted request came from: a command slot of BAR2 (R389) or the side-band reassembly (R402). -/
inductive Origin where
  /-- PCIe command slot 0 to 63 -/
  | slot (n : Fin 64)
  /-- the side-band transport -/
  | sideBand
  /-- a mirror record: the standby applies the command and answers nobody (R399) -/
  | mirror
deriving DecidableEq, Repr

/-- An accepted request (R386, R387): origin, TAG, the SIGNED flag and the payload bytes, signature block included. -/
structure Req where
  /-- where it came from -/
  origin  : Origin
  /-- TAG, returned unchanged -/
  tag     : W16
  /-- FLAGS.SIGNED -/
  signed  : Bool
  /-- payload, R395 signature block included when signed -/
  payload : Bytes
deriving DecidableEq, Repr

/-- A periodic cycle class (R31): Fast 0, Main 1, Slow 2, Optimise 3. -/
abbrev PClass := Fin 4

/-- A brick of the die, by the identifier of R6 (0x00 to 0x22). -/
abbrev BrickId := Fin 35

/-- A control engine, 0 to 63 (R7). -/
abbrev EngineId := Fin 64

/-- How a PCIe link goes down for R394 and R562. -/
inductive LinkDownKind where
  /-- link-down of the PCIe port -/
  | linkDown
  /-- a PCIe function-level reset -/
  | functionReset
  /-- assertion of PERST_N -/
  | perst
deriving DecidableEq, Repr

/-- A mortar packet as it arrives at a boundary (R10, R11), with the flit errors it meets (R18). -/
structure MortarPacket where
  /-- the header flit -/
  header       : W64
  /-- payload flits that follow -/
  payload      : List W64
  /-- flits of the packet with one bit in error -/
  singleErrors : Nat
  /-- a flit has a detected uncorrectable error -/
  uncorrectable : Bool
  /-- the brick acknowledges the request that the mortar raises towards it (R16) -/
  answered     : Bool
deriving DecidableEq, Repr

/-- What a transition of a brick shows (R17, R101). -/
structure SwitchTiming where
  /-- the brick -/
  brick : BrickId
  /-- nanoseconds from its start to the switching of the clock -/
  switched : Nat
  /-- nanoseconds for which the engines stall while the clock switches -/
  stall    : Nat
  /-- the brick acknowledges the handshakes held towards it -/
  answered : Bool
deriving DecidableEq, Repr

/-- What an engine's run of a unit shows beside its computed results: the embers it spent (R104) and a
computation fault, added to the first value it writes (0 for none; R458 rows 6 and 7). -/
structure RunObs where
  /-- embers actually spent on the entry -/
  spent : Nat
  /-- error added to the first point value written; 0 for a correct run -/
  upset : Int
deriving DecidableEq, Repr

/-- How an inner solve stopped (R205). -/
inductive StopCause where
  /-- the residual tests passed -/
  | converged
  /-- the inner cap was reached -/
  | cap
  /-- the deadline rule -/
  | deadline
  /-- breakdown of the method (R203) -/
  | breakdown
deriving DecidableEq, Repr

/-- Which preconditioner factor an outer step used (R202). -/
inductive FactorUse where
  /-- a factor built in the step -/
  | new
  /-- the kept factor -/
  | kept
  /-- Jacobi, for want of a kept factor -/
  | jacobi
deriving DecidableEq, Repr

/-- What a lane does next while a phase runs (R196, R197). No result depends on it. -/
inductive LaneTurn where
  /-- lane `l` finishes the row it computes, if any, and takes the next -/
  | finish (l : Nat)
  /-- lane `l` becomes a cinder and loses its rows -/
  | lost (l : Nat)
deriving DecidableEq, Repr

/-- How long the lanes took over one outer step of a job (R202, R205, R211), ns. What they compute follows from the
job's data alone (R197). -/
structure StepTiming where
  /-- formation and factorisation -/
  prep  : Nat
  /-- each inner iteration; 0 past the end of the list -/
  iters : List Nat
  /-- formation and each iteration of the re-run of R192 -/
  again : List Nat
  /-- the order in which lanes took tile rows in the phases of the step -/
  turns : List LaneTurn
deriving DecidableEq, Repr

/-- How long a job took: from its issue to its first step, its outer steps, and the outer step of its thermal stage. -/
structure JobTiming where
  /-- issue to the first step, ns -/
  wait  : Nat
  /-- outer steps, first step first; a step past the end takes no time -/
  steps : List StepTiming
  /-- the thermal stage -/
  therm : StepTiming
deriving DecidableEq, Repr

/-- A preconditioner factor of one diagonal tile (R194 FLAGS.FACTOR, R201): its scale, rows with L below and U or Lᵀ
above the diagonal, and the reciprocals of its pivots; `jacobi`: its Jacobi entries stand in for it. -/
structure FactorTile where
  /-- TROW and TCOL -/
  trow   : Nat
  /-- SCALE -/
  scale  : Int
  /-- raw values by local row -/
  rows   : List (List Int)
  /-- reciprocals of the pivots, raw -/
  recips : List Int
  /-- a breakdown replaced the factor by its Jacobi entries -/
  jacobi : Bool
deriving DecidableEq, Repr

/-- A complete preconditioner factor (R201, R202) and the structure it was built for. -/
structure Factor where
  /-- PRECOND: 1 Jacobi, 2 block-Jacobi, 3 IC(0) -/
  precond : Nat
  /-- open branches it was built for -/
  open'   : List Bool
  /-- the diagonal tiles -/
  tiles   : List FactorTile
deriving DecidableEq, Repr

/-- One full read of a temperature converter (R262): the 24 bytes of the first read and of its repeat. -/
structure TbusRead where
  /-- bytes of the read -/
  first  : Bytes
  /-- bytes of the repeat after a bad CRC (R263) -/
  second : Bytes
deriving DecidableEq, Repr

/-- A ring frame as NB's forwarding sees it (R295 to R297). -/
structure HsrFrame where
  /-- source MAC -/
  src     : BitVec 48
  /-- HSR sequence number -/
  seq     : W16
  /-- an HSR supervision frame -/
  supervision : Bool
  /-- VLAN-tagged: forwarded unchanged, never consumed -/
  vlan    : Bool
  /-- the FCS is correct -/
  fcsOk   : Bool
  /-- a PTP event message with its domainNumber and whether it is a Sync (R326) -/
  ptp     : Option (Nat × Bool)
  /-- residence time, egress stamp less ingress stamp, ns -/
  residence : Nat
deriving DecidableEq, Repr

/-- The PTP messages the controller uses (R324). -/
inductive PtpKind where
  /-- Sync; `twoStep` says that a Follow_Up carries the origin timestamp -/
  | sync (twoStep : Bool)
  /-- Follow_Up of a two-step Sync -/
  | followUp
  /-- Delay_Req addressed to a MASTER port -/
  | delayReq
  /-- Delay_Resp to the module's Delay_Req -/
  | delayResp
  /-- Pdelay_Req -/
  | pdelayReq
  /-- Pdelay_Resp -/
  | pdelayResp
  /-- Announce -/
  | announce
deriving DecidableEq, Repr

/-- The fields of a received PTP message that R327 to R336 use. -/
structure PtpMsg where
  /-- message type -/
  kind       : PtpKind
  /-- domainNumber -/
  domain     : Nat
  /-- sequenceId -/
  seq        : W16
  /-- source clock identity -/
  source     : W64
  /-- correctionField, in ns × 2^16 -/
  correction : Int
  /-- originTimestamp, preciseOriginTimestamp or receiveTimestamp, ns -/
  timestamp  : Nat
  /-- a second timestamp: requestReceiptTimestamp of Pdelay_Resp, ns -/
  timestamp2 : Nat
  /-- Announce: grandmaster identity -/
  gmIdentity : W64
  /-- Announce: grandmaster clockClass -/
  gmClass    : Byte
  /-- Announce: grandmaster priority1 -/
  gmPriority1 : Byte
  /-- Announce: grandmaster clockAccuracy and offsetScaledLogVariance, as one number -/
  gmQuality  : Nat
  /-- Announce: grandmaster priority2 -/
  gmPriority2 : Byte
  /-- Announce: stepsRemoved -/
  steps      : Nat
  /-- Announce: currentUtcOffset -/
  utcOffset  : Int
  /-- Announce: currentUtcOffsetValid -/
  utcValid   : Bool
  /-- Announce: leap61 -/
  leap61     : Bool
  /-- Announce: leap59 -/
  leap59     : Bool
  /-- the port's stamp FIFO overflowed and the stamp is lost (R325) -/
  stampLost  : Bool
deriving DecidableEq, Repr

/-- A CAN frame on the bus (R341). -/
structure CanFrame where
  /-- identifier; a base identifier in bits [10:0] -/
  ident : BitVec 29
  /-- extended identifier -/
  ide   : Bool
  /-- FD frame -/
  fdf   : Bool
  /-- bit-rate switch -/
  brs   : Bool
  /-- error-state indicator -/
  esi   : Bool
  /-- remote frame -/
  rtr   : Bool
  /-- DLC field -/
  dlc   : BitVec 4
  /-- data bytes -/
  data  : Bytes
deriving DecidableEq, Repr

/-- How a transmission ended badly (R350). -/
inductive CanTxFault where
  /-- lost arbitration -/
  | arbitration
  /-- met a bus error -/
  | busError
deriving DecidableEq, Repr

/-- A heartbeat of the partner (R439), with the identity fields R442 compares at a join. -/
structure Heartbeat where
  /-- HB_SEQ -/
  seq       : W32
  /-- ROLE code -/
  role      : Nat
  /-- FLAGS.SYNCED -/
  synced    : Bool
  /-- FLAGS.SELF_CHECK -/
  selfCheck : Bool
  /-- FLAGS.HANDOVER -/
  handover  : Bool
  /-- FLAGS.DRILL -/
  drill     : Bool
  /-- SLOT_ID -/
  slot      : Bool
  /-- pair-protocol level -/
  proto     : Nat
  /-- SV feature level, from the link's identification -/
  feature   : Nat
  /-- module serial, from the link's identification -/
  serial    : W64
  /-- life-cycle code, from the link's identification -/
  lc        : Nat
  /-- MAIN_CNT -/
  mainCnt   : W32
  /-- MIRROR_ACK -/
  mirrorAck : Nat
deriving DecidableEq, Repr

/-- A point value carried by a MARK record. -/
structure MirrorPoint where
  /-- point id -/
  id      : Nat
  /-- VALUE -/
  value   : Int
  /-- STIME -/
  stime   : W32
  /-- QUALITY -/
  quality : Byte
  /-- SCALE -/
  scale   : Int
deriving DecidableEq, Repr

/-- The dynamic state of one loop channel as a LOOP record carries it (R165). -/
structure MirrorChannel where
  /-- channel number -/
  channel : Nat
  /-- q, Q16 -/
  q       : Int
  /-- u, Q16 -/
  u       : Int
  /-- the ring of the jerk filter -/
  ring    : List Int
  /-- output -/
  out     : Int
  /-- three-point zone -/
  zone    : Nat
  /-- samples in an on state -/
  onN     : Nat
  /-- samples in an off state -/
  offN    : Nat
  /-- following-error timer, ms -/
  feMs    : Nat
  /-- region in force -/
  region  : Nat
  /-- fault state: 0 none, 1 HOLD, 2 FALLBACK, 3 TRIP -/
  fault   : Nat
deriving DecidableEq, Repr

/-- The contents of a mirror record (R444). -/
inductive MirrorBody where
  /-- MARK: class, cycle counter, stamp, snapshot vector (station, SEQ) and points by value -/
  | mark (cls : PClass) (cycleCnt : W32) (stamp : Nat) (vector : List (Nat × Nat)) (points : List MirrorPoint)
  /-- COMMAND: opcode, accepted request, and the instant that the active fixed for its effect, device time in ns; 0 where
  the effect has no instant of its own (R48, R59, R220) -/
  | command (opcode : Nat) (req : Req) (instant : Nat)
  /-- SCALE: S of R113 for the next outer step -/
  | scale (s : Nat)
  /-- STOP: the stop record of an outer step (R210): job kind and step -/
  | stop (kind step iterations : Nat) (cause : StopCause) (factor : FactorUse) (retry : Bool)
  /-- the end of a job whose steps have been recorded, with the kinds of its records (R210, R240) -/
  | jobEnd (kinds : List Nat)
  /-- OUTPUT: class, cycle counter, output digest and output set -/
  | output (cls : PClass) (cycleCnt : W32) (digest : W64) (datasets : List (Nat × Nat × Bytes))
  /-- LOOP: channel dynamic state with its digest -/
  | loop (digest : W64) (channels : List MirrorChannel)
  /-- RETAIN: retentive digest and plan CRC -/
  | retain (digest : W64) (planCrc : W32)
  /-- PLAN: T0 of the installed plan -/
  | plan (t0 : Nat)
  /-- TOTALS: every total, in block order (R276) -/
  | totals (sets : List (List Nat)) (heat : List (List Nat))
  /-- HANDOVER (R453) -/
  | handover
  /-- the answer to a snapshot fill request (R445): station, SEQ and entries (local index, record) -/
  | fill (station : Nat) (seq : Nat) (points : List MirrorPoint)
deriving DecidableEq, Repr

/-- A plan (R241). -/
structure Plan where
  /-- T0, device time in ns -/
  t0       : Nat
  /-- STEP_S -/
  stepS    : Nat
  /-- HORIZON -/
  horizon  : Nat
  /-- values by trajectory, then plan step, raw -/
  values   : List (List Int)
  /-- scale of each trajectory's x -/
  scales   : List Int
  /-- OUT_POINT of each trajectory -/
  outs     : List Nat
  /-- the plan carries ESTIMATED (R229) -/
  estimated : Bool
  /-- CRC-32C of the plan (R240) -/
  crc      : W32
deriving DecidableEq, Repr

/-- The last accepted solution of the network job (R212), by identifiers, so that it maps onto another model (R213). -/
structure Solution where
  /-- pressures by NODE_ID, raw -/
  p       : FMap Int
  /-- flows by BRANCH_ID, raw -/
  q       : FMap Int
  /-- node temperatures by NODE_ID, raw -/
  tn      : FMap Int
  /-- segment temperatures by 16 × BRANCH_ID + segment, raw -/
  ts      : FMap Int
  /-- the structure: open branches at the solution, by branch index -/
  open'   : List Bool
  /-- model it belongs to -/
  modelCrc : W32
  /-- stamp of the cycle -/
  stamp   : Nat
deriving DecidableEq, Repr

/-- What a join copies from the active (R443 steps 3 and 4) and how its last step went. -/
structure JoinCopy where
  /-- the loaded program image, if the active has one -/
  image     : Option Bytes
  /-- the loaded network model -/
  model     : Option Bytes
  /-- the loaded measurement table -/
  table     : Option Bytes
  /-- the loaded problem image -/
  problem   : Option Bytes
  /-- the metering parameter block -/
  params    : Option Bytes
  /-- the active's settings working copy (opcode, payload) -/
  settings  : List (Nat × Bytes)
  /-- number of the last mirror record before the state was copied -/
  seq       : Nat
  /-- point records written by programs -/
  points    : List MirrorPoint
  /-- instance-state read buffers: instance id, state words, FRESH mark (R135) -/
  states    : List (Nat × List W64 × Bool)
  /-- force table: point id, short time, value -/
  forces    : List (Nat × W32 × Int)
  /-- latched trip groups, bit g-1 -/
  trips     : W16
  /-- loop channel state -/
  channels  : List MirrorChannel
  /-- the plan in force -/
  plan      : Option Plan
  /-- the last accepted solution of the Main job -/
  solution  : Option Solution
  /-- the last accepted solution of a job of KIND 2 -/
  thermSol  : Option Solution
  /-- the last accepted solution of a job of KIND 0 -/
  linSol    : Option Solution
  /-- the kept hydraulic factor -/
  keptHyd   : Option Factor
  /-- the kept thermal factor -/
  keptTherm : Option Factor
  /-- the last accepted x of the problem -/
  lastX     : Option (List Int)
  /-- totals of the four sets -/
  totSets   : List (List Nat)
  /-- totals of the heat channels -/
  totHeat   : List (List Nat)
  /-- residues of the sets -/
  resSets   : List (List Nat)
  /-- residues of the heat channels -/
  resHeat   : List (List Nat)
  /-- the digests of step 6 matched -/
  digestsOk : Bool
  /-- duration of the join or resync, ms -/
  syncMs    : Nat
deriving DecidableEq, Repr

/-- The outcome of the mismatch self-check on this module (R450): the check that failed, or none. -/
inductive SelfCheck where
  /-- no fault found -/
  | clean
  /-- check 1 to 5 of R450 found a fault -/
  | fault (check : Nat)
deriving DecidableEq, Repr

/-- The drill's path check (R457). -/
inductive PathCheck where
  /-- every path passed -/
  | passed
  /-- a path failed: 1 ring, 2 CAN, 3 TRIP_OUT, with its index -/
  | failed (path : Nat) (index : Nat)
deriving DecidableEq, Repr

/-- A DRAM or MRAM error (R458 rows 1 to 4). -/
inductive MemErr where
  /-- corrected: one die, or one symbol -/
  | corrected
  /-- detected and not correctable -/
  | uncorrectable
deriving DecidableEq, Repr

/-- The place of an MRAM error: a retentive half, a settings copy, a recorder slot, a totals block, the panel ledger, or a
location whose other copy serves. -/
inductive MramPlace where
  /-- retentive half 0 or 1 -/
  | half (n : Fin 2)
  /-- settings copy 0 or 1 -/
  | settings (n : Fin 2)
  /-- recorder slot -/
  | record (slot : Nat)
  /-- totals block location -/
  | totals (place : Nat)
  /-- a region of the panel ledger -/
  | ledger
  /-- any other location: the other copy serves -/
  | other
deriving DecidableEq, Repr

/-- What the self-test finds (R473). -/
structure BistObs where
  /-- failing groups, bit n = group n -/
  failed : BitVec 12
  /-- bricks that a group marked *brick* names as failing -/
  bricks : List BrickId
  /-- duration, ms -/
  ms     : Nat
deriving DecidableEq, Repr

/-- What a boot observes of the outside and of the die: the self-test (R473) and the loader's checks (R555). -/
structure BootObs where
  /-- the self-test of step 8 of R412 -/
  bist      : BistObs
  /-- the running slot passes the checks of R555 -/
  runningOk : Bool
  /-- the other slot passes the checks of R555 -/
  otherOk   : Bool
deriving DecidableEq, Repr

/-- The result of one loopback as measured (R471). -/
structure LoopResult where
  /-- frames sent -/
  sent       : Nat
  /-- frames received -/
  received   : Nat
  /-- frames received with errors -/
  errors     : Nat
  /-- longest latency, ns -/
  maxLatency : Nat
  /-- the loop ended at a frame that did not return within 10 ms -/
  noReturn   : Bool
deriving DecidableEq, Repr

/-- The steps of spec/opcode_table.json, one constructor per row (LAWS.json maps each to its mnemonic). -/
inductive Instr where
  /-- CMD_ECHO (R408) -/
  | cmdEcho (r : Req)
  /-- CMD_DEVICE_INFO (R408) -/
  | cmdDeviceInfo (r : Req)
  /-- CMD_REG_READ (R408) -/
  | cmdRegRead (r : Req)
  /-- CMD_REG_WRITE (R408) -/
  | cmdRegWrite (r : Req)
  /-- CMD_EVENT_READ (R408) -/
  | cmdEventRead (r : Req)
  /-- CMD_EVENT_CLEAR (R408) -/
  | cmdEventClear (r : Req)
  /-- CMD_RESTART (R430) -/
  | cmdRestart (r : Req)
  /-- CMD_MAIN_POWER (R431) -/
  | cmdMainPower (r : Req)
  /-- CMD_SETTINGS_STORE (R424) -/
  | cmdSettingsStore (r : Req) (readBackOk : Bool)
  /-- CMD_SETTINGS_READ (R432) -/
  | cmdSettingsRead (r : Req)
  /-- CMD_RESTART_POLICY (R433) -/
  | cmdRestartPolicy (r : Req)
  /-- CMD_CLASS_CONFIG (R62) -/
  | cmdClassConfig (r : Req)
  /-- CMD_CLASS_STATUS (R63) -/
  | cmdClassStatus (r : Req)
  /-- CMD_CLASS_RESTART (R64) -/
  | cmdClassRestart (r : Req)
  /-- CMD_CLASS_HALT (R97) -/
  | cmdClassHalt (r : Req)
  /-- CMD_PROG_LOAD (R65) -/
  | cmdProgLoad (r : Req)
  /-- CMD_PROG_SWITCH (R66) -/
  | cmdProgSwitch (r : Req)
  /-- PROG_SWITCH_INSTANT (R59) -/
  | progSwitchInstant (cls : PClass)
  /-- CMD_ENGINE_STATUS (R98) -/
  | cmdEngineStatus (r : Req)
  /-- CMD_BUDGET_CONFIG (R116) -/
  | cmdBudgetConfig (r : Req)
  /-- CMD_BUDGET_STATUS (R117) -/
  | cmdBudgetStatus (r : Req)
  /-- CMD_POINT_READ (R67) -/
  | cmdPointRead (r : Req)
  /-- CMD_FORCE_SET (R68) -/
  | cmdForceSet (r : Req)
  /-- CMD_FORCE_CLEAR (R68) -/
  | cmdForceClear (r : Req)
  /-- FORCE_EFFECT (R48) -/
  | forceEffect
  /-- CMD_FORCE_LIST (R69) -/
  | cmdForceList (r : Req)
  /-- CMD_HIST_CONFIG (R56) -/
  | cmdHistConfig (r : Req)
  /-- CMD_HIST_READ (R57) -/
  | cmdHistRead (r : Req)
  /-- CMD_HIST_STATUS (R58) -/
  | cmdHistStatus (r : Req)
  /-- CMD_LOOP_CONFIG (R169) -/
  | cmdLoopConfig (r : Req)
  /-- CMD_LOOP_READ (R170) -/
  | cmdLoopRead (r : Req)
  /-- CMD_LOOP_ENABLE (R171) -/
  | cmdLoopEnable (r : Req)
  /-- CMD_LOOP_ACK (R172) -/
  | cmdLoopAck (r : Req)
  /-- CMD_LOOP_STATUS (R173) -/
  | cmdLoopStatus (r : Req)
  /-- CMD_MODEL_LOAD (R219) -/
  | cmdModelLoad (r : Req)
  /-- CMD_MODEL_SWITCH (R220) -/
  | cmdModelSwitch (r : Req)
  /-- MODEL_SWITCH_EFFECT (R220) -/
  | modelSwitchEffect
  /-- CMD_SOLVER_CONFIG (R221) -/
  | cmdSolverConfig (r : Req)
  /-- CMD_SOLVER_RUN (R222) -/
  | cmdSolverRun (r : Req)
  /-- CMD_SOLVER_STATUS (R223) -/
  | cmdSolverStatus (r : Req)
  /-- CMD_SOLVER_ABORT (R224) -/
  | cmdSolverAbort (r : Req)
  /-- CMD_OPT_PROBLEM_LOAD (R251) -/
  | cmdOptProblemLoad (r : Req)
  /-- CMD_OPT_PROBLEM_SWITCH (R251) -/
  | cmdOptProblemSwitch (r : Req)
  /-- PROBLEM_SWITCH_EFFECT (R251) -/
  | problemSwitchEffect
  /-- CMD_OPT_CONFIG (R252) -/
  | cmdOptConfig (r : Req)
  /-- CMD_OPT_STATUS (R253) -/
  | cmdOptStatus (r : Req)
  /-- CMD_PLAN_READ (R254) -/
  | cmdPlanRead (r : Req)
  /-- CMD_EST_LOAD (R255) -/
  | cmdEstLoad (r : Req)
  /-- CMD_EST_CONFIG (R252) -/
  | cmdEstConfig (r : Req)
  /-- CMD_EST_RUN (R256) -/
  | cmdEstRun (r : Req)
  /-- CMD_EST_STATUS (R256) -/
  | cmdEstStatus (r : Req)
  /-- CMD_MTR_PARAM_LOAD (R293) -/
  | cmdMtrParamLoad (r : Req)
  /-- CMD_MTR_PARAM_SWITCH (R284) -/
  | cmdMtrParamSwitch (r : Req)
  /-- MTR_PARAM_EFFECT (R284) -/
  | mtrParamEffect
  /-- CMD_MTR_PARAM_READ (R293) -/
  | cmdMtrParamRead (r : Req)
  /-- CMD_MTR_TOTALS (R293) -/
  | cmdMtrTotals (r : Req)
  /-- CMD_MTR_INTERVALS (R293) -/
  | cmdMtrIntervals (r : Req)
  /-- CMD_MTR_ENABLE (R286) -/
  | cmdMtrEnable (r : Req)
  /-- CMD_MTR_ADOPT (R290) -/
  | cmdMtrAdopt (r : Req)
  /-- CMD_RING_CONFIG (R321) -/
  | cmdRingConfig (r : Req)
  /-- CMD_STATION_CONFIG (R321) -/
  | cmdStationConfig (r : Req)
  /-- CMD_DATASET_CONFIG (R321) -/
  | cmdDatasetConfig (r : Req)
  /-- CMD_LOOP_ROUTE (R321) -/
  | cmdLoopRoute (r : Req)
  /-- CMD_TRIP_CONFIG (R321) -/
  | cmdTripConfig (r : Req)
  /-- CMD_TRIP_RESET (R316) -/
  | cmdTripReset (r : Req)
  /-- CMD_RING_STATUS (R321) -/
  | cmdRingStatus (r : Req)
  /-- CMD_STATION_STATUS (R321) -/
  | cmdStationStatus (r : Req)
  /-- MAIN_BOUNDARY_CONFIG_APPLY (R317) -/
  | mainBoundaryConfigApply
  /-- CMD_TIME_CONFIG (R340) -/
  | cmdTimeConfig (r : Req)
  /-- CMD_TIME_PORT (R340) -/
  | cmdTimePort (r : Req)
  /-- CMD_TIME_SELECT (R340) -/
  | cmdTimeSelect (r : Req)
  /-- CMD_TIME_STATUS (R340) -/
  | cmdTimeStatus (r : Req)
  /-- CMD_TIME_SET (R334) -/
  | cmdTimeSet (r : Req)
  /-- CMD_CAN_CONFIG (R362) -/
  | cmdCanConfig (r : Req)
  /-- CMD_CAN_BUFFER (R362) -/
  | cmdCanBuffer (r : Req)
  /-- CMD_CAN_CANCEL (R352) -/
  | cmdCanCancel (r : Req)
  /-- CMD_CAN_RECOVER (R353) -/
  | cmdCanRecover (r : Req)
  /-- CMD_CAN_STATUS (R362) -/
  | cmdCanStatus (r : Req)
  /-- CMD_PAIR_STATUS (R462) -/
  | cmdPairStatus (r : Req)
  /-- CMD_PAIR_CONFIG (R463) -/
  | cmdPairConfig (r : Req)
  /-- CMD_SWITCHOVER (R464) -/
  | cmdSwitchover (r : Req)
  /-- CMD_DRILL (R464) -/
  | cmdDrill (r : Req)
  /-- CMD_PAIR_RESYNC (R465) -/
  | cmdPairResync (r : Req)
  /-- CMD_FAULT_STATUS (R466) -/
  | cmdFaultStatus (r : Req)
  /-- CMD_REC_READ (R498) -/
  | cmdRecRead (r : Req)
  /-- CMD_REC_CURSOR (R498) -/
  | cmdRecCursor (r : Req)
  /-- CMD_REC_CLEAR (R496) -/
  | cmdRecClear (r : Req)
  /-- REC_CLEAR_DONE (R496) -/
  | recClearDone
  /-- CMD_RTC_READ (R498) -/
  | cmdRtcRead (r : Req)
  /-- CMD_RTC_SET (R498) -/
  | cmdRtcSet (r : Req)
  /-- CMD_RTC_ADJUST (R498) -/
  | cmdRtcAdjust (r : Req)
  /-- CMD_RTC_ALARM (R498) -/
  | cmdRtcAlarm (r : Req)
  /-- CMD_PNL_CONFIG (R517) -/
  | cmdPnlConfig (r : Req)
  /-- CMD_PNL_WRITE (R517) -/
  | cmdPnlWrite (r : Req)
  /-- CMD_PNL_UPDATE (R510) -/
  | cmdPnlUpdate (r : Req)
  /-- CMD_PNL_STATUS (R517) -/
  | cmdPnlStatus (r : Req)
  /-- CMD_KEY_UPDATE (R533) -/
  | cmdKeyUpdate (r : Req)
  /-- CMD_KEY_STATUS (R538) -/
  | cmdKeyStatus (r : Req)
  /-- CMD_IDENTITY (R538) -/
  | cmdIdentity (r : Req)
  /-- CMD_LC_CHANGE (R522) -/
  | cmdLcChange (r : Req)
  /-- CMD_FWU_OPEN (R543) -/
  | cmdFwuOpen (r : Req)
  /-- CMD_FWU_DATA (R545) -/
  | cmdFwuData (r : Req)
  /-- CMD_FWU_VERIFY (R546) -/
  | cmdFwuVerify (r : Req)
  /-- CMD_FWU_ACTIVATE (R548) -/
  | cmdFwuActivate (r : Req)
  /-- FWU_LIVE_ACTIVATION (R549) -/
  | fwuLiveActivation (pauseUs : Nat)
  /-- CMD_FWU_CONFIRM (R554) -/
  | cmdFwuConfirm (r : Req)
  /-- CMD_FWU_CLOSE (R558) -/
  | cmdFwuClose (r : Req)
  /-- CMD_FWU_STATUS (R558) -/
  | cmdFwuStatus (r : Req)
  /-- FWU_BUILD_RESUME (R547) -/
  | fwuBuildResume
  /-- FWU_TRIAL_TIMEOUT (R553) -/
  | fwuTrialTimeout
  /-- CMD_TEST_ENTER (R475) -/
  | cmdTestEnter (r : Req)
  /-- CMD_TEST_EXIT (R475) -/
  | cmdTestExit (r : Req)
  /-- CMD_LOOPBACK (R471) -/
  | cmdLoopback (r : Req)
  /-- LOOPBACK_END (R471) -/
  | loopbackEnd (res : LoopResult)
  /-- CMD_BIST_RUN (R474); `obs` is what SET 1 finds -/
  | cmdBistRun (r : Req) (obs : BistObs)
  /-- CMD_BIST_STATUS (R477) -/
  | cmdBistStatus (r : Req)
  /-- HIF_DOORBELL (R391) -/
  | hifDoorbell (val : W32)
  /-- FRAG_WRITE (R402) -/
  | fragWrite (flags : Byte) (offset : W16) (data : Bytes) (pecOk : Bool)
  /-- FRAG_READ (R401) -/
  | fragRead (offset : W16) (pecOk : Bool)
  /-- SB_STATUS (R403) -/
  | sbStatus
  /-- SBM_REASSEMBLY_TIMEOUT (R402) -/
  | sbmReassemblyTimeout
  /-- ALERT_RESPONSE_READ (R383) -/
  | alertResponseRead
  /-- HOST_LINK_DOWN (R394) -/
  | hostLinkDown (kind : LinkDownKind)
  /-- HOST_LINK_UP (R384) -/
  | hostLinkUp
  /-- BAR2_ACCESS (R389) -/
  | bar2Access (write : Bool) (offset : Nat) (be : BitVec 4) (val : W32)
  /-- REGISTER_WRITE (R366): consecutive doublewords from `offset`, each with its byte enables and value -/
  | registerWrite (port : Port) (offset : W16) (dws : List (BitVec 4 × W32))
  /-- POSTED_WRITE_APPLIED (R366) -/
  | postedWriteApplied (base : W16)
  /-- READ_CLEAR_REGISTER (R5) -/
  | readClearRegister (port : Port) (offset : W16) (be : BitVec 4)
  /-- LATCHING_LO_READ (R371) -/
  | latchingLoRead (port : Port) (offset : W16) (be : BitVec 4)
  /-- PTP_TIME_LO_READ (R339) -/
  | ptpTimeLoRead (port : Port)
  /-- RTC_T0_READ (R488) -/
  | rtcT0Read (port : Port)
  /-- RTC_T1_READ (R488) -/
  | rtcT1Read (port : Port)
  /-- RTC_FREEZE_TIMEOUT (R488) -/
  | rtcFreezeTimeout (port : Port)
  /-- RTC_APPLY_SET (R489) -/
  | rtcApplySet (port : Port) (val : W32)
  /-- RTC_FLAGS_CLEAR (R480) -/
  | rtcFlagsClear (port : Port) (val : W32)
  /-- REC_SEEK (R495) -/
  | recSeek (port : Port) (val : W32)
  /-- REC_DATA0_READ (R495) -/
  | recData0Read (port : Port)
  /-- REC_DATA15_READ (R495) -/
  | recData15Read (port : Port)
  /-- SIG_EN_CLEAR (R376) -/
  | sigEnClear (port : Port) (val : W32)
  /-- SIG_EN_SET (R376) -/
  | sigEnSet (port : Port) (val : W32)
  /-- EVT_MSG_EN_SET (R382) -/
  | evtMsgEnSet (port : Port) (val : W32)
  /-- LOCK_BIT_SET (R372) -/
  | lockBitSet (port : Port) (offset : W16) (val : W32)
  /-- EVT_PEND_CLEAR (R382) -/
  | evtPendClear (port : Port) (n : Fin 8) (val : W32)
  /-- HIF_CMPL_CLEAR (R391) -/
  | hifCmplClear (port : Port) (hi : Bool) (val : W32)
  /-- EVT_ROUTE_WRITE (R382) -/
  | evtRouteWrite (port : Port) (n : Fin 256) (val : W32)
  /-- LOOP_CTRL_RUN (R168) -/
  | loopCtrlRun (port : Port) (val : W32)
  /-- SOL_CTRL_ENABLE (R217) -/
  | solCtrlEnable (port : Port) (val : W32)
  /-- RING_CTRL_ENABLE (R320) -/
  | ringCtrlEnable (port : Port) (val : W32)
  /-- RING_ETYPE_WRITE (R320) -/
  | ringEtypeWrite (port : Port) (val : W32)
  /-- PTP_CTRL_WRITE (R332) -/
  | ptpCtrlWrite (port : Port) (val : W32)
  /-- CAN_MODE_WRITE (R359) -/
  | canModeWrite (port : Port) (n : Fin 4) (val : W32)
  /-- CAN_BIT_TIMING_WRITE (R355) -/
  | canBitTimingWrite (port : Port) (n : Fin 4) (data : Bool) (val : W32)
  /-- CAN_TXREQ (R349) -/
  | canTxreq (port : Port) (n : Fin 4) (hi : Bool) (val : W32)
  /-- CAN_CANCEL (R352) -/
  | canCancel (port : Port) (n : Fin 4) (hi : Bool) (val : W32)
  /-- CAN_ND_CLEAR (R346) -/
  | canNdClear (port : Port) (n : Fin 4) (hi : Bool) (val : W32)
  /-- PAIR_CTRL_WRITE (R461) -/
  | pairCtrlWrite (port : Port) (val : W32)
  /-- PNL_CTRL_ENABLE (R511) -/
  | pnlCtrlEnable (port : Port) (val : W32)
  /-- BGT_CONFIG_WRITE (R115) -/
  | bgtConfigWrite (port : Port) (offset : W16) (val : W32)
  /-- EVT_HOLDOFF_EXPIRY (R382) -/
  | evtHoldoffExpiry (vector : Fin 32)
  /-- REC_WRITE (R491) -/
  | recWrite
  /-- SIGNATURE_SWEEP (R375) -/
  | signatureSweep (upsets : List (W16 × W32))
  /-- MORTAR_PACKET (R11) -/
  | mortarPacket (pkt : MortarPacket)
  /-- HANDSHAKE_WATCHDOG (R16) -/
  | handshakeWatchdog (b : BrickId)
  /-- CLOCK_PRESENCE_EXPIRY (R16) -/
  | clockPresenceExpiry (b : BrickId)
  /-- TRANSITION_TIMER_EXPIRY (R17) -/
  | transitionTimerExpiry (b : BrickId)
  /-- BRICK_BANK (R102) -/
  | brickBank (b : BrickId)
  /-- BRICK_WAKE (R102) -/
  | brickWake (b : BrickId)
  /-- TRANSITION_COMPLETE (R101) -/
  | transitionComplete (t : SwitchTiming)
  /-- CLASS_PERIOD_START (R32) -/
  | classPeriodStart (cls : PClass)
  /-- MARK_ACK (R22) -/
  | markAck (cls : PClass) (b : BrickId)
  /-- SNAPSHOT_TIMEOUT (R22) -/
  | snapshotTimeout (cls : PClass)
  /-- FEEDER_PUSH (R77) -/
  | feederPush
  /-- ENGINE_WAKE (R81) -/
  | engineWake (e : EngineId)
  /-- STEAL_REQUEST (R80) -/
  | stealRequest (thief : EngineId) (victim : Fin 16) (cls : Fin 5)
  /-- STEAL_GRANT (R80) -/
  | stealGrant (thief : EngineId)
  /-- UNIT_COMPLETE (R71) -/
  | unitComplete (e : EngineId) (obs : RunObs)
  /-- RESULT_HASH (R89) -/
  | resultHash (e : EngineId)
  /-- STAGING_COPY_DONE (R89) -/
  | stagingCopyDone (cls : PClass) (unit : Nat)
  /-- ENGINE_HUNG (R74) -/
  | engineHung (e : EngineId)
  /-- ENGINE_CHECK (R92) -/
  | engineCheck (e : EngineId)
  /-- CYCLE_DEADLINE (R41) -/
  | cycleDeadline (cls : PClass)
  /-- CYCLE_ABANDON (R43) -/
  | cycleAbandon (cls : PClass)
  /-- CLASS_UNITS_STOPPED (R96) -/
  | classUnitsStopped (cls : PClass)
  /-- GOVERNOR_TICK (R107) -/
  | governorTick (baseCharge : Nat)
  /-- TEMP_SAMPLE (R106) -/
  | tempSample (t4 : Int)
  /-- SLOW_FORCED (R111) -/
  | slowForced
  /-- SOLVER_JOB_RETURN (R209) -/
  | solverJobReturn (host : Bool) (t : JobTiming)
  /-- FACTOR_LIMIT (R202) -/
  | factorLimit
  /-- OPT_JOB_ISSUE (R238) -/
  | optJobIssue
  /-- OPT_JOB_RETURN (R244) -/
  | optJobReturn (t : JobTiming)
  /-- EST_RUN_START (R249) -/
  | estRunStart
  /-- EST_RUN_RETURN (R250) -/
  | estRunReturn (t : JobTiming)
  /-- RETAIN_WRITE_DONE (R420) -/
  | retainWriteDone
  /-- LOOP_MS_TICK (R150) -/
  | loopMsTick (evalUs : Nat) (left : Nat)
  /-- LOOP_FE_EXPIRY (R162) -/
  | loopFeExpiry (ch : Fin 2048)
  /-- MSP_FRAME (R259) -/
  | mspFrame (n : Fin 4) (slots : List W32)
  /-- METER_PORT_LOSS (R260) -/
  | meterPortLoss (n : Fin 4)
  /-- ZC_TIMEOUT (R272) -/
  | zcTimeout (n : Fin 4)
  /-- PULSE_EDGE (R261): an accepted rising edge, with the levels of the sixteen inputs at the edge (R273) -/
  | pulseEdge (n : Fin 16) (levels : W16)
  /-- TBUS_READ (R262) -/
  | tbusRead (reads : List TbusRead)
  /-- HEAT_STEP (R273) -/
  | heatStep
  /-- TOTALS_SAVE (R280) -/
  | totalsSave
  /-- INTERVAL_CLOSE (R277) -/
  | intervalClose
  /-- INPUT_DATASET (R307) -/
  | inputDataset (ring : Fin 4) (knama : Bytes)
  /-- TRIP_REQ (R314) -/
  | tripReq (ring : Fin 4) (knama : Bytes)
  /-- HSR_FRAME_FORWARD (R297) -/
  | hsrFrameForward (port : Fin 8) (frame : HsrFrame)
  /-- LINK_CHECK_SEND (R299) -/
  | linkCheckSend (port : Fin 8)
  /-- LINK_CHECK_RECEIVE (R299) -/
  | linkCheckReceive (port : Fin 8)
  /-- LINK_ECHO (R300) -/
  | linkEcho (port : Fin 8)
  /-- PORT_LINK_LOSS (R299) -/
  | portLinkLoss (port : Fin 8)
  /-- SUPERVISION_FRAME_SEND (R297) -/
  | supervisionFrameSend (port : Fin 8)
  /-- NODE_FORGOTTEN (R297) -/
  | nodeForgotten (ring : Fin 4) (src : BitVec 48)
  /-- DUPLICATE_ENTRY_EXPIRY (R296) -/
  | duplicateEntryExpiry (ring : Fin 4) (src : BitVec 48)
  /-- STATION_ABSENT (R309) -/
  | stationAbsent (station : BitVec 12)
  /-- PTP_MESSAGE (R330) -/
  | ptpMessage (port : Fin 8) (msg : PtpMsg)
  /-- SYNC_SEND (R327) -/
  | syncSend (d : Fin 2) (port : Fin 8)
  /-- ANNOUNCE_SEND (R327) -/
  | announceSend (d : Fin 2) (port : Fin 8)
  /-- PPS_EDGE (R329) -/
  | ppsEdge
  /-- TOD_MESSAGE (R329) -/
  | todMessage (msg : Bytes)
  /-- DOMAIN_HOLDOVER (R331) -/
  | domainHoldover (d : Fin 2)
  /-- DEVICE_TIME_UPDATE (R333) -/
  | deviceTimeUpdate
  /-- DOMAIN_REVERT (R332) -/
  | domainRevert
  /-- CAN_FRAME_RECEIVE (R345) -/
  | canFrameReceive (n : Fin 4) (frame : CanFrame)
  /-- CAN_TX_COMPLETE (R350) -/
  | canTxComplete (n : Fin 4)
  /-- CAN_TX_ERROR (R350) -/
  | canTxError (n : Fin 4) (kind : CanTxFault)
  /-- CAN_BUS_ON (R353) -/
  | canBusOn (n : Fin 4)
  /-- CAN_INTEGRATE (R343) -/
  | canIntegrate (n : Fin 4)
  /-- CAN_RX_TIMEOUT (R355) -/
  | canRxTimeout (n : Fin 4) (buf : Fin 65)
  /-- CAN_CHECK (R358) -/
  | canCheck (n : Fin 4) (ok : Bool) (missed : Nat)
  /-- HEARTBEAT_SEND (R439) -/
  | heartbeatSend
  /-- HEARTBEAT_RECEIVE (R439) -/
  | heartbeatReceive (hb : Heartbeat)
  /-- HEARTBEAT_LOST (R441) -/
  | heartbeatLost
  /-- ACTIVE_N_CHECK (R441) -/
  | activeNCheck
  /-- TAKE_UP_CONTROL (R452) -/
  | takeUpControl
  /-- PAIR_LINK_DOWN (R438) -/
  | pairLinkDown
  /-- PAIR_LANE_LOSS (R438) -/
  | pairLaneLoss (lane : Fin 2)
  /-- MIRROR_RECORD (R444) -/
  | mirrorRecord (seq : Nat) (body : MirrorBody)
  /-- SNAPSHOT_FILL_REQUEST (R445) -/
  | snapshotFillRequest (station : BitVec 12) (seq : Nat)
  /-- SNAPSHOT_FILL_TIMEOUT (R445) -/
  | snapshotFillTimeout (cls : PClass)
  /-- SELF_CHECK_DONE (R450) -/
  | selfCheckDone (res : SelfCheck)
  /-- SLOT1_CLAIM_TIMEOUT (R436) -/
  | slot1ClaimTimeout
  /-- PARTNER_PRESENT_CHANGE (R459) -/
  | partnerPresentChange (present : Bool)
  /-- JOIN (R443) -/
  | join (copy : JoinCopy)
  /-- ROLE_EXCHANGE (R453) -/
  | roleExchange (gapUs : Nat)
  /-- DRILL_START (R456) -/
  | drillStart
  /-- DRILL_CHECK_DONE (R457) -/
  | drillCheckDone (res : PathCheck) (checkMs : Nat)
  /-- DRILL_AGE_HOUR (R456) -/
  | drillAgeHour
  /-- DRAM_ERROR (R458) -/
  | dramError (kind : MemErr)
  /-- MRAM_ERROR (R458) -/
  | mramError (kind : MemErr) (place : MramPlace)
  /-- LOCKSTEP_DISAGREEMENT (R458) -/
  | lockstepDisagreement
  /-- VSTBY_APPLIED (R412) -/
  | vstbyApplied (slotId : Bool) (sba : BitVec 3)
  /-- BACKUP_POWER_UP (R479) -/
  | backupPowerUp
  /-- RAIL_SEQUENCE (R411) -/
  | railSequence
  /-- RAIL_FAULT (R411) -/
  | railFault (rail : Fin 8)
  /-- RAIL_RETRY (R411) -/
  | railRetry
  /-- VIN_OVERVOLTAGE (R567) -/
  | vinOvervoltage
  /-- BOOT_COMPLETE (R412) -/
  | bootComplete (obs : BootObs)
  /-- MAIN_WATCHDOG (R413) -/
  | mainWatchdog
  /-- RST_N_ASSERT (R410) -/
  | rstNAssert (lowNs : Nat)
  /-- RST_N_RELEASE (R571) -/
  | rstNRelease
  /-- PFW_FALL (R429) -/
  | pfwFall
  /-- PFW_RISE (R429) -/
  | pfwRise
  /-- VBAT_SWITCH (R480) -/
  | vbatSwitch
  /-- VBAT_MEASURE (R480) -/
  | vbatMeasure (millivolt : Nat)
  /-- OSC_STOP_DETECT (R479) -/
  | oscStopDetect
  /-- RTC_SECOND (R483) -/
  | rtcSecond
  /-- RTC_ALARM (R486) -/
  | rtcAlarm (n : Fin 4)
  /-- PNL_FRAME (R502) -/
  | pnlFrame
  /-- PNL_BIAS_CHECK (R501) -/
  | pnlBiasCheck (outOfLimits : List (Fin 8))
  /-- PNL_BIAS_RETRY (R501) -/
  | pnlBiasRetry (ok : Bool)
  /-- PNL_BIAS_OFF (R501) -/
  | pnlBiasOff
  /-- PNL_CRC_CHECK (R508) -/
  | pnlCrcCheck (upsets : List (Nat × Byte))
  /-- PAIR_LINK_UP (R438) -/
  | pairLinkUp (lane : Fin 2)
  /-- ACTIVE_N_CHANGE (R435) -/
  | activeNChange (low : Bool)
  /-- DELAY_REQ_SEND (R328) -/
  | delayReqSend (d : Fin 2) (port : Fin 8)
  /-- CAN_RX_BUS_ERROR (R353) -/
  | canRxBusError (n : Fin 4)
  /-- OSC_RESTART (R479) -/
  | oscRestart
  /-- TRIAL_SECONDS_WRITE (R553) -/
  | trialSecondsWrite
  /-- MAIN_SIDE_COLD_RESET (R410) -/
  | mainSideColdReset
deriving DecidableEq, Repr

end Sys2Proof
end

