-- ==== Sys2Proof/Config.lean ====
section
/-! DEFINITION. Config.lean: what the manual leaves open or takes from elsewhere, as constants and functions with
no body. No proof can see a value of them, so a claim about them holds for every value. -/

namespace Sys2Proof

/-- Free values: what the manual leaves undefined takes the next one, by index (assumption log entry 2). -/
opaque Config.freeValue : Nat → W64

/-- SHA-384 of a byte string, 48 bytes (named, not defined, by the manual: R396, R518, R540; log entry 5). -/
opaque Config.sha384 : Bytes → Bytes

/-- ECDSA P-384 verification with SHA-384: public key, message, r, s (R395 to R397, R130; log entry 5). -/
opaque Config.ecdsaVerify : Bytes → Bytes → Bytes → Bytes → Bool

/-- AES-256-GCM tag of an empty plaintext: key, IV, additional data (R305, R538; log entry 5). -/
opaque Config.gcmTag : Bytes → Bytes → Bytes → Bytes

/-- AES-256-GCM opening: key, IV, additional data, ciphertext, tag (R531; log entry 5). -/
opaque Config.gcmOpen : Bytes → Bytes → Bytes → Bytes → Bytes → Option Bytes

/-- HKDF-SHA-384: input key, salt, info, length (R531; log entry 5). -/
opaque Config.hkdf : Bytes → Bytes → Bytes → Nat → Bytes

/-- The identity public key that KB generates from the device secret at BLANK to FACTORY, 96 bytes (R518; log entry 5). -/
opaque Config.identityKey : Bytes → Bytes

/-- The water table of the metering component: supply nodes, return nodes and values of table 0 for a meter position,
as tabulated by EN 1434 (R274; log entry 6). -/
opaque Config.waterTable : Nat → List Int × List Int × List (List Int)

/-- What a 32-bit counter of the given register reads after 0xFFFF_FFFF counts and one more: the manual states no
result (log entry 8). -/
opaque Config.counterOverflow : Nat → W32

/-- What follows from an RST_N pulse of more than 1 µs and less than 10 µs: whether the reset is taken (R571; log entry 2). -/
opaque Config.shortReset : Nat → Bool

/-- FORMAT of the settings records that an SV firmware version writes, and the highest it reads (R425, R427; log entry 22). -/
opaque Config.settingsFormat : Nat → Nat

/-- FORMAT of the retentive halves that an SV firmware version writes, and the highest it reads (R421, R427; log entry 22). -/
opaque Config.retainFormat : Nat → Nat

/-- Scale and RMAX of an object of an estimator job, by kind, role and index: no RANGE record has its JOB (R190, R227; log
entry 183). -/
opaque Config.estRange : Nat → Nat → Nat → Int × Nat

/-- Length in bytes of a ring frame whose layout the spec does not give: supervision 0, PTP 1, forwarded 2 and up (R296, R297,
R327; log entry 180). -/
opaque Config.frameLen : Nat → Nat

/-- The header of a component other than the panel tables passes check 9: component number, bytes (R546; log entry 22). -/
opaque Config.componentOk : Nat → Bytes → Bool

/-- Time that the build takes for a block, ns; at most 180 s for a whole release (R546; log entry 2). -/
opaque Config.blockNs : Nat → Nat

end Sys2Proof
end

