-- ==== Sys2Proof/Machine/Base.lean ====
section
/-! DEFINITION. Base.lean: finite maps, little-endian bytes, CRCs and the exact arithmetic of R132. -/

namespace Sys2Proof.Machine

/-! ### Finite maps -/

/-- Look a key up. -/
def fget {α : Type} : FMap α → Nat → Option α
  | [], _ => none
  | (k, v) :: r, i => if i = k then some v else fget r i

/-- Look a key up, with a default. -/
def fgetD {α : Type} (m : FMap α) (i : Nat) (d : α) : α := (fget m i).getD d

/-- Set a key, keeping ascending key order. -/
def fset {α : Type} : FMap α → Nat → α → FMap α
  | [], i, x => [(i, x)]
  | (k, v) :: r, i, x =>
    if i = k then (k, x) :: r
    else if i < k then (i, x) :: (k, v) :: r
    else (k, v) :: fset r i x

/-- Remove a key. -/
def ferase {α : Type} : FMap α → Nat → FMap α
  | [], _ => []
  | (k, v) :: r, i => if i = k then r else (k, v) :: ferase r i

/-- Set a key in a map that lists only values other than `d`. -/
def fput {α : Type} [DecidableEq α] (m : FMap α) (i : Nat) (x d : α) : FMap α :=
  if x = d then ferase m i else fset m i x

/-- Update the value at a key, with a default. -/
def fmod {α : Type} (m : FMap α) (i : Nat) (d : α) (f : α → α) : FMap α := fset m i (f (fgetD m i d))

/-- Keys strictly ascending. -/
def fwf {α : Type} : FMap α → Bool
  | [] => true
  | [_] => true
  | (k, _) :: (k', v') :: r => decide (k < k') && fwf ((k', v') :: r)

/-- Replace the element at a position of a list, if there is one. -/
def lset {α : Type} : List α → Nat → α → List α
  | [], _, _ => []
  | _ :: r, 0, x => x :: r
  | a :: r, n + 1, x => a :: lset r n x

/-- The element at a position, with a default. -/
def lget {α : Type} (l : List α) (n : Nat) (d : α) : α := (l[n]?).getD d

/-! ### Bytes (R2: little-endian) -/

/-- A byte from a number, modulo 256. -/
def byte (n : Nat) : Byte := BitVec.ofNat 8 n

/-- Value of a little-endian byte string. -/
def leNat : Bytes → Nat
  | [] => 0
  | b :: r => b.toNat + 256 * leNat r

/-- `n` bytes from an offset; bytes past the end read as absent. -/
def slice (b : Bytes) (off n : Nat) : Bytes := (b.drop off).take n

/-- Little-endian field of `n` bytes at an offset. -/
def getLE (b : Bytes) (off n : Nat) : Nat := leNat (slice b off n)

/-- The signed reading of an `n`-bit number. -/
def toSigned (bits v : Nat) : Int := if v < 2 ^ (bits - 1) then (v : Int) else (v : Int) - (2 : Int) ^ bits

/-- Two's complement of an integer at a width. -/
def ofSigned (bits : Nat) (x : Int) : Nat := (x % ((2 : Int) ^ bits)).toNat

/-- Signed little-endian field. -/
def getSLE (b : Bytes) (off n : Nat) : Int := toSigned (8 * n) (getLE b off n)

/-- `n` little-endian bytes of a number. -/
def putLE : Nat → Nat → Bytes
  | 0, _ => []
  | n + 1, v => byte v :: putLE n (v / 256)

/-- `n` little-endian bytes of an integer, two's complement. -/
def putSLE (n : Nat) (x : Int) : Bytes := putLE n (ofSigned (8 * n) x)

/-- `n` big-endian bytes of a number. -/
def putBE (n v : Nat) : Bytes := (putLE n v).reverse

/-- Zero bytes. -/
def zeros (n : Nat) : Bytes := List.replicate n 0

/-- Pad with zero bytes to a length. -/
def padTo (n : Nat) (b : Bytes) : Bytes := b ++ zeros (n - b.length)

/-- All bytes zero. -/
def allZero (b : Bytes) : Bool := b.all (· == 0)

/-- A bit of a number. -/
def bit (v n : Nat) : Bool := v.testBit n

/-- The field [hi:lo] of a number. -/
def bits (v lo width : Nat) : Nat := (v >>> lo) % 2 ^ width

/-- A Bool as a number. -/
def b2n (b : Bool) : Nat := if b then 1 else 0

/-- Pairs of a list with positions from `i`. -/
def indexed {α : Type} : Nat → List α → List (Nat × α)
  | _, [] => []
  | i, a :: r => (i, a) :: indexed (i + 1) r

/-- The numbers 0 to n - 1. -/
def upto (n : Nat) : List Nat := List.range n

/-! ### CRCs -/

/-- `n` shifts of a reflected CRC register. -/
def crcReflShift (poly : Nat) : Nat → Nat → Nat
  | 0, c => c
  | n + 1, c => crcReflShift poly n (if c % 2 = 1 then Nat.xor (c / 2) poly else c / 2)

/-- A reflected CRC register after a byte string. -/
def crcRefl (poly : Nat) : Nat → Bytes → Nat
  | c, [] => c
  | c, b :: r => crcRefl poly (crcReflShift poly 8 (Nat.xor c b.toNat)) r

/-- CRC-32C: Castagnoli polynomial, reflected, initial value and final XOR all ones (R386). -/
def crc32c (b : Bytes) : Nat := Nat.xor (crcRefl 0x82F63B78 0xFFFFFFFF b) 0xFFFFFFFF

/-- CRC-32 of IEEE 802.3, reflected, initial value and final XOR all ones (R508). -/
def crc32 (b : Bytes) : Nat := Nat.xor (crcRefl 0xEDB88320 0xFFFFFFFF b) 0xFFFFFFFF

/-- `n` shifts of a CRC register of `w` bits, most significant bit first. -/
def crcMsbShift (w poly : Nat) : Nat → Nat → Nat
  | 0, c => c
  | n + 1, c =>
    crcMsbShift w poly n
      (if c.testBit (w - 1) then Nat.xor ((c * 2) % 2 ^ w) poly else (c * 2) % 2 ^ w)

/-- A most-significant-bit-first CRC register after a byte string. -/
def crcMsb (w poly : Nat) : Nat → Bytes → Nat
  | c, [] => c
  | c, b :: r => crcMsb w poly (crcMsbShift w poly 8 (Nat.xor c (b.toNat <<< (w - 8)))) r

/-- CRC-16, polynomial 0x1021, initial value 0xFFFF, no final XOR (R258, R329, R490). -/
def crc16 (b : Bytes) : Nat := crcMsb 16 0x1021 0xFFFF b

/-- CRC-8, polynomial 0x07, initial value 0 (R262). -/
def crc8 (b : Bytes) : Nat := crcMsb 8 0x07 0 b

/-! ### Exact arithmetic (R132) -/

/-- The least signed 64-bit value. -/
def int64Min : Int := -9223372036854775808
/-- The greatest signed 64-bit value. -/
def int64Max : Int := 9223372036854775807

/-- Limit to an interval. -/
def clamp (x lo hi : Int) : Int := if x < lo then lo else if hi < x then hi else x

/-- sat of R132. -/
def sat (x : Int) : Int := clamp x int64Min int64Max

/-- Whether a value needs no limiting to 64 bits. -/
def fits64 (x : Int) : Bool := decide (int64Min ≤ x) && decide (x ≤ int64Max)

/-- rnd of R132: round half upwards; the identity for n = 0 (log entry 9). -/
def rnd (x : Int) (n : Nat) : Int :=
  if n = 0 then x else Int.fdiv (x + (2 : Int) ^ (n - 1)) ((2 : Int) ^ n)

/-- align of R132 before its sat, for saying whether it limits (R133). -/
def alignRaw (r : Int) (s w : Int) : Int :=
  if s = w then r else if w < s then r * (2 : Int) ^ (s - w).toNat else rnd r (w - s).toNat

/-- align of R132. -/
def align (r : Int) (s w : Int) : Int := if s = w then r else sat (alignRaw r s w)

/-- divr of R132: nearest, ties away from zero. Division by 0 gives 0; every caller excludes it. -/
def divr (a b : Int) : Int :=
  let n := a.natAbs
  let d := b.natAbs
  let q := if d = 0 then 0 else (2 * n + d) / (2 * d)
  if (a < 0) = (b < 0) then (q : Int) else -(q : Int)

/-- Integer square root by bisection on bits, from bit `n` down. -/
def isqrtAux (x : Nat) : Nat → Nat → Nat
  | 0, r => r
  | n + 1, r =>
    let c := r + 2 ^ n
    isqrtAux x n (if c * c ≤ x then c else r)

/-- Integer square root, for values below 2^256. -/
def isqrt (x : Nat) : Nat := isqrtAux x 128 0

/-- Division truncating towards zero (the manual's div on signed values, R274, R333). -/
def tdiv (a b : Int) : Int := Int.tdiv a b

/-- Sum of a list of integers. -/
def isum : List Int → Int
  | [] => 0
  | a :: r => a + isum r

/-- Sum of a list of naturals. -/
def nsum : List Nat → Nat
  | [] => 0
  | a :: r => a + nsum r

/-- Greatest element, 0 for an empty list. -/
def nmax : List Nat → Nat
  | [] => 0
  | a :: r => Nat.max a (nmax r)

/-! ### Wrapping counts (R4) -/

/-- Signed difference b - a of two values of a wrapping count of the given width. -/
def wrapDiff (width a b : Nat) : Int := toSigned width ((b + 2 ^ width - a % 2 ^ width) % 2 ^ width)

/-- Value b is later than value a. -/
def later (width a b : Nat) : Bool := decide (0 < wrapDiff width a b)

/-- A 32-bit count saturating at all ones. -/
def sat32 (n : Nat) : Nat := if n < 0xFFFFFFFF then n else 0xFFFFFFFF

/-- Limit to a number of bits, saturating. -/
def satBits (w n : Nat) : Nat := if n < 2 ^ w then n else 2 ^ w - 1

/-- A signed value limited to 32 bits, as a register word. -/
def satS32 (x : Int) : W32 := BitVec.ofInt 32 (clamp x (-2147483648) 2147483647)

end Sys2Proof.Machine
end

