-- ==== Sys2Proof/Machine/RegMap.lean ====
section
/-! DEFINITION. RegMap.lean: the BAR0 blocks (R363) and, for every register of R114, R167, R218, R291, R319, R339,
R360, R377, R378, R380, R381, R405, R461, R476, R497, R516, R537 and R557, its access code, configuration bits,
cold-reset value and lock. -/

namespace Sys2Proof.Machine

/-- Access codes of R5. -/
inductive Acc where
  /-- read only -/
  | ro
  /-- read write -/
  | rw
  /-- write only -/
  | wo
  /-- write 1 to clear -/
  | w1c
  /-- write 1 to set -/
  | w1s
  /-- read clears -/
  | rc
  /-- lock bits: write 1 to set until cold reset -/
  | rwl
deriving DecidableEq, Repr

/-- The lock of a register: lock register, lock bit, and the fields the bit makes read-only (R364, R372). -/
structure Lock where
  /-- offset of the lock register -/
  reg    : Nat
  /-- lock bit -/
  bit    : Nat
  /-- fields made read-only -/
  fields : W32
deriving DecidableEq, Repr

/-- What the register map says of one register. -/
structure RegInfo where
  /-- access -/
  acc   : Acc
  /-- RW or RWL bits: the configuration bits (R373) -/
  mask  : W32 := 0
  /-- cold-reset value of those bits -/
  reset : W32 := 0
  /-- lock -/
  lock  : Option Lock := none
deriving DecidableEq, Repr

/-- A read-only register. -/
def rRO : Option RegInfo := some { acc := .ro }
/-- A read-to-clear counter. -/
def rRC : Option RegInfo := some { acc := .rc }
/-- A write-1-to-clear register. -/
def rW1C : Option RegInfo := some { acc := .w1c }
/-- A write-only register. -/
def rWO : Option RegInfo := some { acc := .wo }
/-- A write-1-to-set register. -/
def rW1S : Option RegInfo := some { acc := .w1s }
/-- A lock register. -/
def rRWL (mask : W32) : Option RegInfo := some { acc := .rwl, mask := mask }
/-- A configuration register without a lock. -/
def rRW (mask reset : W32) : Option RegInfo := some { acc := .rw, mask := mask, reset := reset }
/-- A configuration register that bit `b` of the lock register makes read-only. -/
def rRWk (mask reset : W32) (lockReg b : Nat) : Option RegInfo :=
  some { acc := .rw, mask := mask, reset := reset, lock := some { reg := lockReg, bit := b, fields := 0xFFFFFFFF } }

/-- HIF (R377). -/
def hifReg : Nat → Option RegInfo
  | 0x00 | 0x04 | 0x08 | 0x0C | 0x10 | 0x1C | 0x24 | 0x28 => rRO
  | 0x14 => some { acc := .rw, mask := 3, reset := 1, lock := some { reg := 0x18, bit := 0, fields := 1 } }
  | 0x18 => rRWL 3
  | 0x20 => rRC
  | 0x30 => rWO
  | 0x34 | 0x38 => rW1C
  | _ => none

/-- EVT (R380). -/
def evtReg : Nat → Option RegInfo
  | 0x00 | 0x08 | 0x10 | 0x14 | 0x18 => rRO
  | 0x04 => rRWk 0x3FF 0x14 0x18 1
  | 0x0C => rRW 0xFF 0
  | 0x20 | 0x24 | 0x28 | 0x2C | 0x30 | 0x34 | 0x38 | 0x3C => rW1C
  | _ => none

/-- Sources marked A in R384. -/
def alertSources : List Nat :=
  [0x02, 0x07, 0x23, 0x27, 0x29, 0x36, 0x39, 0x3A, 0x45, 0x53, 0x68, 0x69, 0x6D, 0x72, 0x77, 0x92, 0x99,
   0xA1, 0xA4, 0xA6, 0xA9, 0xAE, 0xAF, 0xB0, 0xB4, 0xB6, 0xB8, 0xC2, 0xC3, 0xC4, 0xC7, 0xCD, 0xD4, 0xE5, 0xEB, 0xF3]

/-- Source is named in R384, R287, R318, R338 or R361. -/
def sourceNamed (n : Nat) : Bool :=
  (n ≤ 0x0D) || (0x20 ≤ n && n ≤ 0x3C) || (0x40 ≤ n && n ≤ 0x45) || (0x50 ≤ n && n ≤ 0x5F) ||
  (0x60 ≤ n && n ≤ 0x6F) || (0x70 ≤ n && n ≤ 0x7B) || (0x80 ≤ n && n ≤ 0x8B) || (0x90 ≤ n && n ≤ 0x9B) ||
  (0xA0 ≤ n && n ≤ 0xB8) || (0xC0 ≤ n && n ≤ 0xCF) || (0xD0 ≤ n && n ≤ 0xD7) || (0xE0 ≤ n && n ≤ 0xED) ||
  (0xF0 ≤ n && n ≤ 0xF6)

/-- Default vector of a source (R381). -/
def defaultVector (n : Nat) : Nat :=
  if n = 0x94 then 12
  else if n < 0x20 then 0 else if n < 0x40 then 1 else if n < 0x50 then 2 else if n < 0x60 then 3
  else if n < 0x70 then 4 else if n < 0x90 then 5 else if n < 0xA0 then 6 else if n < 0xC0 then 7
  else if n < 0xD0 then 8 else if n < 0xE0 then 9 else if n < 0xF0 then 10 else 11

/-- Cold-reset value of EVT_ROUTEn without ALERT_EN, which MG holds (R381). -/
def routeReset (n : Nat) : W32 := BitVec.ofNat 32 (defaultVector n + (if sourceNamed n then 0x40 else 0))

/-- EVT_ROUTE0 to EVT_ROUTE255 (R381); ALERT_EN, bit 7, is held in MG. -/
def routeReg (off : Nat) : Option RegInfo := rRWk 0xDF (routeReset (off / 4)) 0x18 1

/-- CYC (R378). -/
def cycReg : Nat → Option RegInfo
  | 0x00 | 0x04 | 0x0C | 0x10 | 0x14 | 0x18 => rRO
  | 0x08 => rRC
  | _ => none

/-- BGT (R114). -/
def bgtReg : Nat → Option RegInfo
  | 0x00 | 0x24 | 0x28 | 0x2C | 0x34 | 0x38 | 0x3C | 0x40 | 0x44 | 0x48 | 0x4C | 0x50 => rRO
  | 0x04 => rRWk 0xFFFF 0x9C40 0x920 0
  | 0x08 => rRWk 0xFFFF 0x9C40 0x920 0
  | 0x0C => rRWk 0x1FFFFF 0x61A80 0x920 0
  | 0x10 => rRWk 0x1FFFFF 0x9C40 0x920 0
  | 0x14 => rRWk 0x1FFFFF 0x13880 0x920 0
  | 0x18 => rRWk 0x1FFFFF 0x1D4C0 0x920 0
  | 0x1C => rRWk 0x3FF 0x14 0x920 0
  | 0x20 => rRWL 1
  | 0x30 => rRC
  | _ => none

/-- LOOP (R167). -/
def loopReg : Nat → Option RegInfo
  | 0x00 | 0x0C | 0x14 | 0x1C | 0x20 | 0x24 => rRO
  | 0x04 => rRWk 1 1 0xA08 0
  | 0x08 => rRWL 1
  | 0x10 => rRC
  | 0x18 => rRW 0x3F 0
  | _ => none

/-- SOL (R218). -/
def solReg : Nat → Option RegInfo
  | 0x00 | 0x0C | 0x1C | 0x20 | 0x24 => rRO
  | 0x04 => rRWk 1 1 0xB08 0
  | 0x08 => rRWL 1
  | 0x10 | 0x14 | 0x18 => rRC
  | _ => none

/-- MTR (R291). -/
def mtrReg : Nat → Option RegInfo
  | 0x00 | 0x04 | 0x08 | 0x0C | 0x18 | 0x1C | 0x20 | 0x24 => rRO
  | 0x10 | 0x14 => rRC
  | _ => none

/-- RING (R319). -/
def ringReg : Nat → Option RegInfo
  | 0x00 | 0x10 | 0x1C | 0x20 | 0x28 | 0x2C | 0x30 => rRO
  | 0x04 => rRWk 0xF 0 0xD0C 0
  | 0x08 => rRWk 0xFFFF 0x88B5 0xD0C 0
  | 0x0C => rRWL 1
  | 0x14 | 0x18 => rRC
  | 0x24 => rRW 0x7F 0
  | _ => none

/-- PTP (R339). -/
def ptpReg : Nat → Option RegInfo
  | 0x00 | 0x0C | 0x10 | 0x14 | 0x18 | 0x1C | 0x20 | 0x24 | 0x28 | 0x2C => rRO
  | 0x04 => rRWk 7 0 0xE08 0
  | 0x08 => rRWL 1
  | 0x30 => rRC
  | _ => none

/-- RTC (R497). -/
def rtcReg : Nat → Option RegInfo
  | 0x00 | 0x10 | 0x14 | 0x24 | 0x28 | 0x2C | 0x30 | 0x34 => rRO
  | 0x04 => rRWk 1 1 0xF08 0
  | 0x08 => rRWL 1
  | 0x0C => rW1C
  | 0x18 => rRWk 0x3F3F7FFF 0 0xF08 0
  | 0x1C => rRWk 0xFFFF1F1F 0 0xF08 0
  | 0x20 => some { acc := .wo, lock := some { reg := 0xF08, bit := 0, fields := 0xFFFFFFFF } }
  | _ => none

/-- REC (R497). -/
def recReg (n : Nat) : Option RegInfo :=
  if 0x40 ≤ n && n ≤ 0x7C then rRO
  else match n with
  | 0x00 | 0x0C | 0x10 | 0x18 | 0x1C => rRO
  | 0x04 => rRW 1 1
  | 0x08 => rWO
  | 0x14 => rRC
  | _ => none

/-- PNL (R516). -/
def pnlReg : Nat → Option RegInfo
  | 0x00 | 0x0C | 0x14 | 0x18 => rRO
  | 0x04 => rRWk 1 1 0x1108 0
  | 0x08 => rRWL 1
  | 0x10 => rRC
  | _ => none

/-- KEY (R537). -/
def keyReg : Nat → Option RegInfo
  | 0x00 | 0x10 | 0x14 | 0x18 | 0x20 | 0x24 => rRO
  | 0x04 => rRWk 3 3 0x1208 0
  | 0x08 => rRWL 1
  | 0x0C => rRW 7 0
  | 0x1C => rRC
  | _ => none

/-- FWU (R557). -/
def fwuReg : Nat → Option RegInfo
  | 0x00 | 0x0C | 0x10 | 0x14 | 0x1C => rRO
  | 0x04 => rRWk 1 1 0x1308 0
  | 0x08 => rRWL 1
  | 0x18 => rRW 0xF 1
  | _ => none

/-- PAIR (R461). -/
def pairReg : Nat → Option RegInfo
  | 0x00 | 0x14 | 0x18 | 0x1C | 0x24 | 0x28 => rRO
  | 0x04 => rRWk 3 1 0x1408 0
  | 0x08 => rRWL 1
  | 0x0C | 0x10 | 0x20 => rRC
  | _ => none

/-- TST (R476). -/
def tstReg : Nat → Option RegInfo
  | 0x00 | 0x0C | 0x10 => rRO
  | 0x04 => rRWk 1 1 0x1508 0
  | 0x08 => rRWL 3
  | 0x14 | 0x18 => rRC
  | _ => none

/-- SBM (R405). -/
def sbmReg : Nat → Option RegInfo
  | 0x00 | 0x14 | 0x18 | 0x1C => rRO
  | 0x04 => rRWk 3 1 0x1608 0
  | 0x08 => rRWL 1
  | 0x0C | 0x10 => rRC
  | _ => none

/-- CANn (R360). The windows are data windows outside the configuration signature (R373). -/
def canReg (base n : Nat) : Option RegInfo :=
  if 0x100 ≤ n && n < 0x1348 then
    (if (n - 0x100) % 72 = 0 then rW1C else some { acc := .rw })
  else match n with
  | 0x00 | 0x18 => rRO
  | 0x04 => rRWk 0xFF 0 (base + 0x14) 0
  | 0x08 => rRWk 0x3FFFFFFF 0 (base + 0x14) 0
  | 0x0C => rRWk 0x7FFFF 0 (base + 0x14) 0
  | 0x10 => rRWk 0xFF 0 (base + 0x14) 0
  | 0x14 => rRWL 1
  | 0x1C | 0x20 => rW1C
  | 0x24 | 0x28 | 0x2C | 0x30 => rW1S
  | 0x34 | 0x38 | 0x3C => rRC
  | _ => none

/-- MSI-X table entries: address, data and vector control as the PCIe base specification lays them out (log entry 10). -/
def msixReg (n : Nat) : Option RegInfo :=
  match n % 16 with
  | 0 => rRW 0xFFFFFFFC 0
  | 4 => rRW 0xFFFFFFFF 0
  | 8 => rRW 0xFFFFFFFF 0
  | 12 => rRW 1 1
  | _ => none

/-- A block of BAR0 (R363): base, size, brick, and whether writes are posted. -/
structure Block where
  /-- base -/
  base   : Nat
  /-- size in bytes -/
  size   : Nat
  /-- owning brick -/
  brick  : Nat
  /-- posted path -/
  posted : Bool
deriving DecidableEq, Repr

/-- The blocks of R363. -/
def blocks : List Block :=
  [⟨0x0000, 0x100, 0x21, false⟩, ⟨0x0100, 0x100, 0x21, false⟩, ⟨0x0400, 0x400, 0x21, false⟩,
   ⟨0x0800, 0x100, 0x18, true⟩, ⟨0x0900, 0x100, 0x18, true⟩, ⟨0x0A00, 0x100, 0x19, true⟩,
   ⟨0x0B00, 0x100, 0x18, true⟩, ⟨0x0C00, 0x100, 0x1C, true⟩, ⟨0x0D00, 0x100, 0x1A, true⟩,
   ⟨0x0E00, 0x100, 0x1A, true⟩, ⟨0x0F00, 0x100, 0x1F, true⟩, ⟨0x1000, 0x100, 0x1F, true⟩,
   ⟨0x1100, 0x100, 0x1D, true⟩, ⟨0x1200, 0x100, 0x1E, true⟩, ⟨0x1300, 0x100, 0x18, true⟩,
   ⟨0x1400, 0x100, 0x22, true⟩, ⟨0x1500, 0x100, 0x18, true⟩, ⟨0x1600, 0x100, 0x1F, true⟩,
   ⟨0x2000, 0x2000, 0x1B, true⟩, ⟨0x4000, 0x2000, 0x1B, true⟩, ⟨0x6000, 0x2000, 0x1B, true⟩,
   ⟨0x8000, 0x2000, 0x1B, true⟩, ⟨0xF000, 0x400, 0x21, false⟩, ⟨0xF800, 0x8, 0x21, false⟩]

/-- The block that covers an offset (R363). -/
def blockAt (off : Nat) : Option Block := blocks.find? fun b => b.base ≤ off && off < b.base + b.size

/-- The register at an offset, none where there is none (R363). -/
def regInfo (off : Nat) : Option RegInfo :=
  if off % 4 ≠ 0 then none
  else match blockAt off with
  | none => none
  | some b =>
    let n := off - b.base
    match b.base with
    | 0x0000 => hifReg n
    | 0x0100 => evtReg n
    | 0x0400 => routeReg n
    | 0x0800 => cycReg n
    | 0x0900 => bgtReg n
    | 0x0A00 => loopReg n
    | 0x0B00 => solReg n
    | 0x0C00 => mtrReg n
    | 0x0D00 => ringReg n
    | 0x0E00 => ptpReg n
    | 0x0F00 => rtcReg n
    | 0x1000 => recReg n
    | 0x1100 => pnlReg n
    | 0x1200 => keyReg n
    | 0x1300 => fwuReg n
    | 0x1400 => pairReg n
    | 0x1500 => tstReg n
    | 0x1600 => sbmReg n
    | 0xF000 => msixReg n
    | 0xF800 => rRO
    | b => canReg b n

/-- Offsets of the configuration registers of a block, ascending (R373). -/
def cfgOffsets (base : Nat) : List Nat :=
  match blocks.find? (fun b => b.base = base) with
  | none => []
  | some b =>
    ((List.range (Nat.min b.size 0x400 / 4)).map (fun k => b.base + 4 * k)).filter fun off =>
      match regInfo off with
      | some i => i.mask ≠ 0
      | none => false

/-- High-word offset of a pair that latches, by its low-word offset (R370, R371). -/
def latchHi : Nat → Option Nat
  | 0x008 => some 0x00C
  | 0x114 => some 0x118
  | 0x80C => some 0x810
  | 0x938 => some 0x93C
  | 0xA20 => some 0xA24
  | 0xB20 => some 0xB24
  | 0xC20 => some 0xC24
  | 0xD2C => some 0xD30
  | 0xE10 => some 0xE14
  | 0x1018 => some 0x101C
  | 0x1114 => some 0x1118
  | 0x1424 => some 0x1428
  | 0x1618 => some 0x161C
  | _ => none

/-- The offset is the high word of a latching pair. -/
def isLatchedHi (off : Nat) : Bool :=
  [0x00C, 0x118, 0x810, 0x93C, 0xA24, 0xB24, 0xC24, 0xD30, 0xE14, 0x101C, 0x1118, 0x1428, 0x161C].contains off

end Sys2Proof.Machine
end

