-- ==== Sys2Proof/Machine/Records.lean ====
section
/-! DEFINITION. Records.lean: the parts State is made of, chapter by chapter, as plain data. A default value
is the value after reset: where a docstring says "reset", it is the spec's; every other default is the model's
(DESIGN CHOICE, assumption log entry 3). -/

namespace Sys2Proof.Machine

/-! ### Program images (chapter 05) -/

/-- A point record (R25). -/
structure PointRec where
  /-- VALUE, signed 64-bit raw value (R25) -/
  value     : Int := 0
  /-- STIME, short time in ms, 32 bits (R25, R30) -/
  stime     : W32 := 0
  /-- QUALITY byte (R28) -/
  quality   : Byte := 3
  /-- SCALE, signed 8-bit exponent (R25) -/
  scale     : Int := 0
  /-- TYPEFLAGS (R26) -/
  typeflags : W16 := 0
deriving DecidableEq, Repr

/-- A POINTDEF entry (R126), or the same metadata from the station configuration. -/
structure PointDef where
  /-- point id -/
  id        : Nat
  /-- TYPEFLAGS -/
  typeflags : W16
  /-- SCALE -/
  scale     : Int
  /-- RANGE_MIN -/
  rangeMin  : Int
  /-- RANGE_MAX -/
  rangeMax  : Int
  /-- ENUM_SIZE -/
  enumSize  : Nat
  /-- UNIT_CODE -/
  unitCode  : Nat
  /-- NAME -/
  name      : W32
deriving DecidableEq, Repr

/-- A CLASS entry (R121). -/
structure ClassEntry where
  /-- COURSE_COUNT -/
  courseCount  : Nat := 0
  /-- FIRST_COURSE -/
  firstCourse  : Nat := 0
  /-- UNIT_MAX_EMBER -/
  unitMaxEmber : Nat := 0
  /-- SOLVE_COURSE, 0xFFFF for none -/
  solveCourse  : Nat := 0xFFFF
  /-- STATE_BYTES -/
  stateBytes   : Nat := 0
deriving DecidableEq, Repr

/-- A COURSE entry (R122). -/
structure CourseEntry where
  /-- class code -/
  cls       : Nat
  /-- course number -/
  course    : Nat
  /-- FIRST_UNIT -/
  firstUnit : Nat
  /-- UNIT_COUNT -/
  unitCount : Nat
  /-- WORST_US -/
  worstUs   : Nat
deriving DecidableEq, Repr

/-- A UNIT entry (R123). -/
structure UnitEntry where
  /-- FIRST_INSTANCE -/
  firstInstance : Nat
  /-- INSTANCE_COUNT -/
  instanceCount : Nat
  /-- class code -/
  cls           : Nat
  /-- CRIT: 1 for class C -/
  crit          : Nat
  /-- course number -/
  course        : Nat
  /-- HOME_ENGINE -/
  homeEngine    : Nat
  /-- WORST_CLOCKS -/
  worstClocks   : Nat
  /-- EMBER -/
  ember         : Nat
  /-- SCRATCH_BYTES -/
  scratchBytes  : Nat
  /-- write set: WS_COUNT point ids from WS_FIRST -/
  writeSet      : List Nat
deriving DecidableEq, Repr

/-- An INSTANCE entry (R124) with its bindings and parameter block (R125). -/
structure InstEntry where
  /-- INSTANCE_ID -/
  id          : Nat
  /-- BLOCK_TYPE -/
  blockType   : Nat
  /-- input point ids -/
  ins         : List Nat
  /-- output point ids -/
  outs        : List Nat
  /-- STATE_OFFSET -/
  stateOffset : Nat
  /-- STATE_LEN in bytes -/
  stateLen    : Nat
  /-- STEP_LIMIT -/
  stepLimit   : Nat
  /-- working scale W -/
  w           : Int
  /-- constants K0, K1, … (signed 64-bit) -/
  consts      : List Int
  /-- instruction words of a custom block -/
  code        : List W32
deriving DecidableEq, Repr

/-- A RETAIN entry (R128). -/
structure RetainEntry where
  /-- KIND: 0 point, 1 instance state -/
  kind   : Nat
  /-- CRIT -/
  crit   : Nat
  /-- LENGTH -/
  length : Nat
  /-- KEY: point id or instance id -/
  key    : Nat
  /-- LAYOUT -/
  layout : Nat
deriving DecidableEq, Repr

/-- A verified program image (R118 to R130), read in place and never rewritten. -/
structure Image where
  /-- IMAGE_CRC -/
  crc          : W32
  /-- IMAGE_ID -/
  imageId      : W64
  /-- RUNTIME_LEVEL -/
  runtimeLevel : Nat
  /-- CLASS entries, class codes 0 to 4 -/
  classes      : List ClassEntry
  /-- COURSE entries -/
  courses      : List CourseEntry
  /-- UNIT entries; the position is UNIT_INDEX -/
  units        : List UnitEntry
  /-- INSTANCE entries -/
  instances    : List InstEntry
  /-- POINTDEF entries in ascending point id -/
  points       : List PointDef
  /-- INITIAL value entries: point id, value -/
  initialPts   : List (Nat × Int)
  /-- INITIAL state buffers of class codes 0 to 4, as bytes -/
  initialState : List Bytes
  /-- RETAIN entries -/
  retain       : List RetainEntry
  /-- SAFEOUT entries: point id, safe value -/
  safeOut      : List (Nat × Int)
  /-- COUNT of the TEXT section -/
  textCount    : Nat
deriving DecidableEq, Repr

/-- A chunked load in progress (R65, R219, R251, R255, R293). -/
structure ChunkLoad where
  /-- TOTAL_LENGTH of every chunk -/
  total    : Nat
  /-- the bytes received so far -/
  received : Bytes
deriving DecidableEq, Repr

/-! ### Cycle classes (chapter 02) -/

/-- Class states (Scope and conventions, R63). -/
inductive ClsState where
  /-- 0 INIT -/
  | init
  /-- 1 RUN -/
  | run
  /-- 2 HOLD -/
  | hold
  /-- 3 SAFE -/
  | safe
deriving DecidableEq, Repr

/-- What a cycle still has to do (R38 to R40). -/
inductive CyclePhase where
  /-- the mark is broadcast, the snapshot is open (R22) -/
  | marking
  /-- a course is open -/
  | course (n : Nat)
  /-- the last course has closed; a job the commit waits for is still out (R39) -/
  | awaitJob
deriving DecidableEq, Repr

/-- A force table entry (R47, R69). -/
structure Force where
  /-- forced raw value -/
  value : Int
  /-- short time at which the force took effect -/
  stime : W32
deriving DecidableEq, Repr

/-- A running cycle of a periodic class. -/
structure Cycle where
  /-- cycle stamp, device time in ns (R22) -/
  stamp       : Nat
  /-- cycle counter at its period start (R34) -/
  count       : W32 := 0
  /-- reference time of the mark, ns (R22, R63) -/
  markAt      : Nat := 0
  /-- stations of the snapshot with the SEQ of the dataset it holds (R445) -/
  vector      : List (Nat × Nat) := []
  /-- phase -/
  phase       : CyclePhase := .marking
  /-- producer bricks whose acknowledgement is still out (R22) -/
  awaiting    : List Nat := []
  /-- the snapshot: point records as this cycle reads them (R35, R36) -/
  snap        : FMap PointRec := []
  /-- the force table as of the mark (R48) -/
  forces      : FMap Force := []
  /-- the class's private write area (R37) -/
  writes      : FMap PointRec := []
  /-- state buffer of the current cycle: instance id, state words (R71, R72) -/
  states      : FMap (List W64) := []
  /-- units of the open course not complete yet -/
  unitsLeft   : List Nat := []
  /-- the cycle has passed its deadline (R41) -/
  late        : Bool := false
  /-- a solver or optimiser job the commit waits for is out (R39) -/
  jobOut      : Bool := false
  /-- the course SOLVE_COURSE waits for that job (R209) -/
  solveHeld   : Bool := false
  /-- device time of the open course's release (R111) -/
  releasedAt  : Nat := 0
  /-- the open Slow course is admitted in full (R111) -/
  forced      : Bool := false
  /-- instances that raised BLOCK_TRAP in a unit already (R144): unit indices -/
  trapped     : List Nat := []
  /-- NOT_COMPARED cycle of a standby (R445) -/
  notCompared : Bool := false
  /-- the solver's result points as the return of the job that the cycle waited for wrote them (R209) -/
  solved      : FMap PointRec := []
deriving DecidableEq, Repr

/-- The state of one cycle class (R31 to R44, R62 to R64). -/
structure ClassSt where
  /-- class state (R63); INIT at every start (R416); reset INIT -/
  st            : ClsState := .init
  /-- period in µs (R31); reset the default period of R31 -/
  periodUs      : Nat := 1000
  /-- accepted period and solve deadline that take effect later, µs (R62) -/
  nextCfg       : Option (Nat × Nat) := none
  /-- 32-bit cycle counter (R34); reset 0 -/
  cycleCount    : W32 := 0
  /-- skipped period starts since start-up, OVERRUN_COUNT (R63) -/
  overruns      : Nat := 0
  /-- abandoned cycles since start-up, ABANDON_COUNT (R63) -/
  abandons      : Nat := 0
  /-- cycles abandoned in a row (R44) -/
  abandonRow    : Nat := 0
  /-- LAST_EXEC_US (R63) -/
  lastExecUs    : Nat := 0
  /-- MAX_EXEC_US (R63) -/
  maxExecUs     : Nat := 0
  /-- LAST_COMMIT_STIME (R63) -/
  lastCommitStime : W32 := 0
  /-- LAST_STAMP (R63) -/
  lastStamp     : Nat := 0
  /-- device time of the last period start counted (R32, R33) -/
  lastStart     : Nat := 0
  /-- the running cycle, if any -/
  cycle         : Option Cycle := none
  /-- a stopped cycle's units have not stopped yet (R44, R96) -/
  stopping      : Bool := false
  /-- a halt command waits for the stop: its request (R97) -/
  haltReq       : Option Req := none
  /-- a restart command waits for the first commit: its request (R64) -/
  restartReq    : Option Req := none
  /-- stamp of a cycle that ran when the restart was accepted: not the fresh cycle (R64) -/
  restartSkip   : Option Nat := none
  /-- stamp of the cycle at whose mark the active halted the class (R97) -/
  haltAt        : Option Nat := none
  /-- Main: device time of the last period start whose boundary work is done (R32, R242, R243) -/
  prepared      : Option Nat := none
  /-- the next period start takes the cycle counter at 0 (R416) -/
  zero          : Bool := true
  /-- stamp of the last cycle started (R33) -/
  started       : Nat := 0
  /-- halted by CMD_CLASS_HALT, a shutdown or an activation: no cycle until CMD_CLASS_RESTART (R97) -/
  halted        : Bool := false
  /-- read buffer of instance states: instance id, state words (R72) -/
  readBuf       : FMap (List W64) := []
  /-- instances whose FRESH mark is set (R135) -/
  fresh         : List Nat := []
  /-- program image the class runs (R59) -/
  prog          : Option Image := none
  /-- slow commits sampled by the historian, for DIVIDER (R53) -/
  commits       : Nat := 0
  /-- the class still republishes its last outputs with HELD after a live activation (R550) -/
  republish     : Bool := false
deriving DecidableEq, Repr

/-- A force change that waits for its effect instant (R48). -/
structure ForceChange where
  /-- the request to complete -/
  req    : Req
  /-- opcode of the command -/
  opcode : Nat
  /-- point id, or none for every entry -/
  point  : Option Nat
  /-- the value to set, or none for a clear -/
  value  : Option Int
  /-- effect instant, device time in ns -/
  due    : Nat
deriving DecidableEq, Repr

/-- A historian subscription (R52) with its sampling state (R53). -/
structure HistSub where
  /-- POINT_ID -/
  point     : Nat
  /-- MODE -/
  mode      : Nat
  /-- DIVIDER -/
  divider   : Nat
  /-- MAX_GAP -/
  maxGap    : Nat
  /-- DEADBAND -/
  deadband  : Int
  /-- number of the Slow commit at which it took effect, none before -/
  start     : Option Nat := none
  /-- VALUE and quality byte last recorded -/
  last      : Option (Int × Byte) := none
  /-- samples since the last record -/
  sinceRec  : Nat := 0
  /-- samples were skipped (R55) -/
  gap       : Bool := false
deriving DecidableEq, Repr

/-- The sampling of one Slow commit (R53, R55). -/
structure HistRun where
  /-- STAMP of its records -/
  stamp : Nat
  /-- the Slow class is in SAFE -/
  safe  : Bool
  /-- subscriptions that have not been sampled, ascending -/
  left  : List Nat
  /-- reference time at which it began, ns -/
  since' : Nat
  /-- how long it takes, µs -/
  us    : Nat
deriving DecidableEq, Repr

/-- A historian record (R54). -/
structure HistRec where
  /-- STAMP -/
  stamp   : Nat
  /-- VALUE -/
  value   : Int
  /-- POINT_ID -/
  point   : Nat
  /-- STIME -/
  stime   : W32
  /-- QUALITY -/
  quality : Byte
  /-- SCALE -/
  scale   : Int
  /-- FLAGS: FIRST, GAP, SAFE -/
  flags   : Byte
  /-- SEQ -/
  seq     : W32
deriving DecidableEq, Repr

/-- Historian state (R52 to R58). -/
structure Hist where
  /-- subscriptions by index 0 to 65 535 (R52) -/
  subs      : FMap HistSub := []
  /-- ring of records by slot SEQ mod 33 554 432 (R54) -/
  ring      : FMap HistRec := []
  /-- NEXT_SEQ (R54); reset 0 at every start -/
  nextSeq   : W32 := 0
  /-- LOST (R55, R58) -/
  lost      : Nat := 0
  /-- LAST_STAMP (R58) -/
  lastStamp : Nat := 0
  /-- LAST_US (R58) -/
  lastUs    : Nat := 0
  /-- the sampling in progress -/
  run       : Option HistRun := none
deriving DecidableEq, Repr

/-- A pending program switch (R59, R61). -/
structure ProgSwitch where
  /-- the request to complete -/
  req       : Req
  /-- ALLOW_INIT -/
  allowInit : Bool
  /-- switch instant S, device time in ns -/
  at'       : Nat
  /-- classes that have changed -/
  changed   : List Nat := []
  /-- Main cycle counter at S -/
  cycle     : W32 := 0
  /-- that count as Main's period start at S has fixed it (R66) -/
  counted   : Option W32 := none
  /-- RETAIN_MAPPED -/
  mapped    : Nat := 0
  /-- RETAIN_DROPPED -/
  dropped   : Nat := 0
  /-- RETAIN_INIT -/
  inits     : Nat := 0
  /-- FORCES_ORPHANED -/
  orphaned  : Nat := 0
  /-- FORCES_REMOVED -/
  removed   : Nat := 0
  /-- S has come: the new image is in force for the classes that have changed -/
  begun     : Bool := false
  /-- the program the classes leave, none at a start -/
  old       : Option Image := none
  /-- instance states of the old program, collected as its classes change (R60) -/
  oldStates : List (Nat × List W64 × Bool) := []
  /-- retentive values, KIND and KEY, that have found their match (R60) -/
  consumed  : List (Nat × Nat) := []
  /-- instance states of the retentive half that a warm start restores as classes change (R416) -/
  staged    : List (Nat × List W64 × Bool) := []
deriving DecidableEq, Repr

/-! ### Engines and deques (chapter 03) -/

/-- A deque entry (R75). -/
structure Entry where
  /-- UNIT_INDEX -/
  unit    : Nat
  /-- COURSE -/
  course  : Nat
  /-- CLASS -/
  cls     : Nat
  /-- ROLE: 0 single, 1 replica A, 2 replica B, 3 deciding run -/
  role    : Nat
  /-- SPLIT -/
  split   : Nat
  /-- EXCL1 -/
  excl1   : Nat
  /-- EXCL2 -/
  excl2   : Nat
  /-- ATTEMPT -/
  attempt : Nat
  /-- EMBER -/
  ember   : Nat
  /-- stamp of the cycle it was issued for, as the issue ledger has it; 0 for Background -/
  stamp   : Nat
deriving DecidableEq, Repr

/-- A line of the issue ledger (R78). -/
structure LedgerLine where
  /-- the entry -/
  entry  : Entry
  /-- engine it was pushed to, none while it waits in the feeder queue -/
  pushed : Option Nat
  /-- engine that took it -/
  taken  : Option Nat
  /-- whether it has completed -/
  done   : Bool
deriving DecidableEq, Repr

/-- What a staged run left behind (R88). -/
structure Staged where
  /-- engine that ran it -/
  engine : Nat
  /-- result hash -/
  hash   : W64
  /-- staged point writes -/
  writes : FMap PointRec
  /-- staged instance states -/
  states : FMap (List W64)
deriving DecidableEq, Repr

/-- The vote on one class-C unit (R88 to R91). -/
structure Vote where
  /-- class code -/
  cls      : Nat
  /-- UNIT_INDEX -/
  unit     : Nat
  /-- stamp of the cycle it belongs to -/
  stamp    : Nat
  /-- replica A's staged result -/
  a        : Option Staged := none
  /-- replica B's staged result -/
  b        : Option Staged := none
  /-- deciding run's staged result -/
  decider  : Option Staged := none
  /-- hashes that have reached SV: roles 1, 2, 3 -/
  arrived  : List Nat := []
  /-- a released staging area that MC copies (R89) -/
  release  : Option Staged := none
  /-- the class has been abandoned or halted: the results are discarded (R91) -/
  discard  : Bool := false
  /-- the stopped cycle, which a deciding run still under way reads (R91) -/
  ctx      : Option Cycle := none
deriving DecidableEq, Repr

/-- Why an engine is a cinder (R92, R98). -/
inductive FenceCause where
  /-- 1 VOTE_LOST -/
  | voteLost
  /-- 2 HUNG -/
  | hung
  /-- 3 CHECK -/
  | check
  /-- 4 BRICK -/
  | brick
deriving DecidableEq, Repr

/-- A selection that has reached a steal across the mortar (R79 step 3, R81). -/
structure Search where
  /-- the class searched -/
  cls    : Nat
  /-- d of R81 -/
  dist   : Nat
  /-- classes that are restricted, by the mask as the deque unit held it when the selection started (R110) -/
  barred : List Nat
deriving DecidableEq, Repr

/-- A control engine (R70, R92, R98). -/
structure Engine where
  /-- fenced as a cinder, with the cause (R92); reset none -/
  cinder    : Option FenceCause := none
  /-- the entry it runs -/
  running   : Option Entry := none
  /-- reference time at which the unit started, ns (R74) -/
  startedAt : Nat := 0
  /-- engine clocks of its brick when the unit started, in fifths (R74, R101) -/
  startClk  : Nat := 0
  /-- a stopped class's unit: ends at the instance in progress (R96) -/
  stopping  : Bool := false
  /-- idle: its last search found nothing (R81) -/
  idle      : Bool := true
  /-- it has reached a steal across the mortar in its search (R81) -/
  search    : Option Search := none
  /-- an answer to its steal request is on the way (R80): the granted entry or none -/
  grant     : Option (Option Entry) := none
  /-- TRAPS since start-up (R98) -/
  traps     : Nat := 0
  /-- UNITS_RUN (R98) -/
  unitsRun  : Nat := 0
  /-- STEALS (R98) -/
  steals    : Nat := 0
  /-- VOTES_LOST (R98) -/
  votesLost : Nat := 0
  /-- its five deques, every class's entries in one list, bottom end first (R75) -/
  deque     : List Entry := []
  /-- finished staged runs whose hashes are on their way to SV, oldest first (R88) -/
  hashOut   : List (Entry × Staged) := []
deriving DecidableEq, Repr

/-- Work distribution: feeder queue, issue ledger, votes (R77, R78, R88). -/
structure Work where
  /-- feeder queue of SV, first in first out (R77) -/
  feeder     : List Entry := []
  /-- issue ledger (R78) -/
  ledger     : List LedgerLine := []
  /-- open votes (R88) -/
  votes      : List Vote := []
  /-- UNIT_MISMATCH count since start-up (R98) -/
  mismatches : Nat := 0
  /-- VOTE_FAILED count since start-up (R98) -/
  votesFailed : Nat := 0
  /-- entries re-issued since start-up (R98) -/
  reissues   : Nat := 0
  /-- settlement of the entries finished since the last tick, embers (R104) -/
  settlement : Int := 0
deriving DecidableEq, Repr

/-! ### Bricks and budget (chapters 01, 04) -/

/-- The state of a brick (R9). -/
inductive BrickSt where
  /-- running at operating point 0 to 4 -/
  | point (p : Fin 5)
  /-- 5 BANKED -/
  | banked
  /-- 6 CINDER -/
  | cinder
  /-- 7 TRANSITION -/
  | transition
deriving DecidableEq, Repr

/-- A packet at a crossing (R12, R18). -/
structure WaitingPacket where
  /-- the packet, with the flit errors it meets -/
  pkt   : MortarPacket
  /-- it has been discarded and awaits its retransmission from the source's retention buffer -/
  retry : Bool
deriving DecidableEq, Repr

/-- A crossing into a brick: the output of the last router towards it (R12, R16, R18). -/
structure Crossing where
  /-- packets that wait for it, in the order they arrived -/
  waiting   : List WaitingPacket := []
  /-- reference time at which its handshake watchdog started (R16, R17) -/
  raisedAt  : Option Nat := none
  /-- flit slots in a row that a waiting REQ flit has lost (R12) -/
  reqLost   : Nat := 0
  /-- input port last served, by class (R12) -/
  last      : FMap Nat := []
  /-- corrected flit errors (R18) -/
  corrected : Nat := 0
deriving DecidableEq, Repr

/-- What a brick has issued to the mortar and keeps until it is complete or sent (R14). -/
inductive Issued where
  /-- a write without its acknowledge, by its header flit -/
  | write (header : W64)
  /-- a barrier arrival behind it -/
  | barrier (p : MortarPacket)
deriving DecidableEq, Repr

/-- One brick (R9, R16 to R19, R101, R102). -/
structure Brick where
  /-- state code (R9); reset P0, or the fixed point of R100 -/
  st        : BrickSt := .point 0
  /-- operating point in force, kept while banked (R102) -/
  pt        : Fin 5 := 0
  /-- operating point last ordered by the governor (R101, R102) -/
  ordered   : Fin 5 := 0
  /-- in TRANSITION towards BANKED (R102) -/
  toBanked  : Bool := false
  /-- in TRANSITION because a packet wakes it (R102) -/
  waking    : Bool := false
  /-- boundary closed (R19) -/
  closed    : Bool := false
  /-- crossings into it, by port: 8 for MC, 2 for a solver brick, 1 for every other brick (R12, R18) -/
  ports     : FMap Crossing := []
  /-- writes it has issued that are not complete, and barrier arrivals behind them, oldest first (R14) -/
  issued    : List Issued := []
  /-- failures in a row of each packet being retransmitted to it, by header flit (R18) -/
  retries   : FMap Nat := []
  /-- reference time since which it has had no work (R102) -/
  quietFrom : Nat := 0
  /-- reference time at which it went into TRANSITION (R17, R101) -/
  transAt   : Nat := 0
  /-- reference time at which its clock last showed an edge, as far as the mortar can tell (R16) -/
  edgeAt    : Nat := 0
  /-- engine clocks since cold reset, in fifths of a clock, up to clkAt (R74, R101) -/
  clk       : Nat := 0
  /-- reference time of clk -/
  clkAt     : Nat := 0
deriving DecidableEq, Repr

/-- The ember budget (R103 to R117). -/
structure Budget where
  /-- pool, signed 32-bit (R104); reset POOL_MAX -/
  pool       : Int := 400000
  /-- pool as of the last tick, BGT_POOL (R114); reset 0x0006_1A80 -/
  poolTick   : Int := 400000
  /-- CAP_EFF as of the last tick (R107); reset 40 000 -/
  capEff     : Int := 40000
  /-- last consistent CAP the governor uses (R115); reset 40 000 -/
  cap        : Int := 40000
  /-- last consistent HARD (R115); reset 40 000 -/
  hard       : Int := 40000
  /-- last consistent POOL_MAX (R115); reset 400 000 -/
  poolMax    : Int := 400000
  /-- last consistent RESERVE_SLOW (R115); reset 40 000 -/
  reserveSlow : Int := 40000
  /-- last consistent RESERVE_OPT (R115); reset 80 000 -/
  reserveOpt : Int := 80000
  /-- last consistent RESERVE_BG (R115); reset 120 000 -/
  reserveBg  : Int := 120000
  /-- BANK_DELAY in force, µs (R102, R116); reset 20 -/
  bankDelay  : Nat := 20
  /-- configuration error, BGT_STATUS.CFG_ERR (R114); reset 0 -/
  cfgErr     : Bool := false
  /-- budget state: 0 NORMAL, 1 LEAN, 2 SHORT, 3 BREACH (R108); reset 0 -/
  state      : Nat := 0
  /-- ticks left during which an earlier raise keeps BREACH (R108) -/
  breachHold : Nat := 0
  /-- the temperature condition of SHORT is met, with hysteresis (R108) -/
  hotShort   : Bool := false
  /-- the temperature condition of LEAN is met, with hysteresis (R108) -/
  hotLean    : Bool := false
  /-- admission mask, 5 bits (R110); reset 0x1F -/
  admitBits  : BitVec 5 := 0x1F
  /-- solver scale S (R109); reset 256 -/
  scale      : Nat := 256
  /-- t4 of the latest sample (R105); reset 0 -/
  t4         : Int := 0
  /-- highest t4 since cold reset (R114); reset 0 -/
  t4Max      : Int := 0
  /-- THERMAL_LIMIT is armed (R106) -/
  limitArmed : Bool := true
  /-- consecutive samples at or above 440 (R106) -/
  hotSamples : Nat := 0
  /-- entries into BREACH since start-up, BREACH_COUNT (R117) -/
  breaches   : Nat := 0
  /-- SLOW_FORCED_COUNT (R117) -/
  slowForced : Nat := 0
  /-- embers spent since cold reset, 64 bits (R114); reset 0 -/
  spent      : Nat := 0
  /-- device time of the last tick, ms (R107) -/
  tickAt     : Nat := 0
deriving DecidableEq, Repr

/-! ### Loop engine (chapter 06) -/

/-- A coefficient set (R154). -/
structure CoefSet where
  /-- REGION_LO -/
  regionLo : Int
  /-- BAND_HI -/
  bandHi   : Nat
  /-- BAND_LO -/
  bandLo   : Nat
  /-- BAND_IN -/
  bandIn   : Nat
  /-- MIN_ON_N -/
  minOn    : Nat
  /-- MIN_OFF_N -/
  minOff   : Nat
  /-- PULSE_N -/
  pulse    : Nat
  /-- PAUSE_N -/
  pause    : Nat
  /-- VSTEP, Q16 -/
  vstep    : Nat
  /-- ASTEP, Q16 -/
  astep    : Nat
  /-- JSTEP, Q16 -/
  jstep    : Nat
deriving DecidableEq, Repr

/-- A channel descriptor (R153). -/
structure LoopDesc where
  /-- MODE: 0 off, 1 two-point, 2 three-point, 3 profile -/
  mode      : Nat
  /-- FLAGS -/
  flags     : Byte
  /-- NSETS -/
  nsets     : Nat
  /-- TRIP_GROUP -/
  tripGroup : Nat
  /-- PERIOD_MS -/
  periodMs  : Nat
  /-- PHASE_MS -/
  phaseMs   : Nat
  /-- PV_POINT -/
  pvPoint   : Nat
  /-- TARGET_ID -/
  targetId  : Nat
  /-- SV_POINT, 0xFFFF_FFFF for none -/
  svPoint   : Nat
  /-- OUT_POINT -/
  outPoint  : Nat
  /-- SPEFF_POINT, 0xFFFF_FFFF for none -/
  speffPoint : Nat
  /-- OUT_ROUTE -/
  outRoute  : W32
  /-- FALLBACK -/
  fallback  : Int
  /-- FE_LIMIT -/
  feLimit   : Int
  /-- FE_TIME_MS -/
  feTimeMs  : Nat
  /-- JERK_N -/
  jerkN     : Nat
  /-- TRIP_STATE -/
  tripState : Nat
  /-- REGION_HYST -/
  regionHyst : Int
  /-- the eight coefficient sets -/
  sets      : List CoefSet
  /-- the 384 bytes as configured (R170 returns them) -/
  raw       : Bytes
deriving DecidableEq, Repr

/-- Fault state of a channel (R163). -/
inductive LoopFault where
  /-- no fault -/
  | none
  /-- fault action HOLD -/
  | hold
  /-- fault action FALLBACK -/
  | fallback
  /-- fault action TRIP -/
  | trip
deriving DecidableEq, Repr

/-- A loop channel (R150 to R173). -/
structure Channel where
  /-- descriptor in force; none for MODE 0 never configured (R153) -/
  desc      : Option LoopDesc := none
  /-- accepted descriptor that takes effect at the next sample (R169) -/
  next      : Option LoopDesc := none
  /-- device time from which the accepted descriptor may take effect: in a pair, a Main boundary (R169) -/
  nextFrom  : Nat := 0
  /-- disabled by CMD_LOOP_ENABLE from the next sample (R166, R171) -/
  disabled  : Bool := false
  /-- held as of the last sample (R166) -/
  held      : Bool := false
  /-- q, signed 64-bit Q16 (R158) -/
  q         : Int := 0
  /-- u, signed 64-bit Q16 (R158) -/
  u         : Int := 0
  /-- ring of the jerk filter, 32 entries (R158) -/
  ring      : List Int := []
  /-- k, ring position (R158) -/
  k         : Nat := 0
  /-- profiled set-point sp_eff, raw (R158) -/
  spEff     : Int := 0
  /-- target latched at the last commit of the owning class, raw (R39, R160) -/
  latched   : Int := 0
  /-- SCALE of the latched value -/
  latchedSc : Int := 0
  /-- state of the latched target point was a fault: the target's quality (R164) -/
  latchedQ  : Byte := 3
  /-- last target, Q16 (R160) -/
  target    : Int := 0
  /-- q as it stood when the hold began (R160 rule 2) -/
  holdQ     : Int := 0
  /-- output: 0 or 1; 0 STOP, 1 RAISE, 2 LOWER; raw value for profile (R161) -/
  out       : Int := 0
  /-- three-point zone: 0 DEAD, 1 RAISE, 2 LOWER (R161) -/
  zone      : Nat := 0
  /-- on_n (R161) -/
  onN       : Nat := 0
  /-- off_n (R161) -/
  offN      : Nat := 0
  /-- fe_ms (R162) -/
  feMs      : Nat := 0
  /-- fe, raw (R162) -/
  fe        : Int := 0
  /-- region in force (R157) -/
  region    : Nat := 0
  /-- pending region (R157) -/
  pendRegion : Nat := 0
  /-- an SV-bad episode has been reported (R157) -/
  schedBad  : Bool := false
  /-- PLAN_GAP (R160) -/
  planGap   : Bool := false
  /-- RECOVERING (R162) -/
  recovering : Bool := false
  /-- fault state (R163) -/
  fault     : LoopFault := .none
  /-- SAMPLES since start-up (R173) -/
  samples   : W32 := 0
  /-- the generator starts from the process value at the next sample (R159) -/
  restart   : Bool := true
deriving DecidableEq, Repr

/-! ### Network model and solver (chapters 07, 08) -/

/-- A NODE entry (R183). -/
structure Node where
  /-- NODE_ID -/
  id       : Nat
  /-- KIND: 0 junction, 1 fixed-pressure, 2 demand -/
  kind     : Nat
  /-- BC_POINT -/
  bcPoint  : Nat
  /-- P_POINT -/
  pPoint   : Nat
  /-- T_POINT -/
  tPoint   : Nat
  /-- TIN_POINT -/
  tinPoint : Nat
  /-- OBJECT -/
  object   : Nat
  /-- OBJECT_INDEX -/
  objIndex : Nat
deriving DecidableEq, Repr

/-- A BRANCH entry (R184). -/
structure Branch where
  /-- BRANCH_ID -/
  id       : Nat
  /-- FROM -/
  from'    : Nat
  /-- TO -/
  to'      : Nat
  /-- KIND: 0 pipe, 1 pump, 2 valve -/
  kind     : Nat
  /-- ROUGH -/
  rough    : Nat
  /-- SEGS -/
  segs     : Nat
  /-- KG -/
  kg       : Nat
  /-- RE_PER_Q -/
  rePerQ   : Nat
  /-- DP_LAM -/
  dpLam    : Nat
  /-- A0 -/
  a0       : Nat
  /-- A1 -/
  a1       : Nat
  /-- A2 -/
  a2       : Nat
  /-- CTRL_POINT -/
  ctrl     : Nat
  /-- LAMBDA -/
  lambda   : Nat
  /-- SEG_MASS -/
  segMass  : Nat
  /-- Q_POINT -/
  qPoint   : Nat
  /-- PUMP_GROUP -/
  group    : Nat
deriving DecidableEq, Repr

/-- A RANGE record (R190). -/
structure RangeRec where
  /-- JOB -/
  job   : Nat
  /-- KIND -/
  kind  : Nat
  /-- ROLE -/
  role  : Nat
  /-- SCALE -/
  scale : Int
  /-- INDEX -/
  index : Nat
  /-- RMAX -/
  rmax  : Nat
deriving DecidableEq, Repr

/-- A verified network model (R181 to R190). -/
structure Model where
  /-- MODEL_CRC -/
  crc      : W32
  /-- MODEL_ID -/
  modelId  : W64
  /-- AMB_POINT -/
  ambPoint : Nat
  /-- G_MIN -/
  gMin     : Nat
  /-- NODE entries; the position is the node index -/
  nodes    : List Node
  /-- BRANCH entries -/
  branches : List Branch
  /-- friction tables: Reynolds numbers and friction factors (R186) -/
  friction : List (List Nat × List Nat)
  /-- RANGE records -/
  ranges   : List RangeRec
  /-- tile pattern of the hydraulic system, built at load: row and column of every entry (R193) -/
  hydPat   : List (Nat × Nat)
  /-- tile pattern of the thermal system (R193) -/
  thermPat : List (Nat × Nat)
deriving DecidableEq, Repr

/-- A job descriptor (R214, R237). -/
structure JobDesc where
  /-- KIND -/
  kind      : Nat
  /-- METHOD -/
  method    : Nat
  /-- PRECOND -/
  precond   : Nat
  /-- TPRECOND -/
  tprecond  : Nat
  /-- CAP -/
  cap       : Nat
  /-- TCAP -/
  tcap      : Nat
  /-- NEWTON_MAX -/
  newtonMax : Nat
  /-- FLAGS -/
  flags     : Byte
  /-- KEEP_MAX -/
  keepMax   : Nat
  /-- TOL -/
  tol       : Nat
  /-- ACCEPT -/
  accept    : Nat
  /-- NTOL -/
  ntol      : Nat
  /-- DEADLINE_US -/
  deadlineUs : Nat
  /-- THERMAL_RESERVE_US -/
  reserveUs : Nat
  /-- FACTOR_LIMIT_US -/
  factorUs  : Nat
  /-- DP_MAX -/
  dpMax     : Nat
  /-- bytes 40 to 63 as they stand -/
  tail      : Bytes
  /-- SIGMA, Q16 (R237) -/
  sigma     : Nat
  /-- ETA, Q16 (R237) -/
  eta       : Nat
  /-- MU0: mantissa and exponent (R237) -/
  mu0       : Int × Int
  /-- REG (R237) -/
  reg       : Int × Int
  /-- THETA_MAX (R237) -/
  thetaMax  : Int × Int
deriving DecidableEq, Repr

/-- A result record (R216). -/
structure JobRecord where
  /-- STATUS -/
  status    : Nat := 0
  /-- FLAGS -/
  flags     : W16 := 0
  /-- OUTER_STEPS -/
  steps     : Nat := 0
  /-- CAP_USED -/
  capUsed   : Nat := 0
  /-- ITER_TOTAL -/
  iters     : Nat := 0
  /-- RESID, Q32 -/
  resid     : Nat := 0
  /-- NRESID, Q32 -/
  nresid    : Nat := 0
  /-- TRESID, Q32 -/
  tresid    : Nat := 0
  /-- ELAPSED_US -/
  elapsedUs : Nat := 0
  /-- COARSENED -/
  coarsened : Nat := 0
  /-- STAMP -/
  stamp     : Nat := 0
  /-- ISLAND_NODES -/
  islands   : Nat := 0
deriving DecidableEq, Repr

/-- A solver job in flight (R215, R222): what it read at its start. -/
structure JobRun where
  /-- the model at its issue -/
  model  : Model
  /-- descriptor -/
  desc   : JobDesc
  /-- stamp of the cycle, or acceptance time -/
  stamp  : Nat
  /-- request of a host job -/
  req    : Option Req
  /-- CTRL points' open branches at job start (R177) -/
  open'  : List Bool
  /-- control values of the branches at job start: s or x in Q16 -/
  ctrl   : List Int
  /-- node boundary values at job start: fixed pressures and demands, raw -/
  bc     : List Int
  /-- TIN values at job start, raw -/
  tin    : List (Option Int)
  /-- ambient temperature at job start, raw -/
  amb    : Int
  /-- starting pressures by node -/
  p0     : List Int
  /-- starting flows by branch -/
  q0     : List Int
  /-- starting temperatures: nodes, then segments -/
  t0     : List Int
  /-- WARM_PARTIAL (R213) -/
  partial' : Bool
  /-- nodes removed as islands (R177) -/
  island : List Nat
  /-- a demand was replaced by an estimate (R250) -/
  estUsed : Bool
  /-- the last accepted solution of a linear job, from which a warm one starts: δ by NODE_ID (R212) -/
  lin0   : FMap Int
  /-- reference time of the issue, ns -/
  issued : Nat
  /-- job deadline, ns from the issue (R214, R215) -/
  limitNs : Nat
  /-- Δt of the thermal stage: the Main period, µs (R180) -/
  dtUs   : Nat
  /-- instants at which a factorisation limit fell, ns from the issue (R202) -/
  lateAt : List Nat
  /-- tile rows whose tiles the home bricks' stores hold (R195) -/
  tileRows : Nat
deriving DecidableEq, Repr

/-- The network solver (R174 to R224). -/
structure Solver where
  /-- chunked load of a model (R219) -/
  load       : Option ChunkLoad := none
  /-- verified model waiting for a switch (R219) -/
  loaded     : Option Model := none
  /-- model in force (R220) -/
  model      : Option Model := none
  /-- pending model switch: request and instant (R220) -/
  switch     : Option (Req × Nat) := none
  /-- descriptor of the Main job (R221) -/
  mainDesc   : Option JobDesc := none
  /-- Main job in flight (R215) -/
  mainJob    : Option JobRun := none
  /-- host job in flight (R222) -/
  hostJob    : Option JobRun := none
  /-- result record of the last Main job (R216) -/
  lastMain   : JobRecord := {}
  /-- the last Main job has run: SOL_LAST_NRESID (R218); reset 0xFFFF_FFFF -/
  lastNresid : W32 := 0xFFFFFFFF
  /-- last accepted solution of the network job (R212) -/
  solution   : Option Solution := none
  /-- last accepted solution of a thermal job (KIND 2; R212) -/
  thermSol   : Option Solution := none
  /-- last accepted solution of a linear job (KIND 0; R212): its δ stands in the pressures -/
  linSol     : Option Solution := none
  /-- kept hydraulic factor: the last complete one (R202) -/
  keptHyd    : Option Factor := none
  /-- kept thermal factor (R202) -/
  keptTherm  : Option Factor := none
  /-- consecutive Main jobs whose Newton stage was not accepted (R208) -/
  rejN       : Nat := 0
  /-- consecutive Main jobs whose thermal stage was not accepted (R208) -/
  rejT       : Nat := 0
  /-- SOLVER_BAD raised in the present episode of the Newton stage (R208) -/
  badN       : Bool := false
  /-- SOLVER_BAD raised in the present episode of the thermal stage (R208) -/
  badT       : Bool := false
  /-- solver scales S in force, newest first: reference time of the tick and S (R109, R112) -/
  scales     : List (Nat × Nat) := []
  /-- the model was switched since the last Main job (R213, R249) -/
  switched   : Bool := false
  /-- demand estimates kept by the estimator: NODE_ID, raw (R250) -/
  estDemand  : FMap Int := []
  /-- node temperatures from kind-3 measurement rows: NODE_ID, raw (R250) -/
  estTemps   : FMap Int := []
  /-- an estimator result seeds the next Main job (R250) -/
  seeded     : Bool := false
  /-- open branches of the last Main job issued (R249); reset none -/
  lastOpen   : List Bool := []
  /-- inner iterations since cold reset, 64 bits (R218); reset 0 -/
  iters      : Nat := 0
deriving DecidableEq, Repr

/-- A VARBOUND or CONBOUND entry (R228). -/
structure BoundEntry where
  /-- LO -/
  lo      : Int
  /-- HI -/
  hi      : Int
  /-- LO_POINT -/
  loPoint : Nat
  /-- HI_POINT -/
  hiPoint : Nat
  /-- C_POINT -/
  cPoint  : Nat
  /-- C -/
  c       : Int
deriving DecidableEq, Repr

/-- One nonzero of a stored matrix: row, column, raw value, tile scale (R194). -/
structure NonZero where
  /-- row -/
  row   : Nat
  /-- column -/
  col   : Nat
  /-- raw 32-bit value -/
  val   : Int
  /-- scale of its tile -/
  scale : Int
deriving DecidableEq, Repr

/-- A TRAJ entry (R230). -/
structure Traj where
  /-- VAR_FIRST -/
  first    : Nat
  /-- VAR_STRIDE -/
  stride   : Nat
  /-- OUT_POINT -/
  outPoint : Nat
deriving DecidableEq, Repr

/-- A verified problem image (R226 to R231). -/
structure Problem where
  /-- PROBLEM_CRC -/
  crc       : W32
  /-- PROBLEM_ID -/
  problemId : W64
  /-- MODEL_ID -/
  modelId   : W64
  /-- HORIZON -/
  horizon   : Nat
  /-- STEP_S -/
  stepS     : Nat
  /-- DELTA0 -/
  delta0    : Nat
  /-- VARBOUND entries -/
  vars      : List BoundEntry
  /-- CONBOUND entries -/
  cons      : List BoundEntry
  /-- nonzeros of H -/
  h         : List NonZero
  /-- nonzeros of A -/
  a         : List NonZero
  /-- trajectories -/
  trajs     : List Traj
  /-- RANGE records -/
  ranges    : List RangeRec
deriving DecidableEq, Repr

/-- An optimise job in flight (R229, R238): what it read at its start. -/
structure OptRun where
  /-- the problem at its issue -/
  prob      : Problem
  /-- stamp of the Optimise cycle -/
  stamp     : Nat
  /-- descriptor -/
  desc      : JobDesc
  /-- a constant stood in for a point, or a pair of bounds for its values (R229) -/
  estimated : Bool
  /-- the start point x of R232 -/
  x0        : List Int
  /-- lower bounds of the variables, raw -/
  lo        : List Int
  /-- upper bounds of the variables, raw -/
  hi        : List Int
  /-- costs of the variables, raw -/
  cost      : List Int
  /-- lower bounds of the constraints, raw -/
  conLo     : List Int
  /-- upper bounds of the constraints, raw -/
  conHi     : List Int
  /-- reference time of the issue, ns -/
  issued    : Nat
  /-- deadline, ns from the issue (R237, R238) -/
  limitNs   : Nat
  /-- tile rows whose tiles the home bricks' stores hold (R195) -/
  tileRows  : Nat
deriving DecidableEq, Repr

/-- The optimiser (R225 to R244, R251 to R254). -/
structure Opt where
  /-- chunked load of a problem (R251) -/
  load     : Option ChunkLoad := none
  /-- verified problem waiting for a switch -/
  loaded   : Option Problem := none
  /-- problem in force -/
  problem  : Option Problem := none
  /-- pending problem switch: request and instant (R251) -/
  switch   : Option (Req × Nat) := none
  /-- descriptor (R252) -/
  desc     : Option JobDesc := none
  /-- job in flight (R238) -/
  job      : Option OptRun := none
  /-- the Optimise cycle has asked for its job, which waits for admission (R238) -/
  wanted   : Bool := false
  /-- accepted plan that comes into force at the next Main period start (R242) -/
  nextPlan : Option Plan := none
  /-- plan in force (R242) -/
  plan     : Option Plan := none
  /-- last accepted x of the problem (R232) -/
  lastX    : Option (List Int) := none
  /-- record of the last optimise job (R253) -/
  last     : JobRecord := {}
  /-- consecutive plans not accepted (R244, R253) -/
  rejected : Nat := 0
  /-- OPT_BAD raised in this episode (R244) -/
  badRaised : Bool := false
  /-- OPT_MODEL_MISMATCH raised in this episode (R244) -/
  mismatch : Bool := false
  /-- LOOP_PLAN_GAP raised for the trajectory points in this gap (R243) -/
  gapRaised : Bool := false
deriving DecidableEq, Repr

/-- A row of the measurement table (R247). -/
structure MeasRow where
  /-- KIND -/
  kind   : Nat
  /-- OBJECT -/
  object : Nat
  /-- POINT -/
  point  : Nat
  /-- SIGMA -/
  sigma  : Nat
deriving DecidableEq, Repr

/-- A measurement table (R247). -/
structure MeasTable where
  /-- TABLE_CRC -/
  crc         : W32
  /-- MODEL_ID -/
  modelId     : W64
  /-- SIGMA_ZERO -/
  sigmaZero   : Nat
  /-- SIGMA_PSEUDO -/
  sigmaPseudo : Nat
  /-- BAD_K, Q16 -/
  badK        : Nat
  /-- rows -/
  rows        : List MeasRow
deriving DecidableEq, Repr

/-- What triggered an estimator run (R249, R256). -/
inductive EstTrigger where
  /-- 0 cold start -/
  | coldStart
  /-- 1 switchover -/
  | switchover
  /-- 2 structure change or model switch -/
  | structureChange
  /-- 3 demand -/
  | demand
  /-- 4 test -/
  | test
deriving DecidableEq, Repr

/-- An estimator run in flight: what it read at its start (R245, R246, R249). -/
structure EstRun where
  /-- trigger -/
  trig  : EstTrigger
  /-- request of a demand or test run -/
  req   : Option Req
  /-- network data as a network job reads them (R176, R177) -/
  job   : JobRun
  /-- table rows in use with their values, raw -/
  used  : List (MeasRow × Int)
  /-- the table at the start of the run (R255) -/
  table : MeasTable
  /-- the last accepted demand estimates by NODE_ID (R246) -/
  prior : FMap Int
deriving DecidableEq, Repr

/-- The state estimator (R245 to R250, R255, R256). -/
structure Est where
  /-- chunked load of a table (R255) -/
  load      : Option ChunkLoad := none
  /-- measurement table -/
  table     : Option MeasTable := none
  /-- descriptor (R252) -/
  desc      : Option JobDesc := none
  /-- run in flight -/
  run       : Option EstRun := none
  /-- the one merged pending run: trigger and demand request (R249) -/
  pending   : Option (EstTrigger × Option Req) := none
  /-- a waiting test run (R249) -/
  testReq   : Option Req := none
  /-- record of the last run (R256) -/
  last      : JobRecord := {}
  /-- trigger of the last run (R256) -/
  lastTrig  : EstTrigger := .coldStart
  /-- runs not accepted (R250, R256) -/
  rejected  : Nat := 0
deriving DecidableEq, Repr

end Sys2Proof.Machine
end

