-- ==== Sys2Proof/Machine/Records2.lean ====
section
/-! DEFINITION. Records2.lean: the parts State is made of, chapters 09 to 21, as plain data. A default value
is the value after reset: where a docstring says "reset", it is the spec's; every other default is the model's
(DESIGN CHOICE, assumption log entry 3). -/

namespace Sys2Proof.Machine

/-! ### Metering (chapter 09) -/

/-- A set entry of a parameter block (R292). -/
structure SetCfg where
  /-- MODE: 0 unused, 1 three-phase four-wire -/
  mode      : Nat
  /-- ZC_PHASE -/
  zcPhase   : Nat
  /-- ZC_TIMEOUT_MS -/
  zcTimeout : Nat
  /-- ZC_HYST -/
  zcHyst    : Nat
  /-- V_LSB_NV -/
  vLsb      : Nat
  /-- I_LSB_NA -/
  iLsb      : Nat
  /-- TEMP_POINT -/
  tempPoint : Nat
  /-- PMAX_W -/
  pmaxW     : Nat
  /-- POINT_BASE -/
  pointBase : Nat
  /-- BAND_T0 to BAND_T6, 2^-4 °C -/
  bands     : List Int
deriving DecidableEq, Repr

/-- A heat entry of a parameter block (R292). -/
structure HeatCfg where
  /-- MODE: 0 unused, 1 heat, 2 cooling -/
  mode      : Nat
  /-- FLOW_SRC -/
  flowSrc   : Nat
  /-- PULSE_IN -/
  pulseIn   : Nat
  /-- AUX_IN, 0xFF for none -/
  auxIn     : Nat
  /-- METER_POS -/
  meterPos  : Nat
  /-- KTABLE -/
  ktable    : Nat
  /-- GLITCH_US -/
  glitchUs  : Nat
  /-- PW_UL -/
  pwUl      : Nat
  /-- DT_MIN, Q16 K -/
  dtMin     : Int
  /-- PMAX_W -/
  pmaxW     : Nat
  /-- POINT_BASE -/
  pointBase : Nat
deriving DecidableEq, Repr

/-- A compensation entry (R268). -/
structure CompEntry where
  /-- GAIN, Q30 -/
  gain   : Nat
  /-- PHASE -/
  phase  : Int
  /-- OFFSET -/
  offset : Int
deriving DecidableEq, Repr

/-- A heat-coefficient table (R274). -/
structure KTab where
  /-- supply nodes, Q16 °C -/
  f : List Int
  /-- return nodes, Q16 °C -/
  r : List Int
  /-- values by supply node, then return node, Q24 -/
  k : List (List Int)
deriving DecidableEq, Repr

/-- A verified parameter block (R292). -/
structure MeterParams where
  /-- PARAM_CRC -/
  crc        : W32
  /-- PARAM_ID -/
  paramId    : W64
  /-- INTERVAL_S -/
  intervalS  : Nat
  /-- DIV_TOL_MWH -/
  divMwh     : Nat
  /-- DIV_TOL_PPM -/
  divPpm     : Nat
  /-- METER_LEVEL -/
  meterLevel : Nat
  /-- set entries 0 to 3 -/
  sets       : List SetCfg
  /-- heat entries 0 to 15 -/
  heats      : List HeatCfg
  /-- compensation entries: 4 sets × 8 bands × 6 channels -/
  comp       : List CompEntry
  /-- user tables 1 to 4 -/
  ktabs      : List KTab
  /-- the 64-byte header -/
  header     : Bytes
deriving DecidableEq, Repr

/-- An interval record (R278). -/
structure IntervalRec where
  /-- OBJECT -/
  object   : Nat
  /-- FLAGS -/
  flags    : Byte
  /-- DURATION_MS -/
  duration : Nat
  /-- START -/
  start    : Nat
  /-- MISSING_MS -/
  missing  : Nat
  /-- DELTA, eight values -/
  deltas   : List Nat
  /-- SEQ -/
  seq      : W32
deriving DecidableEq, Repr

/-- The open interval of an object (R277) and its ring. -/
structure Interval where
  /-- device time of the open -/
  start   : Nat := 0
  /-- totals at the open -/
  opened  : List Nat := []
  /-- flags gathered so far -/
  flags   : Byte := 0
  /-- missing time in µs -/
  missing : Nat := 0
  /-- the interval is open -/
  isOpen  : Bool := false
  /-- ring of 4 096 records by SEQ mod 4 096 -/
  ring    : FMap IntervalRec := []
  /-- SEQ of the next record -/
  nextSeq : W32 := 0
deriving DecidableEq, Repr

/-- The exact sums of one phase over the open cycle (R265). -/
structure PhaseSum where
  /-- Σ v·i -/
  p  : Int := 0
  /-- Σ vq·i -/
  q  : Int := 0
  /-- Σ v² -/
  v2 : Int := 0
  /-- Σ i² -/
  i2 : Int := 0
deriving DecidableEq, Repr

/-- A three-phase set (R257 to R272, R276). -/
structure MeterSet where
  /-- enabled (R286) -/
  enabled   : Bool := false
  /-- a disable waits for the end of the open cycle (R286) -/
  disabling : Bool := false
  /-- SEQ of the last frame received (R259) -/
  lastSeq   : Option Byte := none
  /-- port lost (R260) -/
  portLost  : Bool := false
  /-- consecutive accepted frames of a lost port (R260) -/
  okRun     : Nat := 0
  /-- reference time of the last accepted frame, ns (R260) -/
  lastFrame : Nat := 0
  /-- compensation band in force (R268) -/
  band      : Nat := 0
  /-- gain-corrected samples x' of the last frame, six channels (R264) -/
  prev      : List Int := []
  /-- corrected voltages of past samples, newest first, three per sample (R266) -/
  hist      : List (List Int) := []
  /-- ZC_PHASE voltage has been at or below -ZC_HYST since the last detection (R271) -/
  armed     : Bool := false
  /-- samples since start-up, the k of R266 -/
  k         : Nat := 0
  /-- sample of the last detection (R271) -/
  lastK     : Option Nat := none
  /-- position c of the last crossing, Q16 samples (R266) -/
  lastC     : Int := 0
  /-- reference time of the last crossing, ns (R272) -/
  lastZc    : Nat := 0
  /-- N_q, Q16 samples; none while it is not measured (R266) -/
  nq        : Option Int := none
  /-- loss of signal (R272) -/
  los       : Bool := false
  /-- samples of the open cycle -/
  samples   : Nat := 0
  /-- the open cycle is flagged RANGE (R259) -/
  range     : Bool := false
  /-- sums of the three phases over the open cycle (R265) -/
  sums      : List PhaseSum := []
  /-- eight totals, mWh (R276) -/
  totals    : List Nat := [0, 0, 0, 0, 0, 0, 0, 0]
  /-- eight residues (R267) -/
  residues  : List Nat := [0, 0, 0, 0, 0, 0, 0, 0]
  /-- Pc, Qc, Sc and N_s of the last cycle (R265, R288) -/
  lastCycle : List Int := [0, 0, 0, 0]
  /-- open-cycle time recorded by the last flush, ms (R281, R282) -/
  openMs    : Nat := 0
  /-- reference time from which a loss of signal counts as missing, ns (R272) -/
  losFrom   : Nat := 0
  /-- open interval and ring (R277) -/
  interval  : Interval := {}
deriving DecidableEq, Repr

/-- A pulse edge of the open step (R261). -/
structure PulseEdge where
  /-- input -/
  input  : Nat
  /-- device time of the edge, ns -/
  stamp  : Nat
  /-- levels of the sixteen inputs at the edge -/
  levels : W16
deriving DecidableEq, Repr

/-- A heat channel (R261 to R263, R273 to R276). -/
structure HeatCh where
  /-- enabled (R286) -/
  enabled   : Bool := false
  /-- a disable waits for the end of the open step (R286) -/
  disabling : Bool := false
  /-- supply temperature read at the last 100 ms boundary, Q16 °C; none when failed (R262, R263) -/
  supply    : Option Int := none
  /-- return temperature read at the last 100 ms boundary -/
  ret       : Option Int := none
  /-- METER_TEMP_FAIL has been raised in this episode (R263) -/
  tempEp    : Bool := false
  /-- METER_RANGE has been raised in this episode (R274) -/
  rangeEp   : Bool := false
  /-- METER_PULSE_RATE has been raised in this episode (R261) -/
  rateEp    : Bool := false
  /-- device time at which the open step began -/
  stepFrom  : Nat := 0
  /-- four totals: energy forward and reverse (mWh), volume forward and reverse (mL) (R276) -/
  totals    : List Nat := [0, 0, 0, 0]
  /-- four residues: energies in 2^-40 µWh, volumes in µL (R275) -/
  residues  : List Nat := [0, 0, 0, 0]
  /-- power (W), flow (mL/s) of the last step (R288) -/
  lastStep  : List Int := [0, 0]
  /-- open interval and ring (R277) -/
  interval  : Interval := {}
deriving DecidableEq, Repr

/-- A totals block (R281). -/
structure TotBlock where
  /-- FLAGS: FLUSH, FINAL, TAKEOVER, ADOPTED -/
  flags    : W16
  /-- SEQ -/
  seq      : W64
  /-- STAMP -/
  stamp    : Nat
  /-- METER_VERSION -/
  version  : W32
  /-- PARAM_CRC -/
  paramCrc : W32
  /-- totals of sets 0 to 3 -/
  sets     : List (List Nat)
  /-- residues of sets 0 to 3 -/
  setRes   : List (List Nat)
  /-- open-cycle times of sets 0 to 3, ms -/
  openMs   : List Nat
  /-- totals of heat channels 0 to 15 -/
  heats    : List (List Nat)
  /-- residues of heat channels 0 to 15 -/
  heatRes  : List (List Nat)
deriving DecidableEq, Repr

/-- An object and total of a divergence episode (R289). -/
structure DivEp where
  /-- object code of R278 -/
  object : Nat
  /-- index of the total -/
  total  : Nat
  /-- saves within tolerance in a row -/
  okRun  : Nat
deriving DecidableEq, Repr

/-- A parameter switch that waits for the next whole second (R284). -/
structure ParamSwitch where
  /-- the request to complete -/
  req    : Req
  /-- the parameters -/
  params : MeterParams
  /-- the whole block, for the settings store -/
  raw    : Bytes
  /-- instant at which they take effect, device time -/
  due    : Nat
deriving DecidableEq, Repr

/-- The metering brick (R257 to R293). -/
structure Meter where
  /-- chunked load of a block (R293) -/
  load     : Option ChunkLoad := none
  /-- verified block waiting for a switch, with its bytes -/
  loaded   : Option (MeterParams × Bytes) := none
  /-- parameters in force (R284) -/
  params   : Option MeterParams := none
  /-- pending switch (R284) -/
  switch   : Option ParamSwitch := none
  /-- three-phase sets 0 to 3 -/
  sets     : FMap MeterSet := []
  /-- heat channels 0 to 15 -/
  heats    : FMap HeatCh := []
  /-- edges stamped in the open steps, oldest first (R261) -/
  edges    : List PulseEdge := []
  /-- SEQ of the last save (R280, R291); reset 0 -/
  seq      : W64 := 0
  /-- totals area: location to sealed block (R280); kept in MRAM -/
  blocks   : FMap TotBlock := []
  /-- device time of the last save, ns (R280) -/
  savedAt  : Nat := 0
  /-- device time of the last 100 ms boundary, ns (R262, R273) -/
  stepAt   : Nat := 0
  /-- FLUSHED (R291); reset 0 -/
  flushed  : Bool := false
  /-- metering has stopped after a flush (R282) -/
  stopped  : Bool := false
  /-- divergence episodes (R289) -/
  diverge  : List DivEp := []
  /-- the next save carries TAKEOVER (R290) -/
  takeover : Bool := false
  /-- adoption of the active's totals at the next save: the request, if a command asked for it (R290) -/
  adopt    : Option (Option Req) := none
  /-- the active's totals as last mirrored: sets (R289) -/
  mirrorSets : List (List Nat) := []
  /-- the active's totals as last mirrored: heat channels (R289) -/
  mirrorHeat : List (List Nat) := []
  /-- the active's totals block as the join copied it (R290, R443) -/
  joinBlock : Option TotBlock := none
  /-- metering component version (R291); reset 0 -/
  version  : W32 := 0
  /-- version of the component at the last save, for R285 -/
  lastVersion : W32 := 0
  /-- device time of the last read of the converters, ns (R262) -/
  readAt   : Nat := 0
deriving DecidableEq, Repr

/-! ### Field rings (chapter 10) -/

/-- One source in the node table of a ring (R296, R297). -/
structure HsrNode where
  /-- sequence numbers accepted, newest first, with their reference time -/
  seqs   : List (W16 × Nat) := []
  /-- reference time of the last supervision frame or first sight -/
  seenAt : Nat := 0
deriving DecidableEq, Repr

/-- Configuration of a ring (R321 CMD_RING_CONFIG) and its HSR state. -/
structure Ring where
  /-- AUTH (R305); reset 0 -/
  auth     : Bool := false
  /-- KEY_CUR -/
  keyCur   : Nat := 0
  /-- KEY_NEXT -/
  keyNext  : Nat := 0
  /-- GROUP_MAC -/
  groupMac : BitVec 48 := 0
  /-- node table by source MAC (R296) -/
  nodes    : FMap HsrNode := []
  /-- RING_NODE_TABLE_FULL has been raised (R296) -/
  tableFull : Bool := false
  /-- duplicates discarded (R321) -/
  dups     : Nat := 0
  /-- frames forwarded (R321) -/
  forwarded : Nat := 0
  /-- the send epoch is exhausted (R306) -/
  exhausted : Bool := false
  /-- HSR sequence number of the frames NB originates (R295) -/
  hsrSeq   : W16 := 0
deriving DecidableEq, Repr

/-- A ring port (R299, R300). -/
structure RingPort where
  /-- declared failed (R299); reset no -/
  failed   : Bool := false
  /-- PCS up -/
  linkUp   : Bool := true
  /-- reference time of the last LINK_CHECK, ns -/
  checkAt  : Option Nat := none
  /-- the echo of the last check has come -/
  echoed   : Bool := true
  /-- consecutive checks without echo -/
  misses   : Nat := 0
  /-- consecutive echoes while failed (R300) -/
  echoes   : Nat := 0
  /-- reference time of the last supervision frame sent (R297) -/
  superAt  : Nat := 0
deriving DecidableEq, Repr

/-- A station configuration (R321). -/
structure StationCfg where
  /-- RING -/
  ring       : Nat
  /-- ENABLE -/
  enable     : Bool
  /-- AUTH flag of the station -/
  auth       : Bool
  /-- PERIOD_US -/
  periodUs   : Nat
  /-- MISS_N -/
  missN      : Nat
  /-- TRIP_PERMIT -/
  tripPermit : W16
  /-- MAC -/
  mac        : BitVec 48
deriving DecidableEq, Repr

/-- An input dataset entry (R304). -/
structure DsEntry where
  /-- LOCAL_INDEX -/
  idx     : Nat
  /-- QUALITY -/
  quality : Byte
  /-- SCALE -/
  scale   : Int
  /-- VALUE -/
  value   : Int
deriving DecidableEq, Repr

/-- An accepted input dataset (R308, R445). -/
structure InDataset where
  /-- SEQ -/
  seq     : Nat
  /-- TIME -/
  time    : Nat
  /-- entries -/
  entries : List DsEntry
deriving DecidableEq, Repr

/-- A station (R307 to R309). -/
structure Station where
  /-- configuration in force -/
  cfg      : Option StationCfg := none
  /-- absent (R309) -/
  absent   : Bool := true
  /-- reference time of the last accepted input dataset, ns -/
  acceptedAt : Option Nat := none
  /-- reference time at which it was enabled, ns -/
  enabledAt : Nat := 0
  /-- last four accepted datasets, newest first (R445) -/
  datasets : List InDataset := []
  /-- last SEQ accepted by stream: dataset × 2^16 + kind × 2^8 + sender (R306, R307) -/
  streams  : FMap Nat := []
  /-- reject counter (R307) -/
  rejects  : Nat := 0
  /-- outputs discarded (R46) -/
  discards : Nat := 0
  /-- DATASET_REJECTED has been raised in this episode (R318) -/
  rejectEp : Bool := false
  /-- DATASET_AUTH_FAIL has been raised in this episode (R305) -/
  authEp   : Bool := false
deriving DecidableEq, Repr

/-- An output dataset (R311, R321). -/
structure OutDataset where
  /-- CLASS -/
  cls     : Nat
  /-- HOLD_MS -/
  holdMs  : Nat
  /-- local indices -/
  indices : List Nat
deriving DecidableEq, Repr

/-- A loop route (R313, R321). -/
structure LoopRoute where
  /-- STATION -/
  station : Nat
  /-- LOCAL_INDEX -/
  idx     : Nat
  /-- HOLD_MS -/
  holdMs  : Nat
deriving DecidableEq, Repr

/-- A trip group (R314, R321). -/
structure TripGroup where
  /-- ENABLE; reset 0 -/
  enable   : Bool := false
  /-- OUT_MASK -/
  outMask  : W16 := 0
  /-- OUT_LEVEL -/
  outLevel : W16 := 0
  /-- STATIONS, 0 for none -/
  stations : List Nat := []
deriving DecidableEq, Repr

/-- A ring, station, dataset, route, group or CAN configuration that waits for the Main boundary (R317, R357). -/
structure BoundaryCfg where
  /-- opcode -/
  opcode  : Nat
  /-- payload -/
  payload : Bytes
deriving DecidableEq, Repr

/-- The field rings (R294 to R321). -/
structure Rings where
  /-- rings 0 to 3 -/
  rings    : FMap Ring := []
  /-- ports 0 to 7 -/
  ports    : FMap RingPort := []
  /-- stations by number -/
  stations : FMap Station := []
  /-- output datasets by station × 65 536 + dataset -/
  outs     : FMap OutDataset := []
  /-- loop routes by number -/
  routes   : FMap LoopRoute := []
  /-- trip groups 1 to 16 -/
  groups   : FMap TripGroup := []
  /-- latched groups, bit g - 1 (R316); the retentive state holds them -/
  latched  : W16 := 0
  /-- TRIP_OUT pins: level driven, none for high impedance; by pin (R314, R454) -/
  pins     : FMap Bool := []
  /-- GPO pins that loop channels drive: level by pin, none for high impedance (R564, R565) -/
  gpo      : FMap Bool := []
  /-- send counts of the module's streams by stream key (R306) -/
  counts   : FMap Nat := []
  /-- last output set sent of each periodic class: station, dataset, body (R452 step 5, R550) -/
  lastOut  : FMap (List (Nat × Nat × Bytes)) := []
  /-- last loop frame body of each route (R452 step 5) -/
  lastLoop : FMap Bytes := []
  /-- Knama frames accepted since cold reset, 64 bits (R319); reset 0 -/
  rx       : Nat := 0
deriving DecidableEq, Repr

/-! ### Network time (chapter 11) -/

/-- Configuration of a domain (R340 CMD_TIME_CONFIG). -/
structure DomainCfg where
  /-- SOURCE: 0 off, 1 PTP, 2 PPS; reset off -/
  source    : Nat := 0
  /-- PTP_DOMAIN -/
  domain    : Nat := 0
  /-- DELAY_MECH: 0 request-response, 1 peer -/
  mech      : Nat := 0
  /-- RING_MASK -/
  ringMask  : Byte := 0
  /-- LOG_SYNC -/
  logSync   : Int := 0
  /-- LOSS_N -/
  lossN     : Nat := 3
  /-- CLOCK_CLASS; default 255 (R327) -/
  clockClass : Nat := 255
  /-- PRIORITY1 -/
  priority1 : Nat := 0
  /-- PRIORITY2 -/
  priority2 : Nat := 0
  /-- LOCK_NS -/
  lockNs    : Nat := 10
  /-- DSTEP_NS -/
  dstepNs   : Nat := 40
  /-- KP, Q16; default 0x0002_0000 (R330) -/
  kp        : Nat := 0x20000
  /-- KI, Q16; default 0x0000_4000 (R330) -/
  ki        : Nat := 0x4000
deriving DecidableEq, Repr

/-- Servo state of a domain (R331). -/
inductive DomSt where
  /-- 0 FREE -/
  | free
  /-- 1 ACQUIRING -/
  | acquiring
  /-- 2 LOCKED -/
  | locked
  /-- 3 HOLDOVER -/
  | holdover
deriving DecidableEq, Repr

/-- BMCA state of a PTP port of the boundary clock (R327). -/
inductive PtpPortSt where
  /-- LISTENING -/
  | listening
  /-- SLAVE -/
  | slave
  /-- PASSIVE -/
  | passive
  /-- MASTER -/
  | master
deriving DecidableEq, Repr

/-- An Announce as last received at a port (R327, R336). -/
structure AnnounceRec where
  /-- priority vector: priority1, class, quality, priority2, identity, steps (R327) -/
  rank     : List Nat
  /-- grandmaster identity -/
  gm       : W64
  /-- grandmaster clockClass -/
  gmClass  : Byte
  /-- source clock identity -/
  source   : W64
  /-- reference time of receipt, ns -/
  at'      : Nat
deriving DecidableEq, Repr

/-- Stamps of one exchange in progress at a port (R325, R328, R330). -/
structure PtpPort where
  /-- BMCA state (R327) -/
  st        : PtpPortSt := .listening
  /-- last Announce received -/
  announce  : Option AnnounceRec := none
  /-- two-step Sync waiting for its Follow_Up: sequenceId, ingress stamp, correction (ns) -/
  syncSeq   : Option (W16 × Nat × Int) := none
  /-- ingress stamp t2 of the last complete Sync and its origin t1 with correction, ns -/
  t1t2      : Option (Int × Nat) := none
  /-- delay request out: sequenceId and egress stamp t3 in this domain's clock -/
  reqOut    : Option (W16 × Nat) := none
  /-- sequenceId of the next delay request -/
  reqSeq    : W16 := 0
  /-- mean path delay, ns (R330, R340); reset 0 -/
  delay     : Int := 0
  /-- reference time of the last Sync sent, ns (R327) -/
  syncAt    : Nat := 0
  /-- reference time of the last Announce sent, ns (R327) -/
  annAt     : Nat := 0
  /-- sequenceId of the next Sync -/
  syncOut   : W16 := 0
  /-- sequenceId of the next Announce -/
  annOut    : W16 := 0
deriving DecidableEq, Repr

/-- A domain (R327 to R331). -/
structure Domain where
  /-- configuration -/
  cfg      : DomainCfg := {}
  /-- servo state (R331); reset FREE -/
  st       : DomSt := .free
  /-- acc of R330 -/
  acc      : Int := 0
  /-- y of R330; reset 0 -/
  y        : Int := 0
  /-- consecutive samples within LOCK_NS (R331) -/
  goodRun  : Nat := 0
  /-- consecutive samples beyond 4 × LOCK_NS (R331) -/
  badRun   : Nat := 0
  /-- last sample e, ns (R339); reset 0 -/
  lastE    : Int := 0
  /-- reference time of the last sample used, ns -/
  sampleAt : Nat := 0
  /-- STEPS (R331) -/
  steps    : Nat := 0
  /-- SLAVE port, 8 for PPS (R339); reset none -/
  slave    : Option Nat := none
  /-- ports of the boundary clock, by port -/
  ports    : FMap PtpPort := []
  /-- grandmaster identity (R340); reset 0 -/
  gm       : W64 := 0
  /-- grandmaster clockClass -/
  gmClass  : Byte := 0
  /-- reference time since which it has been LOCKED, ns (R332) -/
  lockedAt : Nat := 0
  /-- currentUtcOffset of its source, where valid (R336) -/
  utc      : Option Int := none
deriving DecidableEq, Repr

/-- Latency corrections of a port (R325, R340 CMD_TIME_PORT). -/
structure PortCorr where
  /-- INGRESS_NS -/
  ingress : Int := 0
  /-- EGRESS_NS -/
  egress  : Int := 0
  /-- ASYM_NS -/
  asym    : Int := 0
deriving DecidableEq, Repr

/-- Network time (R322 to R340). Clock counts are in units of 2^-32 ns, modulo 2^96. -/
structure TimeSt where
  /-- device time T (R322); at a start from the calendar (R335) -/
  dev      : Nat := 0
  /-- domain clock D0 -/
  d0       : Nat := 0
  /-- domain clock D1 -/
  d1       : Nat := 0
  /-- domain 0 -/
  dom0     : Domain := {}
  /-- domain 1 -/
  dom1     : Domain := {}
  /-- latency corrections of ports 0 to 8 -/
  corr     : FMap PortCorr := []
  /-- selected domain (R332, R339); reset 0 -/
  sel      : Fin 2 := 0
  /-- c of R333 -/
  c        : Int := 0
  /-- y_dev (R333, R335); reset 0 -/
  yDev     : Int := 0
  /-- delta of R333 as last sampled, ns; reset 0 -/
  delta    : Int := 0
  /-- SLEWING (R333); reset 0 -/
  slewing  : Bool := false
  /-- NEVER_LOCKED (R335); reset 1 -/
  neverLocked : Bool := true
  /-- STEP_NS (R334); default 1 000 000 -/
  stepNs   : Nat := 1000000
  /-- the selected domain has not reached LOCKED since the start (R334) -/
  stepArmed : Bool := true
  /-- UTC offset in force (R336, R339); reset 37 -/
  utc      : Int := 37
  /-- PTP_UTC.VALID (R339); reset 0 -/
  utcValid : Bool := false
  /-- LEAP61 (R336, R339); reset 0 -/
  leap61   : Bool := false
  /-- LEAP59 (R336, R339); reset 0 -/
  leap59   : Bool := false
  /-- TAI second at which the pending leap changes the offset (R336) -/
  leapAt   : Option Nat := none
  /-- last PPS edge: stamps in device time, D0 and D1, and reference time (R323, R329) -/
  ppsEdge  : Option (Nat × Nat × Nat × Nat) := none
  /-- reference time of the last PPS edge of any kind, ns (R329) -/
  ppsLast  : Option Nat := none
  /-- edges ignored because they came early (R329) -/
  ppsEarly : Nat := 0
  /-- reference time of the last usable PPS edge, ns (R339 PPS_PRESENT) -/
  ppsUsed  : Option Nat := none
  /-- reference time of the last follower update, ns (R333) -/
  followAt : Nat := 0
  /-- TIME_PAIR_DIVERGE has been raised in this episode (R337) -/
  divergeEp : Bool := false
deriving DecidableEq, Repr

/-! ### Plant buses (chapter 12) -/

/-- A signal of a buffer's map (R348). -/
structure CanSignal where
  /-- POINT_ID -/
  point    : Nat
  /-- START_BIT -/
  startBit : Nat
  /-- WIDTH -/
  width    : Nat
  /-- FLAGS.SIGNED -/
  signed   : Bool
  /-- FLAGS.MOTOROLA -/
  motorola : Bool
  /-- SCALE -/
  scale    : Int
deriving DecidableEq, Repr

/-- A buffer descriptor (R344, R362 CMD_CAN_BUFFER). -/
structure CanDesc where
  /-- DIR: 0 unused, 1 receive, 2 transmit -/
  dir       : Nat := 0
  /-- TRIGGER -/
  trigger   : Nat := 0
  /-- ID word -/
  id        : W32 := 0
  /-- MASK -/
  mask      : W32 := 0
  /-- DLC -/
  dlc       : Nat := 0
  /-- EXPECT_MS -/
  expectMs  : Nat := 0
  /-- RX_TIMEOUT_MS -/
  timeoutMs : Nat := 0
  /-- signals -/
  signals   : List CanSignal := []
deriving DecidableEq, Repr

/-- A frame waiting in a buffer (R351). -/
structure CanPend where
  /-- ID word -/
  id   : W32
  /-- DLC word -/
  dlc  : W32
  /-- data bytes -/
  data : Bytes
deriving DecidableEq, Repr

/-- A message buffer with its window (R344, R360). -/
structure CanBuf where
  /-- descriptor -/
  desc       : CanDesc := {}
  /-- ND; reset 0 -/
  nd         : Bool := false
  /-- OVR; reset 0 -/
  ovr        : Bool := false
  /-- CANCEL_LATE; reset 0 -/
  cancelLate : Bool := false
  /-- ID word of the window; reset 0 -/
  idWord     : W32 := 0
  /-- DLC word of the window; reset 0 -/
  dlcWord    : W32 := 0
  /-- 64 data bytes; bytes 56 to 63 lie outside the window (R360); reset 0 -/
  data       : Bytes := []
  /-- STAMP of the window, short time; reset 0 -/
  stamp      : W32 := 0
  /-- pending frame that has not begun (R351) -/
  pend       : Option CanPend := none
  /-- frame on the bus (R351) -/
  onBus      : Option CanPend := none
  /-- the frame on the bus has been cancelled (R352) -/
  cancelled  : Bool := false
  /-- bus-error retries of the frame (R350) -/
  retries    : Nat := 0
  /-- reference time of the last stored frame or of the configuration, ns (R355) -/
  rxAt       : Nat := 0
  /-- timed out (R355) -/
  timedOut   : Bool := false
deriving DecidableEq, Repr

/-- Confinement state (R353, R360 CONF). -/
inductive CanConf where
  /-- 0 error-active -/
  | active
  /-- 1 error-passive -/
  | passive
  /-- 2 bus-off -/
  | busOff
  /-- 3 recovering -/
  | recovering
deriving DecidableEq, Repr

/-- A CAN controller (R341 to R362). Its CTRL, NBT, DBT and TDC registers are configuration registers of `Regs`. -/
structure CanCtl where
  /-- buffers 0 to 64 -/
  bufs       : FMap CanBuf := []
  /-- mode in force (R343, R357); reset OFF -/
  mode       : Nat := 0
  /-- CONFIG has been left and the controller is not on the bus yet (R343) -/
  integrating : Bool := false
  /-- TEC; reset 0 -/
  tec        : Nat := 0
  /-- REC; reset 0 -/
  recCnt     : Nat := 0
  /-- confinement state; reset error-active -/
  conf       : CanConf := .active
  /-- CHECK_FAIL (R358); reset 0 -/
  checkFail  : Bool := false
  /-- TIMING_CONFLICT (R355); reset 0 -/
  conflict   : Bool := false
  /-- reference time of the last controller check, ns (R358) -/
  checkAt    : Nat := 0
  /-- reference time of the last recorded CAN_PRIO_RX, ns (R347) -/
  prioAt     : Option Nat := none
  /-- priority frames not recorded since (R347) -/
  prioMissed : Nat := 0
  /-- buffer whose frame is on the bus -/
  sending    : Option Nat := none
deriving DecidableEq, Repr

/-! ### Host interface (chapters 13, 14) -/

/-- A posted write on its way to a brick (R366). -/
structure Posted where
  /-- block base -/
  base : Nat
  /-- port -/
  port : Port
  /-- doublewords that passed: offset, value -/
  dws  : List (Nat × W32)
  /-- reference time at which BUSY was set (R369) -/
  setAt : Nat := 0
  /-- the brick was running then, so that BUSY stays set for at least 0.2 µs (R369) -/
  ran  : Bool := false
deriving DecidableEq, Repr

/-- Registers held as values: configuration registers, RC counters, shadows, signatures (R363 to R376). -/
structure Regs where
  /-- configuration registers (RW and RWL fields) that differ from their cold-reset value, by offset -/
  cfg     : FMap W32 := []
  /-- expected signatures that differ from the signature of the cold-reset contents, by block base (R373) -/
  sig     : FMap W32 := []
  /-- RC registers (R5), by offset; reset 0 -/
  rc      : FMap W32 := []
  /-- shadows of latching pairs by port × 0x1_0000 + _HI offset (R371); reset 0 -/
  shadow  : FMap W32 := []
  /-- posted writes in progress; a block's BUSY is 1 while one is here (R366) -/
  posted  : List Posted := []
  /-- HIF_ERR_INFO (R377); reset 0 -/
  errInfo : W32 := 0
  /-- HIF_SIG_INFO (R377); reset 0 -/
  sigInfo : W32 := 0
  /-- HIF_STATUS.SIG_FAIL (R375); reset 0 -/
  sigFail : Bool := false
  /-- HIF_SIG_SWEEPS (R375); reset 0 -/
  sweeps  : W32 := 0
  /-- reference time of the last sweep start, ns (R375) -/
  sweepAt : Nat := 0
  /-- reference time at which BAD_ACCESS was last raised, ns (R365) -/
  badAt   : Option Nat := none
  /-- reference time at which WRITE_DROPPED was last raised, ns (R365) -/
  dropAt  : Option Nat := none
  /-- MSI-X pending-bit array (R363); reset 0 -/
  pba     : W64 := 0
deriving DecidableEq, Repr

/-- Events (R379 to R384). -/
structure Evt where
  /-- counters of the sources that have raised, by source (R380 EVT_CNT); reset 0 -/
  cnt      : FMap Nat := []
  /-- PCIe pending set, EVT_PEND (R380); reset 0 -/
  pend     : BitVec 256 := 0
  /-- side-band pending set, in MG (R379); reset 0 -/
  pendSb   : BitVec 256 := 0
  /-- EVT_LAST (R380); reset 0 -/
  last     : Byte := 0
  /-- EVT_SEQ (R380); reset 0 -/
  seq      : W64 := 0
  /-- ALERT_EN bits, held in MG (R381); reset the sources marked A -/
  alertEn  : BitVec 256 := 0x808200010209c0151c2520204000000842300000800200640028800000084
  /-- ALERT_N asserted (R383); reset 0 -/
  alert    : Bool := false
  /-- reference time of the last message on a vector, ns (R382) -/
  sentAt   : FMap Nat := []
  /-- vectors with a message deferred by holdoff (R382) -/
  deferred : BitVec 32 := 0
deriving DecidableEq, Repr

/-- State of a command slot (R390). -/
inductive SlotSt where
  /-- 0 IDLE -/
  | idle
  /-- 1 PENDING -/
  | pending
  /-- 2 ACCEPTED -/
  | accepted
  /-- 3 DONE -/
  | done
deriving DecidableEq, Repr

/-- A command slot's state word (R390). -/
structure Slot where
  /-- STATE; reset IDLE -/
  st     : SlotSt := .idle
  /-- STATUS while DONE; reset 0 -/
  status : W16 := 0
deriving DecidableEq, Repr

/-- An accepted request that has not started (R393) or whose completion waits. -/
structure Waiting where
  /-- opcode -/
  opcode : Nat
  /-- request -/
  req    : Req
deriving DecidableEq, Repr

/-- Outcome of a command that waits for the partner's acknowledgement. -/
structure Done where
  /-- STATUS -/
  status : Nat
  /-- DETAIL -/
  detail : Nat
  /-- data -/
  data   : Bytes
deriving DecidableEq, Repr

/-- A mirrored command whose record the partner has not acknowledged (R399). -/
structure MirrorWait where
  /-- number of its mirror record -/
  record : Nat
  /-- the command -/
  cmd    : Waiting
  /-- its outcome, once it has one -/
  done   : Option Done
deriving DecidableEq, Repr

/-- The host side: PCIe link, slots, completion bits (R386 to R394). -/
structure HostIf where
  /-- PCIe link is up -/
  linkUp   : Bool := false
  /-- slot memory, 256 KiB, cells that differ from 0 (R389) -/
  mem      : List Host.Cell := []
  /-- slot states by slot (R390) -/
  slots    : FMap Slot := []
  /-- HIF_CMPL, slots 0 to 63 (R377); reset 0 -/
  cmpl     : W64 := 0
  /-- accepted requests in acceptance order that have not started (R393) -/
  accepted : List Waiting := []
  /-- started requests that wait for a boundary or an end (R393) -/
  waiting  : List Waiting := []
  /-- mirrored commands whose record awaits the partner's acknowledgement (R399) -/
  mirrored : List MirrorWait := []
  /-- requests of slots, accepted before a link-down or a function-level reset, whose response is discarded (R394) -/
  orphans  : List Waiting := []
  /-- reference time of the last accepted PCIe doorbell, or of main-side power-up, ns (R405 SBM_HOST_IDLE) -/
  idleFrom : Nat := 0
deriving DecidableEq, Repr

/-- Reassembly state of MG (R402). -/
inductive SbState where
  /-- 0 IDLE -/
  | idle
  /-- 1 RECEIVING -/
  | receiving
  /-- 2 ACCEPTED -/
  | accepted
  /-- 3 DONE -/
  | done
deriving DecidableEq, Repr

/-- The side-band transport (R400 to R405). -/
structure SideBand where
  /-- STATE; reset IDLE -/
  st       : SbState := .idle
  /-- bytes received -/
  buf      : Bytes := []
  /-- start of the last fragment appended -/
  fragFrom : Nat := 0
  /-- reference time of the last valid fragment, ns -/
  fragAt   : Nat := 0
  /-- response packet while DONE -/
  resp     : Bytes := []
  /-- TAG of the last accepted request (R403); reset 0 -/
  tag      : W16 := 0
  /-- response status while DONE (R403); reset 0 -/
  status   : W16 := 0
  /-- SBM_PKT: requests accepted since cold reset, 64 bits; reset 0 -/
  pkts     : Nat := 0
  /-- straps SBA[2:0] (R405) -/
  sba      : BitVec 3 := 0
deriving DecidableEq, Repr

/-! ### Start and power (chapter 15, R567, R571) -/

/-- Restart policy (R433). -/
structure RestartPolicy where
  /-- POWERUP_KIND; default 0 -/
  powerup   : Nat := 0
  /-- RESET_KIND; default 0 -/
  reset     : Nat := 0
  /-- MAX_OUTAGE_S; default 0 -/
  maxOutage : Nat := 0
deriving DecidableEq, Repr

/-- A retentive entry with its saved data (R421). -/
structure RetainVal where
  /-- KIND -/
  kind   : Nat
  /-- CRIT -/
  crit   : Nat
  /-- KEY -/
  key    : Nat
  /-- LAYOUT -/
  layout : Nat
  /-- LENGTH -/
  length : Nat
  /-- saved point record of a KIND 0 entry -/
  point  : PointRec
  /-- saved state words of a KIND 1 entry -/
  words  : List W64
  /-- FRESH mark of a KIND 1 entry (R135) -/
  fresh  : Bool := false
deriving DecidableEq, Repr

/-- A retentive half (R420, R421). -/
structure RetHalf where
  /-- FORMAT -/
  format   : Nat := 1
  /-- FLAGS.FINAL -/
  final    : Bool
  /-- GENERATION -/
  gen      : W64
  /-- IMAGE_CRC -/
  imageCrc : W32
  /-- STAMP -/
  stamp    : Nat
  /-- retentive entries -/
  entries  : List RetainVal
  /-- force entries by point id -/
  forces   : FMap Force
  /-- trip latches -/
  trips    : W16
  /-- loop channel states (R165) -/
  loops    : List MirrorChannel
  /-- last accepted hydraulic solution -/
  solution : Option Solution
deriving DecidableEq, Repr

/-- A settings record (R425). -/
structure SetRecord where
  /-- FORMAT -/
  format  : Nat := 1
  /-- GENERATION -/
  gen     : W64
  /-- FW_VERSION -/
  fw      : W32
  /-- STAMP -/
  stamp   : Nat
  /-- SERIAL -/
  serial  : W64
  /-- entries: opcode, payload -/
  entries : List (Nat × Bytes)
deriving DecidableEq, Repr

/-- Stores in MRAM that chapter 15 describes: retentive image, settings store. -/
structure Stores where
  /-- retentive halves 0 and 1; a missing one is invalid (R420, R422) -/
  halves   : FMap RetHalf := []
  /-- a retentive half being written: half number and content (R420) -/
  writing  : Option (Nat × RetHalf) := none
  /-- settings copies 0 and 1; a missing one is invalid (R424, R425) -/
  copies   : FMap SetRecord := []
  /-- metering record of each settings copy (R284, R425) -/
  meterRec : FMap Bytes := []
  /-- working copy: opcode × 2^32 + object key to (opcode, payload), in acceptance order per opcode (R423) -/
  working  : List (Nat × Nat × Bytes) := []
  /-- manifest CRC of the last start (R415), in MRAM -/
  lastManifest : Option W32 := none
deriving DecidableEq, Repr

/-- Power, reset and start (R410 to R433, R567, R571). -/
structure Power where
  /-- VSTBY is present; reset is the moment it is applied (R410) -/
  vstby      : Bool := true
  /-- PFW_N is high (R429) -/
  pfw        : Bool := true
  /-- RST_N is low (R571) -/
  rstLow     : Bool := false
  /-- the main rails are within their limits (R411) -/
  mainUp     : Bool := false
  /-- the main-side reset is released (R412 step 5) -/
  released   : Bool := false
  /-- SV has booted (R412 step 7): HIF_VERSION is non-zero -/
  booted     : Bool := false
  /-- READY (R412 step 9); reset 0 -/
  ready      : Bool := false
  /-- MG holds the main side off (R411, R413, R431) -/
  heldOff    : Bool := false
  /-- failed rail attempts in a row (R411) -/
  railFails  : Nat := 0
  /-- reference time of the last rail fault, ns (R411) -/
  railAt     : Nat := 0
  /-- reference times of watchdog expiries, newest first, ns (R413) -/
  wdAt       : List Nat := []
  /-- reference time of the last SV heartbeat or of step 5, ns (R413) -/
  svBeat     : Nat := 0
  /-- KIND of the CMD_RESTART that caused the last reset (R415, R430) -/
  requested  : Nat := 0
  /-- KIND accepted for the reset that is due (R430) -/
  restartKind : Nat := 0
  /-- a main-side cold reset is due at this reference time, ns (R430, R475, R522) -/
  resetDue   : Option Nat := none
  /-- the last main-side cold reset was a power-up (R415) -/
  powerUp    : Bool := true
  /-- HIF_STATUS.START (R377); reset 0 -/
  start      : Nat := 0
  /-- restart policy in force (R433); kept in the settings -/
  policy     : RestartPolicy := {}
  /-- no CMD_PROG_SWITCH has started the module since the reset (R415) -/
  unstarted  : Bool := true
  /-- neither settings copy could be replayed (R426) -/
  noSettings : Bool := false
  /-- CMD_MAIN_POWER ACTION 1 waits for READY: request and reference time (R431) -/
  onReq      : Option (Req × Nat) := none
  /-- orderly shutdown in progress: its request, none when it has no request left (R428) -/
  shutdown   : Option Req := none
  /-- cold start waits for the estimator before any class leaves INIT (R249, R419) -/
  startHold  : Bool := false
deriving DecidableEq, Repr

/-! ### Pair (chapter 16) -/

/-- Module role (R377 HIF_STATUS.ROLE). -/
inductive Role where
  /-- 0 undecided -/
  | undecided
  /-- 1 ACTIVE -/
  | active
  /-- 2 STANDBY -/
  | standby
  /-- 3 SOLO -/
  | solo
  /-- 4 FENCED -/
  | fenced
deriving DecidableEq, Repr

/-- Pair configuration (R463). -/
structure PairCfg where
  /-- MODE: 0 pair, 1 solo -/
  mode      : Nat := 0
  /-- DRILL_AUTO -/
  drillAuto : Bool := false
  /-- WINDOW_START_H -/
  winStart  : Nat := 0
  /-- WINDOW_LEN_H -/
  winLen    : Nat := 24
  /-- DRILL_INTERVAL_H; default 168 (R456) -/
  interval  : Nat := 168
deriving DecidableEq, Repr

/-- A role exchange or drill in progress (R453, R457). -/
structure Exchange where
  /-- a drill -/
  drill  : Bool
  /-- the request, none for an automatic drill or a firmware activation -/
  req    : Option Req
  /-- reference time of its acceptance, ns -/
  since' : Nat
  /-- HANDOVER has been sent or received -/
  handed : Bool
  /-- the gap the partner reported, µs -/
  gapUs  : Nat
deriving DecidableEq, Repr

/-- An output digest of a commit (R447). -/
structure OutDigest where
  /-- class code -/
  cls    : Nat
  /-- cycle counter -/
  cycle  : W32
  /-- the digest -/
  digest : W64
  /-- reference time at which it came to be here, ns -/
  at'    : Nat
deriving DecidableEq, Repr

/-- A MARK record that waits for the class's running cycle to end (R444, R452). -/
structure HeldMark where
  /-- class code -/
  cls    : Nat
  /-- cycle counter -/
  cycle  : W32
  /-- stamp -/
  stamp  : Nat
  /-- snapshot vector: station, SEQ -/
  vector : List (Nat × Nat)
  /-- points by value -/
  points : List MirrorPoint
deriving DecidableEq, Repr

/-- A stop record of the active's (R113, R210, R240). -/
structure StopRec where
  /-- job kind: 1 network, 2 the thermal stage of a network job, 3 optimise, 4 estimate -/
  kind       : Nat
  /-- outer step -/
  step       : Nat
  /-- S that the active used -/
  scale      : Nat
  /-- inner iterations -/
  iterations : Nat
  /-- stop cause -/
  cause      : StopCause
  /-- factor used -/
  factor     : FactorUse
  /-- a range retry was made -/
  retry      : Bool
deriving DecidableEq, Repr

/-- The pair (R434 to R466). -/
structure Pair where
  /-- SLOT_ID pin (R434) -/
  slotId     : Bool := false
  /-- PARTNER_PRESENT_N reads low (R434) -/
  present    : Bool := false
  /-- ACTIVE_N reads low because of the partner (R435) -/
  lineLow    : Bool := false
  /-- reference time of the last change of the line as the partner drives it, ns (R435) -/
  lineAt     : Nat := 0
  /-- role; reset undecided -/
  role       : Role := .undecided
  /-- SYNCED (R443, R461); reset 0 -/
  synced     : Bool := false
  /-- a partner is joined (R399, R443) -/
  joined     : Bool := false
  /-- lanes in block lock: 0 and 1 (R438); reset none -/
  lane0      : Bool := false
  /-- lane 1 in block lock -/
  lane1      : Bool := false
  /-- reference time at which the last lane lost block lock, ns (R438) -/
  laneAt     : Nat := 0
  /-- the link is up (R438); reset 0 -/
  linkUp     : Bool := false
  /-- last heartbeat received (R439) -/
  lastHb     : Option Heartbeat := none
  /-- reference time of the last valid heartbeat, ns (R441) -/
  hbAt       : Option Nat := none
  /-- the heartbeat counts lost since this reference time, ns (R441) -/
  lostAt     : Option Nat := none
  /-- HB_SEQ of the next heartbeat (R439) -/
  hbSeq      : W32 := 0
  /-- reference time of the last heartbeat sent, ns -/
  hbSentAt   : Nat := 0
  /-- reference time of SV's last refresh of PL's liveness register, ns (R440) -/
  liveAt     : Nat := 0
  /-- mirror sequence number of the last record applied or sent (R444) -/
  mirrorSeq  : Nat := 0
  /-- mirror records sent or applied since cold reset, 64 bits (R461); reset 0 -/
  mirrorCnt  : Nat := 0
  /-- configuration in force (R463) -/
  cfg        : PairCfg := {}
  /-- accepted configuration that takes effect at the Main boundary (R463) -/
  nextCfg    : Option PairCfg := none
  /-- the join is the step: 0 none, 1 in progress (R443) -/
  joining    : Bool := false
  /-- failed join attempts in a row (R443) -/
  joinFails  : Nat := 0
  /-- resync in progress (R443); its request, if a command asked for it (R465) -/
  resync     : Bool := false
  /-- request of CMD_PAIR_RESYNC and its acceptance time, ns (R465) -/
  resyncReq  : Option (Req × Nat) := none
  /-- the last Main commit whose output digest has matched: cycle counter, reference time of the commit, ns (R453) -/
  matched    : Option (W32 × Nat) := none
  /-- mismatch self-check in progress (R450) -/
  selfCheck  : Bool := false
  /-- CMD_BIST_RUN SET 0 waits for the self-check (R474) -/
  bistReq    : Option Req := none
  /-- own output digests not compared yet (R447) -/
  digests    : List OutDigest := []
  /-- the partner's output digests not compared yet -/
  theirs     : List OutDigest := []
  /-- own retentive digest of the last Slow commit and plan CRC, not compared yet (R449) -/
  retDigest  : Option (W64 × W32) := none
  /-- the active's retentive digest and plan CRC, not compared yet (R449) -/
  retTheirs  : Option (W64 × W32) := none
  /-- consecutive late Main digests (R446) -/
  lateRun    : Nat := 0
  /-- PAIR_LAG, µs (R461); reset 0 -/
  lagUs      : Nat := 0
  /-- takeovers since cold reset (R461); reset 0 -/
  takeovers  : Nat := 0
  /-- role exchanges since cold reset (R461); reset 0 -/
  exchanges  : Nat := 0
  /-- mismatches since start-up (R462) -/
  mismatches : Nat := 0
  /-- resyncs since start-up (R462) -/
  resyncs    : Nat := 0
  /-- SYNC_MS (R462) -/
  syncMs     : Nat := 0
  /-- drill age in hours; none for no drill passed (R456, R461); reset none -/
  drillAge   : Option Nat := none
  /-- device time at which the last hour of the age ended, ns -/
  drillHour  : Nat := 0
  /-- DRILL_OVERDUE (R456); reset 0 -/
  overdue    : Bool := false
  /-- exchange or drill in progress (R453) -/
  exchange   : Option Exchange := none
  /-- a takeover has not reached step 6 yet (R452) -/
  takingUp   : Bool := false
  /-- the standby's last mirrored output sets by class (R452 step 5) -/
  outSets    : FMap (List (Nat × Nat × Bytes)) := []
  /-- MARK records held (R452) -/
  marks      : List HeldMark := []
  /-- snapshot fills requested: class, station, SEQ (R445) -/
  fills      : List (Nat × Nat × Nat) := []
  /-- serial of the last joined partner (R462); reset 0 -/
  partner    : W64 := 0
  /-- PAIR_HB_MISS intervals already counted since the last heartbeat (R461) -/
  missed     : Nat := 0
  /-- reference time of READY, ns (R436) -/
  readyAt    : Nat := 0
  /-- mirrored S of R113 for the next outer step (R444) -/
  mirrorScale : Option Nat := none
  /-- stop records received and not used yet, oldest first (R210) -/
  stops      : List StopRec := []
  /-- jobs whose end the active has recorded, by the kinds of their records (R210, R240) -/
  jobEnds    : List (List Nat) := []
  /-- effect instant of the mirrored command that is being applied, device time in ns (R48, R59, R220) -/
  mirrorAt   : Option Nat := none
  /-- the standby has decided on the present loss: the line stayed low (R441) -/
  lostEp     : Bool := false
  /-- a module fault has been declared (R21, R377 MODULE_FAULT); reset 0 -/
  fault      : Bool := false
  /-- LAST_ROW of R466; reset 0 -/
  faultRow   : Nat := 0
  /-- LAST_TIME of R466, device time; reset 0 -/
  faultTime  : Nat := 0
  /-- ROW_COUNT of R466, by row 1 to 17; reset 0 -/
  rowCount   : FMap Nat := []
deriving DecidableEq, Repr

/-! ### Test (chapter 17) -/

/-- A running loopback (R471). -/
structure LoopRun where
  /-- the request -/
  req   : Req
  /-- IFACE -/
  iface : Nat
  /-- INDEX -/
  index : Nat
  /-- DEPTH -/
  depth : Nat
  /-- COUNT -/
  count : Nat
  /-- reference time at which it began, ns (R471) -/
  startAt : Nat := 0
deriving DecidableEq, Repr

/-- Loopbacks and test (R467 to R477). -/
structure TestSt where
  /-- test mode (R475); reset 0 -/
  test     : Bool := false
  /-- running loopback (R471) -/
  loop     : Option LoopRun := none
  /-- a self-test runs (R476); reset 0 -/
  bist     : Bool := false
  /-- TST_BIST_RESULT (R476); reset 0 -/
  result   : BitVec 12 := 0
  /-- TST_BIST_TIME, ms (R476); reset 0 -/
  timeMs   : Nat := 0
  /-- RUNS since cold reset (R477); reset 0 -/
  runs     : Nat := 0
  /-- FAILS since cold reset (R477); reset 0 -/
  fails    : Nat := 0
  /-- SET 1 has run: the DRAM contents are destroyed (R474) -/
  dramGone : Bool := false
deriving DecidableEq, Repr

/-! ### Calendar and recorder (chapter 18) -/

/-- A calendar time (R481). -/
structure CalTime where
  /-- SUBSEC, 0 to 32 767 -/
  subsec : Nat := 0
  /-- SEC -/
  sec    : Nat := 0
  /-- MIN -/
  min    : Nat := 0
  /-- HOUR -/
  hour   : Nat := 0
  /-- DAY, 1 to 31 -/
  day    : Nat := 1
  /-- MONTH, 1 to 12 -/
  month  : Nat := 1
  /-- YEAR, the year minus 2000 -/
  year   : Nat := 0
deriving DecidableEq, Repr

/-- An alarm (R486). -/
structure Alarm where
  /-- ARMED; disarmed at a backup power-up (R479) -/
  armed  : Bool := false
  /-- ACTION: 0 event, 1 event and main-side start -/
  action : Nat := 0
  /-- the time, to the second -/
  time   : CalTime := {}
deriving DecidableEq, Repr

/-- A freeze shadow of a port (R488). -/
structure Freeze where
  /-- captured RTC_T0 -/
  t0  : W32
  /-- captured RTC_T1 -/
  t1  : W32
  /-- reference time of the capture, ns -/
  at' : Nat
deriving DecidableEq, Repr

/-- The calendar clock (R478 to R489). -/
structure Rtc where
  /-- calendar (R481); 2000-01-01 00:00:00.000 at a backup power-up -/
  cal       : CalTime := {}
  /-- phase of the crystal towards the next tick, in units of 1 / 10^9 tick -/
  phase     : Nat := 0
  /-- crystal ticks since a trim tick was last added or dropped (R483) -/
  trim      : Nat := 0
  /-- OSC_STOP flag (R479); 1 after a backup power-up -/
  oscStop   : Bool := true
  /-- the crystal runs (R479) -/
  crystal   : Bool := true
  /-- the calendar has reached its end and stopped (R481) -/
  ended     : Bool := false
  /-- a setting of OSC_STOP has not been reported yet (R479) -/
  oscEvent  : Bool := true
  /-- stored UTC offset (R336, R479); 37 after a backup power-up -/
  utcOfs    : Int := 37
  /-- alarms 0 to 3 (R486) -/
  alarms    : FMap Alarm := []
  /-- RTC_FLAGS.BADWRITE (R482) -/
  badWrite  : Bool := false
  /-- RTC_FLAGS.VBAT_SEEN (R480) -/
  vbatSeen  : Bool := false
  /-- RTC_FLAGS.ALARM_FIRED, bit n -/
  fired     : BitVec 4 := 0
  /-- RTC_FLAGS.PASSED_BY_ADJUST, bit n -/
  passed    : BitVec 4 := 0
  /-- RTC_VBAT_TS0 -/
  vbatTs0   : W32 := 0
  /-- RTC_VBAT_TS1 -/
  vbatTs1   : W32 := 0
  /-- the backup domain runs from VBAT (R480) -/
  onVbat    : Bool := false
  /-- a switch to VBAT has not been reported yet (R480) -/
  vbatEvent : Bool := false
  /-- VBAT_LOW: last measurement below 2.2 V (R480); reset 0 -/
  vbatLow   : Bool := false
  /-- reference time of the last VBAT measurement, ns (R480) -/
  vbatAt    : Option Nat := none
  /-- DISCIPLINED: abs(d) below one tick (R483); reset 0 -/
  disc      : Bool := false
  /-- last d of R483, ns; reset 0 -/
  lastD     : Int := 0
  /-- freeze shadows by port: 0 PCIe, 1 side-band (R488) -/
  freeze    : FMap Freeze := []
  /-- second instance of 23:59:59 of a positive leap second is running (R484) -/
  leapHeld  : Bool := false
deriving DecidableEq, Repr

/-- An event record (R490), in the recorder or on its way to it. -/
structure EventRec where
  /-- SEQ; 0 until MG writes it -/
  seq    : W64 := 0
  /-- TIME -/
  time   : Nat
  /-- SOURCE -/
  source : Nat
  /-- FLAGS -/
  flags  : Byte := 0
  /-- CODE -/
  code   : Nat := 0
  /-- COUNT -/
  count  : Nat := 0
  /-- PARAM 1 to 4 -/
  params : List Int := []
  /-- ORIGIN: brick id of the raiser -/
  origin : Nat := 0
  /-- MSI-X vector on which a message falls due when the record is sealed (R379 step 3) -/
  vec    : Option Nat := none
deriving DecidableEq, Repr

/-- The event recorder (R490 to R497). -/
structure Recorder where
  /-- sealed slots 0 to 131 071 (R490); kept in MRAM -/
  slots    : FMap EventRec := []
  /-- queue of MG, oldest first (R493) -/
  queue    : List EventRec := []
  /-- permanent events that wait for a free entry (R493) -/
  held     : List EventRec := []
  /-- highest SEQ ever sealed (R491); kept in MRAM -/
  topSeq   : W64 := 0
  /-- next circulating slot (R492) -/
  next     : Nat := 8192
  /-- WRAPPED (R497); reset 0 -/
  wrapped  : Bool := false
  /-- READY (R494); reset 0 -/
  ready    : Bool := false
  /-- drops of each source since its last record (R490 COUNT) -/
  drops    : FMap Nat := []
  /-- cursors by port (R495); reset 0 -/
  cursor   : FMap Nat := []
  /-- record buffers by port: 64 bytes (R495); reset zero -/
  buffer   : FMap Bytes := []
  /-- a clear is running: its request and the lowest and highest SEQ (R496) -/
  clear    : Option (Req × Nat × Nat) := none
deriving DecidableEq, Repr

/-! ### Status panel (chapter 19) -/

/-- A rectangle of the panel. -/
structure Rect where
  /-- X -/
  x : Nat
  /-- Y -/
  y : Nat
  /-- W -/
  w : Nat
  /-- H -/
  h : Nat
deriving DecidableEq, Repr

/-- A waveform: its units (5 V × frame) frame by frame, as level codes (R500, R503). -/
abbrev Wave := List Nat

/-- A band table (R503). -/
structure BandTab where
  /-- MAXLEN -/
  maxLen : Nat
  /-- TRANS: 16 waveforms, entry 4 × previous + next -/
  trans  : List Wave
  /-- CLEAR -/
  clear  : Wave
deriving DecidableEq, Repr

/-- An update or repair in flight (R510, R514, R515). -/
structure PnlUpd where
  /-- UPDATE_ID -/
  id     : Nat
  /-- rectangle -/
  rect   : Rect
  /-- band latched -/
  band   : Nat
  /-- REPAIR -/
  repair : Bool
  /-- captured target: levels of the rectangle, row by row -/
  target : List Nat
  /-- frames journalled so far; frame number of the last journal record + 1 -/
  frame  : Nat
  /-- interrupted (R501, R512) -/
  interrupted : Bool
  /-- the tables the update finishes on after an activation has changed them; empty for the component's (R539) -/
  tabs   : List BandTab := []
deriving DecidableEq, Repr

/-- Panel configuration (R517 CMD_PNL_CONFIG). -/
structure PnlCfg where
  /-- WIDTH -/
  width     : Nat := 400
  /-- HEIGHT -/
  height    : Nat := 300
  /-- FRAME_HZ; default 50 (R502) -/
  frameHz   : Nat := 50
  /-- TEMP_POINT -/
  tempPoint : Nat := 0
  /-- BAND_T0 to BAND_T6 -/
  bands     : List Int := [0, 1, 2, 3, 4, 5, 6]
  /-- BIAS_HOLD_MS; default 100 -/
  biasHold  : Nat := 100
deriving DecidableEq, Repr

/-- The panel driver with its ledger in MRAM (R499 to R517). -/
structure Panel where
  /-- configuration -/
  cfg       : PnlCfg := {}
  /-- frame memory: level of pixel y × 400 + x where not 0 (R508) -/
  frameMem  : FMap Nat := []
  /-- expected CRC-32 of the frame memory; none for that of the current contents (R508) -/
  expCrc    : Option W32 := none
  /-- FRAME_BAD (R508); reset 0 -/
  frameBad  : Bool := false
  /-- SHOWN: shown image, levels by pixel where not 0 (R515); kept in MRAM -/
  shown     : FMap Nat := []
  /-- ACCOUNT: signed account by pixel where not 0 (R515); kept in MRAM -/
  account   : FMap Int := []
  /-- INFLIGHT: updates and repairs (R515); kept in MRAM -/
  inflight  : List PnlUpd := []
  /-- rectangles that wait for their repair (R513) -/
  repairs   : List Rect := []
  /-- a region of the ledger fails its CRC (R515) -/
  ledgerBad : Bool := false
  /-- bias on (R516); reset 0 -/
  biasOn    : Bool := false
  /-- rails outside limits at the last check (R501) -/
  biasBad   : List Nat := []
  /-- a bias fault is being retried: failed retries so far (R501) -/
  biasRetry : Option Nat := none
  /-- retries exhausted: BIAS_FAULT (R516); reset 0 -/
  biasFault : Bool := false
  /-- reference time of the last bias fault or check, ns -/
  biasAt    : Nat := 0
  /-- reference time at which the last update ended, ns (R501) -/
  endedAt   : Nat := 0
  /-- reference time of the last frame boundary, ns (R502) -/
  frameAt   : Nat := 0
  /-- band in force (R506, R516); reset 0 -/
  band      : Nat := 0
  /-- history of rectangles: rectangle and start, reference ns (R509) -/
  history   : List (Rect × Nat) := []
  /-- UPDATE_ID of the next update -/
  nextId    : Nat := 0
  /-- updates completed since cold reset (R516); reset 0 -/
  updates   : Nat := 0
  /-- waveform tables of the running component, bands 0 to 7 (R503) -/
  tables    : List BandTab := []
  /-- reference time of the last CRC comparison, ns (R508) -/
  crcAt     : Nat := 0
  /-- PFW_N has fallen: PN writes nothing more to the ledger (R512) -/
  stopped   : Bool := false
deriving DecidableEq, Repr

/-! ### Keys and life cycle (chapter 20) -/

/-- Life-cycle states (R520). -/
inductive LcState where
  /-- 0 BLANK -/
  | blank
  /-- 1 FACTORY -/
  | factory
  /-- 2 FIELD -/
  | field
  /-- 3 SERVICE -/
  | service
  /-- 4 RETIRED -/
  | retired
deriving DecidableEq, Repr

/-- A valid key (R525). -/
structure Key where
  /-- TYPE: 1 AES256, 2 P384_PUB, 3 SECRET -/
  type   : Nat
  /-- DEST -/
  dest   : Byte
  /-- PARENT -/
  parent : Nat
  /-- LABEL -/
  label  : Bytes
  /-- FLAGS -/
  flags  : Byte
  /-- USES -/
  uses   : W32
  /-- material -/
  data   : Bytes
deriving DecidableEq, Repr

/-- What KB carries out on the whole key store (R522, R533, R534). -/
inductive KeyWork where
  /-- key update: counter, entries, new key set, slots written, slots freed, revoked slots with the number of their
  descendants -/
  | update (counter : W32) (entries : Nat) (slots : FMap Key) (written freed : List Nat) (revoked : List (Nat × Nat))
  /-- transition: target and new root -/
  | transition (target : LcState) (root : Bytes)
deriving DecidableEq, Repr

/-- How far KB has come with it. -/
inductive KeyStage where
  /-- the checks have passed (step 1 of R522, step 2 of R533) -/
  | checked
  /-- LC_CHANGED is sealed (step 2 of R522), or phase 1 is in the journal (step 3 of R533) -/
  | begun
  /-- past the commit instant (step 3 of R522, step 4 of R533) -/
  | committed
deriving DecidableEq, Repr

/-- A key update or transition in progress (R522, R533); after a reset what its journal left of it (R524). -/
structure KeyOp where
  /-- what is carried out -/
  work  : KeyWork
  /-- how far -/
  stage : KeyStage
  /-- reference time of the acceptance, ns -/
  start : Nat
  /-- reference time at which the next stage comes, ns -/
  due   : Nat
  /-- the command that completes at the end; none after a reset -/
  req   : Option Req
deriving DecidableEq, Repr

/-- KB: identity, life cycle, key store (R518 to R538). Kept in MRAM and fuses. -/
structure Keys where
  /-- serial number (R518) -/
  serial   : W64 := 0
  /-- device secret (R518) -/
  secret   : Bytes := []
  /-- factory root in die ROM, 96 bytes (R520) -/
  factoryRoot : Bytes := List.replicate 96 0
  /-- identity public key; none in BLANK and RETIRED (R518) -/
  identity : Option Bytes := none
  /-- life-cycle state (R520); HIF_STATUS.LC reset 0 -/
  lc       : LcState := .blank
  /-- key slots 0 to 255 (R525); slot 0 holds the factory root in BLANK (R520) -/
  slots    : FMap Key := [(0, { type := 2, dest := 1, parent := 0, label := List.replicate 16 0, flags := 0, uses := 0,
                                data := List.replicate 96 0 })]
  /-- key-update counter (R523, R537); reset 0 -/
  updCnt   : W32 := 0
  /-- privileged-command counter (R397, R537); reset 0 -/
  privCnt  : W32 := 0
  /-- send epochs of rings 0 to 3 (R306, R537); reset 0 -/
  epochs   : List Nat := [0, 0, 0, 0]
  /-- JTAG port enabled (R522, R537); reset 0 -/
  debug    : Bool := false
  /-- key update or transition in progress, kept by its journal over a reset (R522, R524, R533) -/
  op       : Option KeyOp := none
deriving DecidableEq, Repr

/-! ### Firmware update (chapter 21) -/

/-- A component entry of a manifest (R540). -/
structure Component where
  /-- SVN -/
  svn     : Nat
  /-- VERSION -/
  version : W32
  /-- SLOT_OFFSET -/
  offset  : Nat
  /-- LENGTH -/
  length  : Nat
  /-- DIGEST -/
  digest  : Bytes
deriving DecidableEq, Repr

/-- A manifest (R540). -/
structure Manifest where
  /-- RELEASE -/
  release : W32
  /-- FEATURE -/
  feature : Nat
  /-- PROTO -/
  proto   : Nat
  /-- IMAGE_LENGTH -/
  length  : Nat
  /-- MANIFEST_CRC -/
  crc     : W32
  /-- components 1 to 8 -/
  comps   : List Component
deriving DecidableEq, Repr

/-- State of the inactive slot (R552, R557). -/
inductive SlotState where
  /-- 0 EMPTY -/
  | empty
  /-- 1 INCOMPLETE -/
  | incomplete
  /-- 2 VERIFIED -/
  | verified
  /-- 3 PREVIOUS -/
  | previous
  /-- 4 REJECTED -/
  | rejected
deriving DecidableEq, Repr

/-- A firmware slot: its image, manifest and panel tables (R539, R540). -/
structure FwSlot where
  /-- slot image bytes, as built -/
  image    : Bytes := []
  /-- manifest; none for an empty slot -/
  manifest : Option Manifest := none
  /-- panel waveform tables of the slot (R503) -/
  tables   : List BandTab := []
deriving DecidableEq, Repr

/-- Session state (R557). -/
inductive SessSt where
  /-- 1 DOWNLOADING -/
  | downloading
  /-- 2 BUILDING -/
  | building
  /-- 3 VERIFIED -/
  | verified
deriving DecidableEq, Repr

/-- The update session (R543), recorded in MRAM. -/
structure Session where
  /-- state -/
  st       : SessSt
  /-- owner's port -/
  port     : Port
  /-- owner's slot, 0xFF for the side-band -/
  slot     : Nat
  /-- TAG of CMD_FWU_OPEN -/
  tag      : W16
  /-- KIND: 0 full, 1 delta -/
  kind     : Nat
  /-- PKG_LENGTH -/
  total    : Nat
  /-- bytes received -/
  received : Bytes
  /-- FAILED_CHECK -/
  failed   : Nat := 0
deriving DecidableEq, Repr

/-- A build: the block it has reached; a reset interrupts it (R547). -/
structure Build where
  /-- blocks completed -/
  blocks : Nat
  /-- blocks of the release -/
  total  : Nat
  /-- the build runs; one that a reset has interrupted does not -/
  active : Bool
  /-- reference time at which the block in progress began, ns -/
  from'  : Nat
  /-- a CMD_FWU_VERIFY waits for it -/
  req    : Option Req
deriving DecidableEq, Repr

/-- An accepted activation that waits for the Main period start (R549); without a request, the revert of a trial that has
run out of time (R553). -/
structure Activation where
  /-- the request -/
  req     : Option Req
  /-- in place, not after a role exchange -/
  inPlace : Bool
deriving DecidableEq, Repr

/-- The service pause and what follows until the first Main commit (R549 steps 3 to 8). -/
structure Pause where
  /-- the request -/
  req     : Option Req
  /-- MODE: 0 in place, 1 after a role exchange -/
  mode    : Nat
  /-- PAUSE_US -/
  pauseUs : Nat
  /-- reference time at which the pause ends, ns -/
  until'  : Nat
deriving DecidableEq, Repr

/-- Firmware update (R539 to R558). Slots, session and boot record are kept in MRAM. -/
structure Fwu where
  /-- running slot: false A, true B (R552) -/
  running   : Bool := false
  /-- slot A -/
  slotA     : FwSlot := {}
  /-- slot B -/
  slotB     : FwSlot := {}
  /-- state of the inactive slot (R552) -/
  inactive  : SlotState := .empty
  /-- a release is on trial (R552) -/
  trial     : Bool := false
  /-- TRIAL_BOOTS (R552) -/
  trialBoots : Nat := 0
  /-- trial seconds as last written to the boot record (R552, R553) -/
  trialSecs : Nat := 0
  /-- trial seconds that MG has counted up to `trialFrom` (R553) -/
  trialCount : Nat := 0
  /-- reference time from which the trial seconds count on while the main side is powered, ns (R553) -/
  trialFrom : Nat := 0
  /-- minimum SVNs of components 1 to 8 (R552) -/
  minSvn    : List Nat := [0, 0, 0, 0, 0, 0, 0, 0]
  /-- GENERATION of the boot record (R552) -/
  bootGen   : Nat := 0
  /-- the last trial reverted (R558) -/
  reverted  : Bool := false
  /-- the session -/
  session   : Option Session := none
  /-- build in progress (R547) -/
  build     : Option Build := none
  /-- accepted activation (R548) -/
  activate  : Option Activation := none
  /-- service pause (R549) -/
  activating : Option Pause := none
  /-- blocks built and blocks in the release, FWU_PROGRESS (R557); reset 0 -/
  progress  : Nat × Nat := (0, 0)
deriving DecidableEq, Repr

end Sys2Proof.Machine
end

