-- ==== Sys2Proof/Machine/State.lean ====
section
/-! DEFINITION. State.lean: the state of a VG7420 module, its faults and refusals, and the state after reset.
Every field is plain data. Default values are the values after reset: the spec's where the docstring says
"reset" in Records.lean and Records2.lean, otherwise a DESIGN CHOICE (assumption log entry 3). -/

namespace Sys2Proof.Machine

/-- What the module sends or drives, in the order it does so (newest first in `State.emitted`). -/
inductive Out where
  /-- response packet: origin, opcode, TAG, STATUS, DETAIL, payload (R386) -/
  | response (origin : Origin) (opcode : Nat) (tag : W16) (status detail : Nat) (payload : Bytes)
  /-- MSI-X message on a vector (R382, R391) -/
  | msix (vector : Nat)
  /-- value a register read returns (R364) -/
  | regRead (port : Port) (offset : Nat) (val : W32)
  /-- value a BAR2 read returns (R389) -/
  | bar2Read (offset : Nat) (val : W32)
  /-- data of an SMBus block read (R400, R403) -/
  | sbRead (data : Bytes)
  /-- MG does not acknowledge the PEC byte (R401) -/
  | sbNack
  /-- answer to the Alert Response Address (R383) -/
  | alertAddress (addr : Nat)
  /-- Knama frame on a port: destination MAC, HSR_SEQ, EtherType, and the Knama part: header, body and tag (R302, R303) -/
  | knama (port : Nat) (da : BitVec 48) (seq : W16) (etype : W16) (part : Bytes)
  /-- LINK_CHECK on a port (R299) -/
  | linkCheck (port : Nat)
  /-- LINK_ECHO on a port (R299) -/
  | linkEcho (port : Nat)
  /-- HSR supervision frame on a port, with its HSR sequence number (R295, R297) -/
  | supervision (port : Nat) (seq : W16)
  /-- HSR frame forwarded on a port, with the addition to correctionField in ns and the FCS validity (R296, R297, R326) -/
  | hsrForward (port : Nat) (src : BitVec 48) (seq : W16) (correction : Int) (fcsOk : Bool)
  /-- PTP message: port, domain index, kind, sequenceId, timestamp in ns, correction in ns (R327, R328) -/
  | ptp (port : Nat) (domain : Nat) (kind : PtpKind) (seq : W16) (timestamp : Nat) (correction : Int)
  /-- CAN frame put on the bus: controller, buffer, frame (R349) -/
  | can (n : Nat) (buf : Nat) (frame : CanPend)
  /-- CAN error frame (R359) -/
  | canError (n : Nat)
  /-- heartbeat on the pair link (R439) -/
  | heartbeat (hb : Heartbeat)
  /-- mirror record on the pair link (R444) -/
  | mirror (seq : Nat) (body : MirrorBody)
  /-- request for a snapshot fill (R445) -/
  | fillRequest (station seq : Nat)
  /-- mortar packet delivered to a brick, or sent back as a response (R11) -/
  | mortar (header : W64) (payload : List W64)
  /-- retransmission request of a packet (R18) -/
  | mortarRetry (dest : Nat)
  /-- panel frame driven: UPDATE_ID, frame, and the pixels driven with a code other than 0, top to bottom (R500, R510) -/
  | panelFrame (id frame : Nat) (codes : List (Nat × Nat))
  /-- the panel's sources at code 0 and PNL_GOE released in mid-frame (R501, R512) -/
  | panelOff
deriving DecidableEq, Repr

/-- A frame that waits for a ring port (R298). -/
structure PortFrame where
  /-- precedence of NB's own frames, 1 to 5; 0 for a forwarded frame -/
  prec : Nat
  /-- the frame -/
  what : Out
deriving DecidableEq, Repr

/-- Transmit side of a ring port (R297, R298). -/
structure PortTx where
  /-- reference time at which the frame on the wire ends, ns -/
  busyTo : Nat := 0
  /-- frames that wait, in arrival order -/
  queue  : List PortFrame := []
deriving DecidableEq, Repr

/-- The state of a module. Time counts in nanoseconds of the 25 MHz reference (`refNs`). -/
structure State where
  /-- commands that wait, first in first out (the model's queue); reset empty -/
  pending  : List Instr := []
  /-- index of the next free value (the model's own field, assumption log entry 2) -/
  free     : Nat := 0
  /-- reference time, ns since the standby cold reset (R322, R375) -/
  refNs    : Nat := 0
  /-- what the module has sent and driven, newest first (the model's own field, assumption log entry 4) -/
  emitted  : List Out := []
  /-- power, reset and start (chapter 15) -/
  power    : Power := {}
  /-- register values (chapter 13) -/
  regs     : Regs := {}
  /-- events (chapter 13) -/
  evt      : Evt := {}
  /-- host command transport (chapter 14) -/
  host     : HostIf := {}
  /-- side-band transport (chapter 14) -/
  sb       : SideBand := {}
  /-- retentive image and settings store (chapter 15) -/
  stores   : Stores := {}
  /-- bricks by id; one not listed is as `brickReset` gives it (chapter 01) -/
  bricks   : FMap Brick := []
  /-- ember budget (chapter 04) -/
  budget   : Budget := {}
  /-- cycle classes 0 to 3 (chapter 02) -/
  classes  : FMap ClassSt := []
  /-- live point table: records that differ from the default record (R23, R25) -/
  points   : FMap PointRec := []
  /-- point database: definitions by point id (R23, R126) -/
  defs     : FMap PointDef := []
  /-- force table by point id (R47); reset empty -/
  forces   : FMap Force := []
  /-- force changes that wait for their effect instant, in order (R48) -/
  forceQ   : List ForceChange := []
  /-- historian (R52 to R58) -/
  hist     : Hist := {}
  /-- chunked load of a program image (R65) -/
  progLoad : Option ChunkLoad := none
  /-- verified program image waiting for a switch (R65) -/
  progNext : Option Image := none
  /-- program image in force at the last switch (R59) -/
  program  : Option Image := none
  /-- pending program switch (R59, R61) -/
  switch   : Option ProgSwitch := none
  /-- Main solve deadline D, µs (R45, R62); reset 80 000 -/
  solveDeadline : Nat := 80000
  /-- control engines 0 to 63 (chapter 03) -/
  engines  : FMap Engine := []
  /-- feeder queue, ledger, votes (chapter 03) -/
  work     : Work := {}
  /-- loop channels 0 to 2 047 (chapter 06) -/
  loops    : FMap Channel := []
  /-- device time of the last loop-engine millisecond, ms (R150) -/
  loopMs   : Nat := 0
  /-- channels due at that millisecond that LB has not evaluated, ascending (R151) -/
  loopLeft : List Nat := []
  /-- evaluations since cold reset, 64 bits (R167 LOOP_EVAL); reset 0 -/
  loopEvals : Nat := 0
  /-- longest evaluation of one millisecond since cold reset, µs (R167 LOOP_MAXLOAD); reset 0 -/
  loopMaxLoad : Nat := 0
  /-- network solver (chapter 07) -/
  solver   : Solver := {}
  /-- optimiser (chapter 08) -/
  opt      : Opt := {}
  /-- state estimator (chapter 08) -/
  est      : Est := {}
  /-- metering brick (chapter 09) -/
  meter    : Meter := {}
  /-- field rings (chapter 10) -/
  rings    : Rings := {}
  /-- transmit sides of ring ports 0 to 7 (R298); reset idle and empty -/
  ringTx   : FMap PortTx := []
  /-- network time (chapter 11) -/
  time     : TimeSt := {}
  /-- CAN controllers 0 to 3 (chapter 12) -/
  can      : FMap CanCtl := []
  /-- configurations that wait for the Main boundary, in acceptance order (R317, R321, R357) -/
  boundary : List BoundaryCfg := []
  /-- pair (chapter 16) -/
  pair     : Pair := {}
  /-- loopbacks and test (chapter 17) -/
  test     : TestSt := {}
  /-- calendar clock (chapter 18) -/
  rtc      : Rtc := {}
  /-- event recorder (chapter 18) -/
  recorder : Recorder := {}
  /-- status panel (chapter 19) -/
  panel    : Panel := {}
  /-- keys and life cycle (chapter 20) -/
  keys     : Keys := {}
  /-- firmware update (chapter 21) -/
  fwu      : Fwu := {}
deriving DecidableEq, Repr

/-- Faults. No step of this model faults: the module has no execution that stops (R21 keeps a faulty module
readable), so the type has one constructor that nothing raises. -/
inductive Fault where
  /-- raised by nobody; safe -/
  | none
deriving DecidableEq, Repr

/-- Refusals. -/
inductive Refusal where
  /-- raised by an arm of `exec` whose step has no meaning yet; safe -/
  | notModelled (mnemonic : String)
deriving DecidableEq, Repr

/-- The module right after VSTBY and the backup supply are applied: a standby cold reset and a backup power-up
have occurred (R410, R479), the main side is not powered yet, and every register of both sides holds its
cold-reset value. -/
def State.reset : State := {}

end Sys2Proof.Machine
end

