-- ==== Sys2Proof/Machine/Ops.lean ====
section
/-! DEFINITION. Ops.lean: the operations every family shares: time, free values, slot memory, registers, bricks,
roles, events with their messages and ALERT_N, and the calendar arithmetic the records need. -/

namespace Sys2Proof.Machine

/-! ### Time -/

/-- Device time in ns (R322). -/
def devNs (s : State) : Nat := s.time.dev / 2 ^ 32 % 2 ^ 64

/-- Device time has come to an instant (R4). -/
def reached (s : State) (t : Nat) : Bool := decide (0 ≤ wrapDiff 64 t (devNs s))

/-- Nanoseconds of device time since an instant, 0 before it (R4). -/
def devSince (s : State) (t : Nat) : Nat := (wrapDiff 64 t (devNs s)).toNat

/-- A clock count from nanoseconds. -/
def clockOfNs (ns : Nat) : Nat := ns % 2 ^ 64 * 2 ^ 32

/-- Short time of a device time (R30). -/
def shortOf (ns : Nat) : W32 := BitVec.ofNat 32 (ns / 1000000)

/-- Short time now. -/
def shortNow (s : State) : W32 := shortOf (devNs s)

/-- Nanoseconds of reference time since an instant. -/
def since (s : State) (t : Nat) : Nat := s.refNs - t

/-! ### Free values -/

/-- Take the next free value (assumption log entry 2). -/
def takeFree (s : State) : W64 × State := (Config.freeValue s.free, { s with free := s.free + 1 })

/-! ### Slot memory (R389) -/

/-- A byte of a memory; an unlisted address reads as 0 (assumption log entry 11). -/
def memRead (m : List Host.Cell) (a : Nat) : Byte := fgetD m a 0

/-- Write a byte, keeping the canonical form: addresses ascending, no zero byte listed. -/
def memWrite (m : List Host.Cell) (a : Nat) (b : Byte) : List Host.Cell := fput m a b 0

/-- Write bytes at ascending addresses. -/
def memWriteBytes (m : List Host.Cell) (a : Nat) : Bytes → List Host.Cell
  | [] => m
  | b :: r => memWriteBytes (memWrite m a b) (a + 1) r

/-- Read `n` bytes. -/
def memReadBytes (m : List Host.Cell) (a : Nat) : Nat → Bytes
  | 0 => []
  | n + 1 => memRead m a :: memReadBytes m (a + 1) n

/-- The canonical form of a memory: strictly rising addresses, no entry equal to what an unlisted address reads as. -/
abbrev Memory.wf (m : List Host.Cell) : Prop := fwf m = true ∧ ∀ c ∈ m, c.2 ≠ 0

/-! ### Output log -/

/-- Send or drive something. -/
def emit (o : Out) (s : State) : State := { s with emitted := o :: s.emitted }

/-- Send or drive several things, in order. -/
def emitAll : List Out → State → State
  | [], s => s
  | o :: r, s => emitAll r (emit o s)

/-! ### Bricks (R6, R9, R100) -/

/-- Operating point fixed for a brick, as R100 has it; the governed bricks start at P0. -/
def fixedPoint (b : Nat) : Fin 5 :=
  if b = 0x19 ∨ b = 0x1B ∨ b = 0x1C ∨ b = 0x21 then 1 else if b = 0x1E ∨ b = 0x1D then 2 else 0

/-- A brick after cold reset. -/
def brickReset (b : Nat) : Brick := { st := .point (fixedPoint b), pt := fixedPoint b, ordered := fixedPoint b }

/-- A brick. -/
def brick (s : State) (b : Nat) : Brick := fgetD s.bricks b (brickReset b)

/-- Change a brick. -/
def setBrick (b : Nat) (f : Brick → Brick) (s : State) : State :=
  { s with bricks := fset s.bricks b (f (brick s b)) }

/-- The brick is not a cinder. -/
def inService (s : State) (b : Nat) : Bool := decide ((brick s b).st ≠ .cinder)

/-- Fifths of an engine clock in a nanosecond at an operating point (R99). -/
def clockRate (p : Fin 5) : Nat := 5 - p.val

/-- Clocks of a brick, in fifths, up to an instant: at its point; in a change of point no more than at the faster of the
two; none while its clock is stopped (R74, R99, R101). -/
def clocksAt (x : Brick) (now : Nat) : Nat :=
  let rate := match x.st with
    | .point p => clockRate p
    | .transition => if x.waking then 0 else Nat.max (clockRate x.pt) (clockRate x.ordered)
    | _ => 0
  x.clk + rate * (now - x.clkAt)

/-- A brick goes into TRANSITION: its clocks are counted up to now, and the transition timer starts (R17, R101). -/
def intoTransition (now : Nat) (x : Brick) : Brick :=
  { x with st := .transition, transAt := now, clk := clocksAt x now, clkAt := now }

/-- A packet arrives at a brick: a banked one is in TRANSITION until its clock is present, and the BANK_DELAY count
starts afresh (R102). -/
def wakeBrick (b : Nat) (s : State) : State :=
  setBrick b (fun x =>
    if x.st = .banked then { intoTransition s.refNs x with waking := true, quietFrom := s.refNs }
    else { x with quietFrom := s.refNs }) s

/-- The brick is running at a point. -/
def atPoint (x : Brick) : Bool :=
  match x.st with
  | .point _ => true
  | _ => false

/-- Brick identifiers of the single bricks (R6). -/
def idSV : Nat := 0x18
/-- LB -/
def idLB : Nat := 0x19
/-- NB -/
def idNB : Nat := 0x1A
/-- PB -/
def idPB : Nat := 0x1B
/-- MB -/
def idMB : Nat := 0x1C
/-- PN -/
def idPN : Nat := 0x1D
/-- KB -/
def idKB : Nat := 0x1E
/-- MG -/
def idMG : Nat := 0x1F
/-- MC -/
def idMC : Nat := 0x20
/-- PX -/
def idPX : Nat := 0x21
/-- PL -/
def idPL : Nat := 0x22

/-- Bricks that may be BANKED (R100). -/
def bankable (b : Nat) : Bool := decide (b < 24) || decide (b = idKB) || decide (b = idPN)

/-- A request reaches a brick: a bankable one wakes, and its BANK_DELAY count starts afresh (R102). -/
def reachBrick (b : Nat) (s : State) : State := if bankable b then wakeBrick b s else s

/-- A brick has run out of work: its BANK_DELAY count starts (R102). -/
def restBrick (b : Nat) (s : State) : State := setBrick b (fun x => { x with quietFrom := s.refNs }) s

/-- State code of R9. -/
def brickCode : BrickSt → Nat
  | .point p => p.val
  | .banked => 5
  | .cinder => 6
  | .transition => 7

/-! ### Register storage (R363, R373, R374) -/

/-- Cold-reset value of a configuration register. -/
def cfgReset (off : Nat) : W32 := ((regInfo off).map (·.reset)).getD 0

/-- Configuration bits of a register as stored. -/
def cfgGet (s : State) (off : Nat) : W32 := fgetD s.regs.cfg off (cfgReset off)

/-- A bit of a configuration register. -/
def cfgBit (s : State) (off b : Nat) : Bool := (cfgGet s off).toNat.testBit b

/-- Source number of an EVT_ROUTE offset. -/
def routeSource (off : Nat) : Nat := (off - 0x400) / 4

/-- Whether an offset is an EVT_ROUTE register. -/
def isRoute (off : Nat) : Bool := 0x400 ≤ off && off < 0x800

/-- Current configuration contents of a register, ALERT_EN of MG included (R381). -/
def cfgWord (s : State) (off : Nat) : W32 :=
  if isRoute off then
    BitVec.ofNat 32 ((cfgGet s off).toNat % 128 + (if s.evt.alertEn.getLsbD (routeSource off) then 128 else 0))
  else cfgGet s off

/-- CRC-32C of a block's configuration registers in ascending offset order (R373). -/
def blockSig (s : State) (base : Nat) : W32 :=
  BitVec.ofNat 32 (crc32c ((cfgOffsets base).flatMap fun o => putLE 4 (cfgWord s o).toNat))

/-- Signature of a block's cold-reset contents. -/
def resetSig (base : Nat) : W32 :=
  BitVec.ofNat 32 (crc32c ((cfgOffsets base).flatMap fun o =>
    putLE 4 ((cfgReset o).toNat + (if isRoute o && alertSources.contains (routeSource o) then 128 else 0))))

/-- Expected signature of a block (R373). -/
def expectedSig (s : State) (base : Nat) : W32 := fgetD s.regs.sig base (resetSig base)

/-- Change a configuration register without touching the expected signature. -/
def cfgPoke (off : Nat) (v : W32) (s : State) : State :=
  let s := { s with regs := { s.regs with cfg := fput s.regs.cfg off (v &&& ((regInfo off).map (·.mask)).getD 0) (cfgReset off) } }
  if isRoute off then
    let k := routeSource off
    let one : BitVec 256 := BitVec.twoPow 256 k
    let en := if v.getLsbD 7 then s.evt.alertEn ||| one else s.evt.alertEn &&& ~~~one
    { s with evt := { s.evt with alertEn := en }
             regs := { s.regs with cfg := fput s.regs.cfg off (v &&& 0x5F) (cfgReset off) } }
  else s

/-- Recompute the expected signature of a block (R374). -/
def resign (base : Nat) (s : State) : State :=
  { s with regs := { s.regs with sig := fset s.regs.sig base (blockSig s base) } }

/-- A legitimate change of a configuration register: the register and, in the same step, the block's expected
signature (R374). -/
def cfgSet (off : Nat) (v : W32) (s : State) : State :=
  match blockAt off with
  | none => s
  | some b => resign b.base (cfgPoke off v s)

/-- An RC register. -/
def rcGet (s : State) (off : Nat) : W32 := fgetD s.regs.rc off 0

/-- Count in an RC register. Past 0xFFFF_FFFF its value is open (Config.counterOverflow). -/
def rcAdd (off n : Nat) (s : State) : State :=
  let t := (rcGet s off).toNat + n
  let v := if t < 2 ^ 32 then BitVec.ofNat 32 t else Config.counterOverflow off
  { s with regs := { s.regs with rc := fput s.regs.rc off v 0 } }

/-- Clear an RC register. -/
def rcClear (off : Nat) (s : State) : State := { s with regs := { s.regs with rc := ferase s.regs.rc off } }

/-- BUSY of a posted block (R366). -/
def blockBusy (s : State) (base : Nat) : Bool := s.regs.posted.any fun p => p.base = base

/-! ### Roles -/

/-- ROLE code (R377). -/
def roleCode : Role → Nat
  | .undecided => 0
  | .active => 1
  | .standby => 2
  | .solo => 3
  | .fenced => 4

/-- The module drives its output paths: ACTIVE or SOLO, not in test mode (R165, R317, R357, R475). -/
def driving (s : State) : Bool :=
  (decide (s.pair.role = .active) || decide (s.pair.role = .solo)) && !s.test.test

/-- The module drives, and a takeover has reached its step 6: CAN controllers are in their configured mode and loop
routes are enabled (R452). -/
def routing (s : State) : Bool := driving s && !s.pair.takingUp

/-- An ACTIVE module whose partner is joined. -/
def activeJoined (s : State) : Bool := decide (s.pair.role = .active) && s.pair.joined

/-- An ACTIVE module with a synchronised standby (R437). -/
def activeSynced (s : State) : Bool := decide (s.pair.role = .active) && s.pair.joined && s.pair.synced

/-- Life-cycle code (R520). -/
def lcCode : LcState → Nat
  | .blank => 0
  | .factory => 1
  | .field => 2
  | .service => 3
  | .retired => 4

/-! ### Calendar arithmetic (R481) -/

/-- Leap years of R481, by the year minus 2000. -/
def leapYear (y : Nat) : Bool := y % 4 = 0 && (y % 100 ≠ 0 || y % 400 = 0)

/-- Length of a month. -/
def monthLen (y m : Nat) : Nat :=
  if m = 2 then (if leapYear y then 29 else 28) else if m = 4 ∨ m = 6 ∨ m = 9 ∨ m = 11 then 30 else 31

/-- Days from 2000-01-01 to the first of January of a year. -/
def yearDays (y : Nat) : Nat := 365 * y + (y + 3) / 4 - (y + 99) / 100 + (y + 399) / 400

/-- Days of a year before a month. -/
def monthDays (y : Nat) : Nat → Nat
  | 0 => 0
  | m + 1 => monthDays y m + (if m = 0 then 0 else monthLen y m)

/-- Days from 2000-01-01. -/
def dayNumber (c : CalTime) : Nat := yearDays c.year + monthDays c.year c.month + (c.day - 1)

/-- Seconds from 2000-01-01 00:00:00. -/
def calSecs (c : CalTime) : Nat := dayNumber c * 86400 + c.hour * 3600 + c.min * 60 + c.sec

/-- UTC seconds from 1970-01-01 to 2000-01-01. -/
def epoch2000 : Nat := 946684800

/-- UTC seconds since 1970-01-01 of a calendar time. -/
def utcSecs (c : CalTime) : Nat := epoch2000 + calSecs c

/-- TIME of a record with the main side down (R491). -/
def calNs (s : State) : Nat :=
  (((utcSecs s.rtc.cal : Int) + s.rtc.utcOfs) * 1000000000 + (s.rtc.cal.subsec * 1000000000 / 32768 : Nat)).toNat

/-! ### Event messages (R379, R382) -/

/-- Vector control mask bit of an MSI-X vector. -/
def vecMasked (s : State) (v : Nat) : Bool := cfgBit s (0xF000 + 16 * v + 12) 0

/-- Send an MSI-X message, or note it in the pending-bit array while the vector is masked. With the PCIe link down
nothing leaves (assumption log entry 10), nor with PX lost (R21). -/
def msixSend (v : Nat) (s : State) : State :=
  if vecMasked s v then { s with regs := { s.regs with pba := s.regs.pba ||| BitVec.twoPow 64 v } }
  else if s.host.linkUp && inService s idPX then emit (.msix v) s
  else s

/-- HIF_CTRL.EVT_MSG_EN. -/
def msgEnabled (s : State) : Bool := cfgBit s 0x014 1

/-- The holdoff of a vector has not ended (R382). -/
def inHoldoff (s : State) (v : Nat) : Bool :=
  match fget s.evt.sentAt v with
  | none => false
  | some t => decide (since s t < (cfgGet s 0x104).toNat * 1000)

/-- Send the message of a vector now. -/
def sendVector (v : Nat) (s : State) : State :=
  let s := msixSend v s
  { s with evt := { s.evt with sentAt := fset s.evt.sentAt v s.refNs
                               deferred := s.evt.deferred &&& ~~~(BitVec.twoPow 32 v) } }

/-- A message falls due on a vector (R382): sent, deferred by holdoff, or withheld. -/
def messageDue (v : Nat) (s : State) : State :=
  if msgEnabled s then
    (if inHoldoff s v then { s with evt := { s.evt with deferred := s.evt.deferred ||| BitVec.twoPow 32 v } }
     else sendVector v s)
  else s

/-- VECTOR of a source's route. -/
def routeVector (s : State) (src : Nat) : Nat := (cfgGet s (0x400 + 4 * src)).toNat % 32

/-- MSIX_EN of a source's route. -/
def routeMsix (s : State) (src : Nat) : Bool := cfgBit s (0x400 + 4 * src) 6

/-! ### ALERT_N (R383) -/

/-- SBM_CTRL.ENABLE. -/
def sbEnabled (s : State) : Bool := cfgBit s 0x1604 0

/-- The side-band pending set holds a bit with ALERT_EN 1. -/
def alertWanted (s : State) : Bool := decide (s.evt.pendSb &&& s.evt.alertEn ≠ 0)

/-- ALERT_N is released when no pending bit wants it any more, or while ENABLE is 0. -/
def alertSettle (s : State) : State :=
  if s.evt.alert && (!alertWanted s || !sbEnabled s) then { s with evt := { s.evt with alert := false } } else s

/-! ### The recorder's queue (R493) -/

/-- Permanent events (R492). -/
def permanentSource (src : Nat) : Bool :=
  (0x68 ≤ src && src ≤ 0x6F) || [0x83, 0xCC, 0xE0, 0xE2, 0xE4, 0xE5, 0xE9, 0xEA, 0xEB, 0xED].contains src

/-- Entries of the queue that are not permanent. -/
def plainQueued (s : State) : Nat := (s.recorder.queue.filter fun e => !permanentSource e.source).length

/-- Drop a record: REC_LOST and the source's COUNT (R490, R493). -/
def dropRecord (e : EventRec) (s : State) : State :=
  let s := rcAdd 0x1014 1 s
  { s with recorder := { s.recorder with drops := fmod s.recorder.drops e.source 0 (· + 1) } }

/-- A record enters MG's queue, or is dropped, or is held by its source (R493). A dropped record's message falls due
at once. -/
def queueRecord (e : EventRec) (s : State) : State :=
  if permanentSource e.source then
    (if s.recorder.queue.length < 256 then
      { s with recorder := { s.recorder with queue := s.recorder.queue ++ [e] } }
     else { s with recorder := { s.recorder with held := s.recorder.held ++ [e] } })
  else if plainQueued s < 240 && decide (s.recorder.queue.length < 256) then
    { s with recorder := { s.recorder with queue := s.recorder.queue ++ [e] } }
  else
    let s := dropRecord e s
    let s := { s with evt := { s.evt with last := BitVec.ofNat 8 e.source } }
    match e.vec with
    | some v => messageDue v s
    | none => s

/-! ### Raising an event (R379) -/

/-- Sources that MG serves while the main side is unpowered (R379). -/
def mgServed (src : Nat) : Bool :=
  (0xC0 ≤ src && src ≤ 0xCF) || [0x00, 0x01, 0x09, 0x0B, 0x0C, 0x0D].contains src

/-- Brick that raises a source (R490 ORIGIN; assumption log entry 12). -/
def originBrick (src : Nat) : Nat :=
  if src < 0x0C then idPX else if src < 0x20 then idMG else if src < 0x40 then idSV else if src < 0x50 then idLB
  else if src < 0x60 then idSV else if src < 0x70 then idMB else if src < 0x90 then idNB else if src < 0xA0 then idPB
  else if src < 0xB3 then idPL else if src < 0xB8 then idMC else if src < 0xC0 then idPL else if src < 0xD0 then idMG
  else if src < 0xE0 then idPN else if src < 0xE6 then idKB else idSV

/-- A source raises an event with a cause code and parameters: counter, pending sets with ALERT_N, and the record on
its way to the recorder (R379 steps 1 and 2; the message of step 3 follows the sealing in REC_WRITE). -/
def raiseC (src : Nat) (params : List Int) (code : Nat) (s : State) : State :=
  if !s.power.mainUp && !(s.power.vstby && mgServed src) then s
  else
    let one : BitVec 256 := BitVec.twoPow 256 src
    let fresh := s.power.mainUp && !s.evt.pend.getLsbD src
    let vec := if fresh && routeMsix s src then some (routeVector s src) else none
    let mg := inService s idMG
    let freshSb := !s.evt.pendSb.getLsbD src
    let alert := s.evt.alert || (mg && freshSb && s.evt.alertEn.getLsbD src && sbEnabled s)
    let s := { s with evt := { s.evt with
      cnt := fset s.evt.cnt src (satBits 16 (fgetD s.evt.cnt src 0 + 1))
      pend := if s.power.mainUp then s.evt.pend ||| one else s.evt.pend
      pendSb := if mg then s.evt.pendSb ||| one else s.evt.pendSb
      alert := alert } }
    if mg then
      let time := if s.power.mainUp then devNs s else calNs s
      let flags := (if s.power.mainUp then 0 else 2) + (if s.rtc.oscStop then 4 else 0)
      queueRecord { time := time, source := src, flags := byte flags, code := code, params := params,
                    origin := originBrick src, vec := vec } s
    else match vec with
      | some v => messageDue v s
      | none => s

/-- A source raises an event without a cause code. -/
def raise (src : Nat) (params : List Int) (s : State) : State := raiseC src params 0 s

/-- Raise an event once per episode: only when the flag is clear. -/
def raiseOnce (flag : Bool) (src : Nat) (params : List Int) (s : State) : State :=
  if flag then s else raise src params s

/-- BAD_ACCESS or WRITE_DROPPED at most once per millisecond; a suppressed record counts in COUNT (R365, R490). -/
def raiseAccess (src : Nat) (params : List Int) (cause : Nat) (s : State) : State :=
  let at' := if src = 0 then s.regs.badAt else s.regs.dropAt
  let quiet := match at' with
    | none => false
    | some t => decide (since s t < 1000000)
  if quiet then { s with recorder := { s.recorder with drops := fmod s.recorder.drops src 0 (· + 1) } }
  else
    let s := if src = 0 then { s with regs := { s.regs with badAt := some s.refNs } }
             else { s with regs := { s.regs with dropAt := some s.refNs } }
    raiseC src params cause s

/-- Port code: 0 PCIe, 1 side-band. -/
def portCode : Port → Nat
  | .pcie => 0
  | .sideBand => 1

/-- A dropped access (R364, R365, R366): HIF_ERR_INFO, HIF_ERR_CNT and the event. -/
def dropAccess (port : Port) (off cause : Nat) (write : Bool) (s : State) : State :=
  let info := BitVec.ofNat 32 (off % 65536 + cause * 65536 + b2n write * 1048576 + portCode port * 2097152)
  let s := if s.power.mainUp then rcAdd 0x020 1 { s with regs := { s.regs with errInfo := info } } else s
  raiseAccess (if cause = 5 then 1 else 0) [off, cause, b2n write, portCode port] cause s

/-! ### Fault rows (R466) -/

/-- Count a fault of a row of R458 and note it as the last one. -/
def countFault (row : Nat) (s : State) : State :=
  { s with pair := { s.pair with
      faultRow := row
      faultTime := devNs s
      rowCount := fmod s.pair.rowCount row 0 (fun n => sat32 (n + 1)) } }

/-! ### Mirror records (R444) -/

/-- The active sends a mirror record to a joined partner. -/
def sendMirror (body : MirrorBody) (s : State) : State :=
  if activeJoined s && s.pair.linkUp then
    let n := s.pair.mirrorSeq + 1
    emit (.mirror n body) { s with pair := { s.pair with mirrorSeq := n, mirrorCnt := (s.pair.mirrorCnt + 1) % 2 ^ 64 } }
  else s

end Sys2Proof.Machine
end

