-- ==== Sys2Proof/Machine/Operands.lean ====
section
/-! DEFINITION. Operands.lean: the operands of host commands: status codes, opcodes with their Signed and Pair marks,
payload fields and the objects commands name (R386 to R398, R406, R407). -/

namespace Sys2Proof.Machine

/-! ### Status codes (R406) -/

/-- ST_OK -/
def stOk : Nat := 0x0000
/-- ST_ACCEPTED, slot state only -/
def stAccepted : Nat := 0x0001
/-- ST_BAD_OPCODE -/
def stBadOpcode : Nat := 0x0010
/-- ST_BAD_LENGTH -/
def stBadLength : Nat := 0x0011
/-- ST_BAD_PARAM -/
def stBadParam : Nat := 0x0012
/-- ST_BAD_CRC -/
def stBadCrc : Nat := 0x0013
/-- ST_BUSY -/
def stBusy : Nat := 0x0020
/-- ST_BUSY_OWNED -/
def stBusyOwned : Nat := 0x0021
/-- ST_DENIED -/
def stDenied : Nat := 0x0030
/-- ST_LOCKED -/
def stLocked : Nat := 0x0031
/-- ST_CONFIG_CONFLICT -/
def stConflict : Nat := 0x0032
/-- ST_TIMEOUT -/
def stTimeout : Nat := 0x0040
/-- ST_ABORTED -/
def stAborted : Nat := 0x0041
/-- ST_KEY_REVOKED -/
def stKeyRevoked : Nat := 0x0042
/-- ST_NOT_ACTIVE -/
def stNotActive : Nat := 0x0050

/-! ### Opcode table (R407) -/

/-- The Signed column of R407. -/
inductive SignedMark where
  /-- SIGNED required -/
  | yes
  /-- SIGNED not admitted -/
  | no
  /-- admitted -/
  | opt
deriving DecidableEq, Repr

/-- Opcodes whose Signed column reads yes. -/
def signedOps : List Nat := [0x0602, 0x0620, 0x0630, 0x0724, 0x0A03, 0x0C10, 0x0E01]

/-- Opcodes marked M; CMD_EST_RUN is M with APPLY only. -/
def mirrorOps : List Nat :=
  [0x0101, 0x0103, 0x0201, 0x0203, 0x0204, 0x0210, 0x0211, 0x0310, 0x0311, 0x0320, 0x0401, 0x0403, 0x0404,
   0x0501, 0x0502, 0x0503, 0x0520, 0x0521, 0x0522, 0x0530, 0x0531, 0x0532, 0x0601, 0x0602, 0x0603, 0x0620, 0x0630,
   0x0701, 0x0702, 0x0703, 0x0704, 0x0705, 0x0706, 0x0720, 0x0721, 0x0722, 0x0724, 0x0801, 0x0802, 0x0902]

/-- Opcodes marked L. -/
def localOps : List Nat :=
  [0x0000, 0x0001, 0x0010, 0x0011, 0x0020, 0x0021, 0x0030, 0x0031, 0x0102, 0x0202, 0x0220, 0x0230, 0x0231, 0x0301,
   0x0312, 0x0321, 0x0322, 0x0402, 0x0405, 0x0510, 0x0511, 0x0512, 0x0523, 0x0524, 0x0533, 0x0610, 0x0611,
   0x0710, 0x0711, 0x0723, 0x0803, 0x0804, 0x0810, 0x0901, 0x0903, 0x0904, 0x0905, 0x0906,
   0x0A01, 0x0A02, 0x0A03, 0x0A10, 0x0A11, 0x0A12, 0x0A13, 0x0B01, 0x0B02, 0x0B03, 0x0B04,
   0x0C01, 0x0C02, 0x0C03, 0x0C10, 0x0D01, 0x0D02, 0x0D03, 0x0D04, 0x0D05, 0x0D06, 0x0D07,
   0x0E01, 0x0E02, 0x0E10, 0x0E11, 0x0E12]

/-- The opcode is in the table. -/
def knownOpcode (op : Nat) : Bool := mirrorOps.contains op || localOps.contains op

/-- Signed column of an opcode. -/
def signedMark (op : Nat) : SignedMark :=
  if op = 0x0310 then .opt else if signedOps.contains op then .yes else .no

/-- Commands that change nothing (R398). -/
def readOnlyOps : List Nat :=
  [0x0000, 0x0001, 0x0010, 0x0020, 0x0102, 0x0202, 0x0220, 0x0231, 0x0301, 0x0312, 0x0321, 0x0322, 0x0402, 0x0405,
   0x0511, 0x0523, 0x0524, 0x0533, 0x0610, 0x0611, 0x0710, 0x0711, 0x0723, 0x0810, 0x0901, 0x0906, 0x0A01, 0x0A10,
   0x0B04, 0x0C02, 0x0C03, 0x0D07, 0x0E12]

/-- Commands a FENCED module executes (R398). -/
def fencedOps : List Nat := readOnlyOps ++ [0x0021, 0x0030, 0x0031, 0x0E01, 0x0E02, 0x0E10, 0x0E11]

/-- Commands a RETIRED module executes (R520); CMD_REC_CURSOR counts among the reads of group 0x0A (log entry 13). -/
def retiredOps : List Nat := [0x0000, 0x0001, 0x0010, 0x0020, 0x0021, 0x0C02, 0x0C03, 0x0A01, 0x0A02, 0x0A10]

/-- Commands MG executes while the main side is unpowered (R404). -/
def unpoweredOps : List Nat :=
  [0x0000, 0x0001, 0x0010, 0x0011, 0x0020, 0x0021, 0x0031, 0x0A01, 0x0A02, 0x0A10, 0x0A11, 0x0A12, 0x0A13]

/-- Opcodes whose last accepted payload the working copy holds (R423). -/
def settingsOps : List Nat :=
  [0x0103, 0x0201, 0x0230, 0x0320, 0x0401, 0x0403, 0x0503, 0x0522, 0x0531, 0x0701, 0x0702, 0x0703, 0x0704, 0x0705,
   0x0720, 0x0721, 0x0722, 0x0801, 0x0802, 0x0902, 0x0B01]

/-- The object of a settings entry, as a number (R423). -/
def settingsKey (op : Nat) (p : Bytes) : Nat :=
  match op with
  | 0x0201 | 0x0701 | 0x0705 | 0x0720 | 0x0721 | 0x0801 => getLE p 0 1
  | 0x0401 | 0x0403 | 0x0702 | 0x0704 | 0x0802 => getLE p 0 2
  | 0x0703 | 0x0320 => getLE p 0 4
  | _ => 0

/-- The object a command names, behind which a later command on the same object waits (R393, R534). A forced CMD_FWU_OPEN and
CMD_FWU_CLOSE stop a build in progress and do not wait for its CMD_FWU_VERIFY (R544, R558). -/
def objectOf (op : Nat) (p : Bytes) : Option Nat :=
  match op with
  | 0x0201 | 0x0202 | 0x0203 | 0x0204 => some (0x0200_0000_0000 + getLE p 0 1)
  | 0x0210 | 0x0211 => some 0x0210_0000_0000
  | 0x0310 | 0x0311 => some 0x0310_0000_0000
  | 0x0401 | 0x0402 | 0x0403 | 0x0404 => some (0x0400_0000_0000 + getLE p 0 2)
  | 0x0501 | 0x0502 | 0x0503 => some 0x0500_0000_0000
  | 0x0520 | 0x0521 | 0x0522 => some 0x0520_0000_0000
  | 0x0530 | 0x0531 => some 0x0530_0000_0000
  | 0x0601 | 0x0602 | 0x0603 | 0x0620 | 0x0630 => some 0x0600_0000_0000
  | 0x0702 | 0x0703 => some (0x0702_0000_0000 + getLE p 0 2)
  | 0x0705 | 0x0706 => some (0x0705_0000_0000 + getLE p 0 1)
  | 0x0801 | 0x0802 | 0x0803 | 0x0804 | 0x0810 => some (0x0800_0000_0000 + getLE p 0 1)
  | 0x0101 => some 0x0101_0000_0000
  | 0x0C01 | 0x0C10 => some 0x0C00_0000_0000
  | 0x0D01 => some (0x0D00_0000_0000 + (if (getLE p 1 1).testBit 0 then 2 else 0xFF))
  | 0x0D03 => some 0x0D00_0000_0001
  | 0x0D06 => some 0x0D00_0000_0002
  | 0x0D02 | 0x0D04 | 0x0D05 => some 0x0D00_0000_00FF
  | _ => none

/-! ### Payload fields (R388, R406) -/

/-- Length of the signature block (R395). -/
def sigLen : Nat := 112

/-- Payload without the signature block. -/
def bodyOf (r : Req) : Bytes := if r.signed then r.payload.take (r.payload.length - sigLen) else r.payload

/-- The first fault among fields in ascending offset, as an ST_BAD_PARAM refusal with that offset. -/
def badParam : List (Nat × Bool) → Option (Nat × Nat)
  | [] => none
  | (off, bad) :: r => if bad then some (stBadParam, off) else badParam r

/-- The first refusal of several checks. -/
def firstRefusal : List (Option (Nat × Nat)) → Option (Nat × Nat)
  | [] => none
  | some x :: _ => some x
  | none :: r => firstRefusal r

/-- A refusal when a condition holds. -/
def refuseIf (c : Bool) (status detail : Nat) : Option (Nat × Nat) := if c then some (status, detail) else none

/-- The field of `n` bytes at an offset is not zero (a reserved field). -/
def notZero (p : Bytes) (off n : Nat) : Bool := !allZero (slice p off n)

/-- A fixed payload size (R388): none when the length is right, else the expected length. -/
def fixedLen (n : Nat) (p : Bytes) : Option Nat := if p.length = n then none else some n

/-- Port of an origin. -/
def originPort : Origin → Port
  | .slot _ => .pcie
  | .sideBand => .sideBand
  | .mirror => .pcie

/-- Slot of an origin, 0xFF for the side-band. -/
def originSlot : Origin → Nat
  | .slot n => n.val
  | .sideBand => 0xFF
  | .mirror => 0xFF

/-! ### Completing a command (R391, R399, R402, R423) -/

/-- Response packet (R386). -/
def responsePacket (op : Nat) (tag : W16) (origin : Nat) (status detail : Nat) (data : Bytes) : Bytes :=
  let p := putLE 2 op ++ putLE 2 2 ++ putLE 2 data.length ++ putLE 2 tag.toNat ++ putLE 2 status ++
    [byte origin, 0] ++ putLE 4 detail ++ data
  p ++ putLE 4 (crc32c p) ++ putLE 4 0x4B504756

/-- A slot. -/
def slotOf (s : State) (n : Nat) : Slot := fgetD s.host.slots n {}

/-- Set a slot's state word. -/
def setSlot (n : Nat) (x : Slot) (s : State) : State :=
  { s with host := { s.host with slots := fput s.host.slots n x {} } }

/-- Put the response into the slot, trailer last, set DONE and STATUS, then HIF_CMPL and the slot's message (R391). -/
def slotRespond (n : Nat) (op : Nat) (tag : W16) (status detail : Nat) (data : Bytes) (s : State) : State :=
  let pkt := responsePacket op tag 0 status detail data
  let s := { s with host := { s.host with mem := memWriteBytes s.host.mem (0x1000 * n) pkt } }
  let s := setSlot n { st := .done, status := BitVec.ofNat 16 status } s
  let s := { s with host := { s.host with cmpl := s.host.cmpl ||| BitVec.twoPow 64 n } }
  msixSend (32 + n % 32) s

/-- The side-band response becomes readable (R402). -/
def sbRespond (op : Nat) (tag : W16) (status detail : Nat) (data : Bytes) (s : State) : State :=
  { s with sb := { s.sb with st := .done, status := BitVec.ofNat 16 status
                             resp := responsePacket op tag 1 status detail data } }

/-- Remove the first occurrence of an element. -/
def removeFirst {α : Type} [DecidableEq α] (x : α) : List α → List α
  | [] => []
  | a :: r => if a = x then r else a :: removeFirst x r

/-- Answer a request at its origin. The response of a request that a link-down or a function-level reset has orphaned is
discarded (R394). -/
def respond (op : Nat) (r : Req) (status detail : Nat) (data : Bytes) (s : State) : State :=
  if s.host.orphans.contains { opcode := op, req := r } then
    { s with host := { s.host with orphans := removeFirst { opcode := op, req := r } s.host.orphans } }
  else match r.origin with
  | .slot n =>
    if (slotOf s n.val).st = .accepted then
      slotRespond n.val op r.tag status detail data (emit (.response r.origin op r.tag status detail data) s)
    else s
  | .sideBand =>
    if s.sb.st = .accepted then
      sbRespond op r.tag status detail data (emit (.response r.origin op r.tag status detail data) s)
    else s
  | .mirror => s

/-- Enter a payload into the working copy (R423). -/
def remember (op : Nat) (body : Bytes) (s : State) : State :=
  let k := settingsKey op body
  { s with stores := { s.stores with
      working := (s.stores.working.filter fun e => !(e.1 = op && e.2.1 = k)) ++ [(op, k, body)] } }

/-- Note the outcome of a command whose mirror record is not acknowledged; none when there is no such command. -/
def mirrorDone (w : Waiting) (d : Done) : List MirrorWait → Option (List MirrorWait)
  | [] => none
  | m :: r =>
    if m.cmd = w && m.done = none then some ({ m with done := some d } :: r)
    else (mirrorDone w d r).map (m :: ·)

/-- Complete a started command: CMD_TIMEOUT, working copy, and the response, which a mirrored command holds until the
partner has acknowledged its record (R399, R406, R423). -/
def finish (op : Nat) (r : Req) (status detail : Nat) (data : Bytes) (s : State) : State :=
  let w : Waiting := { opcode := op, req := r }
  let s := { s with host := { s.host with waiting := removeFirst w s.host.waiting } }
  let s := if status = stTimeout then raise 0x0B [op, r.tag.toNat] s else s
  let s := if status = stOk && settingsOps.contains op then remember op (bodyOf r) s else s
  match mirrorDone w { status := status, detail := detail, data := data } s.host.mirrored with
  | some l => { s with host := { s.host with mirrored := l } }
  | none => respond op r status detail data s

/-- Complete with ST_OK. -/
def finishOk (op : Nat) (r : Req) (data : Bytes) (s : State) : State := finish op r stOk 0 data s

/-- A command that waits for a boundary or an end (R393). -/
def holdCmd (op : Nat) (r : Req) (s : State) : State :=
  { s with host := { s.host with waiting := s.host.waiting ++ [{ opcode := op, req := r }] } }

/-- Complete a held request, if there is one. -/
def finishOpt (op : Nat) (r : Option Req) (status detail : Nat) (data : Bytes) (s : State) : State :=
  match r with
  | some r => finish op r status detail data s
  | none => s

/-- The partner has acknowledged records up to a number, or no longer has to: respond to the commands whose outcome
is known (R399). The number is the 4-byte MIRROR_ACK and wraps (R4, R439). -/
def flushMirrored (upTo : Nat) : List MirrorWait → State → State
  | [], s => s
  | m :: r, s =>
    if 0 ≤ wrapDiff 32 m.record upTo then
      match m.done with
      | some d => flushMirrored upTo r (respond m.cmd.opcode m.cmd.req d.status d.detail d.data s)
      | none => flushMirrored upTo r s
    else flushMirrored upTo r { s with host := { s.host with mirrored := s.host.mirrored ++ [m] } }

/-- Acknowledge mirror records up to a number (R399). -/
def ackMirrored (upTo : Nat) (s : State) : State :=
  flushMirrored upTo s.host.mirrored { s with host := { s.host with mirrored := [] } }

end Sys2Proof.Machine
end

