-- ==== Sys2Proof/Machine/Keyring.lean ====
section
/-! DEFINITION. Keyring.lean: key slots, revocation, signed commands and the tags of ring frames
(R396, R397, R518 to R520, R525 to R528, R535). -/

namespace Sys2Proof.Machine

/-- ID_HASH: 48 zero bytes without an identity key (R518). -/
def idHash (s : State) : Bytes :=
  match s.keys.identity with
  | some k => Config.sha384 k
  | none => zeros 48

/-- The valid key of a slot. -/
def keyAt (s : State) (slot : Nat) : Option Key := fget s.keys.slots slot

/-- A slot holds a valid key with an engine of the destination set: 0 KB, 1 NB, 2 PL, 3 UV (R525). -/
def keyFor (s : State) (slot dest : Nat) : Option Key :=
  match keyAt s slot with
  | some k => if k.dest.getLsbD dest then some k else none
  | none => none

/-- Whether `a` is an ancestor of slot `k`, looking at most `n` parents up (R525). -/
def hasAncestor (m : FMap Key) (a : Nat) : Nat → Nat → Bool
  | 0, _ => false
  | n + 1, k =>
    if k = 0 then false
    else match fget m k with
    | none => false
    | some key => key.parent = a || hasAncestor m a n key.parent

/-- Number of parents up to slot 0 (R525 DEPTH). -/
def keyDepth (m : FMap Key) : Nat → Nat → Nat
  | 0, _ => 0
  | n + 1, k =>
    if k = 0 then 0
    else match fget m k with
    | none => 0
    | some key => 1 + keyDepth m n key.parent

/-- Descendants of a slot. -/
def descendants (m : FMap Key) (a : Nat) : List Nat :=
  (m.filter fun e => e.1 ≠ a && hasAncestor m a 9 e.1).map (·.1)

/-- Erase slots. -/
def eraseSlots : List Nat → FMap Key → FMap Key
  | [], m => m
  | k :: r, m => eraseSlots r (ferase m k)

/-- Revoke a key with every descendant: their slots become free, and KEY_REVOKED carries the slot, the number of
descendants and the cause (R535). -/
def revokeKey (slot cause : Nat) (s : State) : State :=
  let d := descendants s.keys.slots slot
  let s := { s with keys := { s.keys with slots := eraseSlots (slot :: d) s.keys.slots } }
  raiseC 0xE2 [slot, d.length, cause] cause (rcAdd 0x121C (1 + d.length) s)

/-- A legacy key is used once more (R528). -/
def useLegacy (slot : Nat) (s : State) : State :=
  match keyAt s slot with
  | none => s
  | some k =>
    if k.flags.getLsbD 0 then
      (let n := k.uses.toNat - 1
       if n = 0 then revokeKey slot 1 s
       else { s with keys := { s.keys with slots := fset s.keys.slots slot { k with uses := BitVec.ofNat 32 n } } })
    else s

/-- The life-cycle state admits the signed command (R520). -/
def lcAdmits (s : State) (op : Nat) : Bool :=
  match s.keys.lc with
  | .blank => op = 0x0C10
  | .retired => false
  | _ => true

/-- The message a signed command signs (R396). -/
def signedMessage (s : State) (op : Nat) (r : Req) : Bytes :=
  idHash s ++ putLE 2 op ++ putLE 2 1 ++ putLE 2 r.payload.length ++ putLE 2 r.tag.toNat ++ zeros 8 ++
    r.payload.take (r.payload.length - 96)

/-- Cause for which KB refuses a signed command, in the order of R397. -/
def signedCause (op : Nat) (r : Req) (s : State) : Option Nat :=
  let b := r.payload.drop (r.payload.length - sigLen)
  match (if inService s idKB then keyFor s (getLE b 0 2) 0 else none) with
  | none => some 5
  | some k =>
    if !lcAdmits s op then some 6
    else if getLE b 8 8 ≠ s.keys.serial.toNat then some 4
    else if getLE b 4 4 ≤ s.keys.privCnt.toNat then some 3
    else if getLE b 2 2 ≠ 1 then some 2
    else if Config.ecdsaVerify k.data (signedMessage s op r) (slice b 16 48) (slice b 64 48) then none
    else some 2

/-- KB accepts a signed command: the counter advances, a legacy key loses a use (R397, R528). -/
def signedAccept (r : Req) (s : State) : State :=
  let b := r.payload.drop (r.payload.length - sigLen)
  useLegacy (getLE b 0 2) { s with keys := { s.keys with privCnt := BitVec.ofNat 32 (getLE b 4 4) } }

/-- A signature section laid out as in R130 over the bytes before it verifies under a key whose destination set holds
an engine; UV and KB use the same layout (R130, R526, R529). -/
def sectionVerify (s : State) (dest : Nat) (b : Bytes) (sigOff : Nat) : Bool :=
  let g := b.drop sigOff
  match keyFor s (getLE g 0 2) dest with
  | none => false
  | some k => getLE g 2 2 = 1 && Config.ecdsaVerify k.data (b.take sigOff) (slice g 16 48) (slice g 64 48)

/-- A signature section has verified with the key it names: a legacy key has one use less (R528). -/
def sectionUsed (b : Bytes) (sigOff : Nat) (s : State) : State := useLegacy (getLE b sigOff 2) s

/-- The checks of a load, whose third is the signature, have run up to the first that fails: the signature has verified when
none fails before the fourth (R131, R187, R231, R247, R528, R546). -/
def afterChecks (failed : Option Nat) (b : Bytes) (sigOff : Nat) (s : State) : State :=
  match failed with
  | some n => if n ≤ 3 then s else sectionUsed b sigOff s
  | none => sectionUsed b sigOff s

end Sys2Proof.Machine
end

