-- ==== Sys2Proof/Machine/Cmd.lean ====
section
/-! DEFINITION. Cmd.lean: how an accepted command is executed (R387, R388, R393, R397 to R399, R404, R520): order of
acceptance, the gates of role, life cycle and power, length, signature, field checks, mirroring, effect. -/

namespace Sys2Proof.Machine

/-- One command: its opcode, the layout check (none when LENGTH is right, else the expected length), the checks of
its fields and of the state, and its effect, which also completes it or lets it wait. -/
structure CmdSpec where
  /-- opcode (R407) -/
  opcode : Nat
  /-- R388 -/
  length : Bytes → Option Nat
  /-- field checks, with the first refusal's status and DETAIL -/
  check  : Req → Bytes → State → Option (Nat × Nat)
  /-- effect -/
  run    : Req → Bytes → State → State
  /-- device time at which an accepted request takes effect, for its mirror record; 0 where it has no such instant -/
  instant : Bytes → State → Nat := fun _ _ => 0

/-- Two commands name the same object (R393); trip group 0xFF, channel 0xFFFF and the update session itself name every
object of their kind (R171, R321, R543). -/
def sameObject (a b : Nat) : Bool :=
  let kind := a / 2 ^ 32
  let every := if kind = 0x0705 ∨ kind = 0x0D00 then 0xFF else if kind = 0x0400 then 0xFFFF else 2 ^ 32
  decide (kind = b / 2 ^ 32) && (decide (a = b) || decide (a % 2 ^ 32 = every) || decide (b % 2 ^ 32 = every))

/-- An accepted request of the list that may start: the first whose object no waiting or earlier command holds
(R393). -/
def nextStart (s : State) (held : List Nat) : List Waiting → Option Waiting
  | [] => none
  | w :: r =>
    match objectOf w.opcode w.req.payload with
    | none => some w
    | some k => if held.any (sameObject k) then nextStart s held r else some w

/-- Objects that started commands hold while they wait (R393). -/
def heldObjects (s : State) : List Nat := s.host.waiting.filterMap fun w => objectOf w.opcode w.req.payload

/-- The request may start now. A request that came through no transport of this module starts at once. -/
def mayStart (op : Nat) (r : Req) (s : State) : Bool :=
  let w : Waiting := { opcode := op, req := r }
  if s.host.accepted.contains w then nextStart s (heldObjects s) s.host.accepted = some w else true

/-- Take the request off the list of accepted ones. -/
def takeAccepted (op : Nat) (r : Req) (s : State) : State :=
  { s with host := { s.host with accepted := removeFirst { opcode := op, req := r } s.host.accepted } }

/-- The command is marked M for this payload (R256, R398, R407; CMD_EST_RUN with APPLY only). -/
def isMirrored (op : Nat) (body : Bytes) : Bool := mirrorOps.contains op && (op ≠ 0x0532 || bit (getLE body 0 1) 0)

/-- Brick that executes a group of commands beside SV, by opcode group (R21, R406 ST_NOT_ACTIVE; log entry 14). -/
def groupBrick (op : Nat) : Option Nat :=
  match op / 256 with
  | 4 => some idLB
  | 6 => some idMB
  | 7 => some idNB
  | 8 => some idPB
  | 0xB => some idPN
  | _ => none

/-- CMD_REG_READ and CMD_REG_WRITE reach only the blocks MG holds while the main side is unpowered (R404). -/
def unpoweredReg (op : Nat) (body : Bytes) : Bool :=
  if op = 0x0010 ∨ op = 0x0011 then
    let off := getLE body 0 4
    let last := off + 4 * getLE body 4 2 - 1
    (0xF00 ≤ off && last < 0x1100) || (0x1600 ≤ off && last < 0x1700)
  else true

/-- Role, life cycle, power and brick gates (R398, R404, R406, R474, R520), all ST_NOT_ACTIVE. -/
def gated (op : Nat) (body : Bytes) (s : State) : Bool :=
  !s.power.vstby ||
  (decide (s.keys.lc = .retired) && !retiredOps.contains op) ||
  (!s.power.mainUp && !(unpoweredOps.contains op && unpoweredReg op body)) ||
  (s.power.mainUp && isMirrored op body && !(decide (s.pair.role = .active) || decide (s.pair.role = .solo))) ||
  (s.power.mainUp && decide (s.pair.role = .fenced) && decide (s.keys.lc ≠ .retired) && !isMirrored op body &&
    !fencedOps.contains op) ||
  (s.test.dramGone && op / 256 ≠ 0x0E) ||
  (match groupBrick op with
   | some b => !inService s b
   | none => false)

/-- Pass a mirrored command to a joined partner once its checks have passed (R399). -/
def passToPartner (op : Nat) (r : Req) (body : Bytes) (instant : Nat) (s : State) : State :=
  if isMirrored op body && activeJoined s && s.pair.linkUp then
    let s := sendMirror (.command op r instant) s
    { s with host := { s.host with
        mirrored := s.host.mirrored ++ [{ record := s.pair.mirrorSeq, cmd := { opcode := op, req := r }, done := none }] } }
  else s

/-- Signature of a signed command: the cause KB refuses it for. -/
def signatureRefusal (op : Nat) (r : Req) (s : State) : Option Nat := if r.signed then signedCause op r s else none

/-- The signature check is a request to KB (R100, R102). -/
def askKeys (r : Req) (s : State) : State := if r.signed then reachBrick idKB s else s

/-- State after the signature check has passed. -/
def afterSignature (r : Req) (s : State) : State := if r.signed then signedAccept r (askKeys r s) else s

/-- The request that a command makes to PN or KB wakes a banked brick and starts its count afresh (R100, R102). -/
def askGroup (op : Nat) (s : State) : State :=
  if op / 256 = 0xB then reachBrick idPN s else if op / 256 = 0xC ∨ op / 256 = 0xD then reachBrick idKB s else s

/-- The SIGNED flag against the Signed column (R387 check 5). -/
def signFlagRefusal (op : Nat) (signed : Bool) : Option (Nat × Nat) :=
  match signedMark op with
  | .yes => if signed then none else some (stDenied, 1)
  | .no => if signed then some (stBadParam, 2) else none
  | .opt => none

/-- The length check of a request (R387, R388): DETAIL is the expected length, signature block included. -/
def lengthRefusal (c : CmdSpec) (r : Req) : Option Nat :=
  match c.length (bodyOf r) with
  | some n => some (if n = 0xFFFFFFFF then n else n + (if r.signed then sigLen else 0))
  | none => if r.signed && decide (r.payload.length < sigLen) then some sigLen else none

/-- Execute a started request (R387): gates, length, signature, fields, mirror, effect. -/
def runStarted (c : CmdSpec) (r : Req) (s : State) : State :=
  let body := bodyOf r
  match signFlagRefusal c.opcode r.signed with
  | some (st, d) => finish c.opcode r st d [] s
  | none =>
  if gated c.opcode body s then finish c.opcode r stNotActive 0 [] s
  else match lengthRefusal c r with
  | some n => finish c.opcode r stBadLength n [] s
  | none =>
    match signatureRefusal c.opcode r s with
    | some cause => finish c.opcode r stDenied cause []
        (raiseC 0x0A [originSlot r.origin, portCode (originPort r.origin), cause] cause (askKeys r s))
    | none =>
      let s := afterSignature r s
      match c.check r body s with
      | some (st, d) => finish c.opcode r st d [] s
      | none => c.run r body (passToPartner c.opcode r body (c.instant body s) (askGroup c.opcode s))

/-- The instant of an effect: a standby takes the one that the active has fixed (R48, R59, R220). -/
def effectTime (s : State) (own : Nat) : Nat := s.pair.mirrorAt.getD own

/-- Execute a command: a request that may not start yet changes nothing. -/
def runCmd (c : CmdSpec) (r : Req) (s : State) : State :=
  if mayStart c.opcode r s then runStarted c r (takeAccepted c.opcode r s) else s

/-- The outcome of every step that goes on. -/
abbrev Res := Host.Outcome State Fault Refusal

end Sys2Proof.Machine
end

