-- ==== Sys2Proof/Machine/Flags.lean ====
section
/-! DEFINITION. Flags.lean: quality bytes (R28, R29) and the fields of TYPEFLAGS (R26). -/

namespace Sys2Proof.Machine

/-- State GOOD -/
def qGood : Nat := 0
/-- State STALE -/
def qStale : Nat := 1
/-- State BAD -/
def qBad : Nat := 2
/-- State INIT -/
def qInit : Nat := 3
/-- State ESTIMATED -/
def qEst : Nat := 4

/-- STATE of a quality byte. -/
def qState (q : Byte) : Nat := q.toNat % 8

/-- Quality byte with another STATE. -/
def qWithState (q : Byte) (st : Nat) : Byte := byte (q.toNat / 8 * 8 + st % 8)

/-- FORCED bit -/
def qForced : Byte := 0x08
/-- HELD bit -/
def qHeld : Byte := 0x10
/-- OVERRANGE bit -/
def qOver : Byte := 0x20
/-- LATE bit -/
def qLate : Byte := 0x40

/-- Set flag bits. -/
def qSet (q f : Byte) : Byte := q ||| f
/-- Clear flag bits. -/
def qClear (q f : Byte) : Byte := q &&& ~~~f
/-- Whether a flag bit is set. -/
def qHas (q f : Byte) : Bool := decide (q &&& f ≠ 0)

/-- A quality byte from a state and flags. -/
def qMake (st : Nat) (flags : Byte) : Byte := byte st ||| flags

/-- Severity of a state: BAD, INIT, STALE, ESTIMATED, GOOD, most severe first; a reserved state ranks as BAD (R29). -/
def qRank (st : Nat) : Nat :=
  match st with
  | 0 => 0
  | 4 => 1
  | 1 => 2
  | 3 => 3
  | _ => 4

/-- State of a severity. -/
def rankState : Nat → Nat
  | 0 => 0
  | 1 => 4
  | 2 => 1
  | 3 => 3
  | _ => 2

/-- The combination of two quality bytes (R29). -/
def qCombine (a b : Byte) : Byte :=
  qMake (rankState (Nat.max (qRank (qState a)) (qRank (qState b)))) ((a ||| b) &&& 0x78)

/-- The combination of several; GOOD for none. -/
def qCombineAll : List Byte → Byte
  | [] => 0
  | a :: r => qCombine a (qCombineAll r)

/-- The point may be used as a live value: GOOD or ESTIMATED. -/
def qUsable (q : Byte) : Bool := qState q = 0 || qState q = 4

/-! ### TYPEFLAGS (R26) -/

/-- TYPE -/
def tfType (t : W16) : Nat := t.toNat % 16
/-- RETAIN -/
def tfRetain (t : W16) : Bool := t.getLsbD 4
/-- OUTPUT -/
def tfOutput (t : W16) : Bool := t.getLsbD 5
/-- TPOL -/
def tfTpol (t : W16) : Nat := t.toNat / 64 % 4
/-- SOURCE -/
def tfSource (t : W16) : Nat := t.toNat / 256 % 4

end Sys2Proof.Machine
end

