-- ==== Sys2Proof/Machine/Points.lean ====
section
/-! DEFINITION. Points.lean: the point table (R23 to R30), forces as readers see them (R47) and the point and force
commands (R48, R51, R67 to R69). -/

namespace Sys2Proof.Machine

/-- Number of points (R1, R67). -/
def pointCount : Nat := 33554432

/-- The value *no point* (R23). -/
def noPoint : Nat := 0xFFFFFFFF

/-- Point id of a station's local index (R23). -/
def pointId (station idx : Nat) : Nat := station % 4096 * 8192 + idx % 8192

/-- Station of a point id. -/
def stationOf (id : Nat) : Nat := id / 8192 % 4096

/-- Local index of a point id. -/
def localOf (id : Nat) : Nat := id % 8192

/-- The point is in the database (R24). -/
def defined (s : State) (id : Nat) : Bool := (fget s.defs id).isSome

/-- Definition of a point. -/
def defOf (s : State) (id : Nat) : Option PointDef := fget s.defs id

/-- Record of a point that nothing has written since the image defined it: value 0, state INIT, with the type and
scale of its definition (R127 gives entries of INITIAL their value). -/
def blankRec (d : PointDef) : PointRec :=
  { value := 0, stime := 0, quality := byte qInit, scale := d.scale, typeflags := d.typeflags }

/-- Live record underneath any force. -/
def liveRec (s : State) (id : Nat) : PointRec :=
  match fget s.points id with
  | some r => r
  | none => match defOf s id with
    | some d => blankRec d
    | none => {}

/-- A record as a force shows it (R47). -/
def forcedRec (f : Force) (r : PointRec) : PointRec :=
  { r with value := f.value, stime := f.stime, quality := qForced }

/-- A point as readers that read it live see it (R47). -/
def readRec (s : State) (id : Nat) : PointRec :=
  match fget s.forces id with
  | some f => forcedRec f (liveRec s id)
  | none => liveRec s id

/-- TEXT entries of the running image. -/
def textCount (s : State) : Nat := (s.program.map (·.textCount)).getD 0

/-- A raw value that R27 admits for a definition. -/
def valueFits (s : State) (d : PointDef) (v : Int) : Bool :=
  match tfType d.typeflags with
  | 0 => v = 0 || v = 1
  | 3 => decide (0 ≤ v) && decide (v < d.enumSize)
  | 4 => decide (0 ≤ v)
  | 5 => decide (0 ≤ v) && decide (v < textCount s)
  | _ => true

/-- A write that R27 admits: the value for the type, and the scale for it. -/
def recFits (s : State) (d : PointDef) (r : PointRec) : Bool :=
  valueFits s d r.value && decide (-63 ≤ r.scale) && decide (r.scale ≤ 63) &&
  (match tfType d.typeflags with
   | 1 | 4 | 5 => decide (r.scale = 0)
   | _ => true)

/-- The record a producer or block write stores: a breach of R27 gives state BAD. -/
def storedRec (s : State) (d : PointDef) (r : PointRec) : PointRec :=
  let r := { r with typeflags := d.typeflags }
  if recFits s d r then r else { r with quality := qWithState r.quality qBad }

/-- Put a record into the live table, atomically (R24). -/
def putRec (id : Nat) (r : PointRec) (s : State) : State := { s with points := fset s.points id r }

/-- A producer writes a point of the database; POINT_INVALID where R27 is broken. -/
def writePoint (id : Nat) (value : Int) (stime : W32) (quality : Byte) (scale : Int) (s : State) : State :=
  match defOf s id with
  | none => s
  | some d =>
    let r : PointRec := { value := value, stime := stime, quality := quality, scale := scale, typeflags := d.typeflags }
    let s' := putRec id (storedRec s d r) s
    if recFits s d r then s' else raise 0x25 [id] s'

/-- Limit a raw value to the range of a definition; the flag says that it limited. -/
def limitTo (d : PointDef) (v : Int) : Int × Bool :=
  (clamp v d.rangeMin d.rangeMax, decide (v < d.rangeMin) || decide (d.rangeMax < v))

/-- A brick writes a value at a scale: aligned to the point's SCALE and limited to its range (R132, R133). -/
def writeScaled (id : Nat) (value : Int) (scale : Int) (stime : W32) (quality : Byte) (s : State) : State :=
  match defOf s id with
  | none => s
  | some d =>
    let raw := alignRaw value scale d.scale
    let (v, lim) := limitTo d (sat raw)
    writePoint id v stime (if lim || !fits64 raw then qSet quality qOver else quality) d.scale s

/-- Change the quality of a live record. -/
def setQuality (id : Nat) (q : Byte) (s : State) : State := putRec id { liveRec s id with quality := q } s

/-- A record as R25 lays it out. -/
def recBytes (r : PointRec) : Bytes :=
  putSLE 8 r.value ++ putLE 4 r.stime.toNat ++ [r.quality] ++ putSLE 1 r.scale ++ putLE 2 r.typeflags.toNat

/-- A record of a point that is not in the database: TYPE 15, every other byte 0 (R67). -/
def noneRec : Bytes := zeros 14 ++ [0x0F, 0]

/-- Points of a station that are in the database. -/
def stationPoints (s : State) (st : Nat) : List Nat := (s.defs.filter fun e => stationOf e.1 = st).map (·.1)

/-! ### Point commands -/

/-- A point id field (R23): bits [31:25] set, or *no point*. -/
def badPoint (id : Nat) : Bool := pointCount ≤ id

/-- CMD_POINT_READ (R67). -/
def specPointRead : CmdSpec where
  opcode := 0x0301
  length := fixedLen 8
  check _ p _ :=
    badParam [(0, badPoint (getLE p 0 4)), (4, getLE p 4 2 = 0 || 254 < getLE p 4 2),
      (4, pointCount < getLE p 0 4 + getLE p 4 2), (6, 1 < getLE p 6 1), (7, notZero p 7 1)]
  run r p s :=
    let first := getLE p 0 4
    let recs := (upto (getLE p 4 2)).flatMap fun i =>
      if defined s (first + i) then recBytes (if getLE p 6 1 = 0 then readRec s (first + i) else liveRec s (first + i))
      else noneRec
    finishOk 0x0301 r (putLE 4 first ++ putLE 2 (getLE p 4 2) ++ zeros 2 ++ recs) s

/-- CMD_POINT_READ -/
def execCmdPointRead (r : Req) (s : State) : Res := .next (runCmd specPointRead r s)

/-- Entries the force table will hold once the pending changes have taken effect. -/
def forcesAfter (s : State) : FMap Force :=
  let rec go : List ForceChange → FMap Force → FMap Force
    | [], m => m
    | c :: r, m =>
      match c.point, c.value with
      | some id, some v => go r (fset m id { value := v, stime := 0 })
      | some id, none => go r (ferase m id)
      | none, _ => go r []
  go s.forceQ s.forces

/-- The point is written by a class-C block of the running program (R51). -/
def classCWritten (s : State) (id : Nat) : Bool :=
  match s.program with
  | none => false
  | some im => im.units.any fun u => u.crit = 1 && u.writeSet.contains id

/-- Effect instant of a force command: the first Fast period start at least 1 ms after acceptance (R48). -/
def effectInstant (now periodUs : Nat) : Nat :=
  let p := Nat.max periodUs 1 * 1000
  (now + 1000000 + p - 1) / p * p

/-- Default period of a class, µs (R31). -/
def defaultPeriod (c : Nat) : Nat :=
  match c with
  | 0 => 1000
  | 1 => 100000
  | 2 => 1000000
  | _ => 60000000

/-- State of a cycle class after reset (R31, R63). -/
def classReset (c : Nat) : ClassSt := { periodUs := defaultPeriod c }

/-- State of a cycle class. -/
def cls (s : State) (c : Nat) : ClassSt := fgetD s.classes c (classReset c)

/-- Change a cycle class. -/
def setCls (c : Nat) (f : ClassSt → ClassSt) (s : State) : State :=
  { s with classes := fset s.classes c (f (cls s c)) }

/-- Effect instant of a force command accepted now. -/
def forceInstant (s : State) : Nat := effectInstant (devNs s) (cls s 0).periodUs

/-- The first period start of a class at least 10 ms ahead (R59, R220, R251). -/
def startInstant (s : State) (c : Nat) : Nat :=
  let p := Nat.max (cls s c).periodUs 1 * 1000
  (devNs s + 10000000 + p - 1) / p * p

/-- Queue a force change until its effect instant; a standby takes the instant of the active's record (R48). -/
def queueForce (op : Nat) (r : Req) (point : Option Nat) (value : Option Int) (s : State) : State :=
  let c : ForceChange := { req := r, opcode := op, point := point, value := value, due := effectTime s (forceInstant s) }
  holdCmd op r { s with forceQ := s.forceQ ++ [c] }

/-- CMD_FORCE_SET (R48, R51, R68). -/
def specForceSet : CmdSpec where
  opcode := 0x0310
  length := fixedLen 16
  check r p s :=
    let id := getLE p 0 4
    firstRefusal
      [badParam [(0, badPoint id || !defined s id), (4, notZero p 4 4),
         (8, match defOf s id with
             | some d => !valueFits s d (getSLE p 8 8)
             | none => false)],
       refuseIf (classCWritten s id && !r.signed) stDenied 1,
       refuseIf ((fget (forcesAfter s) id).isNone && decide (16384 ≤ (forcesAfter s).length)) stBusy 0]
  run r p s := queueForce 0x0310 r (some (getLE p 0 4)) (some (getSLE p 8 8)) s
  instant _ s := forceInstant s

/-- CMD_FORCE_SET -/
def execCmdForceSet (r : Req) (s : State) : Res := .next (runCmd specForceSet r s)

/-- CMD_FORCE_CLEAR (R48, R68). -/
def specForceClear : CmdSpec where
  opcode := 0x0311
  length := fixedLen 4
  check _ p _ := badParam [(0, badPoint (getLE p 0 4) && getLE p 0 4 ≠ noPoint)]
  run r p s :=
    let id := getLE p 0 4
    queueForce 0x0311 r (if id = noPoint then none else some id) none s
  instant _ s := forceInstant s

/-- CMD_FORCE_CLEAR -/
def execCmdForceClear (r : Req) (s : State) : Res := .next (runCmd specForceClear r s)

/-- Apply one force change at its effect instant (R48). -/
def applyForce (c : ForceChange) (s : State) : State :=
  let m := match c.point, c.value with
    | some id, some v => fset s.forces id { value := v, stime := shortOf c.due }
    | some id, none => ferase s.forces id
    | none, _ => []
  finishOk c.opcode c.req [] { s with forces := m }

/-- Apply force changes, oldest first. -/
def applyForces : List ForceChange → State → State
  | [], s => s
  | c :: r, s => applyForces r (applyForce c s)

/-- Every change whose effect instant an instant has reached enters the table and completes (R48). -/
def forcesDue (t : Nat) (s : State) : State :=
  let due (c : ForceChange) : Bool := decide (0 ≤ wrapDiff 64 c.due t)
  applyForces (s.forceQ.filter due) { s with forceQ := s.forceQ.filter fun c => !due c }

/-- FORCE_EFFECT (R48). -/
def execForceEffect (s : State) : Res := .next (forcesDue (devNs s) s)

/-- CMD_FORCE_LIST (R69). -/
def specForceList : CmdSpec where
  opcode := 0x0312
  length := fixedLen 4
  check _ _ _ := none
  run r p s :=
    let l := (s.forces.drop (getLE p 0 4)).take 254
    finishOk 0x0312 r (putLE 4 s.forces.length ++ putLE 2 l.length ++ zeros 2 ++
      l.flatMap fun e => putLE 4 e.1 ++ putLE 4 e.2.stime.toNat ++ putSLE 8 e.2.value) s

/-- CMD_FORCE_LIST -/
def execCmdForceList (r : Req) (s : State) : Res := .next (runCmd specForceList r s)

end Sys2Proof.Machine
end

