-- ==== Sys2Proof/Machine/RegRead.lean ====
section
/-! DEFINITION. RegRead.lean: what every register of BAR0 reads as (R114, R167, R218, R291, R319, R339, R360, R377,
R378, R380, R405, R461, R476, R497, R516, R537, R557), and the side effects of a read (R5, R371, R488, R495). -/

namespace Sys2Proof.Machine

/-- A register word from fields (value, lowest bit). -/
def packWord (l : List (Nat × Nat)) : W32 := BitVec.ofNat 32 (nsum (l.map fun e => e.1 * 2 ^ e.2))

/-- Bits of a list of flags, first flag in bit 0. -/
def packBits : List Bool → Nat
  | [] => 0
  | b :: r => b2n b + 2 * packBits r

/-- Low and high words of a 64-bit count. -/
def loWord (n : Nat) : W32 := BitVec.ofNat 32 n
/-- High word. -/
def hiWord (n : Nat) : W32 := BitVec.ofNat 32 (n / 2 ^ 32)

/-- Low 32 bits of an integer, two's complement. -/
def wordOfInt (x : Int) : W32 := BitVec.ofInt 32 x

/-- DRILL_OVERDUE: the drill is overdue (R456), or the module is ACTIVE without a synchronised standby (R437). -/
def drillOver (s : State) : Bool := s.pair.overdue || (decide (s.pair.role = .active) && !s.pair.synced)

/-- START kind, role, faults: HIF_STATUS (R377). -/
def hifStatus (s : State) : W32 :=
  packWord [(roleCode s.pair.role, 0), (b2n s.power.ready, 3), (s.power.start, 4),
    (b2n ((upto 4).any fun c => decide ((cls s c).st = .hold)), 6),
    (b2n ((upto 4).any fun c => decide ((cls s c).st = .safe)), 7),
    (b2n s.pair.fault, 8), (b2n s.regs.sigFail, 9), (b2n (drillOver s), 10), (lcCode s.keys.lc, 12)]

/-- The running firmware slot. -/
def runSlot (s : State) : FwSlot := if s.fwu.running then s.fwu.slotB else s.fwu.slotA
/-- The inactive firmware slot. -/
def idleSlot (s : State) : FwSlot := if s.fwu.running then s.fwu.slotA else s.fwu.slotB

/-- Component `i` (1 to 8) of a slot. -/
def component (f : FwSlot) (i : Nat) : Option Component :=
  match f.manifest with
  | none => none
  | some m => if i = 0 then none else m.comps[i - 1]?

/-- Own SV feature level (R540). -/
def ownFeature (s : State) : Nat := ((runSlot s).manifest.map (·.feature)).getD 0
/-- Own pair-protocol level (R540). -/
def ownProto (s : State) : Nat := ((runSlot s).manifest.map (·.proto)).getD 0
/-- SV firmware version of the running slot. -/
def svVersion (s : State) : Nat := ((component (runSlot s) 1).map (fun c => c.version.toNat % 65536)).getD 0

/-- HIF_VERSION: 0 until SV has booted (R377, R540). -/
def hifVersion (s : State) : W32 :=
  if s.power.booted then packWord [(ownFeature s % 256, 0), (ownProto s % 256, 8), (svVersion s, 16)] else 0

/-- Class state code (R63). -/
def clsCode : ClsState → Nat
  | .init => 0
  | .run => 1
  | .hold => 2
  | .safe => 3

/-- Number of set bits among the low `n`. -/
def popCount (v : Nat) : Nat → Nat
  | 0 => 0
  | n + 1 => b2n (v.testBit n) + popCount v n

/-- HIF block. -/
def readHif (s : State) : Nat → W32
  | 0x00 => 0x01017420
  | 0x04 => hifVersion s
  | 0x08 => loWord s.keys.serial.toNat
  | 0x10 => hifStatus s
  | 0x14 => cfgGet s 0x14
  | 0x18 => cfgGet s 0x18
  | 0x1C => s.regs.errInfo
  | 0x20 => rcGet s 0x20
  | 0x24 => s.regs.sigInfo
  | 0x28 => s.regs.sweeps
  | 0x34 => loWord s.host.cmpl.toNat
  | 0x38 => hiWord s.host.cmpl.toNat
  | _ => 0

/-- EVT block. -/
def readEvt (s : State) (n : Nat) : W32 :=
  if 0x20 ≤ n then BitVec.ofNat 32 (s.evt.pend.toNat / 2 ^ (32 * ((n - 0x20) / 4)))
  else match n with
  | 0x00 => packWord [(popCount s.evt.pend.toNat 256, 0), (b2n s.evt.alert, 16)]
  | 0x04 => cfgGet s 0x104
  | 0x08 => BitVec.ofNat 32 s.evt.last.toNat
  | 0x0C => cfgGet s 0x10C
  | 0x10 => BitVec.ofNat 32 (fgetD s.evt.cnt (cfgGet s 0x10C).toNat 0)
  | 0x14 => loWord s.evt.seq.toNat
  | _ => 0

/-- CYC block (R378). -/
def readCyc (s : State) : Nat → W32
  | 0x00 => packWord [(clsCode (cls s 0).st, 0), (clsCode (cls s 1).st, 2), (clsCode (cls s 2).st, 4),
      (clsCode (cls s 3).st, 6), (b2n s.switch.isSome, 8)]
  | 0x04 => (cls s 1).cycleCount
  | 0x08 => rcGet s 0x808
  | 0x0C => loWord (cls s 1).lastStamp
  | 0x14 => BitVec.ofNat 32 (satBits 24 (cls s 1).lastExecUs)
  | 0x18 => (s.program.map (·.crc)).getD 0
  | _ => 0

/-- Brick states of BGT_BRICKSTn (R114, R115): 0 as reset leaves them, until SV has started (log entry 185). -/
def brickStWord (s : State) (n : Nat) : W32 :=
  if !s.power.booted then 0
  else packWord ((upto 8).map fun k => (if 8 * n + k < 35 then brickCode (brick s (8 * n + k)).st else 0, 4 * k))

/-- BGT block. -/
def readBgt (s : State) (n : Nat) : W32 :=
  if 0x40 ≤ n then brickStWord s ((n - 0x40) / 4)
  else if 0x04 ≤ n && n ≤ 0x20 then cfgGet s (0x900 + n)
  else match n with
  | 0x00 => packWord [(s.budget.state, 0), (b2n (blockBusy s 0x900), 3), (b2n s.budget.cfgErr, 4),
      (s.budget.scale % 256, 8)]
  | 0x24 => wordOfInt s.budget.poolTick
  | 0x28 => BitVec.ofNat 32 (ofSigned 16 s.budget.capEff)
  | 0x2C => packWord [(ofSigned 12 s.budget.t4, 0), (ofSigned 12 s.budget.t4Max, 16)]
  | 0x30 => rcGet s 0x930
  | 0x34 => BitVec.ofNat 32 s.budget.admitBits.toNat
  | 0x38 => loWord s.budget.spent
  | _ => 0

/-- A loop channel (R153). -/
def chan (s : State) (n : Nat) : Channel := fgetD s.loops n {}

/-- MODE of a channel: 0 when never configured. -/
def chanMode (c : Channel) : Nat := (c.desc.map (·.mode)).getD 0

/-- Channels of MODE other than 0. -/
def activeChans (s : State) : Nat := (s.loops.filter fun e => chanMode e.2 ≠ 0).length

/-- LOOP block (R167). -/
def readLoop (s : State) : Nat → W32
  | 0x00 => packWord [(b2n (blockBusy s 0xA00), 0),
      (b2n (cfgBit s 0xA04 0 && s.power.ready && inService s idLB), 1),
      (activeChans s, 4), ((s.loops.filter fun e => chanMode e.2 ≠ 0 && e.2.held).length, 16)]
  | 0x04 => cfgGet s 0xA04
  | 0x08 => cfgGet s 0xA08
  | 0x0C => BitVec.ofNat 32 (s.loops.filter fun e => decide (e.2.fault ≠ .none)).length
  | 0x10 => rcGet s 0xA10
  | 0x14 => BitVec.ofNat 32 (satBits 10 s.loopMaxLoad)
  | 0x18 => cfgGet s 0xA18
  | 0x1C => BitVec.ofNat 32 (packBits ((upto 32).map fun i =>
      decide ((chan s (32 * (cfgGet s 0xA18).toNat + i)).fault ≠ .none)))
  | 0x20 => loWord s.loopEvals
  | _ => 0

/-- Lanes in service (R21, R218). -/
def laneBits (s : State) : Nat := packBits ((upto 32).map fun n => inService s (0x10 + n / 4))

/-- SOL block (R218). -/
def readSol (s : State) : Nat → W32
  | 0x00 => packWord [(b2n (blockBusy s 0xB00), 0),
      (b2n (s.solver.mainJob.isSome || s.solver.hostJob.isSome || s.opt.job.isSome || s.est.run.isSome), 1),
      (b2n s.solver.model.isSome, 2), (b2n s.solver.keptHyd.isSome, 3),
      (if s.power.booted then popCount (laneBits s) 32 else 0, 8)]
  | 0x04 => cfgGet s 0xB04
  | 0x08 => cfgGet s 0xB08
  | 0x0C => BitVec.ofNat 32 (laneBits s)
  | 0x10 => rcGet s 0xB10
  | 0x14 => rcGet s 0xB14
  | 0x18 => rcGet s 0xB18
  | 0x1C => s.solver.lastNresid
  | 0x20 => loWord s.solver.iters
  | _ => 0

/-- A metering set. -/
def mset (s : State) (n : Nat) : MeterSet := fgetD s.meter.sets n {}
/-- A heat channel. -/
def heat (s : State) (n : Nat) : HeatCh := fgetD s.meter.heats n {}

/-- MTR block (R291). -/
def readMtr (s : State) : Nat → W32
  | 0x00 => packWord [(b2n s.meter.params.isSome, 0), (b2n s.meter.flushed, 1), (b2n (!s.meter.diverge.isEmpty), 2),
      (b2n (decide (s.pair.role = .active) || decide (s.pair.role = .solo)), 3)]
  | 0x04 => (s.meter.params.map (·.crc)).getD 0
  | 0x08 => s.meter.version
  | 0x0C => packWord [(packBits ((upto 4).map fun n => (mset s n).los), 0),
      (packBits ((upto 4).map fun n => (mset s n).portLost), 4)]
  | 0x10 => rcGet s 0xC10
  | 0x14 => rcGet s 0xC14
  | 0x18 => packWord [(packBits ((upto 4).map fun n => (mset s n).enabled), 0),
      (packBits ((upto 16).map fun n => (heat s n).enabled), 16)]
  | 0x1C => packWord ((upto 4).map fun n => ((mset s n).band, 4 * n))
  | 0x20 => loWord s.meter.seq.toNat
  | _ => 0

/-- A ring port. -/
def ringPort (s : State) (p : Nat) : RingPort := fgetD s.rings.ports p {}
/-- A ring. -/
def ringOf (s : State) (n : Nat) : Ring := fgetD s.rings.rings n {}
/-- A station. -/
def station (s : State) (n : Nat) : Station := fgetD s.rings.stations n {}

/-- RING_CTRL.ENABLE of a ring (R319, R320). -/
def ringOn (s : State) (n : Nat) : Bool := cfgBit s 0xD04 n

/-- A station is configured and enabled. -/
def stationOn (x : Station) : Bool :=
  match x.cfg with
  | some c => c.enable
  | none => false

/-- A running loopback of depth L2 to L4 holds an interface: it is out of service for the length of the loop. A CAN
loop of L2 on a module that drives runs in idle gaps and holds back no frame of a commit (R469). -/
def loopHolds (s : State) (iface index : Nat) : Bool :=
  match s.test.loop with
  | some l => decide (l.iface = iface) && decide (l.index = index) && decide (2 ≤ l.depth) && decide (l.depth ≤ 4) &&
    !(driving s && decide (l.iface = 2) && decide (l.depth = 2))
  | none => false

/-- Port state of RING_PORTST (R319). -/
def portState (s : State) (p : Nat) : Nat :=
  if !ringOn s (p / 2) then 0
  else if loopHolds s 0 p then 3
  else if (ringPort s p).failed then 2 else 1

/-- Failed ports of a ring. -/
def failedPorts (s : State) (n : Nat) : Nat := b2n (ringPort s (2 * n)).failed + b2n (ringPort s (2 * n + 1)).failed

/-- A loopback holds a port of the ring. -/
def ringLooped (s : State) (n : Nat) : Bool := loopHolds s 0 (2 * n) || loopHolds s 0 (2 * n + 1)

/-- RING_STATUS (R319). A ring in loopback shows DEGRADED (R472). -/
def ringStatus (s : State) : W32 :=
  packWord [(b2n (blockBusy s 0xD00), 0),
    (packBits ((upto 4).map fun n => ringOn s n && failedPorts s n = 0 && !ringLooped s n), 4),
    (packBits ((upto 4).map fun n => ringOn s n && (failedPorts s n = 1 || (failedPorts s n = 0 && ringLooped s n))), 8),
    (packBits ((upto 4).map fun n => ringOn s n && failedPorts s n = 2), 12),
    (packBits ((upto 4).map fun n => (ringOf s n).auth), 16)]

/-- RING_PORTST (R319). -/
def ringPortst (s : State) : W32 := packWord ((upto 8).map fun p => (portState s p, 4 * p))

/-- RING block. -/
def readRing (s : State) : Nat → W32
  | 0x00 => ringStatus s
  | 0x04 => cfgGet s 0xD04
  | 0x08 => cfgGet s 0xD08
  | 0x0C => cfgGet s 0xD0C
  | 0x10 => ringPortst s
  | 0x14 => rcGet s 0xD14
  | 0x18 => rcGet s 0xD18
  | 0x1C => BitVec.ofNat 32 s.rings.latched.toNat
  | 0x20 => BitVec.ofNat 32 (s.rings.stations.filter fun e => stationOn e.2 && e.2.absent).length
  | 0x24 => cfgGet s 0xD24
  | 0x28 => BitVec.ofNat 32 (packBits ((upto 32).map fun i =>
      let x := station s (32 * (cfgGet s 0xD24).toNat + i)
      stationOn x && x.absent))
  | 0x2C => loWord s.rings.rx
  | _ => 0

/-- Domain state code (R339). -/
def domCode : DomSt → Nat
  | .free => 0
  | .acquiring => 1
  | .locked => 2
  | .holdover => 3

/-- A usable PPS edge in the last 2 s (R339). -/
def ppsPresent (s : State) : Bool :=
  match s.time.ppsUsed with
  | none => false
  | some t => decide (since s t ≤ 2000000000)

/-- PTP_STATUS (R339). -/
def ptpStatus (s : State) : W32 :=
  packWord [(b2n (blockBusy s 0xE00), 0), (domCode s.time.dom0.st, 1), (domCode s.time.dom1.st, 3),
    (s.time.sel.val, 5), (b2n s.time.slewing, 6), (b2n s.time.neverLocked, 7),
    (s.time.dom0.slave.getD 15, 8), (s.time.dom1.slave.getD 15, 12), (b2n (ppsPresent s), 16)]

/-- PTP block. -/
def readPtp (s : State) : Nat → W32
  | 0x00 => ptpStatus s
  | 0x04 => cfgGet s 0xE04
  | 0x08 => cfgGet s 0xE08
  | 0x0C => packWord [(ofSigned 16 s.time.utc, 0), (b2n s.time.utcValid, 16), (b2n s.time.leap61, 17),
      (b2n s.time.leap59, 18)]
  | 0x10 => loWord (devNs s)
  | 0x18 => shortNow s
  | 0x1C => satS32 s.time.dom0.lastE
  | 0x20 => satS32 s.time.dom1.lastE
  | 0x24 => wordOfInt s.time.dom0.y
  | 0x28 => wordOfInt s.time.dom1.y
  | 0x2C => satS32 s.time.delta
  | 0x30 => rcGet s 0xE30
  | _ => 0

/-- RTC_T0 layout (R497). -/
def calT0 (c : CalTime) : W32 := packWord [(c.subsec, 0), (c.sec, 16), (c.min, 24)]
/-- WDAY: 0 Monday; 2000-01-01 was a Saturday (R481). -/
def weekday (c : CalTime) : Nat := (dayNumber c + 5) % 7
/-- RTC_T1 layout. -/
def calT1 (c : CalTime) : W32 :=
  packWord [(c.hour, 0), (c.day, 8), (c.month, 16), (c.year, 20), (weekday c, 29)]

/-- The freeze of a port, while it is in force (R488). -/
def freezeOf (s : State) (p : Port) : Option Freeze :=
  match fget s.rtc.freeze (portCode p) with
  | none => none
  | some f => if since s f.at' ≤ 2000000 then some f else none

/-- RTC_STATUS for a port. -/
def rtcStatus (s : State) (p : Port) : W32 :=
  packWord [(b2n (blockBusy s 0xF00), 0), (b2n s.rtc.oscStop, 1), (b2n s.rtc.disc, 2),
    (b2n (freezeOf s p).isSome, 3), (b2n s.rtc.vbatLow, 4)]

/-- RTC_FLAGS (R497). -/
def rtcFlags (s : State) : W32 :=
  packWord [(b2n s.rtc.badWrite, 0), (b2n s.rtc.vbatSeen, 1), (s.rtc.fired.toNat, 4), (s.rtc.passed.toNat, 8)]

/-- An alarm. -/
def alarm (s : State) (n : Nat) : Alarm := fgetD s.rtc.alarms n {}

/-- d of R483 in µs, saturating. -/
def discWord (s : State) : W32 := satS32 (tdiv s.rtc.lastD 1000)

/-- RTC block. -/
def readRtc (s : State) (p : Port) : Nat → W32
  | 0x00 => rtcStatus s p
  | 0x04 => cfgGet s 0xF04
  | 0x08 => cfgGet s 0xF08
  | 0x0C => rtcFlags s
  | 0x10 => calT0 s.rtc.cal
  | 0x14 => match freezeOf s p with
    | some f => f.t1
    | none => calT1 s.rtc.cal
  | 0x18 => cfgGet s 0xF18
  | 0x1C => cfgGet s 0xF1C
  | 0x24 => s.rtc.vbatTs0
  | 0x28 => s.rtc.vbatTs1
  | 0x2C => BitVec.ofNat 32 (ofSigned 16 s.rtc.utcOfs)
  | 0x30 => BitVec.ofNat 32 (packBits ((upto 4).map fun n => (alarm s n).armed))
  | 0x34 => discWord s
  | _ => 0

/-- Permanent slots that hold no record (R497). -/
def permFree (s : State) : Nat := 8192 - (s.recorder.slots.filter fun e => e.1 < 8192).length

/-- Circulating records. -/
def circRecords (s : State) : List EventRec := (s.recorder.slots.filter fun e => 8192 ≤ e.1).map (·.2)

/-- SEQ of the oldest circulating record, 0 for none (R497). -/
def oldestSeq (s : State) : Nat :=
  match circRecords s with
  | [] => 0
  | e :: r => r.foldl (fun m x => Nat.min m x.seq.toNat) e.seq.toNat

/-- Cursor of a port (R495). -/
def recCursor (s : State) (p : Port) : Nat := fgetD s.recorder.cursor (portCode p) 0

/-- REC block. -/
def readRecorder (s : State) (p : Port) (n : Nat) : W32 :=
  if 0x40 ≤ n then BitVec.ofNat 32 (getLE (fgetD s.recorder.buffer (portCode p) (zeros 64)) (n - 0x40) 4)
  else match n with
  | 0x00 => packWord [(b2n (blockBusy s 0x1000), 0), (b2n s.recorder.ready, 1), (b2n s.recorder.wrapped, 2),
      (b2n (permFree s = 0), 3)]
  | 0x04 => cfgGet s 0x1004
  | 0x0C => BitVec.ofNat 32 (recCursor s p)
  | 0x10 => BitVec.ofNat 32 (permFree s)
  | 0x14 => rcGet s 0x1014
  | 0x18 => loWord (oldestSeq s)
  | _ => 0

/-- Updates and repairs driven or about to be. -/
def flying (s : State) : List PnlUpd := s.panel.inflight.filter fun u => !u.interrupted

/-- A repair is pending or running (R509, R516). -/
def repairBusy (s : State) : Bool :=
  !s.panel.repairs.isEmpty || s.panel.inflight.any fun u => u.repair || u.interrupted

/-- PNL_STATUS (R516). -/
def pnlStatus (s : State) : W32 :=
  packWord [(b2n (blockBusy s 0x1100), 0), (b2n (s.panel.biasOn && s.panel.biasBad.isEmpty), 1), (b2n (repairBusy s), 2),
    (b2n s.panel.frameBad, 3), (Nat.min (flying s).length 4, 4), (b2n s.panel.biasFault, 7), (s.panel.band, 8)]

/-- Bytes of a frame memory: 2 bits per pixel, 4 pixels per byte, rows top to bottom (R508). -/
def frameBytes (w h : Nat) (m : FMap Nat) : Bytes :=
  (upto (w * h / 4)).map fun i =>
    let px := fun j => fgetD m ((4 * i + j) / w * 400 + (4 * i + j) % w) 0
    byte (px 0 + 4 * px 1 + 16 * px 2 + 64 * px 3)

/-- CRC-32 of the frame memory as it stands. -/
def frameCrc (s : State) : W32 :=
  BitVec.ofNat 32 (crc32 (frameBytes s.panel.cfg.width s.panel.cfg.height s.panel.frameMem))

/-- PNL_FRAME_CRC: the expected CRC-32; 0 until a write has set it (R508, R516). -/
def expectedCrc (s : State) : W32 := s.panel.expCrc.getD 0

/-- PNL block. -/
def readPnl (s : State) : Nat → W32
  | 0x00 => pnlStatus s
  | 0x04 => cfgGet s 0x1104
  | 0x08 => cfgGet s 0x1108
  | 0x0C => expectedCrc s
  | 0x10 => rcGet s 0x1110
  | 0x14 => loWord s.panel.updates
  | _ => 0

/-- JOURNAL of KEY_STATUS: a key update or transition is between steps 3 and 6 (R522, R533, R537). -/
def keyJournal (s : State) : Bool :=
  match s.keys.op with
  | none => false
  | some o => match o.work with
    | .update .. => decide (o.stage ≠ .checked)
    | .transition .. => decide (o.stage = .committed)

/-- KEY block (R537). -/
def readKey (s : State) : Nat → W32
  | 0x00 => packWord [(b2n (blockBusy s 0x1200), 0), (lcCode s.keys.lc, 1), (b2n (keyJournal s), 4),
      (b2n s.keys.debug, 5)]
  | 0x04 => cfgGet s 0x1204
  | 0x08 => cfgGet s 0x1208
  | 0x0C => cfgGet s 0x120C
  | 0x10 => BitVec.ofNat 32 (packBits ((upto 32).map fun i => (keyAt s (32 * (cfgGet s 0x120C).toNat + i)).isSome))
  | 0x14 => s.keys.updCnt
  | 0x18 => s.keys.privCnt
  | 0x1C => rcGet s 0x121C
  | 0x20 => packWord [(lget s.keys.epochs 0 0, 0), (lget s.keys.epochs 1 0, 16)]
  | 0x24 => packWord [(lget s.keys.epochs 2 0, 0), (lget s.keys.epochs 3 0, 16)]
  | _ => 0

/-- Inactive-slot code (R557). -/
def slotCode : SlotState → Nat
  | .empty => 0
  | .incomplete => 1
  | .verified => 2
  | .previous => 3
  | .rejected => 4

/-- Session code (R557). -/
def sessCode : SessSt → Nat
  | .downloading => 1
  | .building => 2
  | .verified => 3

/-- Seconds of main-side power on trial so far (R553). -/
def trialSeconds (s : State) : Nat :=
  s.fwu.trialCount + (if s.fwu.trial && s.power.mainUp then since s s.fwu.trialFrom / 1000000000 else 0)

/-- FWU block (R557). -/
def readFwu (s : State) : Nat → W32
  | 0x00 => packWord [(b2n (blockBusy s 0x1300), 0), ((s.fwu.session.map fun x => sessCode x.st).getD 0, 1),
      ((s.fwu.session.map fun x => portCode x.port).getD 0, 3), (b2n s.fwu.running, 4), (slotCode s.fwu.inactive, 5),
      (b2n s.fwu.trial, 8), (b2n (s.fwu.activate.isSome || s.fwu.activating.isSome), 9)]
  | 0x04 => cfgGet s 0x1304
  | 0x08 => cfgGet s 0x1308
  | 0x0C => ((runSlot s).manifest.map (·.release)).getD 0
  | 0x10 => packWord [(s.fwu.trialBoots % 256, 0), (satBits 16 (trialSeconds s / 3600), 16)]
  | 0x14 => packWord [(s.fwu.progress.1 % 65536, 0), (s.fwu.progress.2 % 65536, 16)]
  | 0x18 => cfgGet s 0x1318
  | 0x1C => packWord [(lget s.fwu.minSvn ((cfgGet s 0x1318).toNat - 1) 0, 0),
      (((component (runSlot s) (cfgGet s 0x1318).toNat).map (·.svn)).getD 0, 16)]
  | _ => 0

/-- ACTIVE_N reads low: driven by the partner or by this module (R435). -/
def drivesLine (s : State) : Bool :=
  (decide (s.pair.role = .active) || decide (s.pair.role = .solo)) && !s.test.test && inService s idPL && inService s idSV

/-- The drill is due (R456). -/
def drillDue (s : State) : Bool :=
  match s.pair.drillAge with
  | none => true
  | some a => decide (s.pair.cfg.interval * 90 ≤ a * 100)

/-- PAIR_STATUS (R461). -/
def pairStatus (s : State) : W32 :=
  packWord [(b2n (blockBusy s 0x1400), 0), (roleCode s.pair.role, 1), (b2n s.pair.synced, 4), (b2n s.pair.linkUp, 5),
    (b2n s.pair.present, 6), (b2n (s.pair.lineLow || drivesLine s), 7), (b2n s.pair.slotId, 8),
    (b2n (drillDue s && decide (s.pair.role = .active)), 9), (b2n (drillOver s), 10),
    (b2n (s.pair.joining || s.pair.resync), 11), (b2n s.pair.selfCheck, 12)]

/-- PAIR block. -/
def readPair (s : State) : Nat → W32
  | 0x00 => pairStatus s
  | 0x04 => cfgGet s 0x1404
  | 0x08 => cfgGet s 0x1408
  | 0x0C => rcGet s 0x140C
  | 0x10 => rcGet s 0x1410
  | 0x14 => packWord [(s.pair.takeovers % 65536, 0), (s.pair.exchanges % 65536, 16)]
  | 0x18 => BitVec.ofNat 32 (match s.pair.drillAge with
      | none => 0xFFFF
      | some a => satBits 16 a)
  | 0x1C => BitVec.ofNat 32 (satBits 24 s.pair.lagUs)
  | 0x20 => rcGet s 0x1420
  | 0x24 => loWord s.pair.mirrorCnt
  | _ => 0

/-- TST block (R476). -/
def readTst (s : State) : Nat → W32
  | 0x00 => packWord [(b2n (blockBusy s 0x1500), 0), (b2n s.test.test, 1), (b2n s.test.loop.isSome, 2),
      (b2n s.test.bist, 3)]
  | 0x04 => cfgGet s 0x1504
  | 0x08 => cfgGet s 0x1508
  | 0x0C => BitVec.ofNat 32 s.test.result.toNat
  | 0x10 => BitVec.ofNat 32 (satBits 12 s.test.timeMs)
  | 0x14 => rcGet s 0x1514
  | 0x18 => rcGet s 0x1518
  | _ => 0

/-- Reassembly state code (R403). -/
def sbCode : SbState → Nat
  | .idle => 0
  | .receiving => 1
  | .accepted => 2
  | .done => 3

/-- SBM_HOST_IDLE, seconds (R405). -/
def hostIdle (s : State) : Nat := if s.power.mainUp then satBits 16 (since s s.host.idleFrom / 1000000000) else 0

/-- SBM block (R405). -/
def readSbm (s : State) : Nat → W32
  | 0x00 => packWord [(b2n (blockBusy s 0x1600), 0), (s.sb.sba.toNat, 4), (sbCode s.sb.st, 8), (b2n s.power.mainUp, 10)]
  | 0x04 => cfgGet s 0x1604
  | 0x08 => cfgGet s 0x1608
  | 0x0C => rcGet s 0x160C
  | 0x10 => rcGet s 0x1610
  | 0x14 => BitVec.ofNat 32 (hostIdle s)
  | 0x18 => loWord s.sb.pkts
  | _ => 0

/-- A CAN controller. -/
def canCtl (s : State) (n : Nat) : CanCtl := fgetD s.can n {}
/-- Change a CAN controller. -/
def setCan (n : Nat) (f : CanCtl → CanCtl) (s : State) : State := { s with can := fset s.can n (f (canCtl s n)) }
/-- A buffer of a controller. -/
def canBuf (c : CanCtl) (b : Nat) : CanBuf := fgetD c.bufs b {}

/-- Confinement code (R360 CONF). -/
def confCode : CanConf → Nat
  | .active => 0
  | .passive => 1
  | .busOff => 2
  | .recovering => 3

/-- CANn_STATUS. -/
def canStatus (s : State) (n : Nat) : W32 :=
  let c := canCtl s n
  packWord [(b2n (blockBusy s (0x2000 + 0x2000 * n)), 0), (c.mode, 1), (confCode c.conf, 4), (b2n c.checkFail, 6),
    (b2n c.conflict, 7)]

/-- CANn_ERR: TEC, REC and the error state, recovering shown as bus-off (R360). -/
def canErr (c : CanCtl) : W32 :=
  packWord [(Nat.min c.tec 255, 0), (Nat.min c.recCnt 255, 8), (Nat.min (confCode c.conf) 2, 16)]

/-- CTRL word of a buffer window (R360). -/
def canCtrlWord (b : CanBuf) : W32 :=
  packWord [(b2n b.nd, 0), (b2n b.ovr, 1), (b2n b.cancelLate, 2), (b2n (b.pend.isSome || b.onBus.isSome), 3)]

/-- A word of a buffer window. -/
def canWindow (b : CanBuf) (k : Nat) : W32 :=
  if k = 0 then canCtrlWord b else if k = 4 then b.idWord else if k = 8 then b.dlcWord
  else if k = 68 then b.stamp else BitVec.ofNat 32 (getLE (padTo 64 b.data) (k - 12) 4)

/-- CANn block (R360). -/
def readCan (s : State) (n off : Nat) : W32 :=
  let c := canCtl s n
  let base := 0x2000 + 0x2000 * n
  if 0x100 ≤ off then canWindow (canBuf c ((off - 0x100) / 72)) ((off - 0x100) % 72)
  else match off with
  | 0x00 => canStatus s n
  | 0x04 => cfgGet s (base + 0x04)
  | 0x08 => cfgGet s (base + 0x08)
  | 0x0C => cfgGet s (base + 0x0C)
  | 0x10 => cfgGet s (base + 0x10)
  | 0x14 => cfgGet s (base + 0x14)
  | 0x18 => canErr c
  | 0x1C => BitVec.ofNat 32 (packBits ((upto 32).map fun i => (canBuf c i).nd))
  | 0x20 => BitVec.ofNat 32 (packBits ((upto 32).map fun i => (canBuf c (32 + i)).nd))
  | 0x24 => BitVec.ofNat 32 (packBits ((upto 32).map fun i => (canBuf c i).desc.trigger = 5 && (canBuf c i).pend.isSome))
  | 0x28 => BitVec.ofNat 32 (packBits ((upto 32).map fun i =>
      (canBuf c (32 + i)).desc.trigger = 5 && (canBuf c (32 + i)).pend.isSome))
  | 0x34 => rcGet s (base + 0x34)
  | 0x38 => rcGet s (base + 0x38)
  | 0x3C => rcGet s (base + 0x3C)
  | _ => 0

/-- High word of a 64-bit value at its low-word offset, at this instant (R371). -/
def pairHigh (s : State) : Nat → W32
  | 0x008 => hiWord s.keys.serial.toNat
  | 0x114 => hiWord s.evt.seq.toNat
  | 0x80C => hiWord (cls s 1).lastStamp
  | 0x938 => hiWord s.budget.spent
  | 0xA20 => hiWord s.loopEvals
  | 0xB20 => hiWord s.solver.iters
  | 0xC20 => hiWord s.meter.seq.toNat
  | 0xD2C => hiWord s.rings.rx
  | 0xE10 => hiWord (devNs s)
  | 0x1018 => hiWord (oldestSeq s)
  | 0x1114 => hiWord s.panel.updates
  | 0x1424 => hiWord s.pair.mirrorCnt
  | 0x1618 => hiWord s.sb.pkts
  | _ => 0

/-- Shadow of a port for a _HI register (R371): 0 before the first read of its _LO register. -/
def shadowOf (s : State) (p : Port) (hi : Nat) : W32 := fgetD s.regs.shadow (portCode p * 0x10000 + hi) 0

/-- What a register reads as for a port, before any side effect (R368). -/
def regValue (s : State) (p : Port) (off : Nat) : W32 :=
  if isLatchedHi off then shadowOf s p off
  else match blockAt off with
  | none => 0xFFFFFFFF
  | some b =>
    let n := off - b.base
    match b.base with
    | 0x0000 => readHif s n
    | 0x0100 => readEvt s n
    | 0x0400 => cfgWord s off
    | 0x0800 => readCyc s n
    | 0x0900 => readBgt s n
    | 0x0A00 => readLoop s n
    | 0x0B00 => readSol s n
    | 0x0C00 => readMtr s n
    | 0x0D00 => readRing s n
    | 0x0E00 => readPtp s n
    | 0x0F00 => readRtc s p n
    | 0x1000 => readRecorder s p n
    | 0x1100 => readPnl s n
    | 0x1200 => readKey s n
    | 0x1300 => readFwu s n
    | 0x1400 => readPair s n
    | 0x1500 => readTst s n
    | 0x1600 => readSbm s n
    | 0xF000 => cfgGet s off
    | 0xF800 => if n = 0 then loWord s.regs.pba.toNat else hiWord s.regs.pba.toNat
    | base => readCan s ((base - 0x2000) / 0x2000) n

/-- Bytes of an event record (R490). -/
def recordBytes (e : EventRec) : Bytes :=
  let b := putLE 8 e.seq.toNat ++ putLE 8 e.time ++ [byte e.source, e.flags] ++ putLE 2 e.code ++ putLE 4 e.count ++
    ((upto 4).flatMap fun i => putSLE 8 (lget e.params i 0)) ++ putLE 2 e.origin ++ zeros 2 ++ putLE 2 0x5E4C
  b ++ putLE 2 (crc16 b)

/-- Record at a slot: 64 bytes, zero where the slot holds no record (R495). -/
def slotBytes (s : State) (slot : Nat) : Bytes :=
  match fget s.recorder.slots slot with
  | some e => recordBytes e
  | none => zeros 64

/-- REC_DATA0: the record at the cursor enters the port's buffer (R495). -/
def loadRecord (p : Port) (s : State) : State :=
  { s with recorder := { s.recorder with
      buffer := fset s.recorder.buffer (portCode p) (slotBytes s (recCursor s p)) } }

/-- The next slot of a cursor, wrapping from 131 071 to 8 192 (R495). -/
def cursorNext (c : Nat) : Nat := if 131071 ≤ c then 8192 else c + 1

/-- REC_DATA15 with AUTOINC: the cursor advances (R495). -/
def advanceCursor (p : Port) (s : State) : State :=
  if cfgBit s 0x1004 0 then
    { s with recorder := { s.recorder with
        cursor := fset s.recorder.cursor (portCode p) (cursorNext (recCursor s p)) } }
  else s

/-- RTC_T0: capture both words (R488). -/
def startFreeze (p : Port) (s : State) : State :=
  let f : Freeze := { t0 := calT0 s.rtc.cal, t1 := calT1 s.rtc.cal, at' := s.refNs }
  { s with rtc := { s.rtc with freeze := fset s.rtc.freeze (portCode p) f } }

/-- RTC_T1 ends the freeze (R488). -/
def endFreeze (p : Port) (s : State) : State :=
  { s with rtc := { s.rtc with freeze := ferase s.rtc.freeze (portCode p) } }

/-- Latch the high word of a pair for a port (R371). -/
def latchPair (p : Port) (lo hi : Nat) (s : State) : State :=
  { s with regs := { s.regs with shadow := fput s.regs.shadow (portCode p * 0x10000 + hi) (pairHigh s lo) 0 } }

/-- The value of a full read and the state after it: RC registers clear, latching pairs latch, the calendar freezes,
the record window loads (R5, R364, R371, R488, R495). -/
def readFull (p : Port) (off : Nat) (s : State) : W32 × State :=
  if off = 0x1040 then
    let s := loadRecord p s
    (regValue s p off, s)
  else
    let v := regValue s p off
    let s := match regInfo off with
      | some i => if i.acc = .rc then rcClear off s else s
      | none => s
    let s := match latchHi off with
      | some hi => latchPair p off hi s
      | none => s
    let s := if off = 0xF10 then startFreeze p s else if off = 0xF14 then endFreeze p s
             else if off = 0x107C then advanceCursor p s else s
    (v, s)

end Sys2Proof.Machine
end

