-- ==== Sys2Proof/Machine/RegAccess.lean ====
section
/-! DEFINITION. RegAccess.lean: how PX judges an access to one doubleword (R364, R366, R368, R372, R578) and the reads
(R364, R371, R488, R495). -/

namespace Sys2Proof.Machine

/-- What becomes of an access to a doubleword. -/
inductive Verdict where
  /-- no effect, no event -/
  | nothing
  /-- dropped with a cause of R578 -/
  | drop (cause : Nat)
  /-- performed -/
  | pass
deriving DecidableEq, Repr

/-- The enabled bytes are contiguous (R364). -/
def contiguous (be : BitVec 4) : Bool :=
  [1, 2, 4, 8, 3, 6, 12, 7, 14, 15].contains be.toNat

/-- The port reaches the registers: the PCIe port only with the main side powered, the link up and PX in service; with PX lost
a module serves its side-band port only (R21). -/
def portAlive (s : State) (p : Port) : Bool :=
  match p with
  | .pcie => s.power.mainUp && s.host.linkUp && inService s idPX
  | .sideBand => true

/-- The brick of an offset is out of service, or unpowered behind MG (R368, R404). -/
def brickGone (s : State) (off : Nat) : Bool :=
  match blockAt off with
  | none => false
  | some b => !inService s b.brick || (!s.power.mainUp && b.brick ≠ idMG)

/-- Lock bit of a lock is set. -/
def lockSet (s : State) (l : Lock) : Bool := cfgBit s l.reg l.bit

/-- A write meets a set lock of the whole register. A register locked in part takes the write and keeps its locked
fields (R364; `applyHifCtrl`). -/
def lockedWrite (s : State) (i : RegInfo) : Bool :=
  match i.lock with
  | none => false
  | some l => lockSet s l && decide (l.fields = 0xFFFFFFFF)

/-- The register has a field a write can change (R366). -/
def writable (i : RegInfo) : Bool :=
  match i.acc with
  | .ro => false
  | .rc => false
  | _ => true

/-- RTC_APPLY while the calendar is disciplined (R483). -/
def disciplined (s : State) : Bool :=
  (if s.time.sel = 0 then decide (s.time.dom0.st = .locked) else decide (s.time.dom1.st = .locked)) && cfgBit s 0xF04 0

/-- Judge one doubleword of a write (R364, R366, R578). -/
def judgeWrite (s : State) (off : Nat) (be : BitVec 4) (busy : Bool) : Verdict :=
  if be = 0 then .nothing
  else match regInfo off with
  | none => .drop 3
  | some i =>
    if !contiguous be then .drop 2
    else if be ≠ 15 then .drop 1
    else if brickGone s off then .drop 6
    else if !writable i then .nothing
    else if lockedWrite s i || (off = 0xF20 && disciplined s) then .drop 4
    else if busy then .drop 5
    else .pass

/-- Judge one doubleword of a read (R364, R368, R578). -/
def judgeRead (s : State) (off : Nat) (be : BitVec 4) : Verdict :=
  if be = 0 then .nothing
  else match regInfo off with
  | none => .drop 3
  | some _ =>
    if !contiguous be then .drop 2
    else if brickGone s off then .drop 6
    else .pass

/-- A read reaches the brick of its block, and wakes it when it is banked (R102, R368). -/
def wakeForRead (off : Nat) (s : State) : State :=
  match blockAt off with
  | none => s
  | some b => reachBrick b.brick s

/-- The bytes a byte enable selects. -/
def beMask (be : BitVec 4) : W32 :=
  BitVec.ofNat 32 (nsum ((upto 4).map fun i => if be.getLsbD i then 255 * 2 ^ (8 * i) else 0))

/-- Read one doubleword: the value returned and the state after it. A narrow read returns the requested bytes. -/
def readDw (p : Port) (off : Nat) (be : BitVec 4) (s : State) : W32 × State :=
  match judgeRead s off be with
  | .nothing => (0, s)
  | .drop c => (0xFFFFFFFF, dropAccess p off c false s)
  | .pass => let x := readFull p off (wakeForRead off s); (x.1 &&& beMask be, x.2)

/-- A read request of one doubleword, answered. -/
def readRequest (p : Port) (off : Nat) (be : BitVec 4) (s : State) : State :=
  if portAlive s p then
    let x := readDw p off be s
    emit (.regRead p off x.1) x.2
  else s

/-- READ_CLEAR_REGISTER (R5, R364): a read of a register without a row of its own; an RC register clears. -/
def execReadClearRegister (p : Port) (off : W16) (be : BitVec 4) (s : State) : Res :=
  .next (readRequest p off.toNat be s)

/-- LATCHING_LO_READ (R371). -/
def execLatchingLoRead (p : Port) (off : W16) (be : BitVec 4) (s : State) : Res :=
  .next (readRequest p off.toNat be s)

/-- PTP_TIME_LO_READ (R339): device time at the instant of the read; the high word is latched. -/
def execPtpTimeLoRead (p : Port) (s : State) : Res := .next (readRequest p 0xE10 15 s)

/-- RTC_T0_READ (R488). -/
def execRtcT0Read (p : Port) (s : State) : Res := .next (readRequest p 0xF10 15 s)

/-- RTC_T1_READ (R488). -/
def execRtcT1Read (p : Port) (s : State) : Res := .next (readRequest p 0xF14 15 s)

/-- REC_DATA0_READ (R495). -/
def execRecData0Read (p : Port) (s : State) : Res := .next (readRequest p 0x1040 15 s)

/-- REC_DATA15_READ (R495). -/
def execRecData15Read (p : Port) (s : State) : Res := .next (readRequest p 0x107C 15 s)

/-- RTC_FREEZE_TIMEOUT: a freeze not read within 2 ms ends (R488). -/
def execRtcFreezeTimeout (p : Port) (s : State) : Res :=
  .next (match fget s.rtc.freeze (portCode p) with
    | none => s
    | some f => if 2000000 ≤ since s f.at' then endFreeze p s else s)

end Sys2Proof.Machine
end

