-- ==== Sys2Proof/Machine/Rtc.lean ====
section
/-! DEFINITION. Rtc.lean: the backup domain and the calendar clock (R478 to R489, R498). -/

namespace Sys2Proof.Machine

/-- A write to a register with a row of its own: judged like any other, applied in the same step when it passes
(R364, R366, R578). -/
def ownWrite (p : Port) (off : Nat) (apply : State → State) (s : State) : State :=
  if portAlive s p then
    match judgeWrite s off 15 (blockBusy s (((blockAt off).map (·.base)).getD 0)) with
    | .nothing => s
    | .drop c => dropAccess p off c true s
    | .pass => apply s
  else s

/-! ### Calendar values (R481) -/

/-- Units of the fine calendar count in one tick. A nanosecond is 32 768 units. -/
def finePerTick : Nat := 1000000000
/-- Units in one second. -/
def finePerSec : Nat := 32768 * finePerTick

/-- Year (minus 2000) of a day number. -/
def yearOfDay (d : Nat) : Nat :=
  let y := d * 400 / 146097
  if d < yearDays y then y - 1 else if yearDays (y + 1) ≤ d then y + 1 else y

/-- Month and day of a day of the year, looking at the months from `m` on. -/
def monthOfDay (y d : Nat) : Nat → Nat → Nat × Nat
  | 0, m => (m, d + 1)
  | n + 1, m => if d < monthLen y m then (m, d + 1) else monthOfDay y (d - monthLen y m) n (m + 1)

/-- Calendar time from a tick count since 2000-01-01. -/
def calOfTicks (t : Nat) : CalTime :=
  let secs := t / 32768
  let y := yearOfDay (secs / 86400)
  let md := monthOfDay y (secs / 86400 - yearDays y) 11 1
  { subsec := t % 32768, sec := secs % 60, min := secs / 60 % 60, hour := secs / 3600 % 24,
    day := md.2, month := md.1, year := y }

/-- Tick count since 2000-01-01 of a calendar time. -/
def calTicks (c : CalTime) : Nat := calSecs c * 32768 + c.subsec

/-- The last second of the calendar, 2399-12-31 23:59:59. -/
def lastCalSec : Nat := calSecs { sec := 59, min := 59, hour := 23, day := 31, month := 12, year := 399 }

/-- Fine count of the calendar now: ticks and the phase within the tick. -/
def calFine (s : State) : Int := calTicks s.rtc.cal * finePerTick + s.rtc.phase

/-- Calendar time in ns since 1970-01-01 UTC. -/
def calUtcNs (s : State) : Int := (epoch2000 * 1000000000 : Nat) + Int.fdiv (calFine s) 32768

/-- A calendar time every field of which lies in its range, with a day the month has (R482). -/
def possible (c : CalTime) : Bool :=
  c.subsec < 32768 && c.sec < 60 && c.min < 60 && c.hour < 24 && 1 ≤ c.month && c.month ≤ 12 && c.year < 400 &&
  1 ≤ c.day && c.day ≤ monthLen c.year c.month

/-- Fields of RTC_T0 and RTC_T1 words; WDAY is ignored (R489, R497). -/
def calOfWords (t0 t1 : Nat) : CalTime :=
  { subsec := bits t0 0 15, sec := bits t0 16 6, min := bits t0 24 6, hour := bits t1 0 5, day := bits t1 8 5,
    month := bits t1 16 4, year := bits t1 20 9 }

/-- Reserved bits of a T0 word are set, or a field of it is out of range. -/
def badT0 (t0 : Nat) : Bool :=
  bit t0 15 || bits t0 22 2 ≠ 0 || bits t0 30 2 ≠ 0 || 60 ≤ bits t0 16 6 || 60 ≤ bits t0 24 6

/-- Reserved bits of a T1 word are set. -/
def badT1 (t1 : Nat) : Bool := bits t1 5 3 ≠ 0 || bits t1 13 3 ≠ 0

/-! ### OSC_STOP, alarms, adjustments -/

/-- Set OSC_STOP; RTC_OSC_STOP is raised now when MG runs, else at its next start (R479). -/
def setOscStop (s : State) : State :=
  let s := { s with rtc := { s.rtc with oscStop := true } }
  if s.power.vstby then raise 0xC8 [] s else { s with rtc := { s.rtc with oscEvent := true } }

/-- Turn the main side on as CMD_MAIN_POWER ACTION 1 does: MG no longer holds it off, and the rail sequence may run
(R411, R431). -/
def releaseMain (s : State) : State :=
  if s.power.mainUp then s else { s with power := { s.power with heldOff := false, railFails := 0, wdAt := [] } }

/-- An armed alarm fires: cause 0 reached, 1 passed by an adjustment (R486). -/
def fireAlarm (n cause : Nat) (s : State) : State :=
  let a := alarm s n
  let one : BitVec 4 := BitVec.twoPow 4 n
  let s := { s with rtc := { s.rtc with
    alarms := fset s.rtc.alarms n { a with armed := false }
    fired := s.rtc.fired ||| one
    passed := if cause = 1 then s.rtc.passed ||| one else s.rtc.passed } }
  let s := raiseC 0xC9 [n, cause] cause s
  if a.action = 1 then releaseMain s else s

/-- Alarms the calendar has been carried to or past, from an old to a new tick count (R486, R487). -/
def passAlarms (old new : Nat) : List Nat → State → State
  | [], s => s
  | n :: r, s =>
    let a := alarm s n
    let t := calTicks a.time
    let s := if a.armed && decide (t = new) then fireAlarm n 0 s
      else if a.armed && decide (old < t) && decide (t < new) then fireAlarm n 1 s else s
    passAlarms old new r s

/-- An adjustment to a new fine count, inside the calendar's range (R485): the calendar moves, OSC_STOP clears,
RTC_ADJUSTED is raised and the alarms are evaluated. -/
def adjust (cause : Nat) (fine : Nat) (s : State) : State :=
  let old := calTicks s.rtc.cal
  let change := tdiv ((fine : Int) - calFine s) 32768000000
  let s := { s with rtc := { s.rtc with
    cal := calOfTicks (fine / finePerTick), phase := fine % finePerTick, oscStop := false, ended := false,
    leapHeld := false } }
  let s := raiseC 0xCA [cause, change] cause s
  passAlarms old (calTicks s.rtc.cal) [0, 1, 2, 3] s

/-- A fine count within the calendar's range. -/
def inCalendar (f : Int) : Bool := decide (0 ≤ f) && decide (f < ((lastCalSec + 1) * finePerSec : Nat))

/-- Refuse calendar fields that are not possible (R482). -/
def badWrite (t0 t1 : Nat) (s : State) : State :=
  raise 0xCB [t0, t1] { s with rtc := { s.rtc with badWrite := true } }

/-- Set the calendar from two words (R482, R489): done, or refused whole. -/
def setCalendar (t0 t1 : Nat) (s : State) : State :=
  let c := calOfWords t0 t1
  if possible c then adjust 0 (calTicks c * finePerTick) s else badWrite t0 t1 s

/-! ### Commands (R498) -/

/-- ST_LOCKED by bit 0 of a lock register (R372, R406). -/
def lockRefusal (s : State) (reg : Nat) : Option (Nat × Nat) := refuseIf (cfgBit s reg 0) stLocked reg

/-- CMD_RTC_READ. -/
def specRtcRead : CmdSpec where
  opcode := 0x0A10
  length := fixedLen 0
  check _ _ _ := none
  run r _ s :=
    let al := (upto 4).flatMap fun n =>
      let a := alarm s n
      [byte (b2n a.armed), byte a.action, 0, 0] ++ putLE 4 (calT0 a.time).toNat ++ putLE 4 (calT1 a.time).toNat ++ zeros 4
    finishOk 0x0A10 r (putLE 4 (calT0 s.rtc.cal).toNat ++ putLE 4 (calT1 s.rtc.cal).toNat ++
      putLE 4 (rtcStatus s (originPort r.origin)).toNat ++ putLE 4 (rtcFlags s).toNat ++ putSLE 2 s.rtc.utcOfs ++ zeros 2 ++
      putLE 4 s.rtc.vbatTs0.toNat ++ putLE 4 s.rtc.vbatTs1.toNat ++ zeros 4 ++ al) s

/-- CMD_RTC_READ -/
def execCmdRtcRead (r : Req) (s : State) : Res := .next (runCmd specRtcRead r s)

/-- CMD_RTC_SET: an impossible date is refused with BADWRITE set (R482, R483). -/
def specRtcSet : CmdSpec where
  opcode := 0x0A11
  length := fixedLen 8
  check _ p s := firstRefusal
    [lockRefusal s 0xF08, badParam [(0, badT0 (getLE p 0 4) && possible (calOfWords (getLE p 0 4) (getLE p 4 4))),
       (4, badT1 (getLE p 4 4))],
     refuseIf (disciplined s && possible (calOfWords (getLE p 0 4) (getLE p 4 4))) stDenied 7]
  run r p s :=
    let t0 := getLE p 0 4
    let t1 := getLE p 4 4
    if possible (calOfWords t0 t1) then finishOk 0x0A11 r [] (setCalendar t0 t1 s)
    else finish 0x0A11 r stBadParam (if badT0 t0 then 0 else 4) [] (badWrite t0 t1 s)

/-- CMD_RTC_SET -/
def execCmdRtcSet (r : Req) (s : State) : Res := .next (runCmd specRtcSet r s)

/-- The fine count after a change of DELTA_MS. -/
def adjusted (s : State) (ms : Int) : Int := calFine s + ms * 32768000000

/-- CMD_RTC_ADJUST. -/
def specRtcAdjust : CmdSpec where
  opcode := 0x0A12
  length := fixedLen 4
  check _ p s :=
    let d := getSLE p 0 4
    firstRefusal
      [lockRefusal s 0xF08,
       badParam [(0, d = 0 || decide (86400000 < d) || decide (d < -86400000) || !inCalendar (adjusted s d))],
       refuseIf (disciplined s) stDenied 7]
  run r p s := finishOk 0x0A12 r [] (adjust 1 (adjusted s (getSLE p 0 4)).toNat s)

/-- CMD_RTC_ADJUST -/
def execCmdRtcAdjust (r : Req) (s : State) : Res := .next (runCmd specRtcAdjust r s)

/-- CMD_RTC_ALARM. -/
def specRtcAlarm : CmdSpec where
  opcode := 0x0A13
  length := fixedLen 12
  check _ p s := firstRefusal
    [lockRefusal s 0xF08,
     badParam [(0, 3 < getLE p 0 1), (1, 1 < getLE p 1 1), (2, 1 < getLE p 2 1), (3, notZero p 3 1)]]
  run r p s :=
    let n := getLE p 0 1
    let t0 := getLE p 4 4
    let t1 := getLE p 8 4
    let c := calOfWords t0 t1
    if getLE p 1 1 = 0 then
      finishOk 0x0A13 r [] { s with rtc := { s.rtc with alarms := fset s.rtc.alarms n { alarm s n with armed := false } } }
    else if !possible c then finish 0x0A13 r stBadParam (if badT0 t0 then 4 else 8) [] (badWrite t0 t1 s)
    else if c.subsec ≠ 0 || badT0 t0 then finish 0x0A13 r stBadParam 4 [] s
    else if badT1 t1 || decide (calTicks c ≤ calTicks s.rtc.cal) then finish 0x0A13 r stBadParam 8 [] s
    else finishOk 0x0A13 r []
      { s with rtc := { s.rtc with alarms := fset s.rtc.alarms n { armed := true, action := getLE p 2 1, time := c } } }

/-- CMD_RTC_ALARM -/
def execCmdRtcAlarm (r : Req) (s : State) : Res := .next (runCmd specRtcAlarm r s)

/-! ### Events -/

/-- d of R483, ns. -/
def discDelta (s : State) : Int :=
  (devNs s : Int) - s.time.utc * 1000000000 - (if s.rtc.leapHeld then 1000000000 else 0) - calUtcNs s

/-- abs(d) is below one tick of 1/32 768 s. -/
def withinTick (d : Int) : Bool := decide (d.natAbs * 32768 < 1000000000)

/-- Fine count of the UTC of device time, the leap second in progress taken off. -/
def utcFine (s : State) : Int :=
  ((devNs s : Int) - s.time.utc * 1000000000 - (if s.rtc.leapHeld then 1000000000 else 0) -
    (epoch2000 * 1000000000 : Nat)) * 32768

/-- The crystal's ticks are trimmed: d lies between one tick and 50 ms (R483). -/
def trimming (s : State) : Bool := disciplined s && !withinTick s.rtc.lastD && decide (s.rtc.lastD.natAbs ≤ 50000000)

/-- A calendar second has just begun; an added tick may pass over its first one. -/
def secondBegun (s : State) : Bool :=
  decide (s.rtc.cal.subsec = 0) || (decide (s.rtc.cal.subsec = 1) && trimming s && decide (s.rtc.trim = 0))

/-- RTC_SECOND: at the start of a calendar second a disciplined calendar is compared with device time and stepped, or
its crystal trimmed from now on (R483). -/
def execRtcSecond (s : State) : Res :=
  .next (if secondBegun s && s.power.vstby && s.rtc.crystal then
      (if disciplined s then
        let d := discDelta s
        let s' := { s with rtc := { s.rtc with lastD := d, disc := withinTick d } }
        if decide (50000000 < d.natAbs) && inCalendar (utcFine s) then adjust 2 (utcFine s).toNat s' else s'
       else { s with rtc := { s.rtc with disc := false } })
    else s)

/-- RTC_ALARM: an armed alarm whose time the calendar has reached fires (R486). -/
def execRtcAlarm (n : Fin 4) (s : State) : Res :=
  .next (if (alarm s n.val).armed && decide (calTicks (alarm s n.val).time ≤ calTicks s.rtc.cal) then fireAlarm n.val 0 s
    else s)

/-- OSC_STOP_DETECT: the crystal has shown no edge for 4 ms; the calendar holds its value (R479). -/
def execOscStopDetect (s : State) : Res := .next (setOscStop { s with rtc := { s.rtc with crystal := false } })

/-- OSC_RESTART: the calendar counts on from the value it held, OSC_STOP stays set (R479). -/
def execOscRestart (s : State) : Res := .next { s with rtc := { s.rtc with crystal := true } }

/-- BACKUP_POWER_UP: the backup domain takes its reset values (R478, R479). -/
def execBackupPowerUp (s : State) : Res :=
  .next (setOscStop { s with rtc := { s.rtc with
    cal := {}, phase := 0, trim := 0, oscStop := true, ended := false, utcOfs := 37, alarms := [], badWrite := false,
    vbatSeen := false, fired := 0, passed := 0, vbatTs0 := 0, vbatTs1 := 0, onVbat := !s.power.vstby,
    vbatEvent := false, leapHeld := false } })

/-- VBAT_MEASURE: at a standby power-up and every hour after that (R480). -/
def execVbatMeasure (mv : Nat) (s : State) : Res :=
  let due := match s.rtc.vbatAt with
    | none => true
    | some t => decide (3600000000000 ≤ since s t)
  .next (if s.power.vstby && due then
      let s := { s with rtc := { s.rtc with vbatAt := some s.refNs, vbatLow := decide (mv < 2200) } }
      if mv < 2200 then raise 0xC7 [] s else s
    else s)

/-- RTC_APPLY: with SET, the calendar is set from RTC_SET0 and RTC_SET1 (R489). -/
def applyRtc (v : W32) (s : State) : State :=
  if v.getLsbD 0 then setCalendar (cfgGet s 0xF18).toNat (cfgGet s 0xF1C).toNat s else s

/-- RTC_APPLY_SET -/
def execRtcApplySet (p : Port) (v : W32) (s : State) : Res := .next (ownWrite p 0xF20 (applyRtc v) s)

/-- RTC_FLAGS: bits written 1 clear (R5, R480). -/
def applyRtcFlags (v : W32) (s : State) : State :=
  { s with rtc := { s.rtc with
    badWrite := s.rtc.badWrite && !v.getLsbD 0
    vbatSeen := s.rtc.vbatSeen && !v.getLsbD 1
    fired := s.rtc.fired &&& ~~~(v.extractLsb' 4 4)
    passed := s.rtc.passed &&& ~~~(v.extractLsb' 8 4) } }

/-- RTC_FLAGS_CLEAR -/
def execRtcFlagsClear (p : Port) (v : W32) (s : State) : Res := .next (ownWrite p 0xF0C (applyRtcFlags v) s)

/-! ### The calendar's own counting (R481, R483, R484) -/

/-- The calendar counts one tick. A disciplined calendar shows a pending leap second at the end of its day. -/
def calTick (s : State) : State :=
  let c := s.rtc.cal
  let t := calTicks c
  let atSec := decide (c.subsec = 32767)
  let late := decide (c.hour = 23) && decide (c.min = 59)
  if s.rtc.ended then s
  else if atSec && decide (calSecs c = lastCalSec) then
    setOscStop { s with rtc := { s.rtc with ended := true } }
  else if atSec && late && decide (c.sec = 59) && disciplined s && s.time.leap61 && !s.rtc.leapHeld then
    { s with rtc := { s.rtc with cal := { c with subsec := 0 }, leapHeld := true } }
  else if atSec && late && decide (c.sec = 58) && disciplined s && s.time.leap59 then
    let s := { s with rtc := { s.rtc with cal := calOfTicks (t + 1 + 32768) } }
    passAlarms t (t + 1 + 32768) [0, 1, 2, 3] s
  else if atSec then { s with rtc := { s.rtc with cal := calOfTicks (t + 1), leapHeld := false } }
  else { s with rtc := { s.rtc with cal := { c with subsec := c.subsec + 1 } } }

/-- One crystal tick: the calendar counts once, or twice or not at all when the trim of R483 adds or drops a tick,
once in 3 277 crystal ticks, which is 100 ms. -/
def crystalTick (s : State) : State :=
  if !trimming s then calTick { s with rtc := { s.rtc with trim := 0 } }
  else if s.rtc.trim < 3276 then calTick { s with rtc := { s.rtc with trim := s.rtc.trim + 1 } }
  else
    let s := { s with rtc := { s.rtc with trim := 0 } }
    if 0 < s.rtc.lastD then calTick (calTick s) else s

/-- One nanosecond of the crystal. -/
def calNano (s : State) : State :=
  if s.rtc.crystal then
    let ph := s.rtc.phase + 32768
    if finePerTick ≤ ph then crystalTick { s with rtc := { s.rtc with phase := ph - finePerTick } }
    else { s with rtc := { s.rtc with phase := ph } }
  else s

end Sys2Proof.Machine
end

