-- ==== Sys2Proof/Machine/Recorder.lean ====
section
/-! DEFINITION. Recorder.lean: the event recorder (R490 to R498) and the messages that follow the sealing of a record
(R379, R382). -/

namespace Sys2Proof.Machine

/-- Lowest free permanent slot, from slot `i` on. -/
def lowestFree (m : FMap EventRec) : Nat → Nat → Option Nat
  | 0, _ => none
  | n + 1, i => if (fget m i).isNone then some i else lowestFree m n (i + 1)

/-- The permanent slots are filled from the bottom, so the lowest free one follows the highest used one. -/
def freePermanent (s : State) : Option Nat :=
  let used := (s.recorder.slots.filter fun e => e.1 < 8192).length
  if used = 8192 then none
  else if (fget s.recorder.slots used).isNone && (used = 0 || (fget s.recorder.slots (used - 1)).isSome) then some used
  else lowestFree s.recorder.slots 8192 0

/-- The next circulating slot after one. -/
def circNext (n : Nat) : Nat := if 131071 ≤ n then 8192 else n + 1

/-- MG seals a record into a slot: SEQ, COUNT, the highest SEQ, EVT_LAST and EVT_SEQ, and the message that falls due
(R379 step 3, R490, R491). -/
def sealRecord (slot : Nat) (flags : Byte) (e : EventRec) (s : State) : State :=
  let seq := s.recorder.topSeq + 1
  let e' := { e with seq := seq, flags := flags, count := fgetD s.recorder.drops e.source 0, vec := none }
  let s := { s with recorder := { s.recorder with
    slots := fset s.recorder.slots slot e', topSeq := seq, drops := ferase s.recorder.drops e.source } }
  let s := { s with evt := { s.evt with last := BitVec.ofNat 8 e.source, seq := seq } }
  match e.vec with
  | some v => messageDue v s
  | none => s

/-- Write a record into the circulating area. -/
def writeCirculating (flags : Byte) (e : EventRec) (s : State) : State :=
  let slot := s.recorder.next
  let s := { s with recorder := { s.recorder with
    next := circNext slot, wrapped := s.recorder.wrapped || slot = 131071 } }
  sealRecord slot flags e s

/-- Write a record where R492 puts it. REC_PERM_FULL follows when the free permanent slots fall to 256 or to 0 (R493). -/
def writeRecord (e : EventRec) (s : State) : State :=
  if permanentSource e.source then
    match freePermanent s with
    | some k =>
      let s := sealRecord k (e.flags ||| 1) e s
      let free := permFree s
      if free = 256 ∨ free = 0 then raise 0xCD [free] s else s
    | none => writeCirculating (e.flags ||| 8) e s
  else writeCirculating e.flags e s

/-- A freed entry is taken by the first held permanent event (R493). -/
def admitHeld (s : State) : State :=
  match s.recorder.held with
  | [] => s
  | h :: r => if s.recorder.queue.length < 256 then
      { s with recorder := { s.recorder with queue := s.recorder.queue ++ [h], held := r } } else s

/-- The entry MG takes next: the oldest, or while a clear runs the oldest permanent one (R496). -/
def nextRecord (s : State) : Option EventRec :=
  if s.recorder.clear.isSome then s.recorder.queue.find? fun e => permanentSource e.source
  else s.recorder.queue.head?

/-- REC_WRITE: MG takes a queued event, writes and seals its record (R491 to R494). -/
def execRecWrite (s : State) : Res :=
  .next (if inService s idMG && s.power.vstby && s.recorder.ready then
      match nextRecord s with
      | some e => writeRecord e (admitHeld { s with recorder := { s.recorder with
          queue := removeFirst e s.recorder.queue } })
      | none => s
    else s)

/-- MG reads every seal at a standby power-up: highest SEQ, next slot, WRAPPED, READY (R494). -/
def recoverRecorder (s : State) : State :=
  let circ := s.recorder.slots.filter fun e => 8192 ≤ e.1
  let newest := circ.foldl (fun (b : Nat × Nat) e => if b.2 ≤ e.2.seq.toNat then (e.1, e.2.seq.toNat) else b) (131071, 0)
  { s with recorder := { s.recorder with
    ready := true
    next := if circ.isEmpty then 8192 else circNext newest.1
    wrapped := decide (122879 ≤ circ.length) } }

/-! ### Reading (R495, R498) -/

/-- Every record with its slot, in ascending SEQ. -/
def bySeq (s : State) : List (Nat × EventRec) :=
  s.recorder.slots.mergeSort fun a b => a.2.seq.toNat ≤ b.2.seq.toNat

/-- CMD_REC_READ. -/
def specRecRead : CmdSpec where
  opcode := 0x0A01
  length := fixedLen 12
  check _ p _ := badParam [(8, getLE p 8 1 = 0 || 63 < getLE p 8 1), (9, notZero p 9 3)]
  run r p s :=
    let all := bySeq s
    let from' := getLE p 0 8
    let l := (all.filter fun e => from' ≤ e.2.seq.toNat).take (getLE p 8 1)
    let older := match all with
      | [] => false
      | e :: _ => decide (from' < e.2.seq.toNat)
    finishOk 0x0A01 r (putLE 2 l.length ++ putLE 2 (b2n older) ++ zeros 4 ++ l.flatMap fun e => recordBytes e.2) s

/-- CMD_REC_READ -/
def execCmdRecRead (r : Req) (s : State) : Res := .next (runCmd specRecRead r s)

/-- Slot that CMD_REC_CURSOR finds. -/
def cursorTarget (s : State) (mode seq : Nat) : Option (Nat × EventRec) :=
  match mode with
  | 0 => (bySeq s).find? fun e => 8192 ≤ e.1
  | 1 => (bySeq s).getLast?
  | 2 => (bySeq s).find? fun e => e.2.seq.toNat = seq
  | _ => (bySeq s).find? fun e => e.1 < 8192

/-- Set the cursor of a port. -/
def setCursor (p : Port) (slot : Nat) (s : State) : State :=
  { s with recorder := { s.recorder with cursor := fset s.recorder.cursor (portCode p) slot } }

/-- CMD_REC_CURSOR. -/
def specRecCursor : CmdSpec where
  opcode := 0x0A02
  length := fixedLen 12
  check _ p s := badParam
    [(0, 3 < getLE p 0 1), (1, notZero p 1 3), (4, getLE p 0 1 = 2 && (cursorTarget s 2 (getLE p 4 8)).isNone)]
  run r p s :=
    let port := originPort r.origin
    match cursorTarget s (getLE p 0 1) (getLE p 4 8) with
    | some e => finishOk 0x0A02 r (putLE 4 e.1 ++ zeros 4 ++ putLE 8 e.2.seq.toNat) (setCursor port e.1 s)
    | none =>
      let slot := if getLE p 0 1 = 3 then 0 else 8192
      finishOk 0x0A02 r (putLE 4 slot ++ zeros 12) (setCursor port slot s)

/-- CMD_REC_CURSOR -/
def execCmdRecCursor (r : Req) (s : State) : Res := .next (runCmd specRecCursor r s)

/-- Lowest and highest SEQ of the circulating records, 0 and 0 for none (R496). -/
def circSpan (s : State) : Nat × Nat :=
  (oldestSeq s, nmax ((circRecords s).map fun e => e.seq.toNat))

/-- CMD_REC_CLEAR (R496). -/
def specRecClear : CmdSpec where
  opcode := 0x0A03
  length := fixedLen 0
  check _ _ s := refuseIf s.recorder.clear.isSome stBusy 0
  run r _ s := holdCmd 0x0A03 r { s with recorder := { s.recorder with clear := some (r, circSpan s) } }

/-- CMD_REC_CLEAR -/
def execCmdRecClear (r : Req) (s : State) : Res := .next (runCmd specRecClear r s)

/-- Take the newest record of a source out of the queue or the held list, and write it. -/
def writeNewest (src : Nat) (s : State) : State :=
  match s.recorder.held.reverse.find? (fun e => e.source = src) with
  | some e => writeRecord e { s with recorder := { s.recorder with
      held := (removeFirst e s.recorder.held.reverse).reverse } }
  | none =>
    match s.recorder.queue.reverse.find? (fun e => e.source = src) with
    | some e => writeRecord e { s with recorder := { s.recorder with
        queue := (removeFirst e s.recorder.queue.reverse).reverse } }
    | none => s

/-- REC_CLEAR_DONE: the seal of every circulating record sealed at the acceptance is zero, the writer restarts at slot 8 192, REC_CLEARED is written and the
command completes (R496). -/
def execRecClearDone (s : State) : Res :=
  .next (match s.recorder.clear with
    | none => s
    | some (r, lo, hi) =>
      let s := { s with recorder := { s.recorder with
        slots := s.recorder.slots.filter fun e => e.1 < 8192 || hi < e.2.seq.toNat
        next := 8192, wrapped := false, clear := none } }
      finishOk 0x0A03 r [] (writeNewest 0xCC (raise 0xCC [lo, hi] s)))

/-! ### Register rows -/

/-- REC_SEEK: the port's cursor (R495). -/
def applyRecSeek (p : Port) (v : W32) (s : State) : State := setCursor p (v.toNat % 131072) s

/-- REC_SEEK -/
def execRecSeek (p : Port) (v : W32) (s : State) : Res := .next (ownWrite p 0x1008 (applyRecSeek p v) s)

/-- EVT_HOLDOFF_EXPIRY: a message deferred by the holdoff of its vector leaves, or is withheld while EVT_MSG_EN is 0
(R382). -/
def execEvtHoldoffExpiry (v : Fin 32) (s : State) : Res :=
  .next (if s.evt.deferred.getLsbD v.val && !inHoldoff s v.val then
      (if msgEnabled s then sendVector v.val s
       else { s with evt := { s.evt with deferred := s.evt.deferred &&& ~~~(BitVec.twoPow 32 v.val) } })
    else s)

end Sys2Proof.Machine
end

