-- ==== Sys2Proof/Machine/KeyStore.lean ====
section
/-! DEFINITION. KeyStore.lean: key-update messages, life-cycle transitions and the commands of KB
(R518 to R538). -/

namespace Sys2Proof.Machine

/-- The root key of a state: TYPE 2, DEST KB (R525). -/
def rootKey (data : Bytes) : Key :=
  { type := 2, dest := 1, parent := 0, label := zeros 16, flags := 0, uses := 0, data := data }

/-- Key data of the streams of a ring: the ring of the station in a send-stream key. -/
def streamRing (s : State) (key : Nat) : Option Nat := ((station s (key / 2 ^ 32)).cfg).map (·.ring)

/-- The send epoch of a ring changes and every stream of the ring restarts its count (R306). -/
def setEpoch (n e : Nat) (s : State) : State :=
  { s with keys := { s.keys with epochs := lset s.keys.epochs n e }
           rings := { s.rings with counts := s.rings.counts.filter fun x => streamRing s x.1 ≠ some n } }

/-- A new current ring key is installed: epoch 0 (R306). -/
def resetEpoch (n : Nat) (s : State) : State :=
  let s := setEpoch n 0 s
  { s with rings := { s.rings with rings := fset s.rings.rings n { ringOf s n with exhausted := false } } }

/-! ### Key-update messages (R529 to R533) -/

/-- Entry `i` of a message. -/
def updEntry (p : Bytes) (i : Nat) : Bytes := slice p (72 + 128 * i) 128

/-- Attributes of R526 and R528 for a new key. -/
def attributesOk (ty : Nat) (dest flags : Byte) (uses : Nat) : Bool :=
  let d := dest.toNat
  let legacy := flags.getLsbD 0
  flags.toNat < 4 && (legacy || flags.toNat = 0) && decide (legacy = decide (uses ≠ 0)) &&
  (match ty with
   | 1 => d &&& 9 = 0 && d < 16 && !legacy
   | 2 => d &&& 6 = 0 && d < 16
   | 3 => d = 0 && !legacy
   | _ => false)

/-- The parent an INSTALL or DERIVE names: valid, not a legacy key, within 8 parents of slot 0 (R525, R532). -/
def parentOk (m : FMap Key) (parent : Nat) : Bool :=
  match fget m parent with
  | none => false
  | some k => !k.flags.getLsbD 0 && keyDepth m 10 parent < 8

/-- An entry is valid against the slots as earlier entries leave them (R532 cause 7). -/
def entryValid (m : FMap Key) (e : Bytes) : Bool :=
  let slot := getLE e 1 1
  let ty := getLE e 3 1
  let common := slot ≠ 0 && attributesOk ty (byte (getLE e 4 1)) (byte (getLE e 5 1)) (getLE e 8 4) &&
    (fget m slot).isNone && parentOk m (getLE e 2 1)
  match getLE e 0 1 with
  | 1 => common && (if ty = 1 then allZero (slice e 80 48) else if ty = 3 then allZero (slice e 96 32) else true)
  | 2 => common && (ty = 1 || ty = 3) && decide ((fget m (getLE e 2 1)).map (·.type) = some 3) && allZero (slice e 32 96)
  | 3 => slot ≠ 0 && (fget m slot).isSome && allZero (slice e 2 4) && getLE e 8 4 = 0 && allZero (slice e 32 96)
  | _ => false

/-- Transport key of the current state (R531). -/
def transportKey (s : State) : Bytes :=
  Config.hkdf s.keys.secret (putLE 8 s.keys.serial.toNat) ([0x56, 0x47, 0x54, 0x4B] ++ [byte (lcCode s.keys.lc)]) 32

/-- Key material of an entry: none when a wrapped tag does not verify (R531). -/
def material (s : State) (m : FMap Key) (counter i : Nat) (e : Bytes) : Option Bytes :=
  let n := if getLE e 3 1 = 1 then 32 else 48
  if getLE e 0 1 = 2 then
    some (Config.hkdf (((fget m (getLE e 2 1)).map (·.data)).getD []) (putLE 8 s.keys.serial.toNat) (slice e 16 16) n)
  else if getLE e 3 1 = 2 then some (slice e 32 96)
  else Config.gcmOpen (transportKey s) (putLE 4 counter ++ [byte i, byte (getLE e 1 1)] ++ zeros 6) (slice e 0 32)
    (slice e 32 n) (slice e (32 + n) 16)

/-- The key an entry installs. -/
def entryKey (e data : Bytes) : Key :=
  { type := getLE e 3 1, dest := byte (getLE e 4 1), parent := getLE e 2 1, label := slice e 16 16,
    flags := byte (getLE e 5 1), uses := BitVec.ofNat 32 (getLE e 8 4), data := data }

/-- First entry that is not valid, by index; key material plays no part. -/
def firstInvalid : FMap Key → List (Nat × Bytes) → Option Nat
  | _, [] => none
  | m, (i, e) :: r =>
    if !entryValid m e then some i
    else if getLE e 0 1 = 3 then firstInvalid (eraseSlots (getLE e 1 1 :: descendants m (getLE e 1 1)) m) r
    else firstInvalid (fset m (getLE e 1 1) (entryKey e [])) r

/-- What applying a message leaves: slots, slots written, slots freed, and each revoked slot with the number of its
descendants. -/
structure UpdResult where
  /-- the new key set -/
  slots   : FMap Key
  /-- slots written, in order -/
  written : List Nat
  /-- slots freed, in order -/
  freed   : List Nat
  /-- revoked slots and their descendants -/
  revoked : List (Nat × Nat)
deriving DecidableEq, Repr

/-- Apply the entries in order; none when a wrapped tag fails (R531, R532 cause 8). -/
def applyEntries (s : State) (counter : Nat) : UpdResult → List (Nat × Bytes) → Option UpdResult
  | u, [] => some u
  | u, (i, e) :: r =>
    let slot := getLE e 1 1
    if getLE e 0 1 = 3 then
      let gone := slot :: descendants u.slots slot
      applyEntries s counter { u with slots := eraseSlots gone u.slots, freed := u.freed ++ gone,
                                      revoked := u.revoked ++ [(slot, gone.length - 1)] } r
    else match material s u.slots counter i e with
    | none => none
    | some d => applyEntries s counter { u with slots := fset u.slots slot (entryKey e d), written := u.written ++ [slot] } r

/-- First reserved, MAGIC or FORMAT field at fault, in ascending offset (R532 cause 2). -/
def updHeaderFault (p : Bytes) (n : Nat) : Option (Nat × Nat) :=
  badParam ([(0, decide (getLE p 0 4 ≠ 0x554B4756)), (4, decide (getLE p 4 2 ≠ 1)), (68, notZero p 68 4)] ++
    ((upto n).flatMap fun i => [(72 + 128 * i + 6, notZero p (72 + 128 * i + 6) 2),
      (72 + 128 * i + 12, notZero p (72 + 128 * i + 12) 4)]) ++ [(76 + 128 * n, notZero p (76 + 128 * n) 12)])

/-- The refusal of R532: cause, status and DETAIL. -/
def updRefusal (p : Bytes) (s : State) : Option (Nat × Nat × Nat) :=
  let n := getLE p 7 1
  let entries := indexed 0 ((upto n).map (updEntry p))
  let sigOff := 72 + 128 * n
  if n = 0 || 16 < n then some (1, stBadLength, 0xFFFFFFFF)
  else if p.length ≠ sigOff + 112 then some (1, stBadLength, sigOff + 112)
  else match updHeaderFault p n with
  | some (st, d) => some (2, st, d)
  | none =>
    if !(inService s idKB && cfgBit s 0x1204 0 && getLE p 6 1 = lcCode s.keys.lc &&
         decide (s.keys.lc ≠ .blank) && decide (s.keys.lc ≠ .retired)) then some (3, stDenied, 7)
    else if !(getLE p 8 8 = s.keys.serial.toNat && decide (slice p 16 48 = idHash s)) then some (4, stDenied, 7)
    else if getLE p 64 4 ≤ s.keys.updCnt.toNat then some (5, stDenied, 7)
    else if !(getLE p sigOff 2 = 0 && sectionVerify s 0 p sigOff) then some (6, stDenied, 7)
    else match firstInvalid s.keys.slots entries with
    | some i => some (7, stBadParam, 72 + 128 * i)
    | none =>
      match applyEntries s (getLE p 64 4) { slots := s.keys.slots, written := [], freed := [], revoked := [] } entries with
      | none => some (8, stDenied, 7)
      | some u => if permFree s < 1 + u.revoked.length then some (9, stDenied, 7) else none

/-- One KEY_REVOKED, sealed, for each REVOKE entry (R533 step 7, R535). -/
def sealRevoked : List (Nat × Nat) → State → State
  | [], s => s
  | (slot, d) :: r, s => sealRevoked r (writeNewest 0xE2 (raise 0xE2 [slot, d, 0] s))

/-- Rings whose current key slot is written take epoch 0 (R306, R536). -/
def resetEpochs (written : List Nat) : List Nat → State → State
  | [], s => s
  | n :: r, s =>
    resetEpochs written r (if (ringOf s n).keyCur ≠ 0 && written.contains (ringOf s n).keyCur then resetEpoch n s else s)

/-- The commit instant of a message (R533 steps 4 and 5, R535): KB serves the new key set, what it revokes is invalid, and a
ring whose current key is written takes epoch 0. -/
def commitSlots (slots : FMap Key) (written : List Nat) (revoked : List (Nat × Nat)) (s : State) : State :=
  let s := rcAdd 0x121C (revoked.map fun e => 1 + e.2).sum { s with keys := { s.keys with slots := slots } }
  resetEpochs written (upto 4) s

/-- Steps 6 and 7 of R533: the counter is stored and the records are sealed. -/
def sealUpdate (counter : W32) (n : Nat) (written freed : List Nat) (revoked : List (Nat × Nat)) (s : State) : State :=
  let s := { s with keys := { s.keys with updCnt := counter, op := none } }
  sealRevoked revoked (writeNewest 0xE0 (raise 0xE0 [counter.toNat, n, written.length, freed.length] s))

/-- Time after the acceptance by which a stage has come to its end (R522, R533), ns. -/
def stageLimit (w : KeyWork) (st : KeyStage) : Nat :=
  match w, st with
  | .update .., .checked => 6000000
  | .update .., .begun => 6100000
  | .update .., .committed => 12500000
  | .transition .., .checked => 1000000
  | .transition .., .begun => 2000000
  | .transition .., .committed => 41000000

/-- KB enters a stage, whose end comes at a time that the rules leave open up to its limit. -/
def enterStage (o : KeyOp) (st : KeyStage) (s : State) : State :=
  let (w, s) := takeFree s
  let left := o.start + stageLimit o.work st - s.refNs
  { s with keys := { s.keys with op := some { o with stage := st, due := s.refNs + w.toNat % (left + 1) } } }

/-- A key update or transition whose checks have passed begins; its command completes at the end. -/
def startKeyOp (w : KeyWork) (opcode : Nat) (r : Req) (s : State) : State :=
  holdCmd opcode r (enterStage { work := w, stage := .checked, start := s.refNs, due := s.refNs, req := some r } .checked s)

/-- CMD_KEY_UPDATE (R529 to R533): refused by the first check that fails, or on its way to its commit. -/
def specKeyUpdate : CmdSpec where
  opcode := 0x0C01
  length _ := none
  check _ _ _ := none
  run r p s :=
    let counter := getLE p 64 4
    let n := getLE p 7 1
    match updRefusal p s with
    | some (cause, st, d) => finish 0x0C01 r st d [] (raiseC 0xE1 [cause, counter] cause s)
    | none =>
      match applyEntries s counter { slots := s.keys.slots, written := [], freed := [], revoked := [] }
          (indexed 0 ((upto n).map (updEntry p))) with
      | none => s
      | some u => startKeyOp (.update (BitVec.ofNat 32 counter) n u.slots u.written u.freed u.revoked) 0x0C01 r s

/-- CMD_KEY_UPDATE -/
def execCmdKeyUpdate (r : Req) (s : State) : Res := .next (runCmd specKeyUpdate r s)

/-! ### Status and identity (R538) -/

/-- CHECK of a key. -/
def keyCheck (k : Key) : Bytes :=
  if k.type = 2 then (Config.sha384 k.data).take 4 else (Config.gcmTag (k.data.take 32) (zeros 12) []).take 4

/-- A slot's entry of CMD_KEY_STATUS. -/
def keyEntry (s : State) (slot : Nat) : Bytes :=
  match keyAt s slot with
  | none => [byte slot] ++ zeros 31
  | some k => [byte slot, 1, byte k.parent, byte k.type, k.dest, k.flags, byte (keyDepth s.keys.slots 10 slot), 0] ++
      putLE 4 k.uses.toNat ++ padTo 4 (keyCheck k) ++ padTo 16 k.label

/-- CMD_KEY_STATUS. -/
def specKeyStatus : CmdSpec where
  opcode := 0x0C02
  length := fixedLen 4
  check _ p _ := badParam
    [(1, getLE p 1 1 = 0 || 126 < getLE p 1 1 || 256 < getLE p 0 1 + getLE p 1 1), (2, notZero p 2 2)]
  run r p s :=
    finishOk 0x0C02 r ([byte (lcCode s.keys.lc)] ++ zeros 3 ++ putLE 4 s.keys.updCnt.toNat ++ putLE 4 s.keys.privCnt.toNat ++
      putLE 2 s.keys.slots.length ++ zeros 2 ++ (upto (getLE p 1 1)).flatMap fun i => keyEntry s (getLE p 0 1 + i)) s

/-- CMD_KEY_STATUS -/
def execCmdKeyStatus (r : Req) (s : State) : Res := .next (runCmd specKeyStatus r s)

/-- Base MAC address, most significant octet first (R519). -/
def baseMac (s : State) : Bytes := [0x0A, 0x47] ++ putBE 4 (s.keys.serial.toNat % 2 ^ 29 * 8)

/-- CMD_IDENTITY. -/
def specIdentity : CmdSpec where
  opcode := 0x0C03
  length := fixedLen 0
  check _ _ _ := none
  run r _ s :=
    finishOk 0x0C03 r (putLE 8 s.keys.serial.toNat ++ [byte (lcCode s.keys.lc)] ++ zeros 7 ++
      padTo 96 (s.keys.identity.getD []) ++ padTo 48 (idHash s) ++ baseMac s ++ zeros 2) s

/-- CMD_IDENTITY -/
def execCmdIdentity (r : Req) (s : State) : Res := .next (runCmd specIdentity r s)

/-! ### Life cycle (R521, R522) -/

/-- The transition of R521 to a target code: the state entered and whether a root is carried. -/
def transitionTo (from' : LcState) (target : Nat) : Option (LcState × Bool) :=
  match from', target with
  | .blank, 1 => some (.factory, false)
  | .factory, 2 => some (.field, true)
  | .field, 3 => some (.service, true)
  | .service, 2 => some (.field, true)
  | .factory, 4 => some (.retired, false)
  | .field, 4 => some (.retired, false)
  | .service, 4 => some (.retired, false)
  | _, _ => none

/-- The key set of a state: its root alone (R520, R522 step 5). -/
def rootSlots (s : State) (target : LcState) (root : Bytes) : FMap Key :=
  match target with
  | .retired => []
  | .blank | .factory => [(0, rootKey s.keys.factoryRoot)]
  | _ => [(0, rootKey root)]

/-- The commit instant of a transition with steps 4 and 5 of R522: the debug port closed, every key, epoch and the
privileged-command counter erased, the new root written, the identity key generated or erased, the state entered. -/
def enterState (target : LcState) (root : Bytes) (s : State) : State :=
  { s with
    keys := { s.keys with
      slots := rootSlots s target root, privCnt := 0, epochs := [0, 0, 0, 0], lc := target, debug := false
      identity := (match s.keys.lc, target with
        | .blank, .factory => some (Config.identityKey s.keys.secret)
        | _, .retired => none
        | _, _ => s.keys.identity) }
    rings := { s.rings with counts := [] } }

/-- Step 7 of R522: in SERVICE the JTAG port is enabled. -/
def openDebug (s : State) : State :=
  if s.keys.lc = .service then raise 0xE5 [s.keys.serial.toNat] { s with keys := { s.keys with debug := true } } else s

/-- KB reads its journal at a start (R524, R533): what had not reached its commit instant is discarded, the rest is completed. -/
def recoverJournal (s : State) : State :=
  match s.keys.op with
  | none => s
  | some o =>
    let t := { s with keys := { s.keys with op := none } }
    if o.stage ≠ .committed then raise 0xE3 [0] t
    else match o.work with
      | .update counter n _ written freed revoked => raise 0xE3 [1] (sealUpdate counter n written freed revoked t)
      | .transition target root => raise 0xE3 [1] (openDebug (enterState target root t))

/-- Keys with EXPIRE_AT_RESET become invalid at a main-side cold reset (R528). -/
def expireKeys (s : State) : State :=
  let rec go : List Nat → State → State
    | [], s => s
    | k :: r, s => go r (revokeKey k 2 s)
  go ((s.keys.slots.filter fun e => e.2.flags.getLsbD 1).map (·.1)) s

end Sys2Proof.Machine
end

