-- ==== Sys2Proof/Machine/Pnl.lean ====
section
/-! DEFINITION. Pnl.lean: the status panel driver (R499 to R517) and the temperature bands of R268 and R506. -/

namespace Sys2Proof.Machine

/-! ### Temperature bands (R268, R506) -/

/-- Move up while the temperature passes the next threshold by 1 °C. -/
def bandUp (t : Int) (th : List Int) : Nat → Nat → Nat
  | 0, b => b
  | n + 1, b => if b < 7 && decide (lget th b 0 + 16 ≤ t) then bandUp t th n (b + 1) else b

/-- Move down while the temperature passes the threshold below by 1 °C. -/
def bandDown (t : Int) (th : List Int) : Nat → Nat → Nat
  | 0, b => b
  | n + 1, b => if 0 < b && decide (t < lget th (b - 1) 0 - 16) then bandDown t th n (b - 1) else b

/-- The band in force after a reading, in 2^-4 °C. -/
def nextBand (t : Int) (th : List Int) (b : Nat) : Nat := bandDown t th 7 (bandUp t th 7 b)

/-- Temperature of a point in 2^-4 °C: none when the point is not GOOD or ESTIMATED. -/
def tempOf (s : State) (id : Nat) : Option Int :=
  let r := readRec s id
  if defined s id && qUsable r.quality then some (align r.value r.scale (-4)) else none

/-- The band in force follows the temperature point (R506, R507); PN looks at frame boundaries, at an update's or repair's
start and at the comparison of the frame memory (log entry 158). -/
def updateBand (s : State) : State :=
  match tempOf s s.panel.cfg.tempPoint with
  | none => s
  | some t =>
    let b := nextBand t s.panel.cfg.bands s.panel.band
    if b = s.panel.band then s else raise 0xD5 [b] { s with panel := { s.panel with band := b } }

/-! ### Waveforms (R500, R503 to R505) -/

/-- Units of a level code (R500). -/
def codeUnits : Nat → Int
  | 1 => 1
  | 2 => 2
  | 3 => 3
  | 5 => -1
  | 6 => -2
  | 7 => -3
  | _ => 0

/-- Prefix sum of a waveform over its first `n` frames. -/
def wavePrefix (w : Wave) (n : Nat) : Int := isum ((w.take n).map codeUnits)

/-- Band table of a band. -/
def bandTab (s : State) (b : Nat) : BandTab := lget s.panel.tables b { maxLen := 1, trans := [], clear := [] }

/-- Band table that an update runs on (R539). -/
def updTab (s : State) (u : PnlUpd) : BandTab := if u.tabs.isEmpty then bandTab s u.band else lget u.tabs u.band (bandTab s u.band)

/-- Frame-memory key of a pixel. -/
def pixel (x y : Nat) : Nat := y * 400 + x

/-- Pixels of a rectangle, row by row. -/
def rectPixels (r : Rect) : List Nat := (upto r.h).flatMap fun j => (upto r.w).map fun i => pixel (r.x + i) (r.y + j)

/-- Level of a pixel. -/
def level (m : FMap Nat) (p : Nat) : Nat := fgetD m p 0

/-- Rectangles overlap. -/
def overlaps (a b : Rect) : Bool := a.x < b.x + b.w && b.x < a.x + a.w && a.y < b.y + b.h && b.y < a.y + a.h

/-- Largest abs(account) of some pixels (R514). -/
def largestAccount (m : FMap Int) (ps : List Nat) : Nat := nmax (ps.map fun p => (fgetD m p 0).natAbs)

/-- Frames of an update (R505) or of a repair (R514). -/
def updFrames (s : State) (u : PnlUpd) : Nat :=
  let t := updTab s u
  if u.repair then largestAccount s.panel.account (rectPixels u.rect) + t.clear.length else t.maxLen

/-- Code that drives one pixel in frame `f`: the TRANS entry of shown and target level and then code 0, or for a repair the
correction over `a` frames and then CLEAR (R505, R514). -/
def drivenCode (s : State) (u : PnlUpd) (a p target f : Nat) : Nat :=
  let t := updTab s u
  let acc := fgetD s.panel.account p 0
  if !u.repair then lget (lget t.trans (4 * level s.panel.shown p + target) []) f 0
  else if a ≤ f then lget t.clear (f - a) 0
  else if acc.natAbs ≤ f then 0
  else if 0 < acc then 5 else 1

/-- Prefix sum of one pixel's waveform after `n` driven frames. -/
def drivenUnits (s : State) (u : PnlUpd) (a p target n : Nat) : Int :=
  isum ((upto n).map fun f => codeUnits (drivenCode s u a p target f))

/-- Pixels of an update with their targets. -/
def updPixels (u : PnlUpd) : List (Nat × Nat) :=
  let px := rectPixels u.rect
  px.zip (u.target ++ List.replicate px.length 0)

/-- Pixels that the next frame of an update drives with a code other than 0, top to bottom (R500). -/
def frameCodes (s : State) (u : PnlUpd) : List (Nat × Nat) :=
  let a := largestAccount s.panel.account (rectPixels u.rect)
  ((updPixels u).map fun e => (e.1, drivenCode s u a e.1 e.2 u.frame)).filter fun e => decide (e.2 ≠ 0)

/-! ### Repair (R501, R513, R514) -/

/-- Add the driven units of an interrupted update to the accounts; PNL_BALANCE_LIMIT where one saturates. -/
def settlePixels (s0 : State) (u : PnlUpd) (a : Nat) : List (Nat × Nat) → State → State
  | [], s => s
  | (p, target) :: r, s =>
    let v := fgetD s.panel.account p 0 + drivenUnits s0 u a p target u.frame
    let c := clamp v (-127) 127
    let s := { s with panel := { s.panel with account := fput s.panel.account p c 0 } }
    settlePixels s0 u a r (if v = c then s else raise 0xD6 [p % 400, p / 400] s)

/-- Settle every interrupted update. -/
def settleUpdates : List PnlUpd → State → State
  | [], s => s
  | u :: r, s =>
    settleUpdates r (settlePixels s u (largestAccount s.panel.account (rectPixels u.rect)) (updPixels u) s)

/-- Start the repair of rectangles: in-flight entries with REPAIR, the bias on (R501, R514). -/
def startRepairs : List Rect → State → State
  | [], s => s
  | r :: l, s =>
    let u : PnlUpd := { id := s.panel.nextId, rect := r, band := s.panel.band, repair := true, target := [], frame := 0,
                        interrupted := false }
    startRepairs l { s with panel := { s.panel with
      inflight := s.panel.inflight ++ [u], nextId := (s.panel.nextId + 1) % 2 ^ 32, biasOn := true, biasBad := []
      biasAt := s.refNs } }

/-- PN reads the ledger and repairs what was interrupted (R513, R515). -/
def pnlRepair (s : State) : State :=
  if !inService s idPN then s
  else if s.panel.ledgerBad then
    let s := raise 0xD7 [] { s with panel := { s.panel with ledgerBad := false, inflight := [], account := [], repairs := [] } }
    startRepairs [{ x := 0, y := 0, w := s.panel.cfg.width, h := s.panel.cfg.height }] (updateBand (raise 0xD3 [] s))
  else
    let gone := s.panel.inflight.filter (·.interrupted)
    let rects := s.panel.repairs ++ gone.map (·.rect)
    if rects.isEmpty then s
    else
      let s := settleUpdates gone s
      let s := { s with panel := { s.panel with
        inflight := s.panel.inflight.filter (fun u => !u.interrupted), repairs := [] } }
      startRepairs rects (updateBand (raise 0xD3 [] s))

/-- Code 0 is driven and PNL_GOE released at once, and every update in flight becomes interrupted (R501, R512). -/
def interruptUpdates (s : State) : State :=
  emit .panelOff { s with panel := { s.panel with inflight := s.panel.inflight.map fun u => { u with interrupted := true } } }

/-! ### Frames (R502, R510, R514) -/

/-- Frame period, ns. -/
def framePeriod (s : State) : Nat := 1000000000 / Nat.max s.panel.cfg.frameHz 1

/-- Copy levels of a rectangle. -/
def putLevels : List (Nat × Nat) → FMap Nat → FMap Nat
  | [], m => m
  | (p, v) :: r, m => putLevels r (fput m p v 0)

/-- Clear accounts of pixels. -/
def clearAccounts : List Nat → FMap Int → FMap Int
  | [], m => m
  | p :: r, m => clearAccounts r (ferase m p)

/-- An update or repair has ended: the shown image, the accounts of a repair, PNL_UPDATE_DONE (R510 step 6, R514). PN's
request ends, and its time to BANKED starts (R100). -/
def updateDone (u : PnlUpd) (s : State) : State :=
  let px := rectPixels u.rect
  let levels := if u.repair then List.replicate px.length 0 else u.target
  let s := { s with panel := { s.panel with
    inflight := s.panel.inflight.filter (fun x => x.id ≠ u.id)
    shown := putLevels (px.zip levels) s.panel.shown
    account := if u.repair then clearAccounts px s.panel.account else s.panel.account
    updates := (s.panel.updates + 1) % 2 ^ 64, endedAt := s.refNs } }
  raise 0xD0 [u.id, b2n u.repair] (restBrick idPN s)

/-- One frame boundary for one update: journal and drive the next frame, or end it. -/
def frameOf (u : PnlUpd) (s : State) : State :=
  if u.frame < updFrames s u then
    emit (.panelFrame u.id u.frame (frameCodes s u)) { s with panel := { s.panel with
      inflight := s.panel.inflight.map fun x => if x.id = u.id then { x with frame := x.frame + 1 } else x } }
  else updateDone u s

/-- One frame boundary for a list of updates. -/
def framesOf : List PnlUpd → State → State
  | [], s => s
  | u :: r, s => framesOf r (frameOf u s)

/-- PNL_FRAME: at each frame boundary with the bias within limits, every update and repair takes its frame. -/
def execPnlFrame (s : State) : Res :=
  .next (if inService s idPN && s.panel.biasOn && s.panel.biasBad.isEmpty && !s.panel.stopped &&
        decide (framePeriod s ≤ since s s.panel.frameAt) then
      let s := updateBand s
      framesOf (flying s) { s with panel := { s.panel with frameAt := s.refNs } }
    else s)

/-! ### Bias (R501) -/

/-- PNL_BIAS_CHECK: a rail outside its limits at two checks in a row is a bias fault. -/
def execPnlBiasCheck (out : List (Fin 8)) (s : State) : Res :=
  let rails := out.map (·.val)
  .next (if s.panel.biasOn && decide (1000000 ≤ since s s.panel.biasAt) then
      (match rails.find? (fun k => s.panel.biasBad.contains k) with
       | some k =>
         let s := interruptUpdates s
         raise 0xD4 [k] { s with panel := { s.panel with
           biasOn := false, biasBad := [], biasRetry := some 0, biasAt := s.refNs } }
       | none => { s with panel := { s.panel with biasBad := rails, biasAt := s.refNs } })
    else s)

/-- PNL_BIAS_RETRY: 1 s after a fault; on success the repair runs, and the third failure ends the retries. -/
def execPnlBiasRetry (ok : Bool) (s : State) : Res :=
  .next (match s.panel.biasRetry with
    | none => s
    | some n =>
      if since s s.panel.biasAt < 1000000000 then s
      else if ok then
        pnlRepair { s with panel := { s.panel with biasOn := true, biasBad := [], biasRetry := none, biasAt := s.refNs } }
      else if 2 ≤ n then
        let s := interruptUpdates s
        { s with panel := { s.panel with biasRetry := none, biasFault := true, biasAt := s.refNs } }
      else { s with panel := { s.panel with biasRetry := some (n + 1), biasAt := s.refNs } })

/-- PNL_BIAS_OFF: BIAS_HOLD_MS after the last update ended. -/
def execPnlBiasOff (s : State) : Res :=
  .next (if s.panel.biasOn && (flying s).isEmpty && decide (s.panel.cfg.biasHold * 1000000 ≤ since s s.panel.endedAt) then
      { s with panel := { s.panel with biasOn := false, biasBad := [] } }
    else s)

/-! ### Frame memory (R508) -/

/-- Put four pixels of a byte of the frame memory. -/
def putByte (w i : Nat) (b : Byte) (m : FMap Nat) : FMap Nat :=
  putLevels ((upto 4).map fun j => (pixel ((4 * i + j) % w) ((4 * i + j) / w), bits b.toNat (2 * j) 2)) m

/-- Upset bytes of the frame memory. -/
def upsetBytes (w : Nat) : List (Nat × Byte) → FMap Nat → FMap Nat
  | [], m => m
  | (i, b) :: r, m => upsetBytes w r (putByte w i b m)

/-- Compare the frame memory with its expected CRC. -/
def compareFrame (expected : W32) (s : State) : State :=
  if frameCrc s = expected then s
  else raise 0xD2 [] (rcAdd 0x1110 1 { s with panel := { s.panel with frameBad := true } })

/-- The CRC the next comparison expects. -/
def frameExpected (s : State) : W32 := s.panel.expCrc.getD (frameCrc s)

/-- PNL_CRC_CHECK: every 10 s, with the bytes of the frame memory that have been upset since the last check. -/
def execPnlCrcCheck (upsets : List (Nat × Byte)) (s : State) : Res :=
  .next (if inService s idPN && decide (10000000000 ≤ since s s.panel.crcAt) then
      let e := frameExpected s
      let w := s.panel.cfg.width
      let ok := upsets.filter fun u => u.1 < w * s.panel.cfg.height / 4
      updateBand (compareFrame e { s with panel := { s.panel with crcAt := s.refNs, frameMem := upsetBytes w ok s.panel.frameMem } })
    else s)

/-! ### Commands (R517) -/

/-- Thresholds of CMD_PNL_CONFIG. -/
def pnlBands (p : Bytes) : List Int := (upto 7).map fun i => getSLE p (10 + 2 * i) 2

/-- Order faults of seven thresholds that must strictly increase: the offset of the upper one of each bad pair. -/
def orderFaults (off : Nat) (l : List Int) : List (Nat × Bool) :=
  (upto 6).map fun i => (off + 2 * (i + 1), decide (lget l (i + 1) 0 ≤ lget l i 0))

/-- The expected CRC of the frame memory covers the geometry in force. -/
def keepFrameCrc (s : State) : State :=
  { s with panel := { s.panel with expCrc := s.panel.expCrc.map fun _ => frameCrc s } }

/-- A payload of CMD_PNL_CONFIG changes the geometry. -/
def newGeometry (p : Bytes) (s : State) : Bool :=
  decide (getLE p 0 2 ≠ s.panel.cfg.width) || decide (getLE p 2 2 ≠ s.panel.cfg.height)

/-- CMD_PNL_CONFIG. -/
def specPnlConfig : CmdSpec where
  opcode := 0x0B01
  length := fixedLen 28
  check _ p s :=
    let w := getLE p 0 2
    let h := getLE p 2 2
    let geo := newGeometry p s
    firstRefusal
      [lockRefusal s 0x1108,
       badParam ([(0, w < 4 || 400 < w || w % 4 ≠ 0), (2, h = 0 || 300 < h), (4, getLE p 4 1 = 0 || 50 < getLE p 4 1),
         (5, notZero p 5 1), (6, badPoint (getLE p 6 4) && getLE p 6 4 ≠ noPoint)] ++ orderFaults 10 (pnlBands p) ++
         [(24, decide (10000 < getLE p 24 2)), (26, notZero p 26 2)]),
       refuseIf (!(flying s).isEmpty || (geo && repairBusy s)) stBusy 0,
       refuseIf (geo && !s.panel.account.isEmpty) stDenied 7]
  run r p s :=
    let pending := s.panel.inflight.any (·.interrupted)
    let t := { s with panel := { s.panel with
      cfg := { width := getLE p 0 2, height := getLE p 2 2, frameHz := getLE p 4 1, tempPoint := getLE p 6 4,
               bands := pnlBands p, biasHold := getLE p 24 2 }
      biasFault := false
      biasRetry := if s.panel.biasFault && pending then some 0 else s.panel.biasRetry } }
    finishOk 0x0B01 r [] (if newGeometry p s then keepFrameCrc t else t)

/-- CMD_PNL_CONFIG -/
def execCmdPnlConfig (r : Req) (s : State) : Res := .next (runCmd specPnlConfig r s)

/-- CMD_PNL_WRITE has FLAGS.RELOAD. -/
def isReload (p : Bytes) : Bool := bit (getLE p 8 1) 0

/-- Bytes of pixel data, by position: row by row, W ÷ 4 bytes a row. -/
def writePixels (x y w : Nat) (d : Bytes) (m : FMap Nat) : FMap Nat :=
  (indexed 0 d).foldl (fun m e =>
    putLevels ((upto 4).map fun j => (pixel (x + (4 * e.1 + j) % w) (y + (4 * e.1 + j) / w), bits e.2.toNat (2 * j) 2)) m) m

/-- CMD_PNL_WRITE (R508). -/
def specPnlWrite : CmdSpec where
  opcode := 0x0B02
  length p :=
    if isReload p then fixedLen 12 p
    else
      let n := getLE p 4 2 * getLE p 6 2 / 4
      if 4060 < n then some 0xFFFFFFFF else fixedLen (12 + n) p
  check _ p s :=
    if isReload p then badParam [(4, getLE p 4 2 ≠ 0), (6, getLE p 6 2 ≠ 0), (8, 1 < getLE p 8 1), (9, notZero p 9 3)]
    else badParam [(0, getLE p 0 2 % 4 ≠ 0),
      (4, getLE p 4 2 % 4 ≠ 0 || getLE p 4 2 = 0 || s.panel.cfg.width < getLE p 0 2 + getLE p 4 2),
      (6, getLE p 6 2 = 0 || s.panel.cfg.height < getLE p 2 2 + getLE p 6 2), (8, 1 < getLE p 8 1), (9, notZero p 9 3)]
  run r p s :=
    let s :=
      if isReload p then { s with panel := { s.panel with frameMem := s.panel.shown, frameBad := false } }
      else { s with panel := { s.panel with
        frameMem := writePixels (getLE p 0 2) (getLE p 2 2) (getLE p 4 2) (p.drop 12) s.panel.frameMem } }
    finishOk 0x0B02 r [] { s with panel := { s.panel with expCrc := some (frameCrc s) } }

/-- CMD_PNL_WRITE -/
def execCmdPnlWrite (r : Req) (s : State) : Res := .next (runCmd specPnlWrite r s)

/-- The history of the last second (R509). -/
def recentRects (s : State) : List (Rect × Nat) := s.panel.history.filter fun e => since s e.2 < 1000000000

/-- Cause of R509 for refusing an update. -/
def updateCause (s : State) (q : Rect) : Option Nat :=
  if (flying s).any (fun u => overlaps u.rect q) then some 1
  else if 4 ≤ (flying s).length then some 2
  else if (recentRects s).any (fun e => overlaps e.1 q) || 16 ≤ (recentRects s).length then some 3
  else if s.panel.frameBad then some 4
  else if repairBusy s then some 5
  else none

/-- CMD_PNL_UPDATE (R507 to R511). -/
def specPnlUpdate : CmdSpec where
  opcode := 0x0B03
  length := fixedLen 8
  check _ p s := firstRefusal
    [badParam [(0, getLE p 0 2 % 4 ≠ 0),
       (4, getLE p 4 2 % 4 ≠ 0 || getLE p 4 2 < 4 || s.panel.cfg.width < getLE p 0 2 + getLE p 4 2),
       (6, getLE p 6 2 = 0 || s.panel.cfg.height < getLE p 2 2 + getLE p 6 2)],
     refuseIf (!cfgBit s 0x1104 0 || s.panel.biasFault || s.panel.stopped) stNotActive 0]
  run r p s :=
    let q : Rect := { x := getLE p 0 2, y := getLE p 2 2, w := getLE p 4 2, h := getLE p 6 2 }
    let s := updateBand (compareFrame (frameExpected s) s)
    match updateCause s q with
    | some c => finish 0x0B03 r stBusy 0 [] (raiseC 0xD1 [c] c s)
    | none =>
      let u : PnlUpd := { id := s.panel.nextId, rect := q, band := s.panel.band, repair := false,
                          target := (rectPixels q).map (level s.panel.frameMem), frame := 0, interrupted := false }
      let on := s.panel.biasOn
      finishOk 0x0B03 r (putLE 4 u.id ++ [byte u.band, 0] ++ putLE 2 (bandTab s u.band).maxLen)
        { s with panel := { s.panel with
          inflight := s.panel.inflight ++ [u], nextId := (s.panel.nextId + 1) % 2 ^ 32
          history := recentRects s ++ [(q, s.refNs)], biasOn := s.panel.biasRetry.isNone || on
          biasAt := if on then s.panel.biasAt else s.refNs } }

/-- CMD_PNL_UPDATE -/
def execCmdPnlUpdate (r : Req) (s : State) : Res := .next (runCmd specPnlUpdate r s)

/-- In-flight entry of CMD_PNL_STATUS. -/
def flightEntry (u : PnlUpd) : Bytes :=
  putLE 4 u.id ++ putLE 2 u.rect.x ++ putLE 2 u.rect.y ++ putLE 2 u.rect.w ++ putLE 2 u.rect.h ++
    putLE 2 (u.frame - 1) ++ putLE 2 (b2n (!u.interrupted) + 2 * b2n u.repair)

/-- CMD_PNL_STATUS. -/
def specPnlStatus : CmdSpec where
  opcode := 0x0B04
  length := fixedLen 0
  check _ _ _ := none
  run r _ s :=
    finishOk 0x0B04 r (putLE 4 (pnlStatus s).toNat ++ putLE 4 (expectedCrc s).toNat ++
      [byte (nmax (s.panel.account.map fun e => e.2.natAbs))] ++ zeros 3 ++
      padTo 64 ((s.panel.inflight.take 4).flatMap flightEntry)) s

/-- CMD_PNL_STATUS -/
def execCmdPnlStatus (r : Req) (s : State) : Res := .next (runCmd specPnlStatus r s)

/-- PNL_CTRL_ENABLE: ENABLE 0 refuses new updates; those in flight run to their end (R511). -/
def execPnlCtrlEnable (p : Port) (v : W32) (s : State) : Res := .next (ownWrite p 0x1104 (cfgSet 0x1104 v) s)

end Sys2Proof.Machine
end

