-- ==== Sys2Proof/Machine/FieldCfg.lean ====
section
/-! DEFINITION. FieldCfg.lean: the field configurations of rings, stations, datasets, routes, trip groups and CAN
controllers as they take effect at a Main boundary (R317, R321, R344, R357, R362), the retransmission bound (R354) and
the ordering of timeouts (R409). -/

namespace Sys2Proof.Machine

/-! ### CAN modes and bit timing (R342, R343, R352 to R354, R357) -/

/-- Register base of a controller. -/
def canBase (n : Nat) : Nat := 0x2000 + 0x2000 * n

/-- Configured MODE. -/
def canMode (s : State) (n : Nat) : Nat := (cfgGet s (canBase n + 4)).toNat % 8

/-- RETX_MAX. -/
def retxMax (s : State) (n : Nat) : Nat := bits (cfgGet s (canBase n + 4)).toNat 4 4

/-- AUTO_RECOVER. -/
def autoRecover (s : State) (n : Nat) : Bool := cfgBit s (canBase n + 4) 3

/-- Quanta of 12.5 ns in a bit of NBT. -/
def nomQuanta (nbt : Nat) : Nat := (bits nbt 0 8 + 1) * (3 + bits nbt 8 8 + bits nbt 16 7)
/-- Quanta in a data bit of DBT; without BRS_EN the nominal bit. -/
def dataQuanta (nbt dbt : Nat) : Nat :=
  if bit dbt 18 then (bits dbt 0 5 + 1) * (3 + bits dbt 5 5 + bits dbt 10 4) else nomQuanta nbt

/-- T_RETX in units of 12.5 ns (R354). -/
def tRetx (s : State) (n : Nat) : Nat :=
  let nbt := (cfgGet s (canBase n + 8)).toNat
  16 * (91 * nomQuanta nbt + 680 * dataQuanta nbt (cfgGet s (canBase n + 12)).toNat)

/-- Mode in force for a configured mode: a module that does not drive runs its enabled controllers RESTRICTED (R357). -/
def modeInForce (s : State) (m : Nat) : Nat := if !routing s && (m = 2 || m = 4 || m = 5) then 3 else m

/-- Cancel a buffer's frames that are not on the bus; a frame on the bus is marked (R352). -/
def cancelBuf (sending : Bool) (b : CanBuf) : CanBuf :=
  if sending then { b with pend := none, cancelled := b.onBus.isSome } else { b with pend := none, onBus := none }

/-- Cancel every pending frame of a controller (R352). -/
def cancelAll (c : CanCtl) : CanCtl :=
  { c with bufs := c.bufs.map fun e => (e.1, cancelBuf (c.sending = some e.1) e.2) }

/-- Enter a mode (R343, R352): leaving the bus or becoming RESTRICTED cancels what is pending, and joining the bus
integrates first. -/
def enterMode (n m : Nat) (s : State) : State :=
  let c := canCtl s n
  if c.mode = m || 6 ≤ m then s
  else
    let c' := if m = 2 ∨ m = 4 ∨ m = 5 then c else cancelAll c
    let joins := decide (c.mode ≤ 1) && decide (2 ≤ m)
    setCan n (fun _ => { c' with mode := m, integrating := if m ≤ 1 then false else c.integrating || joins
                                 checkAt := if joins then s.refNs else c.checkAt }) s

/-- The mode in force follows the configured mode and the role. -/
def refreshMode (n : Nat) (s : State) : State := enterMode n (modeInForce s (canMode s n)) s

/-- Every controller's mode follows the role (R357). -/
def refreshModes (s : State) : State := refreshMode 3 (refreshMode 2 (refreshMode 1 (refreshMode 0 s)))

/-! ### Payloads -/

/-- CMD_STATION_CONFIG (R321). -/
def parseStation (p : Bytes) : StationCfg :=
  { ring := getLE p 2 1, enable := bit (getLE p 3 1) 0, auth := bit (getLE p 3 1) 1, periodUs := getLE p 4 4,
    missN := getLE p 8 1, tripPermit := BitVec.ofNat 16 (getLE p 10 2), mac := BitVec.ofNat 48 (getLE p 12 6) }

/-- A signal of CMD_CAN_BUFFER (R348). -/
def parseSignal (p : Bytes) (off : Nat) : CanSignal :=
  { point := getLE p off 4, startBit := getLE p (off + 4) 2, width := getLE p (off + 6) 1,
    signed := bit (getLE p (off + 7) 1) 0, motorola := bit (getLE p (off + 7) 1) 1, scale := getSLE p (off + 8) 1 }

/-- CMD_CAN_BUFFER (R362). -/
def parseBuffer (p : Bytes) : CanDesc :=
  { dir := getLE p 2 1, trigger := getLE p 3 1, id := BitVec.ofNat 32 (getLE p 4 4), mask := BitVec.ofNat 32 (getLE p 8 4),
    dlc := getLE p 12 1, expectMs := getLE p 16 4, timeoutMs := getLE p 20 4,
    signals := (upto (getLE p 13 1)).map fun i => parseSignal p (24 + 12 * i) }

/-- Key of an output dataset. -/
def outKey (station ds : Nat) : Nat := station * 65536 + ds

/-- Change a buffer. -/
def setBuf (n b : Nat) (f : CanBuf → CanBuf) (s : State) : State :=
  setCan n (fun c => { c with bufs := fset c.bufs b (f (canBuf c b)) }) s

/-- A ring configuration takes effect. -/
def applyRingConfig (p : Bytes) (s : State) : State :=
  let n := getLE p 0 1
  let old := ringOf s n
  let ctrl := (cfgGet s 0xD04).toNat
  let on := bit (getLE p 1 1) 0
  let ctrl' := if on then Nat.lor ctrl (2 ^ n) else if bit ctrl n then ctrl - 2 ^ n else ctrl
  let s := cfgSet 0xD04 (BitVec.ofNat 32 ctrl') s
  let s := { s with rings := { s.rings with rings := fset s.rings.rings n { old with
    auth := bit (getLE p 2 1) 0, keyCur := getLE p 4 2, keyNext := getLE p 6 2
    groupMac := BitVec.ofNat 48 (getLE p 8 6) } } }
  if old.keyCur = getLE p 4 2 then s else resetEpoch n s

/-- A station configuration takes effect; a station enabled by it is absent until its first dataset (R309). -/
def applyStationConfig (p : Bytes) (s : State) : State :=
  let n := getLE p 0 2 % 4096
  let x := station s n
  let c := parseStation p
  let x' := if c.enable && !stationOn x then
      { x with cfg := some c, absent := true, acceptedAt := none, enabledAt := s.refNs }
    else { x with cfg := some c }
  { s with rings := { s.rings with stations := fset s.rings.stations n x' } }

/-- A CAN controller configuration takes effect: through CONFIG, then the mode (R362). -/
def applyCanConfig (p : Bytes) (s : State) : State :=
  let n := getLE p 0 1 % 4
  let b := canBase n
  let s := enterMode n 1 s
  let s := cfgSet (b + 4) (BitVec.ofNat 32 (getLE p 1 1 + 8 * getLE p 2 1 + 16 * getLE p 3 1)) s
  let s := cfgSet (b + 8) (BitVec.ofNat 32 (getLE p 4 4)) s
  let s := cfgSet (b + 12) (BitVec.ofNat 32 (getLE p 8 4)) s
  let s := cfgSet (b + 16) (BitVec.ofNat 32 (getLE p 12 4)) s
  let s := setBuf n 64 (fun x => { x with desc := { x.desc with
    id := BitVec.ofNat 32 (getLE p 16 4), mask := BitVec.ofNat 32 (getLE p 20 4) } }) s
  refreshMode n s

/-- A configuration takes effect at the Main boundary (R317, R357). CMD_TRIP_RESET is released by the step itself. -/
def applyCfg (c : BoundaryCfg) (s : State) : State :=
  let p := c.payload
  match c.opcode with
  | 0x0701 => applyRingConfig p s
  | 0x0702 => applyStationConfig p s
  | 0x0703 =>
    let k := outKey (getLE p 0 2) (getLE p 2 2)
    let d : OutDataset := { cls := getLE p 4 1, holdMs := getLE p 8 4,
                            indices := (upto (getLE p 5 1)).map fun i => getLE p (12 + 2 * i) 2 }
    let outs := if getLE p 5 1 = 0 then ferase s.rings.outs k else fset s.rings.outs k d
    { s with rings := { s.rings with outs := outs } }
  | 0x0704 =>
    let r : LoopRoute := { station := getLE p 2 2, idx := getLE p 4 2, holdMs := getLE p 8 4 }
    { s with rings := { s.rings with routes := fset s.rings.routes (getLE p 0 2) r } }
  | 0x0705 =>
    let old := (fget s.rings.groups (getLE p 0 1)).getD {}
    let g := { old with
      enable := bit (getLE p 1 1) 0, outMask := BitVec.ofNat 16 (getLE p 4 2), outLevel := BitVec.ofNat 16 (getLE p 6 2)
      stations := (upto 8).map fun i => getLE p (8 + 2 * i) 2 }
    { s with rings := { s.rings with groups := fset s.rings.groups (getLE p 0 1) g } }
  | 0x0801 => applyCanConfig p s
  | 0x0802 =>
    let d := parseBuffer p
    setBuf (getLE p 0 1 % 4) (getLE p 1 1) (fun b =>
      { b with desc := d, rxAt := s.refNs, timedOut := false
               pend := if d.dir = 2 then b.pend else none
               idWord := if d.dir = 2 then d.id else b.idWord
               dlcWord := if d.dir = 2 then BitVec.ofNat 32 (d.dlc % 16) else b.dlcWord }) s
  | _ => s

/-- Apply configurations in order. -/
def applyCfgs : List BoundaryCfg → State → State
  | [], s => s
  | c :: r, s => applyCfgs r (applyCfg c s)

/-- The state with every accepted configuration in effect, as relations are judged (R409). -/
def planned (s : State) : State := applyCfgs s.boundary s

/-- An accepted configuration waits for the Main boundary (R317). -/
def stage (op : Nat) (p : Bytes) (s : State) : State :=
  { s with boundary := s.boundary ++ [{ opcode := op, payload := p }] }

/-! ### Ordering of timeouts (R409) -/

/-- A failing relation: row and the least value of the upper level, µs. -/
abbrev Conflict := Option (Nat × Nat)

/-- Division rounding up. -/
def ceilDiv (a b : Nat) : Nat := (a + b - 1) / b

/-- Refusal for the first failing relation (R409). -/
def conflictRefusal (c : Conflict) : Option (Nat × Nat) :=
  c.map fun e => (stConflict, e.1 + 256 * satBits 24 e.2)

/-- First conflict of a list. -/
def firstConflict : List Conflict → Conflict
  | [] => none
  | some x :: _ => some x
  | none :: r => firstConflict r

/-- The descriptor of a channel as accepted. -/
def acceptedDesc (s : State) (n : Nat) : Option LoopDesc :=
  match (chan s n).next with
  | some d => some d
  | none => (chan s n).desc

/-- The controllers that deliver a point. -/
def deliverers (s : State) (id : Nat) : List Nat :=
  (upto 4).filter fun n => (canCtl s n).bufs.any fun e => e.2.desc.dir = 1 && e.2.desc.signals.any (·.point = id)

/-- W of R156 for a PV point, in units of 12.5 ns. -/
def recoveryTime (s : State) (id : Nat) : Nat :=
  let ctl := deliverers s id
  if !ctl.isEmpty then nmax (ctl.map (tRetx s))
  else if stationOf id = 0 then 0
  else match (station s (stationOf id)).cfg with
    | some c => c.missN * c.periodUs * 80
    | none => 0

/-- Row 3 for one channel with a descriptor. -/
def row3 (s : State) (d : LoopDesc) : Conflict :=
  let w := recoveryTime s d.pvPoint
  if d.feTimeMs ≠ 0 ∧ d.feTimeMs * 800000 < 11 * w then some (3, ceilDiv (11 * w) 800) else none

/-- Row 3 over the channels that a test selects, ascending. -/
def row3All (s : State) (sel : LoopDesc → Bool) : Conflict :=
  firstConflict (s.loops.map fun e =>
    match acceptedDesc s e.1 with
    | some d => if sel d then row3 s d else none
    | none => none)

/-- Enabled stations of a ring. -/
def enabledOn (s : State) (ring : Nat) : List (Nat × Station) :=
  s.rings.stations.filter fun e => stationOn e.2 && decide ((e.2.cfg.map (·.ring)) = some ring)

/-- Row 4 for one station configuration with `n` stations enabled on its ring (R310). -/
def row4 (n : Nat) (c : StationCfg) : Conflict :=
  let twenty := 11 * (2 * c.periodUs + 3 * n + 50)
  if 20 * (c.missN * c.periodUs) < twenty then some (4, ceilDiv twenty 20) else none

/-- Row 4 for a station and every station enabled on its ring, ascending. -/
def row4All (s : State) (stationNo : Nat) : Conflict :=
  match (station s stationNo).cfg with
  | none => none
  | some c =>
    let on := enabledOn s c.ring
    firstConflict ((s.rings.stations.filter fun e => e.1 = stationNo ||
        (stationOn e.2 && decide ((e.2.cfg.map (·.ring)) = some c.ring))).map fun e =>
      match e.2.cfg with
      | some x => row4 on.length x
      | none => none)

/-- Row 5: HOLD_MS against a period in µs (R312). -/
def row5 (holdMs periodUs : Nat) : Conflict :=
  if holdMs * 10000 < 11 * (periodUs + 15000) then some (5, ceilDiv (11 * (periodUs + 15000)) 10) else none

/-- The period of a class as accepted, µs. -/
def acceptedPeriod (s : State) (c : Nat) : Nat := (((cls s c).nextCfg).map (·.1)).getD (cls s c).periodUs

/-- Row 5 over the datasets of a class. -/
def row5Class (s : State) (c periodUs : Nat) : Conflict :=
  firstConflict (s.rings.outs.map fun e => if e.2.cls = c then row5 e.2.holdMs periodUs else none)

/-- Loop route of an OUT_ROUTE word (R313). -/
def routeOf (w : W32) : Option Nat := if w.toNat % 256 = 1 then some (bits w.toNat 8 11) else none

/-- Row 5 for a channel's route. -/
def row5Chan (s : State) (d : LoopDesc) : Conflict :=
  if d.mode = 0 then none
  else match routeOf d.outRoute with
  | none => none
  | some k => match fget s.rings.routes k with
    | none => none
    | some r => row5 r.holdMs (d.periodMs * 1000)

/-- Row 5 for every channel that uses a route, ascending. -/
def row5Route (s : State) (k : Nat) : Conflict :=
  firstConflict (s.loops.map fun e =>
    match acceptedDesc s e.1 with
    | some d => if routeOf d.outRoute = some k then row5Chan s d else none
    | none => none)

/-- Row 6 for a receive buffer (R355). -/
def row6 (s : State) (n : Nat) (d : CanDesc) : Conflict :=
  let need := 11 * (d.expectMs * 80000 + tRetx s n)
  if d.dir = 1 ∧ d.timeoutMs * 800000 < need then some (6, ceilDiv need 800) else none

/-- Row 6 for every receive buffer of a controller. -/
def row6All (s : State) (n : Nat) : Conflict :=
  firstConflict ((canCtl s n).bufs.map fun e => row6 s n e.2.desc)

/-- A channel reads a point that a controller delivers. -/
def readsCan (s : State) (n : Nat) (d : LoopDesc) : Bool := (deliverers s d.pvPoint).contains n

/-- Row 1 (R45): P − G ≥ 1.1 × (D + T), all in µs. -/
def row1 (periodUs d t : Nat) : Conflict :=
  if periodUs * 98 * 10 < 1100 * (d + t) then some (1, ceilDiv (11 * (d + t)) 10) else none

/-- Row 2 (R238): P − G ≥ 1.1 × DEADLINE_US. -/
def row2 (periodUs deadline : Nat) : Conflict :=
  if periodUs * 98 * 10 < 1100 * deadline then some (2, ceilDiv (11 * deadline) 10) else none

/-- TIMING_CONFLICT clears once every relation of the controller holds again (R355). -/
def clearConflict (n : Nat) (s : State) : State :=
  if (canCtl s n).conflict && (row3All s (readsCan s n)).isNone && (row6All s n).isNone then
    setCan n (fun c => { c with conflict := false }) s
  else s

end Sys2Proof.Machine
end

