-- ==== Sys2Proof/Machine/PortQueue.lean ====
section
/-! DEFINITION. PortQueue.lean: the transmit side of the ring ports: the order in which a port starts NB's own frames and
the forwarded ones (R294, R297, R298), and the time stamps a frame takes as it leaves (R323, R325). -/

namespace Sys2Proof.Machine

/-- Change a port. -/
def setPort (p : Nat) (f : RingPort → RingPort) (s : State) : State :=
  { s with rings := { s.rings with ports := fset s.rings.ports p (f (ringPort s p)) } }

/-- NB runs and its main side is up. -/
def nbOn (s : State) : Bool := s.power.released && inService s idNB

/-! ### Domain clocks at a port -/

/-- A domain. -/
def dom (s : State) (i : Fin 2) : Domain := if i = 0 then s.time.dom0 else s.time.dom1

/-- Change a domain. -/
def setDom (i : Fin 2) (f : Domain → Domain) (s : State) : State :=
  if i = 0 then { s with time := { s.time with dom0 := f s.time.dom0 } }
  else { s with time := { s.time with dom1 := f s.time.dom1 } }

/-- A domain clock in ns (R322). -/
def domNs (s : State) (i : Fin 2) : Nat := (if i = 0 then s.time.d0 else s.time.d1) / 2 ^ 32 % 2 ^ 64

/-- Corrections of a port. -/
def corrOf (s : State) (p : Nat) : PortCorr := fgetD s.time.corr p {}

/-- Egress stamp in a domain's clock (R323, R325). -/
def egressStamp (s : State) (i : Fin 2) (p : Nat) (asym : Bool) : Int :=
  (domNs s i : Int) + (corrOf s p).egress - (if asym then (corrOf s p).asym else 0)

/-- PTP state of a port in a domain. -/
def ptpPort (d : Domain) (p : Nat) : PtpPort := fgetD d.ports p {}

/-- Change a PTP port. -/
def setPtp (i : Fin 2) (p : Nat) (f : PtpPort → PtpPort) (s : State) : State :=
  setDom i (fun d => { d with ports := fset d.ports p (f (ptpPort d p)) }) s

/-! ### Frames on the wire -/

/-- RING_ETYPE (R319). -/
def ringEtype (s : State) : W16 := (cfgGet s 0xD08).setWidth 16

/-- Transmit side of a port. -/
def txOf (s : State) (p : Nat) : PortTx := fgetD s.ringTx p {}

/-- Change the transmit side of a port. -/
def setTx (p : Nat) (f : PortTx → PortTx) (s : State) : State := { s with ringTx := fput s.ringTx p (f (txOf s p)) {} }

/-- Length of a frame, DA to FCS; one whose layout the spec does not give has a free length within the limits of R297 and
802.3 (log entry 180). -/
def wireBytes : Out → Nat
  | .knama _ _ _ _ k => Nat.max 64 (k.length + 24)
  | .linkCheck _ | .linkEcho _ => 64
  | o => Nat.max 64 (Nat.min 1530 (Config.frameLen (match o with
      | .supervision _ _ => 0
      | .ptp _ _ _ _ _ _ => 1
      | .hsrForward _ src seq _ _ => src.toNat * 65536 + seq.toNat + 2
      | _ => 0)))

/-- Time that a frame takes a port at 1 Gbit/s, with preamble and gap (R294). -/
def frameNs (o : Out) : Nat := (wireBytes o + 20) * 8

/-- A port starts a frame: no frame is pre-empted once started (R298). -/
def startFrame (p : Nat) (o : Out) (s : State) : State :=
  emit o (setTx p (fun x => { x with busyTo := s.refNs + frameNs o }) s)

/-- What changes in a frame that leaves later than it was formed: its own egress stamp, the EtherType in force, and the
instant of a check (R299, R320, R323, R327). -/
def leaveLater (p : Nat) (o : Out) (s : State) : Out × State :=
  match o with
  | .linkCheck _ => (o, setPort p (fun x => { x with checkAt := some s.refNs }) s)
  | .knama q da seq _ k => (.knama q da seq (ringEtype s) k, s)
  | .ptp q i kind seq t c =>
    let d : Fin 2 := if i = 0 then 0 else 1
    let own (asym : Bool) : Nat := ofSigned 64 (egressStamp s d p asym)
    match kind with
    | .sync false => (.ptp q i kind seq (own false) c, s)
    | .delayReq | .pdelayReq =>
      (.ptp q i kind seq (own true) c,
        setPtp d p (fun x => { x with reqOut := x.reqOut.map fun r => if r.1 = seq then (seq, own true) else r }) s)
    | _ => (.ptp q i kind seq t c, s)
  | _ => (o, s)

/-- Precedence of the own frame that NB has chosen (R298). -/
def ownChoice : List PortFrame → Option Nat
  | [] => none
  | f :: r => match ownChoice r with
    | none => if f.prec = 0 then none else some f.prec
    | some m => if f.prec = 0 then some m else some (Nat.min f.prec m)

/-- The frame that a port starts next: of NB's own the first of the highest precedence, which shares the port with the
forwarded frames in arrival order (R298). -/
def nextPortFrame (q : List PortFrame) : Option PortFrame := q.find? fun f => f.prec = 0 || some f.prec = ownChoice q

/-- A port that is free starts its next frame (R298). A ring that is not enabled, or an NB that does not run, drops what
waits (R320). -/
def serveRing (p : Nat) (s : State) : State :=
  let x := txOf s p
  if x.queue.isEmpty then s
  else if !nbOn s || !ringOn s (p / 2) then setTx p (fun x => { x with queue := [] }) s
  else if loopHolds s 0 p || decide (s.refNs < x.busyTo) then s
  else match nextPortFrame x.queue with
    | none => s
    | some f =>
      let y := leaveLater p f.what (setTx p (fun x => { x with queue := removeFirst f x.queue }) s)
      startFrame p y.1 y.2

/-- A frame for a port: an idle port starts it at once, and a busy one holds it back (R298). -/
def portSend (p prec : Nat) (o : Out) (s : State) : State :=
  let x := txOf s p
  if x.queue.isEmpty && decide (x.busyTo ≤ s.refNs) then startFrame p o s
  else setTx p (fun x => { x with queue := x.queue ++ [{ prec := prec, what := o }] }) s

/-- Ports that are free start their next frames. -/
def serveRings : List Nat → State → State
  | [], s => s
  | p :: r, s => serveRings r (serveRing p s)

/-- The ports with the passing of time (R298). -/
def portsTick (s : State) : State := if s.ringTx.isEmpty then s else serveRings (upto 8) s

end Sys2Proof.Machine
end

