-- ==== Sys2Proof/Machine/Rings.lean ====
section
/-! DEFINITION. Rings.lean: the field rings: HSR forwarding, link checks, Knama frames, station supervision and the trip
path (R294 to R318), and the ring commands (R321). -/

namespace Sys2Proof.Machine

/-! ### Sending Knama frames (R302 to R306) -/

/-- Change a ring. -/
def setRing (n : Nat) (f : Ring → Ring) (s : State) : State :=
  { s with rings := { s.rings with rings := fset s.rings.rings n (f (ringOf s n)) } }

/-- Change a station. -/
def setStation (n : Nat) (f : Station → Station) (s : State) : State :=
  { s with rings := { s.rings with stations := fset s.rings.stations n (f (station s n)) } }

/-- The epoch of a ring increases by 1; past 0xFFFF the ring stops its tagged frames (R306). -/
def advanceEpoch (n : Nat) (s : State) : State :=
  let e := lget s.keys.epochs n 0
  if e < 0xFFFF then setEpoch n (e + 1) s
  else if (ringOf s n).exhausted then s
  else raise 0x7B [n] (setRing n (fun x => { x with exhausted := true }) s)

/-- Key of a stream the module sends (R306). -/
def sendStream (kind stationNo dataset sender : Nat) : Nat :=
  stationNo * 2 ^ 32 + dataset * 2 ^ 16 + kind * 256 + sender

/-- Knama header (R303). -/
def knamaHeader (kind stationNo dataset sender keysel seq time hold count : Nat) : Bytes :=
  [1, byte kind] ++ putLE 2 stationNo ++ putLE 2 dataset ++ [byte sender, byte keysel] ++ putLE 6 seq ++ zeros 2 ++
    putLE 8 time ++ putLE 4 hold ++ putLE 2 count ++ zeros 2

/-- IV of R305. -/
def knamaIv (kind stationNo dataset sender seq : Nat) : Bytes :=
  putLE 2 stationNo ++ putLE 2 dataset ++ [byte kind, byte sender] ++ putLE 6 seq

/-- Precedence of a Knama frame by KIND (R298). -/
def knamaPrec (kind : Nat) : Nat := if kind = 5 ∨ kind = 8 then 1 else 4

/-- The next HSR sequence number of a ring (R295). -/
def takeHsrSeq (n : Nat) (s : State) : State := setRing n (fun x => { x with hsrSeq := x.hsrSeq + 1 }) s

/-- Every frame NB originates leaves on both ports of its ring, but for a port in loopback (R295, R472). -/
def sendBoth (n prec : Nat) (f : Nat → Out) (s : State) : State :=
  let s := if loopHolds s 0 (2 * n) then s else portSend (2 * n) prec (f (2 * n)) s
  if loopHolds s 0 (2 * n + 1) then s else portSend (2 * n + 1) prec (f (2 * n + 1)) s

/-- NB sends a Knama frame on a station's ring: SEQ, the tag where the ring has AUTH, and the frame (R302 to R306). With the
epoch exhausted a tagged frame is not sent (R306); without a usable key it is not sent and counts in RING_AUTH_ERR (R536). -/
def sendKnama (kind stationNo dataset time hold count : Nat) (body : Bytes) (s : State) : State :=
  match (station s stationNo).cfg with
  | none => s
  | some c =>
    if !ringOn s c.ring then s
    else
      let ring := ringOf s c.ring
      let sender := b2n s.pair.slotId
      let k := sendStream kind stationNo dataset sender
      let s := if 2 ^ 32 ≤ fgetD s.rings.counts k 0 then advanceEpoch c.ring s else s
      let exhausted := (ringOf s c.ring).exhausted
      let count' := fgetD s.rings.counts k 0 % 2 ^ 32
      let seq := lget s.keys.epochs c.ring 0 * 2 ^ 32 + count'
      let key := if inService s idKB then keyFor s ring.keyCur 1 else none
      if ring.auth && key.isNone then rcAdd 0xD18 1 s
      else if ring.auth && exhausted then s
      else
        let h := knamaHeader kind stationNo dataset sender (b2n ring.auth) seq time hold count
        let tag := if ring.auth then
            Config.gcmTag ((key.map (·.data)).getD []) (knamaIv kind stationNo dataset sender seq) (h ++ body)
          else []
        let s := { s with rings := { s.rings with counts := fset s.rings.counts k (count' + 1) } }
        let s := takeHsrSeq c.ring s
        sendBoth c.ring (knamaPrec kind) (fun p => .knama p c.mac ring.hsrSeq (ringEtype s) (h ++ body ++ tag)) s

/-- One entry of a dataset (R304). -/
def datasetEntry (idx : Nat) (q : Byte) (scale value : Int) : Bytes :=
  putLE 2 idx ++ [q] ++ putSLE 1 scale ++ putSLE 8 value

/-- Body of an output dataset: its points as readers see them (R311). -/
def datasetBody (s : State) (stationNo : Nat) (indices : List Nat) : Bytes :=
  indices.flatMap fun i =>
    let r := readRec s (pointId stationNo i)
    datasetEntry i r.quality r.scale r.value

/-- Send an output dataset, or discard it for an absent station (R46, R311). -/
def sendOutput (stationNo dataset time hold : Nat) (body : Bytes) (s : State) : State :=
  let x := station s stationNo
  if !stationOn x then s
  else if x.absent then setStation stationNo (fun y => { y with discards := sat32 (y.discards + 1) }) s
  else sendKnama 2 stationNo dataset time hold (body.length / 12) body s

/-- The output set of a class: station, dataset and body, in ascending order (R311). -/
def outputSet (s : State) (c : Nat) : List (Nat × Nat × Bytes) :=
  (s.rings.outs.filter fun e => e.2.cls = c).map fun e =>
    (e.1 / 65536, e.1 % 65536, datasetBody s (e.1 / 65536) e.2.indices)

/-- HOLD_MS of an output dataset. -/
def outHold (s : State) (stationNo dataset : Nat) : Nat :=
  ((fget s.rings.outs (outKey stationNo dataset)).map (·.holdMs)).getD 0

/-- Send an output set, when the module drives (R317). -/
def sendSet (time : Nat) : List (Nat × Nat × Bytes) → State → State
  | [], s => s
  | (st, d, b) :: r, s => sendSet time r (sendOutput st d time (outHold s st d) b s)

/-- Publish a class's output datasets with a stamp (R39 step 3, R44). -/
def publishClass (c time : Nat) (s : State) : State :=
  let set := outputSet s c
  let s := { s with rings := { s.rings with lastOut := fset s.rings.lastOut c set } }
  if driving s then sendSet time set s else s

/-- A body with HELD set in every entry (R550). -/
def heldBody : Nat → Bytes → Bytes
  | 0, b => b
  | n + 1, b =>
    match b with
    | a0 :: a1 :: q :: r => a0 :: a1 :: qSet q qHeld :: (r.take 9 ++ heldBody n (r.drop 9))
    | _ => b

/-- Publish the last output datasets of a class again, with HELD set in every entry (R550). -/
def republishHeld (c time : Nat) (s : State) : State :=
  if driving s then
    sendSet time ((fgetD s.rings.lastOut c []).map fun e => (e.1, e.2.1, heldBody (e.2.2.length / 12) e.2.2)) s
  else s

/-- Body of a loop frame: one entry (R313). -/
def sendLoop (route time : Nat) (q : Byte) (scale value : Int) (s : State) : State :=
  match fget s.rings.routes route with
  | none => s
  | some r =>
    let body := datasetEntry r.idx q scale value
    let s := { s with rings := { s.rings with lastLoop := fset s.rings.lastLoop route body } }
    if routing s && stationOn (station s r.station) then sendKnama 3 r.station route time r.holdMs 1 body s else s

/-- Send the last loop frame of every routed channel again (R452 step 5). -/
def resendLoops : FMap Bytes → State → State
  | [], s => s
  | (k, b) :: r, s =>
    let s := match fget s.rings.routes k with
      | some x => if stationOn (station s x.station) then sendKnama 3 x.station k (devNs s) x.holdMs 1 b s else s
      | none => s
    resendLoops r s

/-! ### Trip groups (R314 to R317) -/

/-- A trip group. -/
def group (s : State) (g : Nat) : TripGroup := (fget s.rings.groups g).getD {}

/-- A group is latched. -/
def latched (s : State) (g : Nat) : Bool := s.rings.latched.getLsbD (g - 1)

/-- Groups 1 to 16. -/
def groupsAll : List Nat := (upto 16).map (· + 1)

/-- Level of each TRIP_OUT pin that latched groups drive; a later group's level stands (R314). -/
def pinsOf (s : State) : FMap Bool :=
  groupsAll.foldl (fun m g =>
    if latched s g then
      (upto 16).foldl (fun m k =>
        if (group s g).outMask.getLsbD k then fset m k ((group s g).outLevel.getLsbD k) else m) m
    else m) []

/-- A firing group drives its pins; pins other groups drive keep their level. -/
def drivePins (g : TripGroup) (m : FMap Bool) : FMap Bool :=
  (upto 16).foldl (fun m k => if g.outMask.getLsbD k then fset m k (g.outLevel.getLsbD k) else m) m

/-- The TRIP_OUT pins follow the latches of a driving module; any other module leaves them inactive (R314, R317). -/
def settlePins (s : State) : State :=
  { s with rings := { s.rings with pins := if driving s then pinsOf s else [] } }

/-- Body of KIND 4, 5 and 8 (R304). -/
def tripBody (g reason result : Nat) : Bytes := [byte g, byte reason, byte result] ++ zeros 5

/-- TRIP_CMD to the stations of a list (R314). -/
def sendTripCmds (g reason : Nat) : List Nat → State → State
  | [], s => s
  | st :: r, s =>
    let s := if st ≠ 0 && stationOn (station s st) then
        sendKnama 8 st 0 (devNs s) 0 0 (tripBody g reason 0) s else s
    sendTripCmds g reason r s

/-- Fire a group (R314, R317): latch, pins, TRIP_CMD and TRIP_FIRED. -/
def fireGroup (stationNo g reason : Nat) (s : State) : State :=
  let s := { s with rings := { s.rings with latched := s.rings.latched ||| BitVec.twoPow 16 (g - 1) } }
  let s := if driving s then
      sendTripCmds g reason (group s g).stations { s with rings := { s.rings with pins := drivePins (group s g) s.rings.pins } }
    else s
  raise 0x77 [stationNo, g, reason] s

/-- A loop channel fires its group with REASON 0xFF (R163, R315). -/
def fireFromLoop (g : Nat) (s : State) : State :=
  if g = 0 || 16 < g || !(group s g).enable || latched s g then s else fireGroup 0 g 0xFF s

/-- Release a group: its latch and the pins no other latched group drives (R316). -/
def releaseGroup (g : Nat) (s : State) : State :=
  if latched s g then
    let s := { s with rings := { s.rings with latched := s.rings.latched &&& ~~~(BitVec.twoPow 16 (g - 1)) } }
    let keep := pinsOf s
    let s := { s with rings := { s.rings with pins := s.rings.pins.filter fun e => (fget keep e.1).isSome } }
    raise 0x79 [g] s
  else s

/-- Release groups. -/
def releaseGroups : List Nat → State → State
  | [], s => s
  | g :: r, s => releaseGroups r (releaseGroup g s)

/-! ### Receiving (R305, R307, R308, R314) -/

/-- A received Knama part, split into the fields of R303. -/
structure Knama where
  /-- VERSION -/
  version : Nat
  /-- KIND -/
  kind    : Nat
  /-- STATION -/
  station : Nat
  /-- DATASET -/
  dataset : Nat
  /-- SENDER -/
  sender  : Nat
  /-- KEYSEL -/
  keysel  : Nat
  /-- SEQ -/
  seq     : Nat
  /-- TIME -/
  time    : Nat
  /-- COUNT -/
  count   : Nat
  /-- header and body -/
  aad     : Bytes
  /-- body -/
  body    : Bytes
  /-- tag -/
  tag     : Bytes
  /-- the length agrees with COUNT and KEYSEL; padding may follow (R302) -/
  lengthOk : Bool
deriving DecidableEq, Repr

/-- Read a Knama part. -/
def parseKnama (k : Bytes) : Knama :=
  let kind := getLE k 1 1
  let count := getLE k 28 2
  let n := if kind = 4 ∨ kind = 5 ∨ kind = 8 then 8 else 12 * count
  let keysel := getLE k 7 1
  let need := 32 + n + (if keysel = 0 then 0 else 16)
  { version := getLE k 0 1, kind := kind, station := getLE k 2 2, dataset := getLE k 4 2, sender := getLE k 6 1,
    keysel := keysel, seq := getLE k 8 6, time := getLE k 16 8, count := count, aad := slice k 0 (32 + n),
    body := slice k 32 n, tag := slice k (32 + n) 16
    lengthOk := decide (need ≤ k.length) && (decide (k.length = need) || decide (k.length ≤ 46)) &&
      decide (keysel ≤ 2) && (kind ≠ 4 || count = 0) }

/-- Stream of a received frame within its station (R306). -/
def rxStream (k : Knama) : Nat := k.dataset * 65536 + k.kind * 256 + k.sender

/-- A tag is required: AUTH on the ring, or on the station (R305, R321). -/
def tagRequired (s : State) (n : Nat) (st : Nat) : Bool :=
  (ringOf s n).auth || (((station s st).cfg).map (·.auth)).getD false

/-- The tag passes when it is required (R305, R307). -/
def tagOk (s : State) (n : Nat) (k : Knama) : Bool :=
  if !tagRequired s n k.station then true
  else if k.keysel = 0 then false
  else
    let slot := if k.keysel = 1 then (ringOf s n).keyCur else (ringOf s n).keyNext
    match (if slot = 0 then none else keyFor s slot 1) with
    | none => false
    | some key =>
      decide (Config.gcmTag key.data (knamaIv k.kind k.station k.dataset k.sender k.seq) k.aad = k.tag)

/-- The checks of R307 but for the tag and SEQ. -/
def frameOk (s : State) (n : Nat) (k : Knama) : Bool :=
  decide (((station s k.station).cfg.map (·.ring)) = some n) && stationOn (station s k.station) &&
  k.version = 1 && decide (k.count ≤ 121) && k.lengthOk

/-- SEQ is later than the last accepted one of the stream; for a TRIP_REQ equal will do (R307, R314). -/
def seqOk (s : State) (k : Knama) (equalToo : Bool) : Bool :=
  match fget (station s k.station).streams (rxStream k) with
  | none => true
  | some last => later 48 last k.seq || (equalToo && decide (k.seq = last))

/-- A frame that fails R307 counts in its station's reject counter, with DATASET_REJECTED once an episode (R318). -/
def rejectFrame (st : Nat) (s : State) : State :=
  let x := station s st
  if x.cfg.isSome then
    raiseOnce x.rejectEp 0x76 [st]
      (setStation st (fun y => { y with rejects := sat32 (y.rejects + 1), rejectEp := true }) s)
  else s

/-- A frame without a valid tag: RING_AUTH_ERR, DATASET_AUTH_FAIL once a station and episode, and a reject (R305). -/
def authReject (st : Nat) (s : State) : State :=
  let x := station s st
  let s := rcAdd 0xD18 1 s
  let s := if x.cfg.isSome then raiseOnce x.authEp 0x75 [st] (setStation st (fun y => { y with authEp := true }) s) else s
  rejectFrame st s

/-- Entries of an input body. -/
def parseEntries (b : Bytes) (n : Nat) : List DsEntry :=
  (upto n).map fun i =>
    { idx := getLE b (12 * i) 2, quality := byte (getLE b (12 * i + 2) 1), scale := getSLE b (12 * i + 3) 1,
      value := getSLE b (12 * i + 4) 8 }

/-- Quality an entry is written with (R308). -/
def entryQuality (q : Byte) (limited : Bool) : Byte :=
  let st := if 4 < qState q then qBad else qState q
  qMake st (if limited || qHas q qOver then qOver else 0)

/-- NB writes one entry; an entry whose point has not SOURCE 1 is dropped and counted (R308). -/
def applyEntry (st time : Nat) (e : DsEntry) (s : State) : State :=
  let id := pointId st e.idx
  match defOf s id with
  | some d =>
    if tfSource d.typeflags = 1 && decide (e.idx < 8192) then
      let raw := if e.scale = d.scale then e.value else alignRaw e.value e.scale d.scale
      let (v, lim) := limitTo d (sat raw)
      writePoint id v (shortOf time) (entryQuality e.quality (lim || !fits64 raw)) d.scale s
    else setStation st (fun y => { y with rejects := sat32 (y.rejects + 1) }) s
  | none => setStation st (fun y => { y with rejects := sat32 (y.rejects + 1) }) s

/-- NB writes the entries of a dataset. -/
def writeEntries (st time : Nat) : List DsEntry → State → State
  | [], s => s
  | e :: r, s => writeEntries st time r (applyEntry st time e s)

/-- Note an accepted frame: stream, counters, episodes. -/
def noteAccepted (k : Knama) (s : State) : State :=
  let s := setStation k.station (fun y => { y with
    streams := fset y.streams (rxStream k) k.seq, rejectEp := false, authEp := false }) s
  { s with rings := { s.rings with rx := (s.rings.rx + 1) % 2 ^ 64 } }

/-- An accepted input dataset (R308, R309, R445). -/
def acceptDataset (k : Knama) (s : State) : State :=
  let entries := parseEntries k.body k.count
  let s := noteAccepted k s
  let was := (station s k.station).absent
  let s := setStation k.station (fun y => { y with
    absent := false, acceptedAt := some s.refNs
    datasets := ({ seq := k.seq, time := k.time, entries := entries } :: y.datasets).take 4 }) s
  let s := writeEntries k.station k.time entries s
  if was then raise 0x74 [k.station] s else s

/-- INPUT_DATASET: an INPUT frame arrives on a ring (R305, R307, R308). -/
def execInputDataset (n : Fin 4) (knama : Bytes) (s : State) : Res :=
  let k := parseKnama knama
  .next (if !nbOn s || !ringOn s n.val then s
    else if !frameOk s n.val k || k.kind ≠ 1 then rejectFrame k.station s
    else if !tagOk s n.val k then authReject k.station s
    else if !seqOk s k false then rejectFrame k.station s
    else acceptDataset k s)

/-- RESULT of R304 for a TRIP_REQ that passes the frame checks. -/
def tripResult (s : State) (st g : Nat) : Nat :=
  let permit : W16 := match (station s st).cfg with
    | some c => c.tripPermit
    | none => 0
  if !permit.getLsbD (g - 1) then 2
  else if !(group s g).enable then 3
  else if latched s g then 1 else 0

/-- The frame repeats the last accepted SEQ of its stream (R315). -/
def seqRepeats (s : State) (k : Knama) : Bool := decide (fget (station s k.station).streams (rxStream k) = some k.seq)

/-- RESULT of a TRIP_REQ; a repeat with the same SEQ fires nothing and is answered as already latched (R315). -/
def tripAnswer (s : State) (k : Knama) (g : Nat) : Nat :=
  let res := tripResult s k.station g
  if res = 0 && seqRepeats s k then 1 else res

/-- TRIP_REQ: checked, fired where permitted, answered (R314, R315, R317). -/
def execTripReq (n : Fin 4) (knama : Bytes) (s : State) : Res :=
  let k := parseKnama knama
  let g := getLE k.body 0 1
  let reason := getLE k.body 1 1
  .next (if !nbOn s || !ringOn s n.val then s
    else if !frameOk s n.val k || k.kind ≠ 4 || g = 0 || 16 < g then rejectFrame k.station s
    else if !tagOk s n.val k then authReject k.station s
    else if !seqOk s k true then rejectFrame k.station s
    else
      let res := tripAnswer s k g
      let s := noteAccepted k s
      let s := if res = 0 then fireGroup k.station g reason s else s
      let s := if driving s then sendKnama 5 k.station 0 (devNs s) 0 0 (tripBody g reason res) s else s
      if res = 2 ∨ res = 3 then raise 0x78 [k.station, g, res] s else s)

/-- Points of a station that NB writes. -/
def inputPoints (s : State) (st : Nat) : List Nat :=
  (s.defs.filter fun e => stationOf e.1 = st && tfSource e.2.typeflags = 1).map (·.1)

/-- Set HELD on points of the live table (R46). -/
def holdPoints : List Nat → State → State
  | [], s => s
  | id :: r, s => holdPoints r (setQuality id (qSet (liveRec s id).quality qHeld) s)

/-- The supervision time of an enabled station has passed (R309). -/
def supervisionOver (s : State) (x : Station) : Bool :=
  match x.cfg, x.acceptedAt with
  | some c, some t => c.enable && decide (c.missN * c.periodUs * 1000 ≤ since s t)
  | _, _ => false

/-- STATION_ABSENT (R46, R309). -/
def execStationAbsent (st : BitVec 12) (s : State) : Res :=
  let n := st.toNat
  .next (if nbOn s && supervisionOver s (station s n) && !(station s n).absent then
      raise 0x73 [n] (holdPoints (inputPoints s n) (setStation n (fun y => { y with absent := true }) s))
    else s)

/-! ### HSR and link checks (R296, R297, R299, R300) -/

/-- A node of a ring's table. -/
def ringNode (s : State) (n : Nat) (src : BitVec 48) : Option HsrNode := fget (ringOf s n).nodes src.toNat

/-- MAC address of port p: the base address, derived from the serial number, plus p (R294, R519). -/
def portMac (s : State) (p : Nat) : BitVec 48 := BitVec.ofNat 48 (0x0A47 * 2 ^ 32 + s.keys.serial.toNat % 2 ^ 29 * 8 + p)

/-- Change a ring's node table. -/
def setNode (n : Nat) (src : BitVec 48) (x : HsrNode) (s : State) : State :=
  setRing n (fun r => { r with nodes := fset r.nodes src.toNat x }) s

/-- The frame is a duplicate: its source and sequence number were accepted within the last 400 ms (R296). -/
def isDuplicate (s : State) (n : Nat) (f : HsrFrame) : Bool :=
  match ringNode s n f.src with
  | none => false
  | some x => x.seqs.any fun e => e.1 = f.seq && decide (since s e.2 < 400000000)

/-- Note a source and its sequence number in the node table, or raise RING_NODE_TABLE_FULL once (R296). -/
def noteSource (n : Nat) (f : HsrFrame) (s : State) : State :=
  match ringNode s n f.src with
  | some x => setNode n f.src { x with
      seqs := ((f.seq, s.refNs) :: x.seqs).take 64, seenAt := if f.supervision then s.refNs else x.seenAt } s
  | none =>
    if (ringOf s n).nodes.length < 1040 then setNode n f.src { seqs := [(f.seq, s.refNs)], seenAt := s.refNs } s
    else raiseOnce (ringOf s n).tableFull 0x7A [n] (setRing n (fun r => { r with tableFull := true }) s)

/-- Correction NB adds to a PTP event message it forwards (R326): the residence time, and the path delay of the ingress
port for a Sync where the domain's delay mechanism is peer; other domains get the residence time alone. -/
def forwardCorrection (s : State) (inPort : Nat) (f : HsrFrame) : Int :=
  match f.ptp with
  | none => 0
  | some (dom, isSync) =>
    let d := if s.time.dom0.cfg.source = 1 && s.time.dom0.cfg.domain = dom then some s.time.dom0
      else if s.time.dom1.cfg.source = 1 && s.time.dom1.cfg.domain = dom then some s.time.dom1 else none
    let path := match d with
      | some x => if isSync && x.cfg.mech = 1 then (fgetD x.ports inPort {}).delay else 0
      | none => 0
    f.residence + path

/-- The port that forwards a frame of the given ingress port. -/
def otherPort (p : Nat) : Nat := if p % 2 = 0 then p + 1 else p - 1

/-- HSR_FRAME_FORWARD (R295 to R297, R326). A frame whose FCS fails is not accepted, so its sequence number is not kept. -/
def execHsrFrameForward (port : Fin 8) (f : HsrFrame) (s : State) : Res :=
  let n := port.val / 2
  .next (if !nbOn s || !ringOn s n || loopHolds s 0 port.val then s
    else if f.src = portMac s port.val || f.src = portMac s (otherPort port.val) then s
    else if isDuplicate s n f then setRing n (fun r => { r with dups := sat32 (r.dups + 1) }) s
    else
      let s := if f.fcsOk then noteSource n f s else s
      let s := setRing n (fun r => { r with forwarded := (r.forwarded + 1) % 2 ^ 64 }) s
      if loopHolds s 0 (otherPort port.val) then s
      else portSend (otherPort port.val) 0 (.hsrForward (otherPort port.val) f.src f.seq (forwardCorrection s port.val f) f.fcsOk) s)

/-- DUPLICATE_ENTRY_EXPIRY: entries of a source older than 400 ms are forgotten (R296). -/
def execDuplicateEntryExpiry (n : Fin 4) (src : BitVec 48) (s : State) : Res :=
  .next (match ringNode s n.val src with
    | none => s
    | some x => setNode n.val src { x with seqs := x.seqs.filter fun e => decide (since s e.2 < 400000000) } s)

/-- NODE_FORGOTTEN: a node without supervision frames for 60 s leaves the table (R297). -/
def execNodeForgotten (n : Fin 4) (src : BitVec 48) (s : State) : Res :=
  .next (match ringNode s n.val src with
    | none => s
    | some x => if 60000000000 ≤ since s x.seenAt then
        setRing n.val (fun r => { r with nodes := ferase r.nodes src.toNat, tableFull := false }) s else s)

/-- SUPERVISION_FRAME_SEND: every 2 s on each port (R297). -/
def execSupervisionFrameSend (port : Fin 8) (s : State) : Res :=
  .next (if nbOn s && ringOn s (port.val / 2) && !loopHolds s 0 port.val && decide (2000000000 ≤ since s (ringPort s port.val).superAt) then
      portSend port.val 5 (.supervision port.val (ringOf s (port.val / 2)).hsrSeq) (takeHsrSeq (port.val / 2)
        (setPort port.val (fun p => { p with superAt := s.refNs }) s))
    else s)

/-- State of a PTP port of a domain. -/
def setPtpSt (p : Nat) (st : PtpPortSt) (d : Domain) : Domain :=
  { d with ports := fset d.ports p { (fgetD d.ports p {}) with st := st } }

/-- When the SLAVE port fails, the PASSIVE port of its ring becomes SLAVE; the servo keeps its state (R328). -/
def swapSlave (s : State) (p : Nat) (d : Domain) : Domain :=
  if d.slave = some p && !(ringPort s (otherPort p)).failed then
    { setPtpSt (otherPort p) .slave (setPtpSt p .passive d) with slave := some (otherPort p) }
  else d

/-- Both domains leave a failed port (R328). -/
def leavePort (p : Nat) (s : State) : State :=
  { s with time := { s.time with dom0 := swapSlave s p s.time.dom0, dom1 := swapSlave s p s.time.dom1 } }

/-- A port is declared failed: RING_PORT_FAIL, and RING_LOST when both ports of the ring have failed (R299, R458 row 13). -/
def failPort (p : Nat) (s : State) : State :=
  if (ringPort s p).failed then s
  else
    let s := setPort p (fun x => { x with failed := true, echoes := 0 }) s
    let s := countFault 13 (rcAdd 0xD14 1 s)
    let s := raise 0x70 [p] (leavePort p s)
    if failedPorts s (p / 2) = 2 then raise 0x72 [p / 2] s else s

/-- A check that got no echo by 50 µs counts as a miss; three in a row declare the port failed (R299). -/
def judgeCheck (p : Nat) (s : State) : State :=
  let x := ringPort s p
  if x.checkAt.isSome && !x.echoed then
    let s := setPort p (fun y => { y with misses := y.misses + 1, echoes := 0 }) s
    if 2 ≤ x.misses then failPort p s else s
  else s

/-- LINK_CHECK_SEND: every 250 µs on each enabled port; a port in loopback sends none (R299, R472). -/
def execLinkCheckSend (port : Fin 8) (s : State) : Res :=
  let x := ringPort s port.val
  let due := match x.checkAt with
    | none => true
    | some t => decide (250000 ≤ since s t)
  .next (if nbOn s && ringOn s (port.val / 2) && !loopHolds s 0 port.val && due then
      let s := judgeCheck port.val s
      portSend port.val 2 (.linkCheck port.val) (setPort port.val (fun y => { y with checkAt := some s.refNs, echoed := false }) s)
    else s)

/-- LINK_CHECK_RECEIVE: NB answers the neighbour's check in hardware (R299). -/
def execLinkCheckReceive (port : Fin 8) (s : State) : Res :=
  .next (if nbOn s && ringOn s (port.val / 2) && !loopHolds s 0 port.val then portSend port.val 2 (.linkEcho port.val) s else s)

/-- LINK_ECHO: an echo within 50 µs of the check; eight in a row clear a failure (R299, R300). -/
def execLinkEcho (port : Fin 8) (s : State) : Res :=
  let p := port.val
  let x := ringPort s p
  let inTime := match x.checkAt with
    | none => false
    | some t => decide (since s t ≤ 50000) && !x.echoed
  .next (if nbOn s && ringOn s (p / 2) && inTime then
      let n := if x.failed then x.echoes + 1 else 0
      let s := setPort p (fun y => { y with echoed := true, misses := 0, echoes := n }) s
      if x.failed && decide (8 ≤ n) then
        raise 0x71 [p] (setPort p (fun y => { y with failed := false, linkUp := true, echoes := 0 }) s)
      else s
    else s)

/-- PORT_LINK_LOSS: the PCS reports loss of link or synchronisation (R299). -/
def execPortLinkLoss (port : Fin 8) (s : State) : Res :=
  .next (if nbOn s && ringOn s (port.val / 2) then
      failPort port.val (setPort port.val (fun y => { y with linkUp := false }) s)
    else s)

/-! ### Commands (R321) -/

/-- RING_LOCK.CFG_LOCK refuses the ring configuration commands. -/
def ringLocked (s : State) : Option (Nat × Nat) := lockRefusal s 0xD0C

/-- A key slot names NB (R305). -/
def namesNb (s : State) (slot : Nat) : Bool := (keyFor s slot 1).isSome

/-- CMD_RING_CONFIG. -/
def specRingConfig : CmdSpec where
  opcode := 0x0701
  length := fixedLen 16
  check _ p s := firstRefusal
    [ringLocked s,
     badParam [(0, 3 < getLE p 0 1), (1, 1 < getLE p 1 1), (2, 1 < getLE p 2 1), (3, notZero p 3 1),
       (4, 255 < getLE p 4 2), (6, 255 < getLE p 6 2), (14, notZero p 14 2)],
     refuseIf ((getLE p 2 1 = 1 || getLE p 4 2 ≠ 0) && !namesNb s (getLE p 4 2)) stDenied 7,
     refuseIf (getLE p 6 2 ≠ 0 && !namesNb s (getLE p 6 2)) stDenied 7]
  run r p s := finishOk 0x0701 r [] (stage 0x0701 p s)

/-- CMD_RING_CONFIG -/
def execCmdRingConfig (r : Req) (s : State) : Res := .next (runCmd specRingConfig r s)

/-- Stations enabled on a ring other than one. -/
def othersOn (s : State) (ring st : Nat) : Nat := ((enabledOn s ring).filter fun e => e.1 ≠ st).length

/-- Relations of R409 that a station configuration touches: row 4 for its ring, row 3 for the loop channels that read it. -/
def stationConflict (p : Bytes) (s : State) : Conflict :=
  let t := applyStationConfig p (planned s)
  let n := getLE p 0 2
  firstConflict [row3All t (fun d => stationOf d.pvPoint = n && (deliverers t d.pvPoint).isEmpty),
    row4All t n]

/-- CMD_STATION_CONFIG. -/
def specStationConfig : CmdSpec where
  opcode := 0x0702
  length := fixedLen 20
  check _ p s := firstRefusal
    [ringLocked s,
     badParam [(0, getLE p 0 2 = 0 || 4095 < getLE p 0 2),
       (2, 3 < getLE p 2 1 || (bit (getLE p 3 1) 0 && decide (1024 ≤ othersOn (planned s) (getLE p 2 1) (getLE p 0 2)))),
       (3, 3 < getLE p 3 1),
       (4, getLE p 4 4 < 500 || 10000000 < getLE p 4 4), (8, getLE p 8 1 < 2), (9, notZero p 9 1),
       (18, notZero p 18 2)],
     conflictRefusal (stationConflict p s)]
  run r p s := finishOk 0x0702 r [] (stage 0x0702 p s)

/-- CMD_STATION_CONFIG -/
def execCmdStationConfig (r : Req) (s : State) : Res := .next (runCmd specStationConfig r s)

/-- The class of a running program writes a point as an OUTPUT point (R311). -/
def classWritesOutput (s : State) (c id : Nat) : Bool :=
  match defOf s id, s.program with
  | some d, some im => tfOutput d.typeflags && im.units.any fun u => u.cls = c && u.writeSet.contains id
  | _, _ => false

/-- The first local index of a dataset that R311 does not allow, with its offset. -/
def badIndices (s : State) (p : Bytes) : List (Nat × Bool) :=
  (upto (getLE p 5 1)).map fun i =>
    (12 + 2 * i, decide (8191 < getLE p (12 + 2 * i) 2) ||
      !classWritesOutput s (getLE p 4 1) (pointId (getLE p 0 2) (getLE p (12 + 2 * i) 2)))

/-- CMD_DATASET_CONFIG. -/
def specDatasetConfig : CmdSpec where
  opcode := 0x0703
  length p := if 121 < getLE p 5 1 then some 0xFFFFFFFF
    else if p.length = 12 + 2 * getLE p 5 1 then none else some (12 + 2 * getLE p 5 1)
  check _ p s := firstRefusal
    [ringLocked s,
     badParam ([(0, decide (getLE p 0 2 = 0 ∨ 4095 < getLE p 0 2)), (4, decide (3 < getLE p 4 1)), (6, notZero p 6 2)] ++
       badIndices s p),
     if getLE p 5 1 = 0 then none else conflictRefusal (row5 (getLE p 8 4) (acceptedPeriod s (getLE p 4 1)))]
  run r p s := finishOk 0x0703 r [] (stage 0x0703 p s)

/-- CMD_DATASET_CONFIG -/
def execCmdDatasetConfig (r : Req) (s : State) : Res := .next (runCmd specDatasetConfig r s)

/-- CMD_LOOP_ROUTE. -/
def specLoopRoute : CmdSpec where
  opcode := 0x0704
  length := fixedLen 12
  check _ p s := firstRefusal
    [ringLocked s,
     badParam [(0, 2047 < getLE p 0 2), (2, getLE p 2 2 = 0 || 4095 < getLE p 2 2), (4, 8191 < getLE p 4 2),
       (6, notZero p 6 2)],
     conflictRefusal (row5Route (applyCfg { opcode := 0x0704, payload := p } (planned s)) (getLE p 0 2))]
  run r p s := finishOk 0x0704 r [] (stage 0x0704 p s)

/-- CMD_LOOP_ROUTE -/
def execCmdLoopRoute (r : Req) (s : State) : Res := .next (runCmd specLoopRoute r s)

/-- CMD_TRIP_CONFIG. -/
def specTripConfig : CmdSpec where
  opcode := 0x0705
  length := fixedLen 24
  check _ p s := firstRefusal
    [ringLocked s,
     badParam ([(0, decide (getLE p 0 1 = 0 ∨ 16 < getLE p 0 1)), (1, decide (1 < getLE p 1 1)), (2, notZero p 2 2)] ++
       (upto 8).map fun i => (8 + 2 * i, decide (4095 < getLE p (8 + 2 * i) 2))),
     refuseIf (latched s (getLE p 0 1)) stBusy 0]
  run r p s := finishOk 0x0705 r [] (stage 0x0705 p s)

/-- CMD_TRIP_CONFIG -/
def execCmdTripConfig (r : Req) (s : State) : Res := .next (runCmd specTripConfig r s)

/-- CMD_TRIP_RESET: both modules apply it at the next Main boundary, and it completes once the pins are released
(R316, R317). -/
def specTripReset : CmdSpec where
  opcode := 0x0706
  length := fixedLen 4
  check _ p _ := badParam [(0, (getLE p 0 1 = 0 || 16 < getLE p 0 1) && getLE p 0 1 ≠ 0xFF), (1, notZero p 1 3)]
  run r p s := holdCmd 0x0706 r (stage 0x0706 p s)

/-- CMD_TRIP_RESET -/
def execCmdTripReset (r : Req) (s : State) : Res := .next (runCmd specTripReset r s)

/-- The held CMD_TRIP_RESET with a payload. -/
def tripResetReq (s : State) (p : Bytes) : Option Req :=
  (s.host.waiting.find? fun w => w.opcode = 0x0706 && w.req.payload = p).map (·.req)

/-- One configuration takes effect; CMD_TRIP_RESET releases its groups and completes. -/
def applyBoundary (c : BoundaryCfg) (s : State) : State :=
  if c.opcode = 0x0706 then
    let g := getLE c.payload 0 1
    finishOpt 0x0706 (tripResetReq s c.payload) stOk 0 [] (releaseGroups (if g = 0xFF then groupsAll else [g]) s)
  else applyCfg c s

/-- Configurations take effect in acceptance order. -/
def applyBoundaries : List BoundaryCfg → State → State
  | [], s => s
  | c :: r, s => applyBoundaries r (applyBoundary c s)

/-- MAIN_BOUNDARY_CONFIG_APPLY (R317, R357). -/
def execMainBoundaryConfigApply (s : State) : Res :=
  let s := match s.pair.nextCfg with
    | some c => { s with pair := { s.pair with cfg := c, nextCfg := none } }
    | none => s
  let s := applyBoundaries s.boundary { s with boundary := [] }
  .next (clearConflict 3 (clearConflict 2 (clearConflict 1 (clearConflict 0 s))))

/-- CMD_RING_STATUS. -/
def specRingStatus : CmdSpec where
  opcode := 0x0710
  length := fixedLen 0
  check _ _ _ := none
  run r _ s :=
    let rings := (upto 4).flatMap fun n =>
      let on := enabledOn s n
      putLE 2 on.length ++ putLE 2 (on.filter fun e => e.2.absent).length ++ putLE 4 (ringOf s n).dups ++
        putLE 8 (ringOf s n).forwarded
    finishOk 0x0710 r (putLE 4 (ringStatus s).toNat ++ putLE 4 (ringPortst s).toNat ++ rings) s

/-- CMD_RING_STATUS -/
def execCmdRingStatus (r : Req) (s : State) : Res := .next (runCmd specRingStatus r s)

/-- Age of the last accepted dataset, µs, saturating. -/
def stationAge (s : State) (x : Station) : Nat :=
  match x.acceptedAt with
  | none => 0xFFFFFFFF
  | some t => sat32 (since s t / 1000)

/-- The last accepted dataset is older than PERIOD_US (R309). -/
def pastPeriod (s : State) (x : Station) (c : StationCfg) : Bool :=
  match x.acceptedAt with
  | none => true
  | some t => decide (c.periodUs * 1000 < since s t)

/-- STATE of CMD_STATION_STATUS (R309). -/
def stationState (s : State) (x : Station) : Nat :=
  match x.cfg with
  | none => 0
  | some c =>
    if !c.enable then 0 else if x.absent then 3 else if pastPeriod s x c then 2 else 1

/-- CMD_STATION_STATUS. -/
def specStationStatus : CmdSpec where
  opcode := 0x0711
  length := fixedLen 4
  check _ p _ := badParam
    [(2, getLE p 2 2 = 0 || 254 < getLE p 2 2 || 4096 < getLE p 0 2 + getLE p 2 2)]
  run r p s :=
    finishOk 0x0711 r ((upto (getLE p 2 2)).flatMap fun i =>
      let n := getLE p 0 2 + i
      let x := station s n
      putLE 2 n ++ [byte (stationState s x), byte (((x.cfg).map (·.ring)).getD 0)] ++ putLE 4 (stationAge s x) ++
        putLE 4 x.rejects ++ putLE 4 x.discards) s

/-- CMD_STATION_STATUS -/
def execCmdStationStatus (r : Req) (s : State) : Res := .next (runCmd specStationStatus r s)

/-! ### Register writes (R320) -/

/-- RING_CTRL_ENABLE: ENABLE of the rings (R319, R320). -/
def execRingCtrlEnable (p : Port) (v : W32) (s : State) : Res := .next (ownWrite p 0xD04 (cfgSet 0xD04 v) s)

/-- RING_ETYPE_WRITE: the Knama EtherType (R320). -/
def execRingEtypeWrite (p : Port) (v : W32) (s : State) : Res := .next (ownWrite p 0xD08 (cfgSet 0xD08 v) s)

end Sys2Proof.Machine
end

