-- ==== Sys2Proof/Machine/Can.lean ====
section
/-! DEFINITION. Can.lean: the four CAN FD controllers (R341 to R362). The controller check of R358 stands with the
module faults. -/

namespace Sys2Proof.Machine

/-! ### Fields and frames (R344, R348) -/

/-- Data bytes of a DLC code: FD frames go on to 12, 16, 20, 24, 32, 48 and 64 (ISO 11898-1, named by R341). -/
def dlcLen (fdf : Bool) (dlc : Nat) : Nat :=
  if dlc ≤ 8 then dlc
  else if fdf then lget [12, 16, 20, 24, 32, 48, 64] (dlc - 9) 64 else 8

/-- Bit positions of a signal, least significant first; bit 8·j + i is bit i of byte j. A MOTOROLA signal starts at its
most significant bit and goes on downwards through the byte and then into the next byte (PRESUMED, log entry 16). -/
def signalBits (g : CanSignal) : List Nat :=
  if g.motorola then
    let l := g.startBit / 8 * 8 + (7 - g.startBit % 8)
    ((upto g.width).map fun i => (l + i) / 8 * 8 + (7 - (l + i) % 8)).reverse
  else (upto g.width).map fun i => g.startBit + i

/-- The signal lies within `n` data bytes. -/
def signalInside (g : CanSignal) (n : Nat) : Bool := (signalBits g).all fun b => b < 8 * n

/-- A bit of a byte string. -/
def dataBit (d : Bytes) (b : Nat) : Bool := (lget d (b / 8) 0).toNat.testBit (b % 8)

/-- Raw field of a signal. -/
def signalRaw (g : CanSignal) (d : Bytes) : Int :=
  let v := ((indexed 0 (signalBits g)).map fun e => if dataBit d e.2 then 2 ^ e.1 else 0)
  if g.signed then toSigned g.width (nsum v) else nsum v

/-- Set a bit of a byte string. -/
def setDataBit (d : Bytes) (b : Nat) (x : Bool) : Bytes :=
  let old := (lget d (b / 8) 0).toNat
  let w := 2 ^ (b % 8)
  lset d (b / 8) (byte (if x then (if old.testBit (b % 8) then old else old + w)
    else if old.testBit (b % 8) then old - w else old))

/-- Write bits of a value, from bit `i` on. -/
def writeBits (v : Nat) : Nat → List Nat → Bytes → Bytes
  | _, [], d => d
  | i, b :: r, d => writeBits v (i + 1) r (setDataBit d b (v.testBit i))

/-- A value at a scale, converted to a signal's scale and saturated to its field (R348). -/
def fieldValue (g : CanSignal) (value scale : Int) : Nat :=
  let v := align value scale g.scale
  if g.signed then ofSigned g.width (clamp v (-(2 ^ (g.width - 1) : Nat)) ((2 ^ (g.width - 1) : Nat) - 1))
  else (clamp v 0 ((2 ^ g.width : Nat) - 1)).toNat

/-- Write a signal into the data. -/
def putSignal (g : CanSignal) (value scale : Int) (d : Bytes) : Bytes :=
  writeBits (fieldValue g value scale) 0 (signalBits g) d

/-- ID word of a received frame (R360). -/
def idWordOf (f : CanFrame) : W32 :=
  BitVec.ofNat 32 ((if f.ide then f.ident.toNat else f.ident.toNat % 2048) + b2n f.ide * 2 ^ 29 + b2n f.fdf * 2 ^ 30 +
    b2n f.brs * 2 ^ 31)

/-- The frame matches a descriptor (R344). -/
def matchesDesc (f : CanFrame) (d : CanDesc) : Bool :=
  d.dir = 1 && decide (d.id.getLsbD 29 = f.ide) &&
  decide (((idWordOf f ^^^ d.id) &&& d.mask &&& 0x1FFFFFFF) = 0)

/-- The buffer that takes a frame: the priority buffer, then the others in ascending number (R344). -/
def takingBuffer (c : CanCtl) (f : CanFrame) : Option Nat :=
  (64 :: upto 64).find? fun b => matchesDesc f (canBuf c b).desc

/-! ### Error confinement (R353) -/

/-- Frames a buffer holds. -/
def heldFrames (b : CanBuf) : Nat := b2n b.pend.isSome + b2n b.onBus.isSome

/-- Bus-off: every pending frame is dropped and counted (R353). -/
def enterBusOff (n : Nat) (s : State) : State :=
  let c := canCtl s n
  let s := rcAdd (canBase n + 0x38) (nsum (c.bufs.map fun e => heldFrames e.2)) s
  let s := setCan n (fun x => { x with
    conf := if autoRecover s n then .recovering else .busOff, sending := none
    bufs := x.bufs.map fun e => (e.1, { e.2 with pend := none, onBus := none, cancelled := false, retries := 0 }) }) s
  raise 0x92 [n] s

/-- The confinement state follows TEC and REC (R353). -/
def confine (n : Nat) (s : State) : State :=
  let c := canCtl s n
  match c.conf with
  | .busOff => s
  | .recovering => s
  | .active =>
    if 255 < c.tec then enterBusOff n s
    else if 128 ≤ c.tec ∨ 128 ≤ c.recCnt then raise 0x90 [n] (setCan n (fun x => { x with conf := .passive }) s)
    else s
  | .passive =>
    if 255 < c.tec then enterBusOff n s
    else if c.tec < 128 ∧ c.recCnt < 128 then raise 0x91 [n] (setCan n (fun x => { x with conf := .active }) s)
    else s

/-- TEC after an error while sending. -/
def txErrorCount (n : Nat) (s : State) : State := confine n (setCan n (fun c => { c with tec := c.tec + 8 }) s)

/-- REC after an error while receiving. -/
def rxErrorCount (n : Nat) (s : State) : State := confine n (setCan n (fun c => { c with recCnt := c.recCnt + 1 }) s)

/-- REC after a good reception: one less, or a value of 119 to 127 from above 127, which ISO 11898-1 leaves open
(a free value, log entry 2). -/
def rxGoodCount (n : Nat) (s : State) : State :=
  let c := canCtl s n
  if 127 < c.recCnt then
    let (v, s) := takeFree s
    confine n (setCan n (fun x => { x with recCnt := 119 + v.toNat % 9 }) s)
  else setCan n (fun x => { x with recCnt := x.recCnt - 1 }) s

/-! ### Transmission (R349 to R352) -/

/-- The controller takes part in the bus: it receives in NORMAL, RESTRICTED and LISTEN (R343). -/
def onBusMode (c : CanCtl) : Bool := (c.mode = 2 || c.mode = 3 || c.mode = 5) && !c.integrating

/-- The controller may send a data frame now (R343, R353). -/
def canSend (c : CanCtl) : Bool :=
  c.mode = 2 && !c.integrating && c.sending.isNone && (decide (c.conf = .active) || decide (c.conf = .passive))

/-- Frame a buffer sends next. -/
def nextFrame (b : CanBuf) : Option CanPend :=
  match b.onBus with
  | some f => some f
  | none => b.pend

/-- Rank of a frame on the bus: a base identifier counts as its 11 bits shifted left by 18 (R350). -/
def rankOf (f : CanPend) : Nat :=
  if f.id.getLsbD 29 then f.id.toNat % 2 ^ 29 else f.id.toNat % 2048 * 2 ^ 18

/-- The buffer whose frame goes first: lowest identifier, then lowest buffer (R350). -/
def firstToSend : List (Nat × CanBuf) → Option (Nat × CanPend)
  | [] => none
  | e :: r =>
    match nextFrame e.2, firstToSend r with
    | none, x => x
    | some f, none => some (e.1, f)
    | some f, some (b, g) => if rankOf f ≤ rankOf g then some (e.1, f) else some (b, g)

/-- A controller that may send, and that no loopback holds, starts the frame that goes first. -/
def startNext (n : Nat) (s : State) : State :=
  let c := canCtl s n
  if canSend c && !loopHolds s 2 n then
    match firstToSend c.bufs with
    | none => s
    | some (b, f) =>
      let fresh := (canBuf c b).onBus.isNone
      let s := setBuf n b (fun x => { x with
        onBus := some f, pend := if fresh then none else x.pend, retries := if fresh then 0 else x.retries }) s
      emit (.can n b f) (setCan n (fun x => { x with sending := some b }) s)
  else s

/-- A frame becomes a buffer's pending frame: one that had not begun is replaced and counted (R351). A controller that is
off, in CONFIG or RESTRICTED takes no request (R352). -/
def requestFrame (n b : Nat) (f : CanPend) (s : State) : State :=
  let c := canCtl s n
  if c.mode = 2 ∨ c.mode = 4 ∨ c.mode = 5 then
    let s := if (canBuf c b).pend.isSome then rcAdd (canBase n + 0x38) 1 s else s
    startNext n (setBuf n b (fun x => { x with pend := some f }) s)
  else s

/-- The frame of a buffer's window. -/
def windowFrame (b : CanBuf) : CanPend :=
  { id := b.idWord, dlc := b.dlcWord,
    data := (padTo 64 b.data).take (dlcLen (b.idWord.getLsbD 30) (b.dlcWord.toNat % 16)) }

/-- Fill a buffer's window with a descriptor's identifier and data, and request it. -/
def fillBuffer (n b : Nat) (data : Bytes) (s : State) : State :=
  let s := setBuf n b (fun x => { x with
    idWord := x.desc.id, dlcWord := BitVec.ofNat 32 (x.desc.dlc % 16), data := data }) s
  requestFrame n b (windowFrame (canBuf (canCtl s n) b)) s

/-- Write the points of a map into the data (R348). -/
def putPoints (s : State) : List CanSignal → Bytes → Bytes
  | [], d => d
  | g :: r, d =>
    let p := readRec s g.point
    putPoints s r (if defined s g.point then putSignal g p.value p.scale d else d)

/-- Fill the buffers of a list that a class triggers (R349). -/
def fillBuffers (n c : Nat) : List (Nat × CanBuf) → State → State
  | [], s => s
  | e :: r, s =>
    let s := if e.2.desc.dir = 2 && e.2.desc.trigger = c then
        fillBuffer n e.1 (putPoints s e.2.desc.signals (padTo 64 e.2.data)) s
      else s
    fillBuffers n c r s

/-- PB fills and requests the buffers of a class (R39 step 2, R44, R349, R357). -/
def canPublish (c : Nat) (s : State) : State :=
  if inService s idPB then
    [0, 1, 2, 3].foldl (fun s n => fillBuffers n c (canCtl s n).bufs s) s
  else s

/-- PB repeats a class's transmit buffers with their last values (R550). -/
def canRepeat (c : Nat) (s : State) : State :=
  [0, 1, 2, 3].foldl (fun s n =>
    ((canCtl s n).bufs.filter fun e => e.2.desc.dir = 2 && e.2.desc.trigger = c).foldl
      (fun s e => requestFrame n e.1 (windowFrame e.2) s) s) s

/-- A loop channel fills signal 0 of a LOOP buffer (R349). -/
def canLoopFill (n b : Nat) (value scale : Int) (s : State) : State :=
  let x := canBuf (canCtl s n) b
  match x.desc.signals with
  | [] => s
  | g :: _ => if x.desc.dir = 2 && x.desc.trigger = 4 && inService s idPB then
      fillBuffer n b (putSignal g value scale (padTo 64 x.data)) s else s

/-- Stop the pending frames of a class's buffers (R43, R96, R352). -/
def canCancelClass (c : Nat) (s : State) : State :=
  { s with can := s.can.map fun e => (e.1, { e.2 with bufs := e.2.bufs.map fun b =>
      if b.2.desc.dir = 2 && b.2.desc.trigger = c then (b.1, cancelBuf (e.2.sending = some b.1) b.2) else b }) }

/-- PB runs and its main side is up. -/
def pbOn (s : State) : Bool := s.power.released && inService s idPB

/-- Drop the frame a buffer had on the bus. -/
def dropOnBus (n b : Nat) (s : State) : State :=
  setBuf n b (fun x => { x with onBus := none, cancelled := false, retries := 0 }) s

/-- CAN_TX_COMPLETE: the frame on the bus has been sent (R350, R352, R353). -/
def execCanTxComplete (n : Fin 4) (s : State) : Res :=
  .next (match (canCtl s n.val).sending with
    | none => s
    | some b =>
      let late := (canBuf (canCtl s n.val) b).cancelled
      let s := setBuf n.val b (fun x => { x with cancelLate := x.cancelLate || late }) s
      let s := dropOnBus n.val b (setCan n.val (fun c => { c with sending := none, tec := c.tec - 1 }) s)
      startNext n.val (confine n.val s))

/-- A frame meets a bus error: retried at most RETX_MAX times, then dropped with CAN_TX_FAIL (R350). -/
def busError (n b : Nat) (s : State) : State :=
  let s := txErrorCount n (setCan n (fun c => { c with sending := none }) s)
  let x := canBuf (canCtl s n) b
  if x.onBus.isNone then s
  else if x.cancelled then dropOnBus n b s
  else if x.retries < retxMax s n then setBuf n b (fun y => { y with retries := y.retries + 1 }) s
  else raise 0x98 [n, b] (dropOnBus n b s)

/-- CAN_TX_ERROR (R350, R352, R353). -/
def execCanTxError (n : Fin 4) (kind : CanTxFault) (s : State) : Res :=
  .next (match (canCtl s n.val).sending with
    | none => s
    | some b =>
      match kind with
      | .busError => startNext n.val (busError n.val b s)
      | .arbitration =>
        let s := setCan n.val (fun c => { c with sending := none }) s
        startNext n.val (if (canBuf (canCtl s n.val) b).cancelled then dropOnBus n.val b s else s))

/-- CAN_BUS_ON: recovery completes (R353). -/
def execCanBusOn (n : Fin 4) (s : State) : Res :=
  .next (if (canCtl s n.val).conf = .recovering then
      startNext n.val (raise 0x93 [n.val]
        (setCan n.val (fun c => { c with conf := .active, tec := 0, recCnt := 0 }) s))
    else s)

/-- CAN_INTEGRATE: 11 consecutive recessive bits after CONFIG (R343). -/
def execCanIntegrate (n : Fin 4) (s : State) : Res :=
  .next (if (canCtl s n.val).integrating then
      startNext n.val (setCan n.val (fun c => { c with integrating := false }) s)
    else s)

/-- CAN_RX_BUS_ERROR: a frame being received meets a bus error (R353). -/
def execCanRxBusError (n : Fin 4) (s : State) : Res :=
  .next (if pbOn s && onBusMode (canCtl s n.val) then rxErrorCount n.val s else s)

/-! ### Reception (R344, R345, R347, R348, R355) -/

/-- PB writes the signals of a stored frame. -/
def writeSignals (n : Nat) (f : CanFrame) (stamp : W32) : List CanSignal → State → State
  | [], s => s
  | g :: r, s =>
    let s := if !signalInside g f.data.length then rcAdd (canBase n + 0x34) 1 s
      else match defOf s g.point with
        | some d => if tfSource d.typeflags = 2 then writeScaled g.point (signalRaw g f.data) g.scale stamp 0 s else s
        | none => s
    writeSignals n f stamp r s

/-- CAN_PRIO_RX: each frame counts, sets the pending bits and signals its vector; a record enters the recorder at most
once in 10 ms (R347). -/
def raisePrio (n : Nat) (s : State) : State :=
  let c := canCtl s n
  let quiet := match c.prioAt with
    | none => false
    | some t => decide (since s t < 10000000)
  if quiet then
    let one : BitVec 256 := BitVec.twoPow 256 0x94
    let fresh := !s.evt.pend.getLsbD 0x94
    let mg := inService s idMG
    let alert := s.evt.alert || (mg && !s.evt.pendSb.getLsbD 0x94 && s.evt.alertEn.getLsbD 0x94 && sbEnabled s)
    let s := setCan n (fun x => { x with prioMissed := x.prioMissed + 1 }) s
    let s := { s with evt := { s.evt with
      cnt := fset s.evt.cnt 0x94 (satBits 16 (fgetD s.evt.cnt 0x94 0 + 1))
      pend := s.evt.pend ||| one
      pendSb := if mg then s.evt.pendSb ||| one else s.evt.pendSb
      alert := alert } }
    if fresh && routeMsix s 0x94 then messageDue (routeVector s 0x94) s else s
  else
    raise 0x94 [n, c.prioMissed] (setCan n (fun x => { x with prioAt := some s.refNs, prioMissed := 0 }) s)

/-- Store a frame in a buffer (R345). -/
def storeFrame (n b : Nat) (f : CanFrame) (s : State) : State :=
  let x := canBuf (canCtl s n) b
  let stamp := shortNow s
  let s := setBuf n b (fun y => { y with
    idWord := idWordOf f, dlcWord := BitVec.ofNat 32 (f.dlc.toNat + 16 * b2n f.esi), stamp := stamp
    data := f.data ++ y.data.drop f.data.length, nd := true, ovr := y.ovr || y.nd, rxAt := s.refNs
    timedOut := false }) s
  let s := if x.nd && !x.ovr then raise 0x95 [n, b] s else s
  let s := if x.timedOut then raise 0x97 [n, b] s else s
  let s := writeSignals n f stamp x.desc.signals s
  if b = 64 then raisePrio n s else s

/-- CAN_FRAME_RECEIVE (R341, R344, R345). -/
def execCanFrameReceive (n : Fin 4) (f : CanFrame) (s : State) : Res :=
  let c := canCtl s n.val
  .next (if !pbOn s || !onBusMode c || decide (c.conf = .busOff) || decide (c.conf = .recovering) || loopHolds s 2 n.val then s
    else
      let s := rxGoodCount n.val s
      if f.rtr then rcAdd (canBase n.val + 0x34) 1 s
      else match takingBuffer c f with
        | none => rcAdd (canBase n.val + 0x34) 1 s
        | some b => storeFrame n.val b f s)

/-- Set points STALE and HELD with their last values (R355). -/
def stalePoints : List CanSignal → State → State
  | [], s => s
  | g :: r, s =>
    stalePoints r (if defined s g.point then
      setQuality g.point (qSet (qWithState (liveRec s g.point).quality qStale) qHeld) s else s)

/-- CAN_RX_TIMEOUT (R355). -/
def execCanRxTimeout (n : Fin 4) (buf : Fin 65) (s : State) : Res :=
  let x := canBuf (canCtl s n.val) buf.val
  .next (if pbOn s && x.desc.dir = 1 && !x.timedOut && decide (x.desc.timeoutMs * 1000000 ≤ since s x.rxAt) then
      raise 0x96 [n.val, buf.val]
        (stalePoints x.desc.signals (setBuf n.val buf.val (fun y => { y with timedOut := true }) s))
    else s)

/-! ### Register writes (R346, R349, R352, R355, R359) -/

/-- A write of CANn_CTRL: the mode follows at once (R357, R359). -/
def applyCanCtrl (n : Nat) (v : W32) (s : State) : State :=
  startNext n (refreshMode n (cfgSet (canBase n + 4) v s))

/-- CAN_MODE_WRITE -/
def execCanModeWrite (p : Port) (n : Fin 4) (v : W32) (s : State) : Res :=
  .next (ownWrite p (canBase n.val + 4) (applyCanCtrl n.val v) s)

/-- A bit-timing write in NORMAL or RESTRICTED corrupts the frame in progress (R359). Whether the bus carries another
node's frame is open (a free value, log entry 2). -/
def corruptFrame (n : Nat) (s : State) : State :=
  let c := canCtl s n
  match c.sending with
  | some b => startNext n (busError n b (emit (.canError n) s))
  | none =>
    let (v, s) := takeFree s
    if v.getLsbD 0 then rxErrorCount n (if c.mode = 2 then emit (.canError n) s else s) else s

/-- The relations of rows 3 and 6 that a controller's timing breaks: row and object (R355). -/
def timingBreaks (s : State) (n : Nat) : List (Nat × Nat) :=
  (s.loops.filterMap fun e =>
    match acceptedDesc s e.1 with
    | some d => if readsCan s n d && (row3 s d).isSome then some (3, e.1) else none
    | none => none) ++
  ((canCtl s n).bufs.filterMap fun e => if (row6 s n e.2.desc).isSome then some (6, e.1) else none)

/-- Raise CAN_TIMING_CONFLICT for each failing relation. -/
def raiseBreaks (n : Nat) : List (Nat × Nat) → State → State
  | [], s => s
  | e :: r, s => raiseBreaks n r (raise 0x9B [n, e.1, e.2] s)

/-- A write of CANn_NBT, CANn_DBT or CANn_TDC: in NORMAL or RESTRICTED the frame in progress is corrupted, and outside CONFIG
CAN_CONFIG_IN_RUN is raised (R355, R359, R361). -/
def applyCanTiming (n off : Nat) (v : W32) (s : State) : State :=
  let m := (canCtl s n).mode
  let s := cfgSet off v s
  let s := if m = 2 ∨ m = 3 then corruptFrame n s else s
  let s := if m = 1 then s else raise 0x9A [n, off] s
  if off = canBase n + 16 then s
  else
    let bad := timingBreaks s n
    if bad.isEmpty then clearConflict n s
    else raiseBreaks n bad (setCan n (fun c => { c with conflict := true }) s)

/-- CAN_BIT_TIMING_WRITE -/
def execCanBitTimingWrite (p : Port) (n : Fin 4) (data : Bool) (v : W32) (s : State) : Res :=
  let off := canBase n.val + (if data then 12 else 8)
  .next (ownWrite p off (applyCanTiming n.val off v) s)

/-- Buffers that a mask names, from a first number on. -/
def maskBufs (first mask : Nat) : List Nat := ((upto 32).filter fun i => mask.testBit i).map (· + first)

/-- Request HOST buffers (R349). -/
def requestHost (n : Nat) : List Nat → State → State
  | [], s => s
  | b :: r, s =>
    let x := canBuf (canCtl s n) b
    requestHost n r (if x.desc.dir = 2 && x.desc.trigger = 5 then requestFrame n b (windowFrame x) s else s)

/-- CAN_TXREQ -/
def execCanTxreq (p : Port) (n : Fin 4) (hi : Bool) (v : W32) (s : State) : Res :=
  .next (ownWrite p (canBase n.val + 0x24 + 4 * b2n hi) (requestHost n.val (maskBufs (32 * b2n hi) v.toNat)) s)

/-- Cancel buffers (R352). -/
def cancelBufs (n : Nat) : List Nat → State → State
  | [], s => s
  | b :: r, s => cancelBufs n r (setBuf n b (cancelBuf ((canCtl s n).sending = some b)) s)

/-- CAN_CANCEL -/
def execCanCancel (p : Port) (n : Fin 4) (hi : Bool) (v : W32) (s : State) : Res :=
  .next (ownWrite p (canBase n.val + 0x2C + 4 * b2n hi) (cancelBufs n.val (maskBufs (32 * b2n hi) v.toNat)) s)

/-- Clear ND of buffers (R346). -/
def clearNd (n : Nat) : List Nat → State → State
  | [], s => s
  | b :: r, s => clearNd n r (setBuf n b (fun x => { x with nd := false }) s)

/-- CAN_ND_CLEAR -/
def execCanNdClear (p : Port) (n : Fin 4) (hi : Bool) (v : W32) (s : State) : Res :=
  .next (ownWrite p (canBase n.val + 0x1C + 4 * b2n hi) (clearNd n.val (maskBufs (32 * b2n hi) v.toNat)) s)

/-- A write into a buffer window (R359, R360). -/
def applyCanWindow (n off : Nat) (v : W32) (s : State) : State :=
  let k := (off - canBase n - 0x100) % 72
  setBuf n ((off - canBase n - 0x100) / 72) (fun b =>
    if k = 0 then
      { b with nd := b.nd && !v.getLsbD 0, ovr := b.ovr && !v.getLsbD 1
               cancelLate := b.cancelLate && !v.getLsbD 2 }
    else if k = 4 then { b with idWord := v }
    else if k = 8 then { b with dlcWord := v &&& 0x1F }
    else if k = 68 then { b with stamp := v }
    else { b with data := (padTo 64 b.data).take (k - 12) ++ putLE 4 v.toNat ++ (padTo 64 b.data).drop (k - 8) }) s

/-! ### Commands (R362) -/

/-- CFG_LOCK of a controller. -/
def canLocked (s : State) (n : Nat) : Option (Nat × Nat) := if n < 4 then lockRefusal s (canBase n + 0x14) else none

/-- Fields of NBT outside R342. -/
def badNbt (v : Nat) : Bool :=
  bits v 30 2 ≠ 0 || bits v 8 8 = 0 || bits v 16 7 < bits v 23 7 || nomQuanta v < 80 || 8000 < nomQuanta v

/-- Fields of DBT outside R342. -/
def badDbt (nbt v : Nat) : Bool :=
  bits v 19 13 ≠ 0 || bits v 10 4 < bits v 14 4 ||
  (bit v 18 && (dataQuanta nbt v < 10 || nomQuanta nbt < dataQuanta nbt v))

/-- Relations that a controller configuration touches (R355, R409). -/
def canConfigConflict (p : Bytes) (s : State) : Conflict :=
  let n := getLE p 0 1
  let t := applyCanConfig p (planned s)
  firstConflict [row3All t (readsCan t n), row6All t n]

/-- CMD_CAN_CONFIG. -/
def specCanConfig : CmdSpec where
  opcode := 0x0801
  length := fixedLen 24
  check _ p s := firstRefusal
    [canLocked s (getLE p 0 1),
     badParam [(0, 3 < getLE p 0 1), (1, 5 < getLE p 1 1), (2, 1 < getLE p 2 1), (3, 15 < getLE p 3 1),
       (4, badNbt (getLE p 4 4)), (8, badDbt (getLE p 4 4) (getLE p 8 4)), (12, 255 < getLE p 12 4)],
     conflictRefusal (canConfigConflict p s)]
  run r p s := finishOk 0x0801 r [] (stage 0x0801 p s)

/-- CMD_CAN_CONFIG -/
def execCmdCanConfig (r : Req) (s : State) : Res := .next (runCmd specCanConfig r s)

/-- Field checks of a signal at an offset (R348). -/
def badSignal (s : State) (p : Bytes) (dir off : Nat) : List (Nat × Bool) :=
  let g := parseSignal p off
  let src := ((defOf s g.point).map fun d => tfSource d.typeflags)
  [(off, decide (badPoint g.point = true) || src.isNone || (decide (dir = 1) && decide (src ≠ some 2))),
   (off + 4, decide (511 < g.startBit)), (off + 6, decide (g.width = 0 ∨ 64 < g.width)),
   (off + 7, decide (3 < getLE p (off + 7) 1)), (off + 8, decide (g.scale < -63 ∨ 63 < g.scale)),
   (off + 9, notZero p (off + 9) 3)]

/-- Relations that a buffer configuration touches (R355, R409). -/
def canBufferConflict (p : Bytes) (s : State) : Conflict :=
  let n := getLE p 0 1
  let d := parseBuffer p
  let t := applyCfg { opcode := 0x0802, payload := p } (planned s)
  firstConflict [row3All t (fun l => d.dir = 1 && d.signals.any (·.point = l.pvPoint)), row6 t n d]

/-- CMD_CAN_BUFFER. -/
def specCanBuffer : CmdSpec where
  opcode := 0x0802
  length p := if 16 < getLE p 13 1 then some 0xFFFFFFFF
    else if p.length = 24 + 12 * getLE p 13 1 then none else some (24 + 12 * getLE p 13 1)
  check _ p s :=
    let prio := decide (getLE p 1 1 = 64)
    firstRefusal
      [canLocked s (getLE p 0 1),
       badParam ([(0, decide (3 < getLE p 0 1)), (1, decide (64 < getLE p 1 1)),
           (2, decide (2 < getLE p 2 1) || (prio && decide (getLE p 2 1 = 2))),
           (3, decide (5 < getLE p 3 1) || (prio && decide (getLE p 3 1 ≠ 0))),
           (12, decide (15 < getLE p 12 1)), (14, notZero p 14 2)] ++
         (upto (getLE p 13 1)).flatMap fun i => badSignal s p (getLE p 2 1) (24 + 12 * i)),
       conflictRefusal (canBufferConflict p s)]
  run r p s := finishOk 0x0802 r [] (stage 0x0802 p s)

/-- CMD_CAN_BUFFER -/
def execCmdCanBuffer (r : Req) (s : State) : Res := .next (runCmd specCanBuffer r s)

/-- Buffers of a list, as a mask. -/
def bufMask (l : List Nat) : Nat := nsum (l.map fun b => 2 ^ b)

/-- CMD_CAN_CANCEL. -/
def specCanCancel : CmdSpec where
  opcode := 0x0803
  length := fixedLen 12
  check _ p _ := badParam [(0, 3 < getLE p 0 1), (1, notZero p 1 3)]
  run r p s :=
    let n := getLE p 0 1
    let c := canCtl s n
    let l := maskBufs 0 (getLE p 4 4) ++ maskBufs 32 (getLE p 8 4)
    let gone := l.filter fun b => (canBuf c b).pend.isSome || ((canBuf c b).onBus.isSome && c.sending ≠ some b)
    let late := l.filter fun b => (canBuf c b).cancelLate
    finishOk 0x0803 r (putLE 8 (bufMask gone) ++ putLE 8 (bufMask late)) (cancelBufs n l s)

/-- CMD_CAN_CANCEL -/
def execCmdCanCancel (r : Req) (s : State) : Res := .next (runCmd specCanCancel r s)

/-- CMD_CAN_RECOVER. -/
def specCanRecover : CmdSpec where
  opcode := 0x0804
  length := fixedLen 4
  check _ p s := firstRefusal
    [badParam [(0, 3 < getLE p 0 1), (1, notZero p 1 3)],
     refuseIf (decide ((canCtl s (getLE p 0 1)).conf ≠ .busOff)) stNotActive 0]
  run r p s := finishOk 0x0804 r [] (setCan (getLE p 0 1) (fun c => { c with conf := .recovering }) s)

/-- CMD_CAN_RECOVER -/
def execCmdCanRecover (r : Req) (s : State) : Res := .next (runCmd specCanRecover r s)

/-- CMD_CAN_STATUS. -/
def specCanStatus : CmdSpec where
  opcode := 0x0810
  length := fixedLen 4
  check _ p _ := badParam [(0, 3 < getLE p 0 1), (1, 64 < getLE p 1 1), (2, notZero p 2 2)]
  run r p s :=
    let n := getLE p 0 1
    let b := canBuf (canCtl s n) (getLE p 1 1)
    finishOk 0x0810 r (putLE 4 (canStatus s n).toNat ++ putLE 4 (canErr (canCtl s n)).toNat ++
      putLE 4 (sat32 (tRetx s n / 80)) ++ zeros 4 ++ putLE 4 (canCtrlWord b).toNat ++ putLE 4 b.idWord.toNat ++
      putLE 4 b.dlcWord.toNat ++ putLE 4 b.stamp.toNat ++ (padTo 64 b.data).take 64) s

/-- CMD_CAN_STATUS -/
def execCmdCanStatus (r : Req) (s : State) : Res := .next (runCmd specCanStatus r s)

end Sys2Proof.Machine
end

