-- ==== Sys2Proof/Machine/Time.lean ====
section
/-! DEFINITION. Time.lean: network time: domain servos, selection, device time, the boundary clock, PPS and UTC
(R322 to R340). -/

namespace Sys2Proof.Machine

/-! ### Domains and clocks -/

/-- Move a domain clock by a number of ns (R331). -/
def moveDom (i : Fin 2) (ns : Int) (s : State) : State :=
  let move := fun (c : Nat) => ofSigned 96 ((c : Int) + ns * 2 ^ 32)
  if i = 0 then { s with time := { s.time with d0 := move s.time.d0 } }
  else { s with time := { s.time with d1 := move s.time.d1 } }

/-- The other domain. -/
def otherDom (i : Fin 2) : Fin 2 := if i = 0 then 1 else 0

/-- Ingress stamp in a domain's clock, corrected by INGRESS_NS, and by ASYM_NS where the message comes from a master or a
peer's response (R323, R325; log entry 17). -/
def ingressStamp (s : State) (i : Fin 2) (p : Nat) (asym : Bool) : Int :=
  (domNs s i : Int) - (corrOf s p).ingress - (if asym then (corrOf s p).asym else 0)

/-- YMAX (R322). -/
def yMax : Int := 2147484

/-! ### UTC offset and leap seconds (R336) -/

/-- A valid offset is in force: MG keeps it, and a change raises UTC_OFFSET_CHANGED. -/
def setUtc (v : Int) (s : State) : State :=
  let changed := decide (v ≠ s.time.utc)
  let s := { s with time := { s.time with utc := v }, rtc := { s.rtc with utcOfs := v } }
  if changed then raise 0x89 [v] s else s

/-- TAI second at which a pending leap changes the offset: after 23:59:60, or with 23:59:59 omitted. -/
def leapInstant (s : State) (positive : Bool) : Nat :=
  let utc := (devNs s : Int) / 1000000000 - s.time.utc
  ((utc / 86400 + 1) * 86400 + s.time.utc + (if positive then 1 else -1)).toNat

/-- The source's leap indications: LEAP_PENDING when one is new. -/
def setLeap (l61 l59 : Bool) (s : State) : State :=
  let fresh := (l61 && !s.time.leap61) || (l59 && !s.time.leap59)
  let at' := if fresh then some (leapInstant s l61) else if l61 || l59 then s.time.leapAt else none
  let s := { s with time := { s.time with leap61 := l61, leap59 := l59 && !l61, leapAt := at' } }
  if fresh then raise 0x8A [b2n l61] s else s

/-- What the selected domain's source says of UTC. -/
def sourceUtc (i : Fin 2) (valid : Bool) (offset : Int) (l61 l59 : Bool) (s : State) : State :=
  if s.time.sel = i then
    let s := { s with time := { s.time with utcValid := valid } }
    let s := if valid then setUtc offset s else s
    setLeap l61 l59 s
  else s

/-- At the leap the offset changes by one (R336). -/
def passLeap (s : State) : State :=
  match s.time.leapAt with
  | none => s
  | some t =>
    if reached s (t * 1000000000) then
      let v := if s.time.leap61 then s.time.utc + 1 else s.time.utc - 1
      setUtc v (setDom 0 (fun d => { d with utc := none }) (setDom 1 (fun d => { d with utc := none })
        { s with time := { s.time with leapAt := none, leap61 := false, leap59 := false } }))
    else s

/-! ### Selection and steps (R332 to R334) -/

/-- The selected domain's source gives the UTC offset, where its last message carried a valid one (R336). -/
def domainUtc (i : Fin 2) (s : State) : State :=
  let s := { s with time := { s.time with utcValid := (dom s i).utc.isSome } }
  match (dom s i).utc with
  | some v => setUtc v s
  | none => s

/-- Select a domain: c carries the frequency of device time over, and the UTC offset is its source's (R332, R333, R336). -/
def selectDom (i : Fin 2) (s : State) : State :=
  if s.time.sel = i then s
  else
    let c := clamp (s.time.yDev - (dom s i).y) (-4294) 4294
    domainUtc i (raise 0x84 [i.val] { s with time := { s.time with sel := i, c := c } })

/-- PTP_CTRL.MODE -/
def ptpMode (s : State) : Nat := (cfgGet s 0xE04).toNat % 4

/-- Evaluate the selection (R332). -/
def evalSelection (s : State) : State :=
  match ptpMode s with
  | 1 => selectDom 0 s
  | 2 => selectDom 1 s
  | 0 =>
    let st := (dom s s.time.sel).st
    if (st = .holdover ∨ st = .free) ∧ (dom s (otherDom s.time.sel)).st = .locked then
      selectDom (otherDom s.time.sel) s
    else s
  | _ => s

/-- After a step backwards a class counts on from the last cycle's stamp, or from the last period start up to the new time,
whichever is later (R33). -/
def stepClass (ns c : Nat) (s : State) : State :=
  setCls c (fun k =>
    let p := Nat.max k.periodUs 1 * 1000
    let t := ns / p * p
    if later 64 ns k.lastStart then { k with lastStart := if later 64 t k.started then k.started else t } else k) s

/-- The last boundary of some nanoseconds that work has been done at, after a step of device time: a boundary that a step
backwards brings again is met again (R4, R273, R280). -/
def boundaryAfter (unit ns last : Nat) : Nat := if later 64 ns last then ns / unit * unit else last

/-- A step of device time (R334). The governor's and LB's milliseconds go on from the new time (R107, R150). -/
def stepTime (ns : Nat) (s : State) : State :=
  let step := wrapDiff 64 (devNs s) ns
  let s := { s with time := { s.time with dev := clockOfNs ns, c := 0 }
                    loopMs := (ns - 1) / 1000000, budget := { s.budget with tickAt := (ns - 1) / 1000000 }
                    meter := { s.meter with
                      stepAt := boundaryAfter 100000000 ns s.meter.stepAt, readAt := boundaryAfter 100000000 ns s.meter.readAt
                      savedAt := boundaryAfter 1000000000 ns s.meter.savedAt } }
  raise 0x83 [step] (stepClass ns 3 (stepClass ns 2 (stepClass ns 1 (stepClass ns 0 s))))

/-! ### Servo (R330, R331) -/

/-- The PI servo takes a sample. -/
def servo (e : Int) (d : Domain) : Domain :=
  let acc := clamp (d.acc + rnd (e * d.cfg.ki) 16) (-yMax) yMax
  { d with acc := acc, y := clamp (acc + rnd (e * d.cfg.kp) 16) (-yMax) yMax }

/-- A sample in ACQUIRING. -/
def acquire (i : Fin 2) (e : Int) (s : State) : State :=
  let d := dom s i
  if (d.cfg.dstepNs : Int) < e.natAbs then
    moveDom i (-e) (setDom i (fun d => { d with steps := (d.steps + 1) % 65536, goodRun := 0 }) s)
  else
    let good := decide (e.natAbs ≤ d.cfg.lockNs)
    let s := setDom i (fun d => { servo e d with goodRun := if good then d.goodRun + 1 else 0 }) s
    if good && decide (16 ≤ d.goodRun + 1) then
      let s := setDom i (fun d => { d with st := .locked, badRun := 0, lockedAt := s.refNs }) s
      let s := { s with time := { s.time with neverLocked := false } }
      evalSelection (raise 0x80 [i.val] s)
    else s

/-- A sample in LOCKED. -/
def track (i : Fin 2) (e : Int) (s : State) : State :=
  let d := dom s i
  let bad := decide (4 * d.cfg.lockNs < e.natAbs)
  let s := setDom i (fun d => { servo e d with badRun := if bad then d.badRun + 1 else 0 }) s
  if bad && decide (3 ≤ d.badRun + 1) then
    raise 0x81 [i.val] (setDom i (fun d => { d with st := .acquiring, goodRun := 0, badRun := 0 }) s)
  else s

/-- An offset sample of a domain. -/
def takeSample (i : Fin 2) (e : Int) (s : State) : State :=
  let d := dom s i
  let s := setDom i (fun d => { d with lastE := e, sampleAt := s.refNs }) s
  match d.st with
  | .locked => track i e s
  | .acquiring => acquire i e s
  | .free => acquire i e (setDom i (fun d => { d with st := .acquiring, goodRun := 0 }) s)
  | .holdover =>
    let s := setDom i (fun d => { d with st := .acquiring, goodRun := 0 }) s
    let s := if d.cfg.source = 2 then raise 0x87 [i.val] s else s
    acquire i e s

/-- Sample interval of a domain, ns (R328, R329). -/
def sampleInterval (c : DomainCfg) : Nat :=
  if c.source = 2 then 1000000000
  else if 0 ≤ c.logSync then 1000000000 * 2 ^ c.logSync.toNat else 1000000000 / 2 ^ (-c.logSync).toNat

/-- DOMAIN_HOLDOVER: no sample for LOSS_N sample intervals (R331, R332). -/
def execDomainHoldover (i : Fin 2) (s : State) : Res :=
  let d := dom s i
  .next (if nbOn s && (decide (d.st = .locked) || decide (d.st = .acquiring)) &&
        decide (d.cfg.lossN * sampleInterval d.cfg ≤ since s d.sampleAt) then
      let s := setDom i (fun d => { d with st := .holdover, y := d.acc, goodRun := 0, badRun := 0 }) s
      let s := raise 0x82 [i.val] s
      let s := if d.cfg.source = 2 then raise 0x86 [i.val] s else s
      evalSelection s
    else s)

/-- DOMAIN_REVERT: with REVERT set, domain 0 is selected again once it has been LOCKED for 60 s (R332). -/
def execDomainRevert (s : State) : Res :=
  .next (if nbOn s && ptpMode s = 0 && cfgBit s 0xE04 2 && decide (s.time.sel = 1) &&
        decide (s.time.dom0.st = .locked) && decide (60000000000 ≤ since s s.time.dom0.lockedAt) then selectDom 0 s
    else s)

/-- The follower of R333. -/
def follow (s : State) : State :=
  let delta := wrapDiff 64 (devNs s) (domNs s s.time.sel)
  let ct := clamp (tdiv (delta * 4294) 100) (-4294) 4294
  let c := s.time.c + clamp (ct - s.time.c) (-43) 43
  let slew := decide (100 ≤ delta.natAbs)
  let was := s.time.slewing
  let s := { s with time := { s.time with
    delta := delta, c := c, yDev := (dom s s.time.sel).y + c, slewing := slew } }
  if was && !slew then raise 0x85 [] s else s

/-- The first LOCKED of the selected domain after a start steps device time when it is far off (R334). -/
def firstLock (s : State) : State :=
  if s.time.stepArmed && decide ((dom s s.time.sel).st = .locked) then
    let delta := wrapDiff 64 (devNs s) (domNs s s.time.sel)
    let s := { s with time := { s.time with stepArmed := false } }
    if s.time.stepNs ≠ 0 && decide (s.time.stepNs < delta.natAbs) then stepTime (domNs s s.time.sel) s else s
  else s

/-- Device time at a start: from the calendar clock (R335). -/
def startTime (s : State) : State :=
  let secs := ((utcSecs s.rtc.cal : Int) + s.rtc.utcOfs).toNat
  { s with time := { s.time with
      dev := clockOfNs (secs * 1000000000), yDev := 0, neverLocked := true, stepArmed := true, utc := s.rtc.utcOfs
      c := 0, delta := 0, slewing := false, utcValid := false, leap61 := false, leap59 := false, leapAt := none } }

/-! ### Boundary clock (R327, R328, R330) -/

/-- Ports of a domain's boundary clock: those of the enabled rings of RING_MASK. -/
def domPorts (s : State) (d : Domain) : List Nat :=
  (upto 8).filter fun p => d.cfg.ringMask.getLsbD (p / 2) && ringOn s (p / 2)

/-- Lexicographic order of priority vectors. -/
def rankLess : List Nat → List Nat → Bool
  | [], _ => false
  | _ :: _, [] => false
  | a :: r, b :: t => if a = b then rankLess r t else decide (a < b)

/-- Announces that count: received on a port that works within the last 3 s (log entry 18). -/
def liveAnnounces (s : State) (d : Domain) : List (Nat × AnnounceRec) :=
  (domPorts s d).filterMap fun p =>
    match (ptpPort d p).announce with
    | some a => if decide (since s a.at' ≤ 3000000000) && !(ringPort s p).failed then some (p, a) else none
    | none => none

/-- The better of two candidates; the current SLAVE port keeps a tie, then the lower port. -/
def betterPort (slave : Option Nat) (x y : Nat × AnnounceRec) : Nat × AnnounceRec :=
  if rankLess x.2.rank y.2.rank then x
  else if rankLess y.2.rank x.2.rank then y
  else if slave = some y.1 then y else x

/-- The best candidate of a list. -/
def bestPort (slave : Option Nat) : List (Nat × AnnounceRec) → Option (Nat × AnnounceRec)
  | [] => none
  | x :: r => match bestPort slave r with
    | none => some x
    | some y => some (betterPort slave x y)

/-- Priority vector of the module itself. -/
def ownRank (s : State) (d : Domain) : List Nat :=
  [d.cfg.priority1, d.cfg.clockClass, 0, d.cfg.priority2, s.keys.serial.toNat, 0]

/-- Port states by the BMCA (R327). -/
def assignPorts (s : State) (d : Domain) : Domain :=
  match bestPort d.slave (liveAnnounces s d) with
  | none => { d with slave := none, ports := d.ports.map fun e => (e.1, { e.2 with st := .listening }) }
  | some (p, a) =>
    let own := decide (d.cfg.clockClass ≠ 255) && rankLess (ownRank s d) a.rank
    let st := fun q => if own then PtpPortSt.master else if q = p then .slave
      else if q = otherPort p then .passive else .master
    { d with
      slave := if own then none else some p
      gm := if own then d.gm else a.gm
      gmClass := if own then d.gmClass else a.gmClass
      ports := (domPorts s d).foldl (fun m q => fset m q { (fgetD m q {}) with st := st q }) d.ports }

/-- Run the BMCA of a domain; a new grandmaster raises PTP_GM_CHANGED. -/
def bmca (i : Fin 2) (s : State) : State :=
  let old := (dom s i).gm
  let s := setDom i (assignPorts s) s
  if (dom s i).gm ≠ old then raise 0x88 [i.val, (dom s i).gm.toNat] s else s

/-- A domain of PTP keeps its port states with the passing of time: without a grandmaster its ports are LISTENING (R327). -/
def ageDomain (i : Fin 2) (s : State) : State := if (dom s i).cfg.source = 1 then bmca i s else s

/-- DEVICE_TIME_UPDATE: every 1 ms of reference time. Before any domain has locked device time runs with y_dev 0
(R327, R333 to R336). -/
def execDeviceTimeUpdate (s : State) : Res :=
  .next (if nbOn s && decide (1000000 ≤ since s s.time.followAt) then
      let s := { s with time := { s.time with followAt := s.refNs } }
      let s := ageDomain 1 (ageDomain 0 s)
      let s := if s.time.neverLocked then s else follow (firstLock s)
      passLeap s
    else s)

/-- A correctionField in ns. -/
def corrNs (m : PtpMsg) : Int := rnd m.correction 16

/-- The message comes from the master that the port follows. -/
def fromMaster (x : PtpPort) (m : PtpMsg) : Bool := decide ((x.announce.map (·.source)) = some m.source)

/-- A complete Sync: origin t1 with its corrections, ingress stamp t2. The SLAVE port's offset is a sample (R330). -/
def syncDone (i : Fin 2) (p : Nat) (t1 t2 : Int) (s : State) : State :=
  let s := setPtp i p (fun x => { x with t1t2 := some (t1, ofSigned 64 t2), syncSeq := none }) s
  if (dom s i).slave = some p then
    takeSample i (wrapDiff 64 (ofSigned 64 (t1 + (ptpPort (dom s i) p).delay)) (ofSigned 64 t2)) s
  else s

/-- Mean path delay by request and response: ((t2 - t1) + (t4 - t3)) / 2. -/
def requestDelay (x : PtpPort) (t3 : Nat) (t4 : Int) : Int :=
  match x.t1t2 with
  | none => x.delay
  | some (t1, t2) => Int.fdiv (wrapDiff 64 (ofSigned 64 t1) t2 + wrapDiff 64 t3 (ofSigned 64 t4)) 2

/-- A PTP message in a domain that its domainNumber names (R324 to R331, R336). -/
def ptpReceive (i : Fin 2) (p : Nat) (m : PtpMsg) (s : State) : State :=
  let d := dom s i
  let x := ptpPort d p
  match m.kind with
  | .sync false =>
    if fromMaster x m then syncDone i p ((m.timestamp : Int) + corrNs m) (ingressStamp s i p true) s else s
  | .sync true =>
    if fromMaster x m then
      setPtp i p (fun x => { x with syncSeq := some (m.seq, ofSigned 64 (ingressStamp s i p true), corrNs m) }) s
    else s
  | .followUp =>
    match x.syncSeq with
    | some (seq, t2, c) =>
      if seq = m.seq && fromMaster x m then syncDone i p ((m.timestamp : Int) + c + corrNs m) t2 s else s
    | none => s
  | .delayReq =>
    if x.st = .master && d.cfg.mech = 0 then
      portSend p 3 (.ptp p i.val .delayResp m.seq (ofSigned 64 (ingressStamp s i p false)) m.correction) s
    else s
  | .delayResp =>
    match x.reqOut with
    | some (seq, t3) =>
      if seq = m.seq && d.cfg.mech = 0 && fromMaster x m then
        setPtp i p (fun x => { x with reqOut := none, delay := requestDelay x t3 ((m.timestamp : Int) - corrNs m) }) s
      else s
    | none => s
  | .pdelayReq =>
    if d.cfg.mech = 1 then
      portSend p 3 (.ptp p i.val .pdelayResp m.seq (ofSigned 64 (ingressStamp s i p false)) m.correction) s
    else s
  | .pdelayResp =>
    match x.reqOut with
    | some (seq, t1) =>
      if seq = m.seq && d.cfg.mech = 1 then
        let turn := (m.timestamp : Int) - m.timestamp2 + corrNs m
        setPtp i p (fun x => { x with
          reqOut := none, delay := Int.fdiv (wrapDiff 64 t1 (ofSigned 64 (ingressStamp s i p true)) - turn) 2 }) s
      else s
    | none => s
  | .announce =>
    let a : AnnounceRec :=
      { rank := [m.gmPriority1.toNat, m.gmClass.toNat, m.gmQuality, m.gmPriority2.toNat, m.gmIdentity.toNat, m.steps]
        gm := m.gmIdentity, gmClass := m.gmClass, source := m.source, at' := s.refNs }
    let s := bmca i (setPtp i p (fun x => { x with announce := some a }) s)
    if (dom s i).slave = some p then
      let s := setDom i (fun d => { d with utc := if m.utcValid then some m.utcOffset else none }) s
      sourceUtc i m.utcValid m.utcOffset m.leap61 m.leap59 s
    else s

/-- A domain takes messages of its PTP domain on its ports. -/
def ptpTakes (s : State) (i : Fin 2) (p : Nat) (m : PtpMsg) : Bool :=
  (dom s i).cfg.source = 1 && (dom s i).cfg.domain = m.domain && (domPorts s (dom s i)).contains p

/-- The message is an event message, which the port stamps (R325). -/
def eventMessage : PtpKind → Bool
  | .sync _ => true
  | .delayReq => true
  | .pdelayReq => true
  | .pdelayResp => true
  | _ => false

/-- PTP_MESSAGE -/
def execPtpMessage (port : Fin 8) (m : PtpMsg) (s : State) : Res :=
  .next (if !nbOn s then s
    else if m.stampLost && eventMessage m.kind then rcAdd 0xE30 1 s
    else
      let s := if ptpTakes s 0 port.val m then ptpReceive 0 port.val m s else s
      if ptpTakes s 1 port.val m then ptpReceive 1 port.val m s else s)

/-- The module is MASTER on the port. -/
def isMaster (s : State) (i : Fin 2) (p : Nat) : Bool :=
  nbOn s && (dom s i).cfg.source = 1 && (domPorts s (dom s i)).contains p &&
  decide ((ptpPort (dom s i) p).st = .master)

/-- SYNC_SEND: one-step Sync every 2^LOG_SYNC s on each MASTER port, with its own egress stamp (R327). -/
def execSyncSend (i : Fin 2) (port : Fin 8) (s : State) : Res :=
  let p := port.val
  let x := ptpPort (dom s i) p
  .next (if isMaster s i p && decide (sampleInterval (dom s i).cfg ≤ since s x.syncAt) then
      portSend p 3 (.ptp p i.val (.sync false) x.syncOut (ofSigned 64 (egressStamp s i p false)) 0)
        (setPtp i p (fun x => { x with syncAt := s.refNs, syncOut := x.syncOut + 1 }) s)
    else s)

/-- ANNOUNCE_SEND: once per second on each MASTER port (R327). -/
def execAnnounceSend (i : Fin 2) (port : Fin 8) (s : State) : Res :=
  let p := port.val
  let x := ptpPort (dom s i) p
  .next (if isMaster s i p && decide (1000000000 ≤ since s x.annAt) then
      portSend p 3 (.ptp p i.val .announce x.annOut 0 0)
        (setPtp i p (fun x => { x with annAt := s.refNs, annOut := x.annOut + 1 }) s)
    else s)

/-- DELAY_REQ_SEND: the path delay of the SLAVE and the PASSIVE port is measured in the same way (R328, R330). -/
def execDelayReqSend (i : Fin 2) (port : Fin 8) (s : State) : Res :=
  let p := port.val
  let d := dom s i
  let x := ptpPort d p
  .next (if nbOn s && d.cfg.source = 1 && (domPorts s d).contains p &&
        (decide (x.st = .slave) || decide (x.st = .passive)) then
      let t := ofSigned 64 (egressStamp s i p true)
      let kind := if d.cfg.mech = 1 then PtpKind.pdelayReq else PtpKind.delayReq
      portSend p 3 (.ptp p i.val kind x.reqSeq t 0)
        (setPtp i p (fun x => { x with reqOut := some (x.reqSeq, t), reqSeq := x.reqSeq + 1 }) s)
    else s)

/-! ### PPS and time of day (R323, R329) -/

/-- PPS_EDGE: stamped in the three clocks; an edge less than 0.9 s after the previous one is counted and
ignored, so that the next one is measured from the edge that was taken. -/
def execPpsEdge (s : State) : Res :=
  let early := match s.time.ppsLast with
    | none => false
    | some t => decide (since s t < 900000000)
  .next (if !nbOn s then s
    else if early then
      { s with time := { s.time with ppsEarly := s.time.ppsEarly + 1 } }
    else { s with time := { s.time with
      ppsLast := some s.refNs, ppsEdge := some (devNs s, domNs s 0, domNs s 1, s.refNs) } })

/-- The message is correct and VALID. -/
def todOk (m : Bytes) : Bool :=
  m.length = 16 && getLE m 0 2 = 0x4454 && getLE m 2 1 = 1 && bit (getLE m 3 1) 0 && getLE m 3 1 < 16 &&
  getLE m 14 2 = crc16 (m.take 14)

/-- A PPS domain takes the sample of an edge. -/
def ppsSample (i : Fin 2) (stamp : Nat) (m : Bytes) (s : State) : State :=
  if (dom s i).cfg.source = 2 then
    let ref := (getLE m 4 8 * 1000000000 : Nat) + (corrOf s 8).ingress
    let s := takeSample i (wrapDiff 64 (ofSigned 64 ref) stamp) s
    let f := getLE m 3 1
    let s := setDom i (fun d => { d with utc := if bit f 1 then some (getSLE m 12 2) else none }) s
    sourceUtc i (bit f 1) (getSLE m 12 2) (bit f 2) (bit f 3) s
  else s

/-- TOD_MESSAGE -/
def execTodMessage (m : Bytes) (s : State) : Res :=
  .next (match s.time.ppsEdge with
    | none => s
    | some (_, e0, e1, at') =>
      if nbOn s && todOk m && decide (since s at' ≤ 900000000) then
        let s := { s with time := { s.time with ppsEdge := none, ppsUsed := some at' } }
        ppsSample 1 e1 m (ppsSample 0 e0 m s)
      else s)

/-! ### Commands and PTP_CTRL (R332, R340) -/

/-- PTP_LOCK.CFG_LOCK refuses the time commands. -/
def timeLocked (s : State) : Option (Nat × Nat) := lockRefusal s 0xE08

/-- Payload of CMD_TIME_CONFIG. -/
def parseDomain (p : Bytes) : DomainCfg :=
  { source := getLE p 1 1, domain := getLE p 2 1, mech := getLE p 3 1, ringMask := byte (getLE p 4 1),
    logSync := getSLE p 5 1, lossN := getLE p 6 1, clockClass := getLE p 7 1, priority1 := getLE p 8 1,
    priority2 := getLE p 9 1, lockNs := getLE p 12 4, dstepNs := getLE p 16 4, kp := getLE p 20 4, ki := getLE p 24 4 }

/-- A domain index. -/
def domIdx (n : Nat) : Fin 2 := if n = 0 then 0 else 1

/-- A domain takes a configuration; a change of source starts it from FREE. -/
def configDomain (i : Fin 2) (c : DomainCfg) (s : State) : State :=
  let old := (dom s i).cfg
  if old.source = c.source && old.domain = c.domain then setDom i (fun d => { d with cfg := c }) s
  else
    let s := setDom i (fun d => { d with
      cfg := c, st := .free, y := 0, acc := 0, goodRun := 0, badRun := 0, ports := []
      slave := if c.source = 2 then some 8 else none }) s
    evalSelection s

/-- CMD_TIME_CONFIG. -/
def specTimeConfig : CmdSpec where
  opcode := 0x0720
  length := fixedLen 28
  check _ p s :=
    let c := parseDomain p
    let o := (dom s (otherDom (domIdx (getLE p 0 1)))).cfg
    firstRefusal
      [timeLocked s,
       badParam [(0, 1 < getLE p 0 1), (1, 2 < c.source || (c.source = 2 && o.source = 2)),
         (2, 127 < c.domain || (c.source = 1 && o.source = 1 && c.domain = o.domain)), (3, 1 < c.mech),
         (4, 15 < c.ringMask.toNat), (5, decide (c.logSync < -7) || decide (1 < c.logSync)), (6, c.lossN < 3),
         (10, notZero p 10 2), (12, c.lockNs < 10 || 1000000 < c.lockNs), (16, c.dstepNs < 4 * c.lockNs)]]
  run r p s := finishOk 0x0720 r [] (configDomain (domIdx (getLE p 0 1)) (parseDomain p) s)

/-- CMD_TIME_CONFIG -/
def execCmdTimeConfig (r : Req) (s : State) : Res := .next (runCmd specTimeConfig r s)

/-- A signed field within ±10 000 ns. -/
def badNs (x : Int) : Bool := decide (x < -10000) || decide (10000 < x)

/-- CMD_TIME_PORT. -/
def specTimePort : CmdSpec where
  opcode := 0x0721
  length := fixedLen 16
  check _ p s := firstRefusal
    [timeLocked s,
     badParam [(0, 8 < getLE p 0 1), (1, notZero p 1 3), (4, badNs (getSLE p 4 4)), (8, badNs (getSLE p 8 4)),
       (12, badNs (getSLE p 12 4))]]
  run r p s :=
    let c : PortCorr := { ingress := getSLE p 4 4, egress := getSLE p 8 4, asym := getSLE p 12 4 }
    finishOk 0x0721 r [] { s with time := { s.time with corr := fset s.time.corr (getLE p 0 1) c } }

/-- CMD_TIME_PORT -/
def execCmdTimePort (r : Req) (s : State) : Res := .next (runCmd specTimePort r s)

/-- CMD_TIME_SELECT: MODE and REVERT of PTP_CTRL, and STEP_NS. -/
def specTimeSelect : CmdSpec where
  opcode := 0x0722
  length := fixedLen 8
  check _ p s := firstRefusal
    [timeLocked s, badParam [(0, 2 < getLE p 0 1), (1, 1 < getLE p 1 1), (2, notZero p 2 2)]]
  run r p s :=
    let s := { s with time := { s.time with stepNs := getLE p 4 4 } }
    finishOk 0x0722 r [] (evalSelection (cfgSet 0xE04 (BitVec.ofNat 32 (getLE p 0 1 + 4 * getLE p 1 1)) s))

/-- CMD_TIME_SELECT -/
def execCmdTimeSelect (r : Req) (s : State) : Res := .next (runCmd specTimeSelect r s)

/-- One domain of CMD_TIME_STATUS. -/
def domBytes (d : Domain) : Bytes :=
  let delay := match d.slave with
    | some p => (ptpPort d p).delay
    | none => 0
  [byte (domCode d.st), byte (d.slave.getD 15)] ++ putLE 2 d.steps ++ putSLE 8 d.lastE ++ putSLE 4 d.y ++
    putSLE 4 delay ++ putLE 8 d.gm.toNat ++ [d.gmClass, 0, 0, 0]

/-- CMD_TIME_STATUS. -/
def specTimeStatus : CmdSpec where
  opcode := 0x0723
  length := fixedLen 0
  check _ _ _ := none
  run r _ s :=
    finishOk 0x0723 r (putLE 8 (devNs s) ++ putLE 4 (ptpStatus s).toNat ++ putSLE 2 s.time.utc ++ zeros 2 ++
      putSLE 8 s.time.delta ++ domBytes s.time.dom0 ++ domBytes s.time.dom1) s

/-- CMD_TIME_STATUS -/
def execCmdTimeStatus (r : Req) (s : State) : Res := .next (runCmd specTimeStatus r s)

/-- CMD_TIME_SET. -/
def specTimeSet : CmdSpec where
  opcode := 0x0724
  length := fixedLen 16
  check _ p s := firstRefusal
    [timeLocked s, badParam [(10, notZero p 10 6)],
     refuseIf (decide ((dom s s.time.sel).st = .locked)) stDenied 7]
  run r p s := finishOk 0x0724 r [] (setUtc (getSLE p 8 2) (stepTime (getLE p 0 8) s))

/-- CMD_TIME_SET -/
def execCmdTimeSet (r : Req) (s : State) : Res := .next (runCmd specTimeSet r s)

/-- A write of PTP_CTRL (R332). -/
def applyPtpCtrl (v : W32) (s : State) : State := evalSelection (cfgSet 0xE04 v s)

/-- PTP_CTRL_WRITE -/
def execPtpCtrlWrite (p : Port) (v : W32) (s : State) : Res := .next (ownWrite p 0xE04 (applyPtpCtrl v) s)

end Sys2Proof.Machine
end

