-- ==== Sys2Proof/Machine/Chunk.lean ====
section
/-! DEFINITION. Chunk.lean: chunked loads of images, models, tables and parameter blocks (R65). -/

namespace Sys2Proof.Machine

/-- Layout of a chunk: 1 to 4 060 data bytes after OFFSET, TOTAL_LENGTH and a reserved word (R65). -/
def chunkLen (p : Bytes) : Option Nat := if 13 ≤ p.length ∧ p.length ≤ 4072 then none else some 0xFFFFFFFF

/-- Bytes received before a chunk. -/
def chunkBase (cur : Option ChunkLoad) (off : Nat) : Bytes :=
  if off = 0 then [] else (cur.map (·.received)).getD []

/-- Refusal of a chunk: a TOTAL_LENGTH out of range, a chunk that does not start where the last one ended, another
TOTAL_LENGTH, or bytes past it (R65). -/
def chunkRefusal (lengthOk : Nat → Bool) (cur : Option ChunkLoad) (p : Bytes) : Option (Nat × Nat) :=
  let off := getLE p 0 4
  let total := getLE p 4 4
  let gap := match cur with
    | none => decide (off ≠ 0)
    | some c => decide (off ≠ 0) && decide (off ≠ c.received.length)
  let other := match cur with
    | none => false
    | some c => decide (off ≠ 0) && decide (total ≠ c.total)
  badParam [(0, gap), (4, !lengthOk total || other), (8, notZero p 8 4), (12, decide (total < off + (p.length - 12)))]

/-- The load after a chunk. -/
def chunkNext (cur : Option ChunkLoad) (p : Bytes) : ChunkLoad :=
  { total := getLE p 4 4, received := chunkBase cur (getLE p 0 4) ++ p.drop 12 }

/-- The load is complete. -/
def chunkDone (c : ChunkLoad) : Bool := decide (c.total ≤ c.received.length)

/-- Engine of key destination sets that verifies images: UV (R130, R525). -/
def destUv : Nat := 3

end Sys2Proof.Machine
end

