-- ==== Sys2Proof/Machine/MeterParams.lean ====
section
/-! DEFINITION. MeterParams.lean: the metering parameter block (R292). -/

namespace Sys2Proof.Machine

/-- Length of a parameter block. -/
def meterLen : Nat := 20656

/-- A set entry at an offset. -/
def parseSet (b : Bytes) (o : Nat) : SetCfg :=
  { mode := getLE b o 1, zcPhase := getLE b (o + 1) 1, zcTimeout := getLE b (o + 2) 2, zcHyst := getLE b (o + 4) 4,
    vLsb := getLE b (o + 8) 4, iLsb := getLE b (o + 12) 4, tempPoint := getLE b (o + 16) 4, pmaxW := getLE b (o + 20) 4,
    pointBase := getLE b (o + 24) 4, bands := (upto 7).map fun i => getSLE b (o + 28 + 2 * i) 2 }

/-- A heat entry at an offset. -/
def parseHeat (b : Bytes) (o : Nat) : HeatCfg :=
  { mode := getLE b o 1, flowSrc := getLE b (o + 1) 1, pulseIn := getLE b (o + 2) 1, auxIn := getLE b (o + 3) 1,
    meterPos := getLE b (o + 4) 1, ktable := getLE b (o + 5) 1, glitchUs := getLE b (o + 6) 1, pwUl := getLE b (o + 8) 4,
    dtMin := getLE b (o + 12) 4, pmaxW := getLE b (o + 16) 4, pointBase := getLE b (o + 20) 4 }

/-- A compensation entry at an offset. -/
def parseComp (b : Bytes) (o : Nat) : CompEntry :=
  { gain := getLE b o 4, phase := getSLE b (o + 4) 2, offset := getSLE b (o + 6) 2 }

/-- A user table at an offset. -/
def parseKtab (b : Bytes) (o : Nat) : KTab :=
  let nf := getLE b o 1
  let nr := getLE b (o + 1) 1
  { f := (upto nf).map fun i => getSLE b (o + 8 + 4 * i) 4
    r := (upto nr).map fun i => getSLE b (o + 136 + 4 * i) 4
    k := (upto nf).map fun i => (upto nr).map fun j => getSLE b (o + 264 + 4 * (32 * i + j)) 4 }

/-- A list is strictly increasing. -/
def increasing : List Int → Bool
  | [] => true
  | [_] => true
  | a :: b :: r => decide (a < b) && increasing (b :: r)

/-- No number occurs twice. -/
def distinct : List Nat → Bool
  | [] => true
  | a :: r => !r.contains a && distinct r

/-- Points from a base to a base plus `n` are point ids. -/
def pointsFit (base n : Nat) : Bool := decide (base + n < pointCount)

/-- A set entry within its ranges. -/
def setOk (b : Bytes) (o : Nat) : Bool :=
  let c := parseSet b o
  allZero (slice b (o + 42) 22) &&
  (c.mode = 0 || (c.mode = 1 && decide (c.zcPhase < 3) && decide (25 ≤ c.zcTimeout) && decide (c.zcTimeout ≤ 100) &&
    (decide (c.tempPoint < pointCount) || c.tempPoint = noPoint) && pointsFit c.pointBase 11 && increasing c.bands))

/-- A user table within its ranges: grid entries not in use are 0. -/
def ktabOk (b : Bytes) (o : Nat) : Bool :=
  let nf := getLE b o 1
  let nr := getLE b (o + 1) 1
  let k := parseKtab b o
  allZero (slice b (o + 2) 6) && allZero (slice b (o + 4360) 56) &&
  ((nf = 0 && nr = 0) || (decide (2 ≤ nf) && decide (nf ≤ 32) && decide (2 ≤ nr) && decide (nr ≤ 32) &&
    increasing k.f && increasing k.r)) &&
  allZero (slice b (o + 8 + 4 * nf) (4 * (32 - nf))) && allZero (slice b (o + 136 + 4 * nr) (4 * (32 - nr))) &&
  (upto 32).all fun i =>
    if i < nf then allZero (slice b (o + 264 + 4 * (32 * i + nr)) (4 * (32 - nr)))
    else allZero (slice b (o + 264 + 128 * i) 128)

/-- A heat entry within its ranges. -/
def heatOk (b : Bytes) (o : Nat) : Bool :=
  let c := parseHeat b o
  getLE b (o + 7) 1 = 0 && allZero (slice b (o + 24) 40) &&
  (c.mode = 0 || (decide (c.mode ≤ 2) && decide (c.flowSrc ≤ 2) && decide (c.pulseIn ≤ 15) &&
    (decide (c.auxIn ≤ 15) || (c.auxIn = 0xFF && c.flowSrc = 0)) && decide (c.meterPos ≤ 1) && decide (c.ktable ≤ 4) &&
    (c.ktable = 0 || getLE b (2880 + 4416 * (c.ktable - 1)) 1 ≠ 0) && decide (c.glitchUs ≤ 40) && decide (1 ≤ c.pwUl) &&
    pointsFit c.pointBase 7))

/-- Pulse inputs that the heat entries use. -/
def pulseInputs (b : Bytes) : List Nat :=
  (upto 16).flatMap fun h =>
    let c := parseHeat b (320 + 64 * h)
    if c.mode = 0 then [] else c.pulseIn :: (if c.auxIn = 0xFF then [] else [c.auxIn])

/-- The parameters of a block. -/
def parseMeter (b : Bytes) : MeterParams :=
  { crc := BitVec.ofNat 32 (getLE b 12 4), paramId := BitVec.ofNat 64 (getLE b 16 8), intervalS := getLE b 24 4,
    divMwh := getLE b 28 4, divPpm := getLE b 32 4, meterLevel := getLE b 36 4
    sets := (upto 4).map fun n => parseSet b (64 + 64 * n)
    heats := (upto 16).map fun h => parseHeat b (320 + 64 * h)
    comp := (upto 192).map fun i => parseComp b (1344 + 8 * i)
    ktabs := (upto 4).map fun i => parseKtab b (2880 + 4416 * i)
    header := b.take 64 }

/-- The block is valid: magic, lengths, CRC and every field (R292). -/
def meterValid (b : Bytes) : Bool :=
  b.length = meterLen && getLE b 0 4 = 0x504D4756 && getLE b 4 2 = 1 && getLE b 6 2 = 0 && getLE b 8 4 = meterLen &&
  getLE b 12 4 = crc32c (slice b 16 20528) && allZero (slice b 40 24) &&
  decide (60 ≤ getLE b 24 4) && decide (getLE b 24 4 ≤ 3600) && 86400 % getLE b 24 4 = 0 &&
  ((upto 4).all fun n => setOk b (64 + 64 * n)) && ((upto 16).all fun h => heatOk b (320 + 64 * h)) &&
  ((upto 32).all fun i => (upto 3).all fun c => getLE b (1344 + 8 * (6 * i + c) + 4) 2 = 0) &&
  ((upto 4).all fun i => ktabOk b (2880 + 4416 * i)) && distinct (pulseInputs b)

end Sys2Proof.Machine
end

