-- ==== Sys2Proof/Machine/Metering.lean ====
section
/-! DEFINITION. Metering.lean: the metering brick MB (R257 to R291): samples, line cycles, heat steps, totals and
intervals. -/

namespace Sys2Proof.Machine

/-! ### Parts -/

/-- Change a set. -/
def setMset (n : Nat) (f : MeterSet → MeterSet) (s : State) : State :=
  { s with meter := { s.meter with sets := fset s.meter.sets n (f (mset s n)) } }

/-- Change a heat channel. -/
def setHeat (n : Nat) (f : HeatCh → HeatCh) (s : State) : State :=
  { s with meter := { s.meter with heats := fset s.meter.heats n (f (heat s n)) } }

/-- MB takes part: main side started, the brick in service, no flush since (R282). -/
def meterOn (s : State) : Bool := s.power.booted && inService s idMB && !s.meter.stopped

/-- Entry of a set in the parameters in force. -/
def setCfg (s : State) (n : Nat) : Option SetCfg := (s.meter.params.bind (·.sets[n]?)).filter (·.mode ≠ 0)

/-- Entry of a heat channel in the parameters in force. -/
def heatCfg (s : State) (h : Nat) : Option HeatCfg := (s.meter.params.bind (·.heats[h]?)).filter (·.mode ≠ 0)

/-- Object code of a heat channel (R278). -/
def heatObj (h : Nat) : Nat := 0x10 + h

/-- Interval flags of R278. -/
def ivShort : Byte := 0x01
/-- LOS -/
def ivLos : Byte := 0x02
/-- TEMP_FAIL -/
def ivTemp : Byte := 0x04
/-- RANGE -/
def ivRange : Byte := 0x08
/-- BAND_CHANGE -/
def ivBand : Byte := 0x10
/-- REVERSE -/
def ivReverse : Byte := 0x20
/-- DIVERGE -/
def ivDiverge : Byte := 0x40
/-- RESTART -/
def ivRestart : Byte := 0x80

/-! ### Intervals (R277 to R279) -/

/-- Set flags of an open interval. -/
def flagIv (f : Byte) (iv : Interval) : Interval := { iv with flags := iv.flags ||| f }

/-- Count missing time, µs. -/
def missIv (us : Nat) (iv : Interval) : Interval := if iv.isOpen then { iv with missing := iv.missing + us } else iv

/-- Open an interval. -/
def openIv (flags : Byte) (now : Nat) (totals : List Nat) (iv : Interval) : Interval :=
  { iv with start := now, opened := totals, flags := flags, missing := 0, isOpen := true }

/-- Deltas over an interval (R277); totals wrap at 2^64 (R276). -/
def ivDeltas (opened totals : List Nat) : List Nat :=
  (upto totals.length).map fun i => (lget totals i 0 + 2 ^ 64 - lget opened i 0 % 2 ^ 64) % 2 ^ 64

/-- Close an interval into the ring (R278). -/
def closeIv (obj : Nat) (flags : Byte) (now : Nat) (totals : List Nat) (iv : Interval) : Interval :=
  if iv.isOpen then
    let d := ivDeltas iv.opened totals
    let both (i : Nat) : Bool := decide (0 < lget d i 0) && decide (0 < lget d (i + 1) 0)
    let rev := both 0 || (decide (0x10 ≤ obj) && both 2)
    let rec' : IntervalRec :=
      { object := obj, flags := iv.flags ||| flags ||| (if rev then ivReverse else 0)
        duration := (now - iv.start) / 1000000, start := iv.start, missing := (iv.missing + 999) / 1000
        deltas := d, seq := iv.nextSeq }
    { iv with ring := fset iv.ring (iv.nextSeq.toNat % 4096) rec', nextSeq := iv.nextSeq + 1
              isOpen := false, flags := 0, missing := 0 }
  else iv

/-- An object is in a divergence episode (R289). -/
def diverging (s : State) (obj : Nat) : Bool := s.meter.diverge.any fun e => e.object = obj

/-- DIVERGE for an object. -/
def divFlag (s : State) (obj : Nat) : Byte := if diverging s obj then ivDiverge else 0

/-- Time in loss of signal up to now counts as missing in the open interval (R272). -/
def settleLos (now : Nat) (m : MeterSet) : MeterSet :=
  if m.los then { m with interval := missIv ((now - m.losFrom) / 1000) m.interval, losFrom := Nat.max now m.losFrom } else m

/-- Close a set's interval. -/
def closeSet (n : Nat) (flags : Byte) (now : Nat) (s : State) : State :=
  let f := flags ||| divFlag s n
  setMset n (fun m => let m := settleLos s.refNs m; { m with interval := closeIv n f now m.totals m.interval }) s

/-- Close a heat channel's interval. -/
def closeHeat (h : Nat) (flags : Byte) (now : Nat) (s : State) : State :=
  let f := flags ||| divFlag s (heatObj h)
  setHeat h (fun c => { c with interval := closeIv (heatObj h) f now c.totals c.interval }) s

/-- Open a set's interval; it carries LOS while the loss of signal lasts. -/
def openSet (n : Nat) (flags : Byte) (now : Nat) (s : State) : State :=
  let f := flags ||| divFlag s n ||| (if (mset s n).los then ivLos else 0)
  setMset n (fun m => { m with interval := openIv f now m.totals m.interval }) s

/-- Open a heat channel's interval. -/
def openHeat (h : Nat) (flags : Byte) (now : Nat) (s : State) : State :=
  let f := flags ||| divFlag s (heatObj h)
  setHeat h (fun c => { c with interval := openIv f now c.totals c.interval }) s

/-- Sets whose intervals run. -/
def runningSets (s : State) : List Nat := (upto 4).filter fun n => (mset s n).enabled && (setCfg s n).isSome
/-- Heat channels whose intervals run. -/
def runningHeats (s : State) : List Nat := (upto 16).filter fun h => (heat s h).enabled && (heatCfg s h).isSome

/-- Apply a change for each number of a list. -/
def forEach (f : Nat → State → State) : List Nat → State → State
  | [], s => s
  | n :: r, s => forEach f r (f n s)

/-- Close every open interval. -/
def closeAll (flags : Byte) (now : Nat) (s : State) : State :=
  forEach (fun h => closeHeat h flags now) (upto 16) (forEach (fun n => closeSet n flags now) (upto 4) s)

/-- Open an interval of every enabled object. -/
def openAll (flags : Byte) (now : Nat) (s : State) : State :=
  let s := forEach (fun n => openSet n flags now) (runningSets s) s
  forEach (fun h => openHeat h flags now) (runningHeats s) s

/-- UTC in whole seconds; 23:59:60 counts with the day it ends (R277). -/
def utcSecNow (s : State) : Int :=
  let d := devNs s / 1000000000
  let inLeap := match s.time.leapAt with
    | some t => s.time.leap61 && decide (d + 1 = t)
    | none => false
  (d : Int) - s.time.utc - (if inLeap then 1 else 0)

/-- Device time of the last interval boundary (R277). -/
def ivBoundary (s : State) (intervalS : Nat) : Nat :=
  let past := (utcSecNow s % (Nat.max intervalS 1 : Nat)).toNat
  (devNs s / 1000000000 - past) * 1000000000

/-- The intervals that a boundary has passed close and the next ones open (R277). -/
def turnSets (b : Nat) : List Nat → State → State
  | [], s => s
  | n :: r, s =>
    let iv := (mset s n).interval
    turnSets b r (if iv.isOpen && later 64 iv.start b then openSet n 0 b (closeSet n 0 b s) else s)

/-- The same for heat channels. -/
def turnHeats (b : Nat) : List Nat → State → State
  | [], s => s
  | h :: r, s =>
    let iv := (heat s h).interval
    turnHeats b r (if iv.isOpen && later 64 iv.start b then openHeat h 0 b (closeHeat h 0 b s) else s)

/-- INTERVAL_CLOSE (R277, R278). -/
def execIntervalClose (s : State) : Res :=
  .next (match s.meter.params with
    | some p => if meterOn s then turnHeats (ivBoundary s p.intervalS) (upto 16) (turnSets (ivBoundary s p.intervalS) (upto 4) s) else s
    | none => s)

/-! ### Sample frames (R257 to R260) -/

/-- The 28 bytes of slots 0 to 6 in wire order (R258). -/
def frameWire (slots : List W32) : Bytes := (slots.take 7).flatMap fun w => putBE 4 w.toNat

/-- R259: SYNC, FORMAT, CRC, ADC fault and test pattern. -/
def frameGood (slots : List W32) : Bool :=
  let w (i : Nat) : Nat := (lget slots i 0).toNat
  bits (w 0) 24 8 = 0xA5 && bits (w 0) 0 8 = 1 && bits (w 7) 16 16 = crc16 (frameWire slots) && !bit (w 0) 8 &&
    (upto 6).all fun i => !bit (w (i + 1)) 1

/-- SEQ of a frame. -/
def frameSeq (slots : List W32) : Byte := byte (bits (lget slots 0 0).toNat 16 8)

/-- The six samples. -/
def frameSamples (slots : List W32) : List Int := (upto 6).map fun i => toSigned 24 (bits (lget slots (i + 1) 0).toNat 8 24)

/-- A slot has overrange set. -/
def frameOver (slots : List W32) : Bool := (upto 6).any fun i => bit (lget slots (i + 1) 0).toNat 0

/-! ### Correction (R264, R268) -/

/-- Compensation entry of a channel. -/
def compOf (p : MeterParams) (n band ch : Nat) : CompEntry :=
  lget p.comp (n * 48 + band * 6 + ch) { gain := 0, phase := 0, offset := 0 }

/-- x' of the six channels (R264). -/
def gainAll (p : MeterParams) (n band : Nat) (xs : List Int) : List Int :=
  (upto 6).map fun ch => let e := compOf p n band ch; rnd ((lget xs ch 0 - e.offset) * e.gain) 30

/-- A channel delayed by `ph` 2^-16 samples. -/
def delayed (x prev ph : Int) : Int := x + rnd ((prev - x) * ph) 16

/-- The six corrected samples: PHASE of the current entry delays the current, a negative one the voltage (R264). -/
def phaseAll (p : MeterParams) (n band : Nat) (x prev : List Int) : List Int :=
  (upto 6).map fun ch =>
    let ph := (compOf p n band (ch % 3 + 3)).phase
    let v := lget x ch 0
    let pv := lget prev ch v
    if ch < 3 then (if ph < 0 then delayed v pv (-ph) else v) else (if 0 ≤ ph then delayed v pv ph else v)

/-- Voltage of a phase a quarter of the measured cycle ago (R266). -/
def quarter (hist : List (List Int)) (nq : Int) (ph : Nat) : Int :=
  let q := Int.fdiv nq 4
  let m := (Int.fdiv q 65536).toNat
  let f := q % 65536
  let a := lget (lget hist m []) ph 0
  let b := lget (lget hist (m + 1) []) ph 0
  a + rnd ((b - a) * f) 16

/-- Add a sample to the sums of a phase (R265). -/
def addSample (sum : PhaseSum) (v vq i : Int) : PhaseSum :=
  { p := sum.p + v * i, q := sum.q + vq * i, v2 := sum.v2 + v * v, i2 := sum.i2 + i * i }

/-- Sums with one more sample. -/
def addAll (m : MeterSet) (c : List Int) (hist : List (List Int)) : List PhaseSum :=
  (upto 3).map fun ph =>
    addSample (lget m.sums ph {}) (lget c ph 0) (match m.nq with | some nq => quarter hist nq ph | none => 0)
      (lget c (ph + 3) 0)

/-! ### Line cycles (R265 to R267) -/

/-- 1 mWh in units of 10^-18 W × 1 ÷ 8 000 s (R267). -/
def mwhUnits : Nat := 28800000000000000000000

/-- Add to one register of a set: the accumulator, then whole mWh to the total (R267). -/
def accumulate (i amount : Nat) (m : MeterSet) : MeterSet :=
  let acc := lget m.residues i 0 + amount
  { m with totals := lset m.totals i ((lget m.totals i 0 + acc / mwhUnits) % 2 ^ 64)
           residues := lset m.residues i (acc % mwhUnits) }

/-- Assign a cycle's Pc, Qc and Sc to the registers (R267). -/
def assignCycle (pc qc sc : Int) (lsb : Nat) (m : MeterSet) : MeterSet :=
  let q := if 0 ≤ pc then (if 0 ≤ qc then 2 else 5) else (if 0 ≤ qc then 3 else 4)
  accumulate (if 0 ≤ pc then 6 else 7) (sc.natAbs * lsb)
    (accumulate q (qc.natAbs * lsb) (accumulate (if 0 ≤ pc then 0 else 1) (pc.natAbs * lsb) m))

/-- Pc, Qc and Sc of the open cycle (R265). -/
def cycleValues (m : MeterSet) : Int × Int × Int :=
  (isum (m.sums.map (·.p)), isum (m.sums.map (·.q)),
   isum (m.sums.map fun x => ((isqrt (x.v2.natAbs * x.i2.natAbs) : Nat) : Int)))

/-- The open cycle of a set in service contributes its energy (R265 to R267). -/
def closeCycle (c : SetCfg) (m : MeterSet) : MeterSet :=
  let (p, q, a) := cycleValues m
  let m := assignCycle p q a (c.vLsb * c.iLsb) m
  let iv := if m.range then flagIv ivRange m.interval else m.interval
  { m with lastCycle := [p, q, a, (m.samples : Int)], interval := iv }

/-- Position of a crossing, Q16 samples (R266). -/
def crossingAt (k : Nat) (v0 v1 : Int) : Int := ((k : Int) - 1) * 65536 + divr (-v0 * 65536) (v1 - v0)

/-- Band of a set at a crossing (R268, R269). -/
def bandAt (s : State) (c : SetCfg) (b : Nat) : Nat :=
  match tempOf s c.tempPoint with
  | some t => nextBand t c.bands b
  | none => b

/-- A cycle that only measures N_q adds nothing, but an overrange frame in it flags its interval RANGE (R259, R266). -/
def measureOnly (m : MeterSet) : MeterSet :=
  if m.lastK.isSome && m.range then { m with interval := flagIv ivRange m.interval } else m

/-- What a detected crossing does (R265 to R272): close the cycle, measure N_q, end a loss of signal, stop a set that is
being disabled. -/
def crossing (n : Nat) (c : SetCfg) (pos : Int) (s : State) : State :=
  let m := mset s n
  let m1 := if m.nq.isSome then closeCycle c m else measureOnly m
  let ends := m.los && m.lastK.isSome
  let nq := match m.lastK with
    | some _ => some (pos - m.lastC)
    | none => none
  let iv := if ends then missIv (since s m.losFrom / 1000) m1.interval else m1.interval
  let s := setMset n (fun _ => { m1 with
    nq := nq, lastC := pos, lastK := some m.k, lastZc := s.refNs, armed := false, samples := 0, range := false
    sums := [], los := m.los && !ends, interval := iv }) s
  let s := if ends then raise 0x63 [n] s else s
  if (mset s n).disabling then
    let s := closeSet n ivShort (devNs s) s
    setMset n (fun m => { m with enabled := false, disabling := false, nq := none, lastK := none }) s
  else s

/-- A band change at a crossing (R270). -/
def changeBand (n b : Nat) (s : State) : State :=
  if (mset s n).band = b then s
  else raise 0x64 [n, (mset s n).band, b]
    (setMset n (fun m => { m with band := b, interval := flagIv ivBand m.interval }) s)

/-- A good sample of a set in service (R264 to R272). -/
def meterSample (n : Nat) (p : MeterParams) (c : SetCfg) (xs : List Int) (past : Bool) (s : State) : State :=
  let m := mset s n
  let x := gainAll p n m.band xs
  let cor := phaseAll p n m.band x m.prev
  let v1 := lget cor c.zcPhase 0
  let v0 := lget (lget m.hist 0 []) c.zcPhase 0
  let far := match m.lastK with
    | some k => decide (114 ≤ m.k - k)
    | none => true
  let hit := m.armed && decide (0 ≤ v1) && decide (v0 < 0) && !m.hist.isEmpty && far
  let s := if hit then changeBand n (bandAt s c m.band) (crossing n c (crossingAt m.k v0 v1) s) else s
  let m' := mset s n
  let x := if m'.band = m.band then x else gainAll p n m'.band xs
  let cor := if m'.band = m.band then cor else phaseAll p n m'.band x m.prev
  let hist := ((cor.take 3) :: m'.hist).take 260
  let iv := if m'.nq.isNone && !m'.los then missIv 125 m'.interval else m'.interval
  setMset n (fun m => { m with
    prev := x, hist := hist, k := m.k + 1, sums := addAll m' cor hist, samples := m.samples + 1
    range := m.range || past, armed := m.armed || decide (lget cor c.zcPhase 0 ≤ -(c.zcHyst : Int)), interval := iv }) s

/-- Missing frames of a set that is not in loss of signal: 125 µs each (R259, R272). -/
def missFrames (n g : Nat) (s : State) : State :=
  if (mset s n).los then s else setMset n (fun m => { m with interval := missIv (125 * g) m.interval }) s

/-- An accepted frame of a lost port: the eighth in a row ends the loss (R260). -/
def portRecovers (n : Nat) (s : State) : State :=
  let r := (mset s n).okRun + 1
  if 8 ≤ r then raise 0x61 [n] (setMset n (fun m => { m with portLost := false, okRun := 0 }) s)
  else setMset n (fun m => { m with okRun := r }) s

/-- An accepted frame. -/
def acceptFrame (n : Nat) (slots : List W32) (s : State) : State :=
  let seq := frameSeq slots
  let gap := match (mset s n).lastSeq with
    | some l => (seq - l - 1).toNat
    | none => 0
  let s := missFrames n gap s
  let s := setMset n (fun m => { m with lastSeq := some seq, lastFrame := s.refNs }) s
  if (mset s n).portLost then portRecovers n s
  else match s.meter.params, setCfg s n with
    | some p, some c => if (mset s n).enabled then meterSample n p c (frameSamples slots) (frameOver slots) s else s
    | _, _ => s

/-- A discarded frame: MTR_FRAME_ERR and missing time (R259). -/
def discardFrame (n : Nat) (s : State) : State :=
  missFrames n 1 (rcAdd 0xC10 1 (setMset n (fun m => { m with lastSeq := m.lastSeq.map (· + 1), okRun := 0 }) s))

/-- A loop at L2 feeds the deserialiser from MB's generator; one at L4 does not stop R259 (R468, R470). -/
def portFed (s : State) (n : Nat) : Bool := loopHolds s 3 n && (s.test.loop.any fun l => decide (l.depth ≠ 4))

/-- MSP_FRAME (R257 to R272). -/
def execMspFrame (n : Fin 4) (slots : List W32) (s : State) : Res :=
  .next (if meterOn s && !portFed s n.val then (if frameGood slots then acceptFrame n.val slots s else discardFrame n.val s) else s)

/-- Enter loss of signal: the open cycle is discarded and counts as missing (R272). -/
def loseSignal (n : Nat) (s : State) : State :=
  setMset n (fun m => { m with
    los := true, losFrom := m.lastFrame, nq := none, lastK := none, armed := false, sums := [], range := false, samples := 0
    interval := flagIv ivLos (if m.nq.isSome then missIv (125 * m.samples) m.interval else m.interval) }) s

/-- A set that is being disabled has no open cycle in loss of signal: it stops at once (R286). -/
def stopIfDisabling (n : Nat) (s : State) : State :=
  if (mset s n).disabling then
    setMset n (fun m => { m with enabled := false, disabling := false, los := false }) (closeSet n ivShort (devNs s) s)
  else s

/-- METER_PORT_LOSS (R260); an enabled set of the port is in loss of signal. -/
def execMeterPortLoss (n : Fin 4) (s : State) : Res :=
  let m := mset s n.val
  .next (if meterOn s && !m.portLost && decide (1000000 ≤ since s m.lastFrame) then
      let s := setMset n.val (fun m => { m with portLost := true, okRun := 0 }) s
      let s := if m.los || !m.enabled then s else loseSignal n.val s
      stopIfDisabling n.val (raise 0x60 [n.val] s)
    else s)

/-- ZC_TIMEOUT: loss of signal (R272). -/
def execZcTimeout (n : Fin 4) (s : State) : Res :=
  let m := mset s n.val
  .next (match setCfg s n.val with
    | some c =>
      if meterOn s && m.enabled && !m.los && decide (c.zcTimeout * 1000000 ≤ since s m.lastZc) then
        stopIfDisabling n.val (raise 0x62 [n.val] (loseSignal n.val s))
      else s
    | none => s)

/-! ### Heat (R261 to R263, R273 to R275) -/

/-- PULSE_EDGE: an accepted edge with its stamp (R261). -/
def execPulseEdge (n : Fin 16) (levels : W16) (s : State) : Res :=
  .next (if meterOn s then
      { s with meter := { s.meter with
          edges := s.meter.edges ++ [{ input := n.val, stamp := devNs s, levels := levels }] } }
    else s)

/-- Forward and reverse pulses of a channel (R273). -/
def pulses (c : HeatCfg) (edges : List PulseEdge) : Nat × Nat :=
  let on := edges.filter fun e => e.input = c.pulseIn
  match c.flowSrc with
  | 0 => (on.length, 0)
  | 1 => ((on.filter fun e => !e.levels.getLsbD c.auxIn).length, (on.filter fun e => e.levels.getLsbD c.auxIn).length)
  | _ => (on.length, (edges.filter fun e => e.input = c.auxIn).length)

/-- Edges of a channel's inputs. -/
def edgesOf (c : HeatCfg) (edges : List PulseEdge) : Nat :=
  (edges.filter fun e => e.input = c.pulseIn || (c.flowSrc = 2 && e.input = c.auxIn)).length

/-- Supply and return nodes and values of a channel's table (R274). -/
def heatTable (p : MeterParams) (c : HeatCfg) : List Int × List Int × List (List Int) :=
  if c.ktable = 0 then Config.waterTable c.meterPos
  else match p.ktabs[c.ktable - 1]? with
    | some t => (t.f, t.r, t.k)
    | none => ([], [], [])

/-- Position a of a node list with F_a ≤ x ≤ F_a+1, for x within the grid. -/
def nodeOf : List Int → Int → Nat → Nat
  | a :: b :: r, x, i => if x ≤ b || r.isEmpty then i else nodeOf (b :: r) x (i + 1) + 0 * a.natAbs
  | _, _, i => i

/-- Limit a temperature to the grid. -/
def toGrid (l : List Int) (x : Int) : Int := clamp x (lget l 0 x) (lget l (l.length - 1) x)

/-- k of R274 at two temperatures within the grid. -/
def heatK (t : List Int × List Int × List (List Int)) (thf thr : Int) : Int :=
  let (f, r, k) := t
  let a := nodeOf f thf 0
  let c := nodeOf r thr 0
  let at' (i j : Nat) : Int := lget (lget k i []) j 0
  let dr := lget r (c + 1) 0 - lget r c 0
  let df := lget f (a + 1) 0 - lget f a 0
  let k1 := at' a c + tdiv ((thr - lget r c 0) * (at' a (c + 1) - at' a c)) dr
  let k2 := at' (a + 1) c + tdiv ((thr - lget r c 0) * (at' (a + 1) (c + 1) - at' (a + 1) c)) dr
  k1 + tdiv ((thf - lget f a 0) * (k2 - k1)) df

/-- 1 mWh in units of 2^-40 µWh (R275). -/
def heatUnits : Nat := 1000 * 2 ^ 40

/-- Add to a register of a heat channel with the divisor of its accumulator (R275). -/
def heatAdd (i amount divisor : Nat) (c : HeatCh) : HeatCh :=
  let acc := lget c.residues i 0 + amount
  { c with totals := lset c.totals i ((lget c.totals i 0 + acc / divisor) % 2 ^ 64)
           residues := lset c.residues i (acc % divisor) }

/-- Volumes of a step (R275). -/
def heatVolumes (vf vr : Nat) (c : HeatCh) : HeatCh := heatAdd 3 vr 1000 (heatAdd 2 vf 1000 c)

/-- Energies of a step, and the power they mean over 100 ms (R275, R288). -/
def heatEnergies (cfg : HeatCfg) (k : Int) (vf vr : Nat) (dt : Int) (c : HeatCh) : HeatCh :=
  if dt ≤ cfg.dtMin then { c with lastStep := [0, divr ((vf : Int) - vr) 100] }
  else
    let ef := (k * vf * dt).natAbs
    let er := (k * vr * dt).natAbs
    { heatAdd 1 er heatUnits (heatAdd 0 ef heatUnits c) with
      lastStep := [divr (((ef : Int) - er) * 36) heatUnits, divr ((vf : Int) - vr) 100] }

/-- The quantity part of a step with valid temperatures; the flag says that a temperature left the grid. -/
def heatQuantity (p : MeterParams) (cfg : HeatCfg) (vf vr : Nat) (thf thr : Int) (c : HeatCh) : HeatCh × Bool :=
  let t := heatTable p cfg
  let gf := toGrid t.1 thf
  let gr := toGrid t.2.1 thr
  let dt := if cfg.mode = 1 then thf - thr else thr - thf
  (heatEnergies cfg (heatK t gf gr) vf vr dt c, decide (gf ≠ thf) || decide (gr ≠ thr))

/-- One step of a heat channel over some edges (R261, R263, R273 to R275). -/
def heatStepOne (p : MeterParams) (edges : List PulseEdge) (ms h : Nat) (s : State) : State :=
  match heatCfg s h with
  | none => s
  | some cfg =>
    if (heat s h).enabled then
      let (nf, nr) := pulses cfg edges
      let vf := nf * cfg.pwUl
      let vr := nr * cfg.pwUl
      let fast := decide (1200 < edgesOf cfg edges)
      let c := heat s h
      let s := raiseOnce (c.rateEp || !fast) 0x66 [h] s
      let c := heatVolumes vf vr { c with rateEp := fast, interval := if fast then flagIv ivRange c.interval else c.interval }
      let s := match c.supply, c.ret with
        | some thf, some thr =>
          let (c, out) := heatQuantity p cfg vf vr thf thr c
          let s := raiseOnce (c.rangeEp || !out) 0x67 [h] s
          setHeat h (fun _ => { c with
            rangeEp := out, tempEp := false, interval := if out then flagIv ivRange c.interval else c.interval }) s
        | _, _ =>
          let s := raiseOnce c.tempEp 0x65 [h] s
          setHeat h (fun _ => { c with
            tempEp := true, lastStep := [0, divr ((vf : Int) - vr) 100]
            interval := missIv (1000 * ms) (flagIv ivTemp c.interval) }) s
      if (heat s h).disabling then
        let s := closeHeat h ivShort (devNs s) s
        setHeat h (fun c => { c with enabled := false, disabling := false }) s
      else s
    else s

/-! ### Points (R288) -/

/-- MB writes a point that is defined with SOURCE 3. -/
def meterPoint (id : Nat) (value scale : Int) (q : Nat) (stamp : Nat) (s : State) : State :=
  match defOf s id with
  | some d => if tfSource d.typeflags = 3 then writeScaled id value scale (shortOf stamp) (byte q) s else s
  | none => s

/-- MB marks a point BAD, leaving its value. -/
def meterBad (id : Nat) (stamp : Nat) (s : State) : State :=
  match defOf s id with
  | some d => if tfSource d.typeflags = 3 then
      let r := liveRec s id
      putRec id { r with quality := byte qBad, stime := shortOf stamp } s else s
  | none => s

/-- Power of a cycle value in W. -/
def cycleWatts (c : SetCfg) (value ns : Int) : Int :=
  if ns = 0 then 0 else divr (value * ((c.vLsb * c.iLsb : Nat) : Int)) (ns * 1000000000000000000)

/-- Instantaneous points of a set. -/
def setPoints (now n : Nat) (s : State) : State :=
  match setCfg s n with
  | none => s
  | some c =>
    let m := mset s n
    if !m.enabled then s
    else if m.los then forEach (fun i => meterBad (c.pointBase + 8 + i) now) (upto 4) s
    else
      let w (i : Nat) : Int := cycleWatts c (lget m.lastCycle i 0) (lget m.lastCycle 3 0)
      let hz := match m.nq with
        | some nq => if nq = 0 then 0 else divr 524288000000 nq
        | none => 0
      meterPoint (c.pointBase + 11) hz 0 qGood now (meterPoint (c.pointBase + 10) (w 2) 0 qGood now
        (meterPoint (c.pointBase + 9) (w 1) 0 qGood now (meterPoint (c.pointBase + 8) (w 0) 0 qGood now s)))

/-- Instantaneous points of a heat channel. -/
def heatPoints (now h : Nat) (s : State) : State :=
  match heatCfg s h with
  | none => s
  | some c =>
    let x := heat s h
    if !x.enabled then s
    else match x.supply, x.ret with
      | some thf, some thr =>
        meterPoint (c.pointBase + 7) thr (-16) qGood now (meterPoint (c.pointBase + 6) thf (-16) qGood now
          (meterPoint (c.pointBase + 5) (lget x.lastStep 1 0) 0 qGood now
            (meterPoint (c.pointBase + 4) (lget x.lastStep 0 0) 0 qGood now s)))
      | _, _ => forEach (fun i => meterBad (c.pointBase + 4 + i) now) (upto 4) s

/-- Totals to their points (R288). -/
def totalPoints (now : Nat) (s : State) : State :=
  let put (base : Nat) (totals : List Nat) (s : State) : State :=
    forEach (fun i => meterPoint (base + i) ((lget totals i 0 : Nat) : Int) 0 qGood now) (upto totals.length) s
  let s := forEach (fun n s => match setCfg s n with
    | some c => put c.pointBase (mset s n).totals s
    | none => s) (upto 4) s
  forEach (fun h s => match heatCfg s h with
    | some c => put c.pointBase (heat s h).totals s
    | none => s) (upto 16) s

/-- The bytes of a read whose CRC-8 is right, with one repeat (R262, R263). -/
def tbusBytes (r : TbusRead) : Option Bytes :=
  let ok (b : Bytes) : Bool := b.length = 24 && crc8 (b.take 23) = getLE b 23 1
  if ok r.first then some r.first else if ok r.second then some r.second else none

/-- A temperature of a converter channel; none when it failed (R262, R263). -/
def tbusTemp (b : Option Bytes) (ch : Nat) : Option Int :=
  match b with
  | some d => if getLE d (5 * ch + 4) 1 = 0 then some (getSLE d (5 * ch) 4) else none
  | none => none

/-- Temperatures of a heat channel from the reads (R262). -/
def readTemps (reads : List TbusRead) (h : Nat) (s : State) : State :=
  let b := (reads[h / 2]?).bind tbusBytes
  let f := tbusTemp b (2 * (h % 2))
  let r := tbusTemp b (2 * (h % 2) + 1)
  let s := if (heat s h).enabled && (heatCfg s h).isSome then rcAdd 0xC14 (b2n f.isNone + b2n r.isNone) s else s
  setHeat h (fun c => { c with supply := f, ret := r }) s

/-- The temperatures of a step are those read at its opening; without that read they are not available, and failed (R263,
R273). -/
def needReads (opened : Nat) (s : State) : State :=
  if s.meter.readAt = opened then s else forEach (readTemps []) (upto 16) s

/-- A heat step up to an instant, with the temperatures read at its opening (R273). -/
def heatStepAt (opened t ms : Nat) (s : State) : State :=
  match s.meter.params with
  | none => { s with meter := { s.meter with stepAt := t, edges := [] } }
  | some p =>
    let s := needReads opened s
    let edges := s.meter.edges.filter fun e => later 64 e.stamp t
    let s := forEach (heatStepOne p edges ms) (upto 16) s
    { s with meter := { s.meter with stepAt := t, edges := s.meter.edges.filter fun e => !later 64 e.stamp t } }

/-- Last 100 ms boundary of device time. -/
def boundary100 (s : State) : Nat := devNs s / 100000000 * 100000000

/-- The step and the instantaneous points, once per boundary (R273, R288). -/
def heatStepDue (s : State) : State :=
  let t := boundary100 s
  if later 64 s.meter.stepAt t then
    let s := heatStepAt (t - 100000000) t 100 s
    forEach (heatPoints t) (upto 16) (forEach (setPoints t) (upto 4) s)
  else s

/-- HEAT_STEP (R273). -/
def execHeatStep (s : State) : Res := .next (if meterOn s then heatStepDue s else s)

/-- TBUS_READ: the reads of a 100 ms boundary; the step that ends there comes first (R262, R263, R273). -/
def execTbusRead (reads : List TbusRead) (s : State) : Res :=
  .next (if meterOn s then
      let s := heatStepDue s
      if later 64 s.meter.readAt (boundary100 s) then
        let t := boundary100 s
        let s := forEach (readTemps reads) (upto 16) s
        { s with meter := { s.meter with readAt := t } }
      else s
    else s)

/-! ### Saves (R280, R281, R288 to R290) -/

/-- Totals of the four sets. -/
def setTotals (s : State) : List (List Nat) := (upto 4).map fun n => (mset s n).totals
/-- Totals of the sixteen heat channels. -/
def heatTotals (s : State) : List (List Nat) := (upto 16).map fun h => (heat s h).totals

/-- Totals as bytes in block order. -/
def totalBytes (sets heats : List (List Nat)) : Bytes :=
  (sets.flatMap fun t => t.flatMap (putLE 8)) ++ heats.flatMap fun t => t.flatMap (putLE 8)

/-- Write a totals block (R280, R281). -/
def writeBlock (flags : Nat) (s : State) : State :=
  let seq := s.meter.seq + 1
  let b : TotBlock :=
    { flags := BitVec.ofNat 16 flags, seq := seq, stamp := devNs s, version := s.meter.version
      paramCrc := (s.meter.params.map (·.crc)).getD 0
      sets := setTotals s, setRes := (upto 4).map fun n => (mset s n).residues
      openMs := (upto 4).map fun n => (mset s n).openMs
      heats := heatTotals s, heatRes := (upto 16).map fun h => (heat s h).residues }
  { s with meter := { s.meter with seq := seq, blocks := fset s.meter.blocks (seq.toNat % 16) b
                                   lastVersion := s.meter.version } }

/-- Adopt totals, and residues where given (R290). -/
def adoptTotals (sets heats : List (List Nat)) (res : Option (List (List Nat) × List (List Nat))) (s : State) : State :=
  let s := forEach (fun n => setMset n (fun m => { m with
    totals := lget sets n m.totals, residues := (res.map fun r => lget r.1 n m.residues).getD m.residues })) (upto 4) s
  forEach (fun h => setHeat h (fun c => { c with
    totals := lget heats h c.totals, residues := (res.map fun r => lget r.2 h c.residues).getD c.residues })) (upto 16) s

/-- An adoption that waits for the save (R290). -/
def adoptAtSave (s : State) : State :=
  if s.meter.adopt.isSome && !s.meter.mirrorSets.isEmpty then
    adoptTotals s.meter.mirrorSets s.meter.mirrorHeat none s else s

/-- CRC-32C of the totals (R290). -/
def totalsCrc (s : State) : Nat := crc32c (totalBytes (setTotals s) (heatTotals s))

/-- A save with further flags (R280, R288 to R290). -/
def saveTotals (extra : Nat) (s : State) : State :=
  let adopting := s.meter.adopt
  let s := adoptAtSave s
  let flags := extra + (if s.meter.takeover then 4 else 0) + (if adopting.isSome then 8 else 0)
  let s := if s.meter.takeover then raise 0x6F [totalsCrc s] s else s
  let s := writeBlock flags { s with meter := { s.meter with takeover := false, adopt := none } }
  let s := if adopting.isSome then raise 0x6E [totalsCrc s] s else s
  let s := totalPoints (devNs s) s
  let s := sendMirror (.totals (setTotals s) (heatTotals s)) s
  match adopting with
  | some (some r) => finishOk 0x0630 r [] s
  | _ => s

/-- TOTALS_SAVE: at each whole second of device time (R280). -/
def execTotalsSave (s : State) : Res :=
  .next (if meterOn s && later 64 s.meter.savedAt (devNs s / 1000000000 * 1000000000) then
      let s := { s with meter := { s.meter with savedAt := devNs s / 1000000000 * 1000000000 } }
      saveTotals 0 s
    else s)

/-! ### Divergence (R289) -/

/-- Tolerance on a total. -/
def divLimit (p : MeterParams) (a : Nat) : Nat := p.divMwh + a * p.divPpm / 1000000

/-- Compare one total with the active's; an episode ends after 60 saves within tolerance. -/
def compareTotal (p : MeterParams) (obj i a own : Nat) (s : State) : State :=
  let apart := decide (divLimit p a < ((a : Int) - own).natAbs)
  let open' := s.meter.diverge.any fun e => e.object = obj && e.total = i
  if apart then
    (if open' then
      { s with meter := { s.meter with diverge := s.meter.diverge.map fun e =>
          if e.object = obj && e.total = i then { e with okRun := 0 } else e } }
     else
      let s := { s with meter := { s.meter with diverge := s.meter.diverge ++ [{ object := obj, total := i, okRun := 0 }] } }
      let s := if obj < 0x10 then setMset obj (fun m => { m with interval := flagIv ivDiverge m.interval }) s
        else setHeat (obj - 0x10) (fun c => { c with interval := flagIv ivDiverge c.interval }) s
      raise 0x6D [obj, i, a, own] s)
  else
    let next (e : DivEp) : Option DivEp :=
      if e.object = obj && e.total = i then (if e.okRun + 1 < 60 then some { e with okRun := e.okRun + 1 } else none)
      else some e
    { s with meter := { s.meter with diverge := s.meter.diverge.filterMap next } }

/-- Compare an object's totals. -/
def compareTotals (p : MeterParams) (obj : Nat) (own : List Nat) : List (Nat × Nat) → State → State
  | [], s => s
  | (i, a) :: r, s => compareTotals p obj own r (compareTotal p obj i a (lget own i 0) s)

/-- The active's totals arrive at the standby (R289). -/
def totalsArrive (sets heats : List (List Nat)) (s : State) : State :=
  let s := { s with meter := { s.meter with mirrorSets := sets, mirrorHeat := heats } }
  match s.meter.params with
  | none => s
  | some p =>
    let s := forEach (fun n s => compareTotals p n (mset s n).totals (indexed 0 (lget sets n [])) s) (upto 4) s
    forEach (fun h s => compareTotals p (heatObj h) (heat s h).totals (indexed 0 (lget heats h [])) s) (upto 16) s

/-! ### Flush, resume and restore (R279, R282, R283, R285) -/

/-- Open-cycle time of a set in ms (R282). -/
def openCycleMs (m : MeterSet) : Nat := if m.lastK.isSome then m.samples / 8 else 0

/-- PFW_N falls (R282). -/
def flushMeter (s : State) : State :=
  if meterOn s then
    let now := devNs s
    let ms := devSince s s.meter.stepAt / 1000000
    let s := heatStepAt (boundary100 s) now (Nat.min ms 100) s
    let s := forEach (fun n => setMset n (fun m => { m with
      openMs := openCycleMs m, nq := none, lastK := none, sums := [], samples := 0, range := false })) (upto 4) s
    let s := closeAll ivShort now s
    let s := writeBlock 1 s
    { s with meter := { s.meter with flushed := true, stopped := true } }
  else s

/-- PFW_N rises before the supply fails: metering resumes (R282). -/
def resumeMeter (s : State) : State :=
  if s.meter.stopped then
    let now := devNs s
    let s := { s with meter := { s.meter with stopped := false, stepAt := boundary100 s, edges := [] } }
    let s := forEach (fun n => setMset n (fun m => { m with
      lastSeq := none, lastFrame := s.refNs, lastZc := s.refNs, losFrom := Nat.max s.refNs m.losFrom, openMs := 0 })) (upto 4) s
    openAll ivRestart now s
  else s

/-- The valid block with the highest SEQ. -/
def lastBlock : FMap TotBlock → Option TotBlock
  | [] => none
  | (_, b) :: r =>
    match lastBlock r with
    | some c => if later 64 b.seq.toNat c.seq.toNat then some c else some b
    | none => some b

/-- Bound of the energy of one second at PMAX_W, mWh (R283). -/
def unsavedBound (pmax : Nat) : Nat := (pmax * 10 + 35) / 36

/-- METER_UNSAVED for each object (R283). -/
def reportUnsaved (s : State) : State :=
  let s := forEach (fun n s => match setCfg s n with
    | some c => raise 0x68 [n, unsavedBound c.pmaxW] s
    | none => s) (upto 4) s
  forEach (fun h s => match heatCfg s h with
    | some c => raise 0x68 [heatObj h, unsavedBound c.pmaxW] s
    | none => s) (upto 16) s

/-- Totals and residues from a block. -/
def restoreBlock (b : TotBlock) (s : State) : State :=
  let s := forEach (fun n => setMset n (fun m => { m with
    totals := lget b.sets n m.totals, residues := lget b.setRes n m.residues })) (upto 4) s
  let s := forEach (fun h => setHeat h (fun c => { c with
    totals := lget b.heats h c.totals, residues := lget b.heatRes h c.residues })) (upto 16) s
  { s with meter := { s.meter with seq := b.seq } }

/-- MB at a start, with the parameters of the settings store already in force (R279, R283, R285). -/
def startMeter (version : W32) (s : State) : State :=
  let now := devNs s
  let old := s.meter.lastVersion
  let s := { s with meter := { s.meter with
    version := version, stopped := false, flushed := false, stepAt := boundary100 s, readAt := boundary100 s
    savedAt := now / 1000000000 * 1000000000 } }
  let s := match lastBlock s.meter.blocks with
    | some b =>
      let s := restoreBlock b s
      if b.flags.toNat % 4 = 0 then reportUnsaved s else s
    | none => raise 0x69 [] s
  let s := if old ≠ 0 && decide (old ≠ version) then raise 0x6B [old.toNat, version.toNat] s else s
  let s := forEach (fun n => setMset n (fun m => { m with lastFrame := s.refNs, lastZc := s.refNs })) (upto 4) s
  openAll ivRestart now s

/-- What a main-side cold reset leaves of MB: the enables, the totals area and the version of the last save. -/
def resetMeter (m : Meter) : Meter :=
  { sets := (m.sets.map fun e => (e.1, ({ enabled := e.2.enabled && !e.2.disabling } : MeterSet)))
    heats := (m.heats.map fun e => (e.1, ({ enabled := e.2.enabled && !e.2.disabling } : HeatCh)))
    blocks := m.blocks, lastVersion := m.lastVersion }

/-! ### Commands (R284, R286, R293) -/

/-- CMD_MTR_PARAM_LOAD (R293). -/
def specMtrParamLoad : CmdSpec where
  opcode := 0x0601
  length := chunkLen
  check _ p s := chunkRefusal (fun t => t = meterLen) s.meter.load p
  run r p s :=
    let c := chunkNext s.meter.load p
    if chunkDone c then
      let s := { s with meter := { s.meter with load := none } }
      if !meterValid c.received then finish 0x0601 r stBadCrc 0 [] s
      else if !sectionVerify s destUv c.received 20544 then finish 0x0601 r stDenied 7 [] s
      else
        let s := sectionUsed c.received 20544 s
        finishOk 0x0601 r [] { s with meter := { s.meter with loaded := some (parseMeter c.received, c.received) } }
    else finishOk 0x0601 r [] { s with meter := { s.meter with load := some c } }

/-- CMD_MTR_PARAM_LOAD -/
def execCmdMtrParamLoad (r : Req) (s : State) : Res := .next (runCmd specMtrParamLoad r s)

/-- The verified block that a switch names. -/
def switchBlock (s : State) (p : Bytes) : Option (MeterParams × Bytes) :=
  s.meter.loaded.filter fun b => b.1.crc.toNat = getLE p 0 4

/-- CMD_MTR_PARAM_SWITCH: the record and both settings copies first, then the next whole second (R284). -/
def specMtrParamSwitch : CmdSpec where
  opcode := 0x0602
  length := fixedLen 4
  check _ p s :=
    match switchBlock s p with
    | none => some (stBadParam, 0)
    | some b => refuseIf (decide (s.meter.version.toNat < b.1.meterLevel) || (freePermanent s).isNone) stDenied 7
  run r p s :=
    match switchBlock s p with
    | none => s
    | some b =>
      let old := s.meter.params
      let s := writeNewest 0x6A (raise 0x6A [((old.map MeterParams.crc).getD 0).toNat, b.1.crc.toNat,
        ((old.map MeterParams.paramId).getD 0).toNat, b.1.paramId.toNat] s)
      let due := (devNs s / 1000000000 + 1) * 1000000000
      holdCmd 0x0602 r { s with
        stores := { s.stores with meterRec := fset (fset s.stores.meterRec 0 b.2) 1 b.2 }
        meter := { s.meter with switch := some { req := r, params := b.1, raw := b.2, due := due } } }

/-- CMD_MTR_PARAM_SWITCH -/
def execCmdMtrParamSwitch (r : Req) (s : State) : Res := .next (runCmd specMtrParamSwitch r s)

/-- MTR_PARAM_EFFECT: open intervals close short and the parameters take effect (R279, R284). -/
def execMtrParamEffect (s : State) : Res :=
  .next (match s.meter.switch with
    | none => s
    | some w =>
      if reached s w.due then
        let s := closeAll ivShort w.due s
        let s := { s with meter := { s.meter with params := some w.params, switch := none } }
        finishOk 0x0602 w.req [] (openAll 0 w.due s)
      else s)

/-- CMD_MTR_PARAM_READ (R293). -/
def specMtrParamRead : CmdSpec where
  opcode := 0x0603
  length := fixedLen 0
  check _ _ _ := none
  run r _ s :=
    finishOk 0x0603 r ((s.meter.params.map (·.header)).getD (zeros 64) ++ putLE 4 s.meter.version.toNat) s

/-- CMD_MTR_PARAM_READ -/
def execCmdMtrParamRead (r : Req) (s : State) : Res := .next (runCmd specMtrParamRead r s)

/-- Bytes 0 to 31 of a totals block (R281). -/
def blockHead (b : TotBlock) : Bytes :=
  putLE 4 0x544D4756 ++ putLE 2 1 ++ putLE 2 b.flags.toNat ++ putLE 8 b.seq.toNat ++ putLE 8 b.stamp ++
    putLE 4 b.version.toNat ++ putLE 4 b.paramCrc.toNat

/-- CMD_MTR_TOTALS (R293). -/
def specMtrTotals : CmdSpec where
  opcode := 0x0610
  length := fixedLen 0
  check _ _ _ := none
  run r _ s :=
    let d := match lastBlock s.meter.blocks with
      | some b => blockHead b ++ totalBytes b.sets b.heats
      | none => zeros 32 ++ totalBytes (setTotals s) (heatTotals s)
    finishOk 0x0610 r d s

/-- CMD_MTR_TOTALS -/
def execCmdMtrTotals (r : Req) (s : State) : Res := .next (runCmd specMtrTotals r s)

/-- An interval record as R278 lays it out. -/
def intervalBytes (x : IntervalRec) : Bytes :=
  [byte x.object, x.flags, 0, 0] ++ putLE 4 x.duration ++ putLE 8 x.start ++ putLE 4 x.missing ++ zeros 4 ++
    ((upto 8).flatMap fun i => putLE 8 (lget x.deltas i 0)) ++ putLE 4 x.seq.toNat ++ zeros 4

/-- Interval of an object. -/
def intervalOf (s : State) (obj : Nat) : Interval :=
  if obj < 4 then (mset s obj).interval else (heat s (obj - 0x10)).interval

/-- Records from a SEQ, oldest first, and whether the SEQ was older than the ring. -/
def intervalsFrom (iv : Interval) (start : W32) (count : Nat) : List IntervalRec × Bool :=
  let held := Nat.min 4096 iv.ring.length
  let back := (iv.nextSeq - start).toNat
  let old := decide (held < back) && decide (back < 2 ^ 31)
  let n := if old then held else if held < back then 0 else back
  (((upto n).filterMap fun i => fget iv.ring ((iv.nextSeq - BitVec.ofNat 32 (n - i)).toNat % 4096)).take count, old)

/-- CMD_MTR_INTERVALS (R293). -/
def specMtrIntervals : CmdSpec where
  opcode := 0x0611
  length := fixedLen 8
  check _ p _ :=
    let o := getLE p 0 1
    badParam [(0, !(decide (o < 4) || (decide (0x10 ≤ o) && decide (o < 0x20)))),
      (1, getLE p 1 1 = 0 || 42 < getLE p 1 1), (2, notZero p 2 2)]
  run r p s :=
    let (l, old) := intervalsFrom (intervalOf s (getLE p 0 1)) (BitVec.ofNat 32 (getLE p 4 4)) (getLE p 1 1)
    finishOk 0x0611 r ([byte l.length, byte (b2n old)] ++ zeros 6 ++ l.flatMap intervalBytes) s

/-- CMD_MTR_INTERVALS -/
def execCmdMtrIntervals (r : Req) (s : State) : Res := .next (runCmd specMtrIntervals r s)

/-- Enable or disable a set (R286). -/
def enableSet (n : Nat) (on : Bool) (s : State) : State :=
  let m := mset s n
  if on then
    (if m.enabled then setMset n (fun m => { m with disabling := false }) s
     else
      let s := setMset n (fun m => { m with
        enabled := true, nq := none, lastK := none, armed := false, sums := [], samples := 0, range := false, los := m.portLost
        losFrom := s.refNs, lastZc := s.refNs, lastFrame := s.refNs }) s
      if (setCfg s n).isSome then openSet n 0 (devNs s) s else s)
  else if m.enabled then
    let s := setMset n (fun m => { m with disabling := true }) s
    if m.los || (setCfg s n).isNone then stopIfDisabling n s else s
  else s

/-- Enable or disable a heat channel (R286). -/
def enableHeat (h : Nat) (on : Bool) (s : State) : State :=
  let c := heat s h
  if on then
    (if c.enabled then setHeat h (fun c => { c with disabling := false }) s
     else
      let s := setHeat h (fun c => { c with enabled := true }) s
      if (heatCfg s h).isSome then openHeat h 0 (devNs s) s else s)
  else if c.enabled then
    (if (heatCfg s h).isSome then setHeat h (fun c => { c with disabling := true }) s
     else setHeat h (fun c => { c with enabled := false }) s)
  else s

/-- CMD_MTR_ENABLE (R286, R293). -/
def specMtrEnable : CmdSpec where
  opcode := 0x0620
  length := fixedLen 8
  check _ p _ := badParam [(0, bits (getLE p 0 4) 4 12 ≠ 0), (4, bits (getLE p 4 4) 4 12 ≠ 0)]
  run r p s :=
    let mask := getLE p 0 4
    let en := getLE p 4 4
    let s := writeNewest 0x6C (raise 0x6C [mask, en] s)
    let s := forEach (fun n => enableSet n (bit en n)) ((upto 4).filter fun n => bit mask n) s
    let s := forEach (fun h => enableHeat h (bit en (16 + h))) ((upto 16).filter fun h => bit mask (16 + h)) s
    finishOk 0x0620 r [] s

/-- CMD_MTR_ENABLE -/
def execCmdMtrEnable (r : Req) (s : State) : Res := .next (runCmd specMtrEnable r s)

/-- CMD_MTR_ADOPT: the standby adopts at the next save; the active answers once its standby is asked (R290, R293). -/
def specMtrAdopt : CmdSpec where
  opcode := 0x0630
  length := fixedLen 0
  check _ _ s := refuseIf (decide (s.pair.role = .solo)) stNotActive 0
  run r _ s :=
    if s.pair.role = .standby then holdCmd 0x0630 r { s with meter := { s.meter with adopt := some (some r) } }
    else finishOk 0x0630 r [] s

/-- CMD_MTR_ADOPT -/
def execCmdMtrAdopt (r : Req) (s : State) : Res := .next (runCmd specMtrAdopt r s)

end Sys2Proof.Machine
end

