-- ==== Sys2Proof/Machine/Image.lean ====
section
/-! DEFINITION. Image.lean: the program image: layout, checks and code verification (R118 to R131, R136, R147). -/

namespace Sys2Proof.Machine

/-! ### Sections (R118 to R120); models and problems follow R119 too -/

/-- A directory entry (R119). -/
structure Sect where
  /-- TYPE -/
  type   : Nat
  /-- OFFSET -/
  off    : Nat
  /-- LENGTH -/
  len    : Nat
  /-- SECTION_CRC -/
  crc    : Nat
  /-- the 2 reserved bytes -/
  spare  : Nat
deriving DecidableEq, Repr

/-- Directory of `n` entries at offset 64. -/
def directory (b : Bytes) (n : Nat) : List Sect :=
  (upto n).map fun i =>
    let o := 64 + 16 * i
    { type := getLE b o 2, off := getLE b (o + 4) 4, len := getLE b (o + 8) 4, crc := getLE b (o + 12) 4
      spare := getLE b (o + 2) 2 }

/-- Two sections have no byte in common. -/
def apart (a b : Sect) : Bool := decide (a.off + a.len ≤ b.off) || decide (b.off + b.len ≤ a.off)

/-- No two entries overlap, and no type occurs twice. -/
def sectionsApart : List Sect → Bool
  | [] => true
  | a :: r => (r.all fun b => apart a b && decide (a.type ≠ b.type)) && sectionsApart r

/-- Directory layout of R119, with the signature section of a type last. -/
def dirOk (b : Bytes) (dir : List Sect) (sigType sigOff : Nat) : Bool :=
  sectionsApart dir &&
  (dir.all fun x => x.off % 64 = 0 && decide (64 + 16 * dir.length ≤ x.off) && decide (x.off + x.len ≤ b.length)) &&
  (dir.any fun x => x.type = sigType && x.off = sigOff && x.len = 128 && x.crc = 0 && x.off + x.len = b.length)

/-- Every SECTION_CRC is right (R119). -/
def sectCrcsOk (b : Bytes) (dir : List Sect) (sigType : Nat) : Bool :=
  dir.all fun x => x.type = sigType || crc32c (slice b x.off x.len) = x.crc

/-- The bytes of a section; empty when it is missing. -/
def sectBytes (b : Bytes) (dir : List Sect) (t : Nat) : Bytes :=
  match dir.find? fun x => x.type = t with
  | some x => slice b x.off x.len
  | none => []

/-- A section is present. -/
def hasSect (dir : List Sect) (t : Nat) : Bool := dir.any fun x => x.type = t

/-- Fixed-size entries of a section. -/
def entriesOf (x : Bytes) (size : Nat) : List Bytes := (upto (x.length / size)).map fun i => slice x (size * i) size

/-- Reserved bytes of the signature section (R119, R130). -/
def sigSpareOk (b : Bytes) (sigOff : Nat) : Bool := allZero (slice b (sigOff + 4) 12) && allZero (slice b (sigOff + 112) 16)

/-! ### Reading an image -/

/-- SECTION_COUNT -/
def imgDir (b : Bytes) : List Sect := directory b (getLE b 28 2)

/-- A section of an image. -/
def imgSect (b : Bytes) (t : Nat) : Bytes := sectBytes b (imgDir b) t

/-- A CLASS entry (R121). -/
def parseClass (e : Bytes) : ClassEntry :=
  { courseCount := getLE e 2 2, firstCourse := getLE e 4 4, unitMaxEmber := getLE e 8 4, solveCourse := getLE e 12 2
    stateBytes := getLE e 16 4 }

/-- A COURSE entry (R122). -/
def parseCourse (e : Bytes) : CourseEntry :=
  { cls := getLE e 0 1, course := getLE e 2 2, firstUnit := getLE e 4 4, unitCount := getLE e 8 4, worstUs := getLE e 12 4 }

/-- A UNIT entry with its write set (R123). -/
def parseUnit (ws : Bytes) (e : Bytes) : UnitEntry :=
  { firstInstance := getLE e 0 4, instanceCount := getLE e 4 2, cls := getLE e 6 1, crit := getLE e 7 1
    course := getLE e 8 2, homeEngine := getLE e 10 1, worstClocks := getLE e 12 4, ember := getLE e 16 4
    scratchBytes := getLE e 20 4
    writeSet := (upto (getLE e 28 4)).map fun i => getLE ws (4 * (getLE e 24 4 + i)) 4 }

/-- An INSTANCE entry with its bindings, constants and code (R124, R125). -/
def parseInst (bind param code e : Bytes) : InstEntry :=
  let po := getLE e 8 4
  let bf := getLE e 16 4
  let ni := getLE e 12 2
  { id := getLE e 0 4, blockType := getLE e 4 2
    ins := (upto ni).map fun i => getLE bind (8 * (bf + i)) 4
    outs := (upto (getLE e 14 2)).map fun i => getLE bind (8 * (bf + ni + i)) 4
    stateOffset := getLE e 20 4, stateLen := getLE e 24 2, stepLimit := getLE e 26 2
    w := getSLE param po 1
    consts := (upto (getLE param (po + 2) 2)).map fun k => getSLE param (po + 8 + 8 * k) 8
    code := (upto (getLE param (po + 4) 4)).map fun i => BitVec.ofNat 32 (getLE code (4 * (getLE e 28 4 + i)) 4) }

/-- A POINTDEF entry (R126). -/
def parsePointDef (e : Bytes) : PointDef :=
  { id := getLE e 0 4, typeflags := BitVec.ofNat 16 (getLE e 4 2), scale := getSLE e 6 1, rangeMin := getSLE e 8 8
    rangeMax := getSLE e 16 8, enumSize := getLE e 24 2, unitCode := getLE e 26 2, name := BitVec.ofNat 32 (getLE e 28 4) }

/-- The initial state buffers of class codes 0 to 4 (R127). -/
def parseStates (x : Bytes) : Nat → List ClassEntry → List Bytes
  | _, [] => []
  | o, c :: r => slice x o c.stateBytes :: parseStates x (o + c.stateBytes) r

/-- A RETAIN entry (R128). -/
def parseRetain (e : Bytes) : RetainEntry :=
  { kind := getLE e 0 1, crit := getLE e 1 1, length := getLE e 2 2, key := getLE e 4 4, layout := getLE e 8 4 }

/-- The whole image. -/
def parseImage (b : Bytes) : Image :=
  let ini := imgSect b 9
  let classes := (entriesOf (imgSect b 1) 32).map parseClass
  let np := getLE ini 0 4
  { crc := BitVec.ofNat 32 (getLE b 12 4), imageId := BitVec.ofNat 64 (getLE b 16 8), runtimeLevel := getLE b 40 4
    classes := classes
    courses := (entriesOf (imgSect b 2) 16).map parseCourse
    units := (entriesOf (imgSect b 3) 32).map (parseUnit (imgSect b 6))
    instances := (entriesOf (imgSect b 4) 32).map (parseInst (imgSect b 5) (imgSect b 8) (imgSect b 12))
    points := (entriesOf (imgSect b 7) 32).map parsePointDef
    initialPts := (upto np).map fun i => (getLE ini (8 + 16 * i) 4, getSLE ini (16 + 16 * i) 8)
    initialState := parseStates ini (8 + 16 * np) classes
    retain := (entriesOf (imgSect b 10) 16).map parseRetain
    safeOut := (entriesOf (imgSect b 11) 16).map fun e => (getLE e 0 4, getSLE e 8 8)
    textCount := getLE (imgSect b 13) 0 4 }

/-! ### Reading the image's parts -/

/-- CLASS entry of a class code. -/
def classEntry (im : Image) (c : Nat) : ClassEntry := lget im.classes c {}

/-- COURSE entries of a class, in order. -/
def coursesOf (im : Image) (c : Nat) : List CourseEntry :=
  let e := classEntry im c
  (im.courses.drop e.firstCourse).take e.courseCount

/-- Instances of a unit. -/
def unitInsts (im : Image) (u : UnitEntry) : List InstEntry := (im.instances.drop u.firstInstance).take u.instanceCount

/-- Unit of an index. -/
def unitAt (im : Image) (u : Nat) : Option UnitEntry := im.units[u]?

/-- Unit indices of a course of a class. -/
def courseUnits (im : Image) (c course : Nat) : List Nat :=
  match (coursesOf im c).find? fun e => e.course = course with
  | some e => (upto e.unitCount).map fun i => e.firstUnit + i
  | none => []

/-- T of R45: worst-case duration of the courses from SOLVE_COURSE on; none for an image that waits for no solve. -/
def solveTail (im : Image) : Option Nat :=
  let e := classEntry im 1
  if e.solveCourse = 0xFFFF then none
  else some (nsum (((coursesOf im 1).filter fun x => decide (e.solveCourse ≤ x.course)).map (·.worstUs)))

/-- R45: P - G at least 1.1 × (D + T), in tenths of a percent of a microsecond. -/
def solveFits (im : Option Image) (periodUs d : Nat) : Bool :=
  let t := match im with
    | none => some 0
    | some x => solveTail x
  match t with
  | none => true
  | some t => decide (11 * (d + t) * 10 ≤ 98 * periodUs)

/-! ### Block library: constants and shapes (R136) -/

/-- Numbers from a list, pairwise increasing, `n` of them. -/
def curveOk (ks : List Int) : Bool :=
  let n := lget ks 0 0
  decide (2 ≤ n) && decide (n ≤ 32) && decide (1 + 2 * n ≤ ks.length) && increasing ((ks.drop 1).take n.toNat)

/-- Constants of a library block lie in their ranges and orders (R136). -/
def constsOk (t : Nat) (ks : List Int) : Bool :=
  let k (i : Nat) : Int := lget ks i 0
  let has (n : Nat) : Bool := decide (n ≤ ks.length)
  match t with
  | 0x06 => has 2 && decide (k 0 ≤ k 1)
  | 0x07 => has 3 && decide (-2147483648 ≤ k 0) && decide (k 0 ≤ 2147483647) && decide (0 ≤ k 1) && decide (k 1 ≤ 62)
  | 0x08 => has 3 && (k 0 = 0 || k 0 = 1) && decide (0 ≤ k 2)
  | 0x09 => has 1 && decide (0 ≤ k 0) && decide (k 0 ≤ 4)
  | 0x0C => has 1 && (k 0 = 0 || k 0 = 1)
  | 0x0D => has 2 && decide (0 ≤ k 0) && decide (k 0 ≤ 2) && decide (0 ≤ k 1) && decide (k 1 ≤ 9223372036854775)
  | 0x0E => has 1
  | 0x0F => has 1 && (k 0 = 0 || k 0 = 1)
  | 0x10 => has 1 && decide (0 ≤ k 0) && decide (k 0 ≤ 2)
  | 0x11 => has 1 && decide (1 ≤ k 0) && decide (k 0 ≤ 1000000000000)
  | 0x12 => has 1 && decide (0 ≤ k 0)
  | 0x13 => has 4 && decide (k 2 ≤ k 3)
  | 0x14 => curveOk ks
  | 0x15 => has 1 && decide (0 < k 0)
  | 0x17 => has 1
  | _ => true

/-- Number of inputs: least, most; and of outputs (R136). -/
def blockShape : Nat → Nat × Nat × Nat
  | 0x02 => (2, 16, 1)
  | 0x03 | 0x04 | 0x05 => (2, 2, 1)
  | 0x09 => (1, 16, 1)
  | 0x0A => (3, 3, 1)
  | 0x0B => (2, 17, 1)
  | 0x0C => (1, 16, 1)
  | 0x0D => (1, 1, 2)
  | 0x0E => (4, 4, 2)
  | 0x0F => (2, 2, 1)
  | 0x13 => (2, 2, 1)
  | 0x16 => (3, 3, 1)
  | 0x17 => (1, 1, 2)
  | _ => (1, 1, 1)

/-- STATE_LEN of a library block (R136). -/
def blockState (t : Nat) : Nat :=
  if [0x08, 0x0F, 0x10, 0x11, 0x12, 0x13, 0x15].contains t then 16 else if t = 0x0D ∨ t = 0x0E then 24 else 8

/-- An instance of the block library is well formed (R136). -/
def instOk (i : InstEntry) : Bool :=
  if i.blockType = 0xFF then true
  else
    let (lo, hi, outs) := blockShape i.blockType
    decide (1 ≤ i.blockType) && decide (i.blockType ≤ 0x17) && constsOk i.blockType i.consts &&
      i.stateLen = blockState i.blockType && decide (lo ≤ i.ins.length) && decide (i.ins.length ≤ hi) &&
      i.outs.length = outs

/-! ### Code verification (R138 to R140, R147) -/

/-- OPC -/
def wOpc (w : W32) : Nat := bits w.toNat 0 6
/-- RD -/
def wRd (w : W32) : Nat := bits w.toNat 6 4
/-- RA -/
def wRa (w : W32) : Nat := bits w.toNat 10 4
/-- RB -/
def wRb (w : W32) : Nat := bits w.toNat 14 4
/-- IMM, unsigned -/
def wImm (w : W32) : Nat := bits w.toNat 18 14
/-- IMM, sign-extended -/
def wSext (w : W32) : Int := toSigned 14 (wImm w)

/-- Fields an opcode uses: RD, RA, RB, IMM (R138, R139). -/
def usedFields : Nat → Bool × Bool × Bool × Bool
  | 0x00 | 0x01 => (false, false, false, false)
  | 0x02 => (true, true, false, false)
  | 0x03 | 0x04 => (true, false, false, true)
  | 0x05 | 0x06 => (true, true, true, false)
  | 0x07 => (true, true, false, true)
  | 0x08 | 0x09 => (true, true, true, false)
  | 0x0A | 0x0B => (true, true, false, false)
  | 0x0C | 0x0D => (true, true, true, false)
  | 0x0E => (true, true, true, true)
  | 0x0F | 0x10 | 0x11 | 0x12 | 0x13 | 0x14 | 0x15 | 0x16 => (true, true, true, false)
  | 0x17 => (true, true, false, false)
  | 0x18 | 0x19 | 0x1A | 0x1B | 0x1C => (true, true, false, true)
  | 0x1D => (true, true, true, true)
  | 0x1E => (true, true, false, false)
  | 0x1F => (false, true, true, false)
  | 0x20 => (false, true, false, true)
  | 0x21 => (true, true, true, true)
  | 0x22 => (true, false, false, true)
  | 0x23 => (true, false, false, true)
  | 0x24 | 0x25 | 0x26 => (true, false, false, true)
  | 0x27 => (false, true, false, true)
  | 0x28 => (false, true, true, true)
  | 0x29 => (true, false, false, true)
  | 0x2A => (false, true, false, true)
  | 0x2B => (true, true, false, true)
  | 0x2C => (false, true, true, true)
  | 0x2D => (true, false, false, true)
  | 0x2E => (false, false, false, true)
  | 0x2F => (true, true, true, false)
  | _ => (false, false, false, false)

/-- The immediate of a word is in range (R139, R140, R147). -/
def immOk (i : InstEntry) (w : W32) : Bool :=
  let u := wImm w
  match wOpc w with
  | 0x04 => decide (u < i.consts.length)
  | 0x0E | 0x1C => decide (1 ≤ u) && decide (u ≤ 63)
  | 0x18 | 0x19 | 0x1A | 0x1B => decide (u ≤ 63)
  | 0x1D => decide (u < 256)
  | 0x21 => decide (u ≤ 10)
  | 0x22 => decide (wRd w ≤ 10)
  | 0x24 | 0x25 | 0x26 => decide (u < i.ins.length)
  | 0x27 | 0x28 => decide (u < i.outs.length)
  | 0x29 | 0x2A => decide (u < i.stateLen / 8)
  | 0x2D => decide (u < 2)
  | 0x2E => decide (u ≤ 255)
  | _ => true

/-- A branch target lies inside the block. -/
def branchOk (n pc : Nat) (w : W32) : Bool :=
  if wOpc w = 0x22 ∨ wOpc w = 0x23 then
    let t := (pc : Int) + 1 + wSext w
    decide (0 ≤ t) && decide (t < (n : Int))
  else true

/-- One word passes verification. -/
def wordOk (i : InstEntry) (pc : Nat) (w : W32) : Bool :=
  let (rd, ra, rb, im) := usedFields (wOpc w)
  decide (wOpc w ≤ 0x2F) && (rd || wRd w = 0) && (ra || wRa w = 0) && (rb || wRb w = 0) && (im || wImm w = 0) &&
    immOk i w && branchOk i.code.length pc w

/-- A custom block passes verification (R147). -/
def codeOk (i : InstEntry) : Bool :=
  ((indexed 0 i.code).all fun e => wordOk i e.1 e.2) &&
  (match i.code.getLast? with
   | some w => wOpc w = 1 || (wOpc w = 0x22 && wRd w = 0)
   | none => false)

/-! ### Image checks (R131) -/

/-- Check 1: MAGIC, FORMAT, IMAGE_LENGTH, directory layout. -/
def imgCheck1 (b : Bytes) : Bool :=
  let n := getLE b 28 2
  decide (192 ≤ b.length) && getLE b 0 4 = 0x49504756 && getLE b 4 2 = 3 && getLE b 8 4 = b.length && b.length % 64 = 0 &&
    decide (10 ≤ n) && decide (n ≤ 14) && getLE b 32 4 = 64 && dirOk b (imgDir b) 14 (getLE b 36 4)

/-- Check 2: IMAGE_CRC and every SECTION_CRC. -/
def imgCheck2 (b : Bytes) : Bool :=
  getLE b 12 4 = crc32c (slice b 16 (getLE b 36 4 - 16)) && sectCrcsOk b (imgDir b) 14

/-- Reserved fields of an image are 0. -/
def imgReserved (b : Bytes) : Bool :=
  let z (t size : Nat) (offs : List (Nat × Nat)) : Bool :=
    (entriesOf (imgSect b t) size).all fun e => offs.all fun o => allZero (slice e o.1 o.2)
  getLE b 6 2 = 0 && getLE b 30 2 = 0 && allZero (slice b 44 20) && ((imgDir b).all fun x => x.spare = 0) &&
    z 1 32 [(1, 1), (14, 2), (20, 12)] && z 2 16 [(1, 1)] && z 3 32 [(11, 1)] && z 4 32 [(6, 2)] && z 5 8 [(4, 4)] &&
    z 7 32 [(7, 1)] && z 10 16 [(12, 4)] && z 11 16 [(4, 4)] && getLE (imgSect b 9) 4 4 = 0 &&
    ((upto (getLE (imgSect b 9) 0 4)).all fun i => getLE (imgSect b 9) (12 + 16 * i) 4 = 0) &&
    ((entriesOf (imgSect b 4) 32).all fun e => getLE (imgSect b 8) (getLE e 8 4 + 1) 1 = 0) && sigSpareOk b (getLE b 36 4)

/-- Section lengths are whole numbers of entries. -/
def imgLengths (b : Bytes) : Bool :=
  let l (t : Nat) : Nat := (imgSect b t).length
  l 1 = 160 && l 2 % 16 = 0 && l 3 % 32 = 0 && l 4 % 32 = 0 && l 5 % 8 = 0 && l 6 % 4 = 0 && l 7 % 32 = 0 &&
    l 10 % 16 = 0 && l 11 % 16 = 0 && l 12 % 4 = 0 && decide (8 ≤ l 9)

/-- Conditional sections are present when their condition holds (R120). -/
def imgConditional (b : Bytes) (im : Image) : Bool :=
  let d := imgDir b
  ((upto 9).all fun i => hasSect d (i + 1)) && (d.all fun x => decide (1 ≤ x.type) && decide (x.type ≤ 14)) &&
    (hasSect d 10 || !(im.points.any fun p => tfRetain p.typeflags)) &&
    (hasSect d 11 || !(im.points.any fun p => tfOutput p.typeflags)) &&
    (hasSect d 12 || !(im.instances.any fun i => i.blockType = 0xFF)) &&
    (hasSect d 13 || !(im.points.any fun p => tfType p.typeflags = 5))

/-- Indices of CLASS and COURSE entries lie inside their sections, and SOLVE_COURSE follows R121. -/
def imgCourses (b : Bytes) (im : Image) : Bool :=
  ((indexed 0 (entriesOf (imgSect b 1) 32)).all fun e =>
    let c := parseClass e.2
    getLE e.2 0 1 = e.1 && decide (c.firstCourse + c.courseCount ≤ im.courses.length) &&
      (c.solveCourse = 0xFFFF || (e.1 = 1 && decide (c.solveCourse < c.courseCount))) &&
      ((indexed 0 (coursesOf im e.1)).all fun x => x.2.cls = e.1 && x.2.course = x.1)) &&
  (im.courses.all fun x => decide (x.firstUnit + x.unitCount ≤ im.units.length) &&
    (((im.units.drop x.firstUnit).take x.unitCount).all fun u => u.cls = x.cls && u.course = x.course))

/-- Every instance belongs to exactly one unit (R123). -/
def instsCovered (im : Image) : Bool :=
  (upto im.instances.length).all fun i =>
    (im.units.filter fun u => decide (u.firstInstance ≤ i) && decide (i < u.firstInstance + u.instanceCount)).length = 1

/-- Indices of UNIT and INSTANCE entries lie inside their sections (R123 to R125). -/
def imgUnits (b : Bytes) (im : Image) : Bool :=
  let bind := (imgSect b 5).length / 8
  let ws := (imgSect b 6).length / 4
  let param := imgSect b 8
  let code := (imgSect b 12).length / 4
  ((entriesOf (imgSect b 3) 32).all fun e =>
    decide (getLE e 0 4 + getLE e 4 2 ≤ im.instances.length) && decide (getLE e 24 4 + getLE e 28 4 ≤ ws) &&
      decide (getLE e 6 1 ≤ 4)) &&
  instsCovered im &&
  (im.units.all fun u => (unitInsts im u).all fun i =>
    decide (i.stateOffset + i.stateLen ≤ (classEntry im u.cls).stateBytes)) &&
  ((entriesOf (imgSect b 4) 32).all fun e =>
    let po := getLE e 8 4
    let custom := getLE e 4 2 = 0xFF
    let w := getSLE param po 1
    let n := getLE param (po + 4) 4
    po % 8 = 0 && decide (po + 8 + 8 * getLE param (po + 2) 2 ≤ param.length) &&
      decide (getLE e 16 4 + getLE e 12 2 + getLE e 14 2 ≤ bind) && decide (getLE e 12 2 ≤ 64) && decide (getLE e 14 2 ≤ 64) &&
      getLE e 20 4 % 8 = 0 && getLE e 24 2 % 8 = 0 && decide (getLE e 24 2 ≤ 4096) && decide (-63 ≤ w) && decide (w ≤ 63) &&
      (if custom then decide (getLE e 28 4 + n ≤ code) && decide (1 ≤ getLE e 26 2)
       else getLE e 28 4 = 0xFFFFFFFF && n = 0 && getLE e 26 2 = 0)) &&
  distinct (im.instances.map (·.id))

/-- The TEXT section, where there is one, holds its offsets and its strings, each ended by a zero byte, and every NAME is one
of its indices or none (R126, R129). -/
def imgText (text : Bytes) (im : Image) : Bool :=
  (text.isEmpty || (decide (4 + 4 * im.textCount ≤ text.length) &&
    (upto im.textCount).all fun i => (text.drop (getLE text (4 + 4 * i) 4)).contains 0)) &&
  im.points.all fun p => p.name.toNat = noPoint || decide (p.name.toNat < im.textCount)

/-- A RETAIN entry names a point or an instance of the image, with its LENGTH and LAYOUT (R128). -/
def retainOk (im : Image) (r : RetainEntry) : Bool :=
  decide (r.crit ≤ 1) &&
  (if r.kind = 0 then r.length = 16 && r.layout = 0 && im.points.any fun p => p.id = r.key
   else r.kind = 1 && im.instances.any fun i =>
     i.id = r.key && r.length = i.stateLen && r.layout = i.blockType + 65536 * (i.stateLen / 8))

/-- INITIAL, RETAIN and TEXT have their lengths and orders (R126 to R129). -/
def imgTables (b : Bytes) (im : Image) : Bool :=
  let ini := imgSect b 9
  ini.length = 8 + 16 * getLE ini 0 4 + nsum (im.classes.map (·.stateBytes)) && imgText (imgSect b 13) im &&
    im.retain.all (retainOk im) &&
    increasing (im.retain.map fun r => ((r.kind * 2 ^ 32 + r.key : Nat) : Int))

/-- Check 5 of R131. -/
def imgCheck5 (b : Bytes) (im : Image) : Bool :=
  imgLengths b && imgReserved b && imgConditional b im && imgCourses b im && imgUnits b im && imgTables b im

/-- A list of point ids ascends without repeats. -/
def ascending (l : List Nat) : Bool := increasing (l.map fun (n : Nat) => (n : Int))

/-- The units stand sorted by class and then by course (R123). -/
def unitsSorted : List UnitEntry → Bool
  | a :: b :: r => decide (a.cls * 65536 + a.course ≤ b.cls * 65536 + b.course) && unitsSorted (b :: r)
  | _ => true

/-- Check 6: unit limits. -/
def imgCheck6 (im : Image) : Bool :=
  unitsSorted im.units &&
  (im.units.all fun u => decide (1 ≤ u.instanceCount) && decide (u.instanceCount ≤ 64) && decide (u.crit ≤ 1) &&
    decide (u.homeEngine ≤ 63) && u.scratchBytes % 8 = 0 && decide (u.scratchBytes ≤ 0x10000) &&
    decide (u.worstClocks ≤ 40000) && ascending u.writeSet) &&
  decide ((classEntry im 0).courseCount ≤ 4) &&
  decide (nsum ((im.units.filter fun u => u.cls = 0).map (·.instanceCount)) ≤ 256) &&
  (indexed 0 im.classes).all fun e => e.2.unitMaxEmber = nmax ((im.units.filter fun u => u.cls = e.1).map (·.ember))

/-- State ranges of a list of instances are disjoint. -/
def statesApart : List InstEntry → Bool
  | [] => true
  | a :: r => (r.all fun b => a.stateLen = 0 || b.stateLen = 0 || decide (a.stateOffset + a.stateLen ≤ b.stateOffset) ||
      decide (b.stateOffset + b.stateLen ≤ a.stateOffset)) && statesApart r

/-- Points that the instances of a list of units write: their output bindings. -/
def boundOuts (im : Image) (us : List UnitEntry) : List Nat :=
  us.flatMap fun u => (unitInsts im u).flatMap fun i => i.outs.filter fun o => decide (o ≠ noPoint)

/-- No two instances of a list write the same point (R83). -/
def outsApart : List InstEntry → Bool
  | [] => true
  | a :: r => (r.all fun b => a.outs.all fun o => o = noPoint || !b.outs.contains o) && outsApart r

/-- Check 7: write sets and state ranges (R83). -/
def imgCheck7 (im : Image) : Bool :=
  (im.units.all fun u => (unitInsts im u).all fun i => i.outs.all fun o => o = noPoint || u.writeSet.contains o) &&
  (im.courses.all fun c =>
    let us := (im.units.drop c.firstUnit).take c.unitCount
    distinct (us.flatMap (·.writeSet)) && outsApart (us.flatMap (unitInsts im))) &&
  (upto 5).all fun c => statesApart ((im.units.filter fun u => u.cls = c).flatMap (unitInsts im))

/-- Points that a list of units writes. -/
def writtenBy (us : List UnitEntry) : List Nat := us.flatMap (·.writeSet)

/-- Points that the instances of a list of units read. -/
def readBy (im : Image) (us : List UnitEntry) : List Nat := us.flatMap fun u => (unitInsts im u).flatMap (·.ins)

/-- Definition of a point in an image. -/
def imgPoint (im : Image) (id : Nat) : Option PointDef := im.points.find? fun p => p.id = id

/-- Check 8: reads within a course (R36) and Background units (R85). -/
def imgCheck8 (im : Image) : Bool :=
  let bg := im.units.filter fun u => u.cls = 4
  let periodic := readBy im (im.units.filter fun u => decide (u.cls ≠ 4))
  (im.courses.all fun c =>
    let us := (im.units.drop c.firstUnit).take c.unitCount
    let w := boundOuts im us
    (readBy im us).all fun r => !w.contains r) &&
  (bg.all fun u => u.crit = 0 && (boundOuts im [u]).all fun w =>
    !periodic.contains w && (match imgPoint im w with
      | some p => !tfOutput p.typeflags && !tfRetain p.typeflags
      | none => true))

/-- A point definition follows R26 and R27. -/
def pointDefOk (p : PointDef) : Bool :=
  let t := tfType p.typeflags
  decide (p.id < pointCount) && decide (t ≤ 5) && decide (tfTpol p.typeflags ≠ 3) && p.typeflags.toNat / 1024 = 0 &&
    decide (-63 ≤ p.scale) && decide (p.scale ≤ 63) && (t = 2 || p.scale = 0) && decide (p.rangeMin ≤ p.rangeMax) &&
    (if t = 3 then decide (0 < p.enumSize) else p.enumSize = 0)

/-- Check 9: points, SAFEOUT and INITIAL. -/
def imgCheck9 (im : Image) : Bool :=
  let out := (boundOuts im (im.units.filter fun u => decide (u.cls ≠ 4))).filter fun w =>
    match imgPoint im w with
    | some p => tfOutput p.typeflags
    | none => false
  (im.points.all pointDefOk) && ascending (im.points.map (·.id)) &&
  ((boundOuts im im.units).all fun w => match imgPoint im w with
    | some p => tfSource p.typeflags = 0
    | none => false) &&
  (out.all fun w => im.safeOut.any fun e => e.1 = w) && distinct (im.safeOut.map (·.1)) &&
  (im.safeOut.all fun e => out.contains e.1) &&
  distinct (im.initialPts.map (·.1)) && im.initialPts.all fun e => (imgPoint im e.1).isSome

/-- Check 10: block types, constants and state lengths (R136). -/
def imgCheck10 (im : Image) : Bool :=
  im.instances.all fun i => (i.blockType = 0xFF || decide (i.blockType ≤ 0x17)) && instOk i

/-- Check 11: custom code (R147). -/
def imgCheck11 (im : Image) : Bool := (im.instances.filter fun i => i.blockType = 0xFF).all codeOk

/-- Installed engine runtime level (R131, R539). -/
def runtimeInstalled (s : State) : Nat := ((component (runSlot s) 4).map (fun c => c.version.toNat)).getD 0

/-- A failed image check: its number and status. -/
def imgFault (s : State) (b : Bytes) : Option (Nat × Nat) :=
  let im := parseImage b
  firstRefusal
    [refuseIf (!imgCheck1 b) 1 stBadCrc, refuseIf (!imgCheck2 b) 2 stBadCrc,
     refuseIf (!sectionVerify s destUv b (getLE b 36 4)) 3 stDenied,
     refuseIf (decide (runtimeInstalled s < im.runtimeLevel)) 4 stBadCrc,
     refuseIf (!imgCheck5 b im) 5 stBadCrc, refuseIf (!imgCheck6 im) 6 stBadCrc, refuseIf (!imgCheck7 im) 7 stBadCrc,
     refuseIf (!imgCheck8 im) 8 stBadCrc, refuseIf (!imgCheck9 im) 9 stBadCrc, refuseIf (!imgCheck10 im) 10 stBadCrc,
     refuseIf (!imgCheck11 im) 11 stBadCrc,
     refuseIf (!solveFits (some im) (cls s 1).periodUs s.solveDeadline) 12 stConflict]

end Sys2Proof.Machine
end

