-- ==== Sys2Proof/Machine/Budget.lean ====
section
/-! DEFINITION. Budget.lean: the ember pool, the governor tick, admission, operating points and banking (R99 to R117). -/

namespace Sys2Proof.Machine

/-! ### Engines and their bricks (R7) -/

/-- A control engine. -/
def engine (s : State) (e : Nat) : Engine := fgetD s.engines e {}

/-- Change a control engine. -/
def setEngine (e : Nat) (f : Engine → Engine) (s : State) : State :=
  { s with engines := fset s.engines e (f (engine s e)) }

/-- Engines of a control brick (R7). -/
def enginesOf (b : Nat) : List Nat := [4 * b, 4 * b + 1, 4 * b + 2, 4 * b + 3]

/-- The engine is in service: neither it nor its brick is a cinder (R92). -/
def engineUp (s : State) (e : Nat) : Bool := (engine s e).cinder.isNone && inService s (e / 4)

/-- The engine holds no entry, runs none and waits for no answer. -/
def engineQuiet (s : State) (e : Nat) : Bool :=
  let x := engine s e
  x.running.isNone && x.deque.isEmpty && x.search.isNone && x.grant.isNone

/-- Entry of deadline work (R109). -/
def deadlineEntry (x : Entry) : Bool := decide (x.cls ≤ 1) || decide (1 ≤ x.role)

/-- The control brick carries deadline work (R109). -/
def carriesDeadline (s : State) (b : Nat) : Bool :=
  (enginesOf b).any fun e => (engine s e).deque.any deadlineEntry ||
    (match (engine s e).running with
     | some x => deadlineEntry x
     | none => false)

/-! ### Configuration (R105, R110, R115) -/

/-- A BGT register as a number. -/
def bgt (s : State) (off : Nat) : Nat := (cfgGet s (0x900 + off)).toNat

/-- The values agree with R105 and R110 (R115). -/
def budgetConsistent (cap hard pool slow opt bg : Nat) : Bool :=
  decide (15000 ≤ cap) && decide (cap ≤ hard) && decide (hard ≤ 40000) && decide (slow ≤ opt) && decide (opt ≤ bg) &&
    decide (bg ≤ pool)

/-- The values in the registers agree. -/
def bgtConsistent (s : State) : Bool :=
  budgetConsistent (bgt s 4) (bgt s 8) (bgt s 0xC) (bgt s 0x10) (bgt s 0x14) (bgt s 0x18)

/-- CFG_ERR follows the registers (R115). -/
def settleCfgErr (s : State) : State := { s with budget := { s.budget with cfgErr := !bgtConsistent s } }

/-- The governor takes BANK_DELAY up, and the register values while they agree (R115, R116). -/
def adoptBudget (s : State) : State :=
  let s := { s with budget := { s.budget with bankDelay := bgt s 0x1C } }
  if bgtConsistent s then
    { s with budget := { s.budget with
        cap := bgt s 4, hard := bgt s 8, poolMax := bgt s 0xC
        reserveSlow := bgt s 0x10, reserveOpt := bgt s 0x14, reserveBg := bgt s 0x18 } }
  else s

/-! ### Admission (R110) -/

/-- UNIT_MAX of a class in the image it runs. -/
def unitMax (s : State) (c : Nat) : Int :=
  match (cls s c).prog with
  | some im => (classEntry im c).unitMaxEmber
  | none => 0

/-- The admission mask for the pool as it stands (R110). -/
def admitMask (s : State) : BitVec 5 :=
  let b := s.budget
  let on (c : Nat) (reserve : Int) : Nat := if reserve + unitMax s c ≤ b.pool then 2 ^ c else 0
  BitVec.ofNat 5 (3 + on 2 b.reserveSlow + on 3 b.reserveOpt + on 4 b.reserveBg)

/-- The mask follows the pool. -/
def settleAdmit (s : State) : State := { s with budget := { s.budget with admitBits := admitMask s } }

/-- A class is admitted as the deque units hold it (R79, R110). -/
def admitted (s : State) (c : Nat) : Bool := s.budget.admitBits.getLsbD c

/-- An engine takes an entry: SV debits its EMBER field (R104 step 3). -/
def debit (ember : Nat) (s : State) : State :=
  settleAdmit { s with budget := { s.budget with pool := s.budget.pool - ember } }

/-- An engine finishes with an entry: what it spent beyond the entry's EMBER field is settled at the next tick (R104
step 4). -/
def settleEntry (x : Entry) (spent : Nat) (s : State) : State :=
  { s with work := { s.work with settlement := s.work.settlement + ((spent : Int) - (x.ember : Int)) }
           budget := { s.budget with spent := (s.budget.spent + spent) % 2 ^ 64 } }

/-! ### The governor tick (R105, R107, R108) -/

/-- Thermal cap (R105). -/
def thermalCap (cap t4 : Int) : Int :=
  if t4 ≤ 380 then cap else if t4 < 420 then cap - tdiv ((t4 - 380) * (cap - 15000)) 40 else 15000

/-- Whether a temperature condition is met, given that it was: until t4 falls 8 below its threshold (R108). -/
def heldHot (was : Bool) (t4 threshold : Int) : Bool := decide (threshold ≤ t4) || (was && decide (threshold - 8 < t4))

/-- Outcome of the pool arithmetic of a tick: pool before and after the limiting, CAP_EFF and the raise (R107). -/
structure TickSum where
  /-- pool after the raise, before R104 step 6 -/
  before : Int
  /-- pool after R104 step 6 -/
  pool   : Int
  /-- CAP_EFF -/
  capEff : Int
  /-- raise -/
  rise   : Int
deriving DecidableEq, Repr

/-- A value in signed 32-bit arithmetic (R107, log entry 184). -/
def s32 (x : Int) : Int := toSigned 32 (ofSigned 32 x)

/-- The pool arithmetic of a tick, signed 32-bit (R107). -/
def tickSum (b : Budget) (baseCharge settlement : Int) : TickSum :=
  let cap := thermalCap b.cap b.t4
  let p := s32 (b.pool + cap - baseCharge - settlement)
  let r := if p < 0 then (if b.hard - cap < s32 (-p) then b.hard - cap else s32 (-p)) else 0
  { before := s32 (p + r), pool := clamp (s32 (p + r)) (-b.poolMax) b.poolMax, capEff := cap + r, rise := r }

/-- The solver scale of a budget state (R109). -/
def scaleOf (st : Nat) : Nat := if st = 0 then 256 else if st = 1 then 192 else if st = 2 then 128 else 64

/-- The budget after a tick's arithmetic and classification (R107, R108). -/
def tickBudget (b : Budget) (t : TickSum) : Budget :=
  let hotShort := heldHot b.hotShort b.t4 400
  let hotLean := heldHot b.hotLean b.t4 380
  let st := if 0 < t.rise ∨ 0 < b.breachHold then 3
    else if t.pool < b.poolMax / 8 ∨ hotShort then 2
    else if t.pool < b.poolMax / 2 ∨ hotLean then 1 else 0
  { b with pool := t.pool, poolTick := t.pool, capEff := t.capEff, state := st, scale := scaleOf st
           breachHold := if 0 < t.rise then 10 else b.breachHold - 1
           hotShort := hotShort, hotLean := hotLean }

/-- Embers that stay unpaid in a tick: the negated pool before limiting with CAP_EFF at HARD (R108). -/
def unpaid (b : Budget) (t : TickSum) : Int := if t.before < 0 ∧ t.capEff = b.hard then -t.before else 0

/-- Events of a tick: entering BREACH, still unpaid in it, leaving it (R108). -/
def tickEvents (was : Nat) (owed : Int) (s : State) : State :=
  if s.budget.state = 3 ∧ was ≠ 3 then
    raise 0x3A [owed] (rcAdd 0x930 1 { s with budget := { s.budget with breaches := sat32 (s.budget.breaches + 1) } })
  else if s.budget.state = 3 ∧ 0 < owed then raise 0x3A [owed] s
  else if s.budget.state ≠ 3 ∧ was = 3 then raise 0x3B [] s
  else s

/-! ### Operating points (R100, R101, R109) -/

/-- The point that a governed brick is to have (R109). -/
def wantedPoint (s : State) (b : Nat) : Fin 5 :=
  let st := s.budget.state
  if b < 16 then
    (if carriesDeadline s b then 0 else if st = 0 then 0 else if st = 1 then 2 else if st = 2 then 3 else 4)
  else (if st = 0 then 0 else if st = 1 then 1 else if st = 2 then 2 else 3)

/-- Order an operating point: a running brick goes into TRANSITION; for a banked brick or one in TRANSITION the order
is kept (R101, R102). -/
def orderPoint (b : Nat) (p : Fin 5) (s : State) : State :=
  let x := brick s b
  if !decide (b < 24) || x.st = .cinder || x.ordered = p then s
  else
    let go := match x.st with
      | .point q => decide (q ≠ p)
      | _ => false
    setBrick b (fun y => { (if go then intoTransition s.refNs y else y) with ordered := p }) s

/-- Order the points of R109 for a list of bricks. -/
def orderPoints : List Nat → State → State
  | [], s => s
  | b :: r, s => orderPoints r (orderPoint b (wantedPoint s b) s)

/-- A control brick that starts to carry deadline work is raised to P0 at once (R109). -/
def raiseDeadline (b : Nat) (s : State) : State := if carriesDeadline s b then orderPoint b 0 s else s

/-- A job of the solver array is in flight. -/
def jobRuns (s : State) : Bool := s.solver.mainJob.isSome || s.solver.hostJob.isSome || s.opt.job.isSome || s.est.run.isSome

/-- The solver scale of a tick, entered where it differs from the last one (R109, R112). -/
def noteScale (now scale : Nat) (l : List (Nat × Nat)) : List (Nat × Nat) :=
  if (l.head?).map (·.2) = some scale then l else (now, scale) :: l

/-- GOVERNOR_TICK (R104, R107 to R110): the base charge is what the activity counters of the last millisecond come
to (R103, log entry 7). -/
def execGovernorTick (baseCharge : Nat) (s : State) : Res :=
  let ms := devNs s / 1000000
  .next (if s.power.booted && inService s idSV && decide (s.budget.tickAt ≠ ms) then
      let was := s.budget.state
      let s := adoptBudget s
      let t := tickSum s.budget baseCharge s.work.settlement
      let owed := unpaid s.budget t
      let b := tickBudget s.budget t
      let s := { s with
        budget := { b with tickAt := ms, spent := (b.spent + baseCharge) % 2 ^ 64 }
        work := { s.work with settlement := 0 }
        solver := { s.solver with scales := noteScale s.refNs b.scale (if jobRuns s then s.solver.scales else s.solver.scales.take 1) } }
      orderPoints (upto 24) (settleAdmit (tickEvents was owed s))
    else s)

/-! ### Transitions and banking (R101, R102) -/

/-- The pool is set to POOL_MAX at every start (R104). -/
def fillPool (s : State) : State :=
  let s := adoptBudget s
  settleAdmit { s with budget := { s.budget with pool := s.budget.poolMax, poolTick := s.budget.poolMax } }

/-- Lanes in service, ascending (R196). -/
def lanesUp (s : State) : List Nat := (upto 32).filter fun n => inService s (0x10 + n / 4)

/-- Bricks that are home to one of a number of tile rows: row k is queued at lane k mod L, and its brick's store holds it
(R195, R196). -/
def homeBricks (s : State) (rows : Nat) : List Nat := ((lanesUp s).take rows).map fun n => 0x10 + n / 4

/-- Tile rows of the jobs that run. -/
def tileRowsOut (s : State) : List Nat :=
  (s.solver.mainJob.map (·.tileRows)).toList ++ (s.solver.hostJob.map (·.tileRows)).toList ++
    (s.opt.job.map (·.tileRows)).toList ++ (s.est.run.map (·.job.tileRows)).toList

/-- A solver brick holds a tile of a running job (R102, R195). -/
def holdsTiles (s : State) (b : Nat) : Bool := (tileRowsOut s).any fun n => (homeBricks s n).contains b

/-- A list of bricks is woken: tiles come to their stores (R102). -/
def wakeBricks : List Nat → State → State
  | [], s => s
  | b :: r, s => wakeBricks r (wakeBrick b s)

/-- The tiles of a job come to the stores of their home bricks (R102, R195). -/
def wakeHomes (rows : Nat) (s : State) : State := wakeBricks (homeBricks s rows) s

/-- The brick has no work that keeps it from banking (R100, R102). -/
def brickQuiet (s : State) (b : Nat) : Bool :=
  if b < 16 then (enginesOf b).all (engineQuiet s)
  else if b < 24 then !holdsTiles s b
  else if b = idKB then s.keys.op.isNone
  else if b = idPN then (s.panel.inflight.filter fun u => !u.interrupted).isEmpty
  else false

/-- The delay after which a quiet brick is banked, ns (R100, R102). -/
def bankDelay (s : State) (b : Nat) : Nat := if b < 24 then s.budget.bankDelay * 1000 else 1000000

/-- BRICK_BANK (R100, R102): a brick that has been quiet for its delay goes into TRANSITION towards BANKED. -/
def execBrickBank (b : BrickId) (s : State) : Res :=
  let x := brick s b.val
  .next (if s.power.booted && atPoint x && brickQuiet s b.val && decide (bankDelay s b.val ≤ since s x.quietFrom) then
      setBrick b.val (fun y => { intoTransition s.refNs y with toBanked := true }) s
    else s)

/-- BRICK_WAKE (R102): a packet arrives at a banked brick. -/
def execBrickWake (b : BrickId) (s : State) : Res :=
  .next (if s.power.released then wakeBrick b.val s else s)

/-! ### SLOW_FORCED (R111) -/

/-- Entries of the Slow class that wait: on the deques and in the feeder queue. -/
def waitingEntries (s : State) : List Entry := (s.engines.flatMap fun e => e.2.deque) ++ s.work.feeder

/-- SLOW_FORCED (R111): the open Slow course has waited for admission for 25% of the Slow period. -/
def execSlowForced (s : State) : Res :=
  .next (match (cls s 2).cycle with
    | none => s
    | some c =>
      match c.phase with
      | .course n =>
        if !c.forced && !admitted s 2 && reached s (c.releasedAt + (cls s 2).periodUs * 250) &&
            (waitingEntries s).any (fun x => x.cls = 2 && x.course = n && x.role = 0) then
          let s := setCls 2 (fun k => { k with cycle := some { c with forced := true } }) s
          raise 0x3C [n] { s with budget := { s.budget with slowForced := sat32 (s.budget.slowForced + 1) } }
        else s
      | _ => s)

/-! ### Commands and registers (R114 to R117) -/

/-- The register block is locked for commands. -/
def bgtLocked (s : State) : Option (Nat × Nat) := lockRefusal s 0x920

/-- CMD_BUDGET_CONFIG (R116). -/
def specBudgetConfig : CmdSpec where
  opcode := 0x0230
  length := fixedLen 28
  check _ p s :=
    let g (o : Nat) : Nat := getLE p o 4
    firstRefusal [bgtLocked s,
      badParam [(0, decide (g 0 < 15000 ∨ 40000 < g 0)), (4, decide (g 4 < g 0 ∨ 40000 < g 4)),
        (8, decide (g 8 < 40000 ∨ 2000000 < g 8)), (16, decide (g 16 < g 12)),
        (20, decide (g 20 < g 16 ∨ g 8 < g 20)), (24, decide (1000 < getLE p 24 2)), (26, notZero p 26 2)]]
  run r p s :=
    let w (o : Nat) : W32 := BitVec.ofNat 32 (getLE p o 4)
    let s := cfgPoke 0x904 (w 0) (cfgPoke 0x908 (w 4) (cfgPoke 0x90C (w 8) (cfgPoke 0x910 (w 12) (cfgPoke 0x914 (w 16)
      (cfgPoke 0x918 (w 20) (cfgPoke 0x91C (BitVec.ofNat 32 (getLE p 24 2)) s))))))
    finishOk 0x0230 r [] (settleCfgErr (resign 0x900 s))

/-- CMD_BUDGET_CONFIG -/
def execCmdBudgetConfig (r : Req) (s : State) : Res := .next (runCmd specBudgetConfig r s)

/-- CMD_BUDGET_STATUS (R117). -/
def specBudgetStatus : CmdSpec where
  opcode := 0x0231
  length := fixedLen 0
  check _ _ _ := none
  run r _ s :=
    let b := s.budget
    finishOk 0x0231 r ([byte b.state, byte b.admitBits.toNat] ++ putLE 2 b.scale ++ putSLE 4 b.capEff ++ putSLE 4 b.pool ++
      putSLE 2 b.t4 ++ putSLE 2 b.t4Max ++ putLE 4 b.breaches ++ putLE 4 b.slowForced ++ putLE 8 b.spent ++
      (upto 35).map (fun i => byte (brickCode (brick s i).st)) ++ [0]) s

/-- CMD_BUDGET_STATUS -/
def execCmdBudgetStatus (r : Req) (s : State) : Res := .next (runCmd specBudgetStatus r s)

/-- BGT_CONFIG_WRITE (R115): the register changes at once, and CFG_ERR follows. -/
def execBgtConfigWrite (p : Port) (off : W16) (v : W32) (s : State) : Res :=
  .next (if 0x904 ≤ off.toNat ∧ off.toNat ≤ 0x91C then
      ownWrite p off.toNat (fun s => settleCfgErr (cfgSet off.toNat v s)) s
    else s)

end Sys2Proof.Machine
end

