-- ==== Sys2Proof/Machine/Blocks.lean ====
section
/-! DEFINITION. Blocks.lean: the block library, block code and the run of a unit (R70, R71, R84, R88, R132 to R146). -/

namespace Sys2Proof.Machine

/-! ### Values in and out of a block (R133, R134) -/

/-- What a block does to one output. -/
inductive OutVal where
  /-- value `y` at scale `sc` with a quality; `over`: a sat has limited -/
  | val (y : Int) (sc : Int) (q : Byte) (past : Bool)
  /-- keeps its last committed value with state BAD -/
  | hold (q : Byte)
  /-- not written in this run (R141) -/
  | skip
deriving DecidableEq, Repr

/-- A value limited to 64 bits, and whether it was. -/
def satF (x : Int) : Int × Bool := (sat x, !fits64 x)

/-- align of R132, and whether it limited. -/
def alignF (r s w : Int) : Int × Bool := if s = w then (r, false) else satF (alignRaw r s w)

/-- Blocks whose inputs are all logical or counting (R133). -/
def logicalBlock (t : Nat) : Bool := [0x09, 0x0D, 0x0E, 0x0F, 0x10].contains t

/-- Scale at which a block takes an input (R133). -/
def inScale (t idx : Nat) (w : Int) : Int :=
  if logicalBlock t || ((t = 0x0A || t = 0x0B) && idx = 0) then 0 else w

/-- Inputs of a block as it takes them, with the limit flags. -/
def takeInputs (t : Nat) (w : Int) (recs : List PointRec) : List (Int × Bool) :=
  (indexed 0 recs).map fun e => alignF e.2.value e.2.scale (inScale t e.1 w)

/-- A Bool as a block value. -/
def bv (b : Bool) : Int := if b then 1 else 0

/-- Elapsed time of R135, µs. -/
def elapsed (stamp : Nat) (word0 : Int) : Int :=
  if word0 = 0 then 0 else tdiv (wrapDiff 64 (ofSigned 64 word0) stamp) 1000

/-! ### Library blocks (R136) -/

/-- Everything a library block sees. -/
structure BlockIn where
  /-- working scale -/
  w      : Int
  /-- constants -/
  k      : List Int
  /-- input records -/
  recs   : List PointRec
  /-- inputs as taken, with the limit flags -/
  xs     : List (Int × Bool)
  /-- state words -/
  st     : List Int
  /-- elapsed time, µs -/
  dt     : Int
  /-- first run (R135) -/
  first  : Bool
  /-- last committed value of output 0 at scale 0, for INTEGRATE -/
  last   : Int
deriving DecidableEq, Repr

/-- Input `n`. -/
def BlockIn.x (b : BlockIn) (n : Nat) : Int := (lget b.xs n (0, false)).1
/-- Constant `n`. -/
def BlockIn.c (b : BlockIn) (n : Nat) : Int := lget b.k n 0
/-- State word `n`. -/
def BlockIn.s (b : BlockIn) (n : Nat) : Int := lget b.st n 0
/-- A limit flag of any input. -/
def BlockIn.lim (b : BlockIn) : Bool := b.xs.any (·.2)
/-- R29 combination of all inputs. -/
def BlockIn.q (b : BlockIn) : Byte := qCombineAll (b.recs.map (·.quality))

/-- One output at scale W, with the flag of the block's own sats; state words after word 0. -/
def one (b : BlockIn) (y : Int) (lim : Bool) (st : List Int) : List OutVal × List Int :=
  ([.val y b.w b.q lim], st)

/-- One logical output; state words after word 0. -/
def oneBit (b : BlockIn) (q : Bool) (st : List Int) : List OutVal × List Int := ([.val (bv q) 0 b.q false], st)

/-- DIV -/
def blkDiv (b : BlockIn) : List OutVal × List Int :=
  if b.x 1 = 0 then ([.hold b.q], [])
  else
    let r := if b.w ≤ 0 then divr (b.x 0 * (2 : Int) ^ (-b.w).toNat) (b.x 1) else divr (b.x 0) (b.x 1 * (2 : Int) ^ b.w.toNat)
    let (y, l) := satF r
    one b y l []

/-- COMPARE -/
def blkCompare (b : BlockIn) : List OutVal × List Int :=
  let x := b.x 0
  let old := decide (b.s 1 ≠ 0)
  let q := if b.c 0 = 0 then (if x > b.c 1 then true else if x ≤ b.c 1 - b.c 2 then false else old)
    else (if x < b.c 1 then true else if x ≥ b.c 1 + b.c 2 then false else old)
  oneBit b q [bv q]

/-- LOGIC -/
def blkLogic (b : BlockIn) : List OutVal × List Int :=
  let l := b.xs.map fun e => decide (e.1 ≠ 0)
  let q := match b.c 0 with
    | 0 => l.all id
    | 1 => l.any id
    | 2 => (l.filter id).length % 2 = 1
    | 3 => !l.all id
    | _ => !l.any id
  oneBit b q []

/-- SELECT: quality from c and the chosen input only. -/
def blkSelect (b : BlockIn) : List OutVal × List Int :=
  let n := if b.x 0 ≠ 0 then 2 else 1
  let q := qCombine (lget b.recs 0 {}).quality (lget b.recs n {}).quality
  ([.val (b.x n) b.w q false], [])

/-- MUX -/
def blkMux (b : BlockIn) : List OutVal × List Int :=
  let k := b.x 0
  if k < 0 ∨ (b.xs.length : Int) - 1 ≤ k then ([.hold b.q], []) else one b (b.x (k.toNat + 1)) false []

/-- Least or greatest of a non-empty list. -/
def extreme (greatest : Bool) : List Int → Int → Int
  | [], a => a
  | x :: r, a => extreme greatest r (if greatest then (if a < x then x else a) else (if x < a then x else a))

/-- Inputs not in state BAD, as taken, with their qualities. -/
def notBad (b : BlockIn) : List ((Int × Bool) × Byte) :=
  (b.xs.zip (b.recs.map (·.quality))).filter fun e => qState e.2 ≠ qBad

/-- MINMAX -/
def blkMinmax (b : BlockIn) : List OutVal × List Int :=
  match notBad b with
  | [] => ([.hold b.q], [])
  | a :: r =>
    ([.val (extreme (b.c 0 = 1) (r.map (·.1.1)) a.1.1) b.w (qCombineAll ((a :: r).map (·.2))) false], [])

/-- TIMER -/
def blkTimer (b : BlockIn) : List OutVal × List Int :=
  let pt := b.c 1 * 1000
  let on := decide (b.x 0 ≠ 0)
  let run0 := decide (b.s 2 % 2 ≠ 0)
  let prev := decide (b.s 2 / 2 % 2 ≠ 0)
  let grow (e : Int) : Int := if e + b.dt < pt then e + b.dt else pt
  let (e, q, run) := match b.c 0 with
    | 0 => let e := if on then grow (b.s 1) else 0; (e, on && decide (e = pt), run0)
    | 1 => if on then (0, true, run0) else let e := grow (b.s 1); (e, decide (e < pt), run0)
    | _ =>
      let start := on && !prev && !run0
      let run := run0 || start
      let e := if run then grow (if start then 0 else b.s 1) else b.s 1
      (e, run && decide (e < pt), run && !(decide (e = pt) && !on))
  ([.val (bv q) 0 b.q false, .val (tdiv e 1000) 0 b.q false], [e, bv run + 2 * bv on])

/-- COUNTER -/
def blkCounter (b : BlockIn) : List OutVal × List Int :=
  let cu := decide (b.x 0 ≠ 0)
  let cd := decide (b.x 1 ≠ 0)
  let up := cu && decide (b.s 2 % 2 = 0)
  let down := cd && decide (b.s 2 / 2 % 2 = 0)
  let (cv, l) := if b.x 2 ≠ 0 then (0, false) else if b.x 3 ≠ 0 then (b.c 0, false) else satF (b.s 1 + bv up - bv down)
  ([.val (bv (decide (b.c 0 ≤ cv))) 0 b.q l, .val cv 0 b.q l], [cv, bv cu + 2 * bv cd])

/-- LATCH -/
def blkLatch (b : BlockIn) : List OutVal × List Int :=
  let s := decide (b.x 0 ≠ 0)
  let r := decide (b.x 1 ≠ 0)
  let q := if s && r then decide (b.c 0 = 0) else if s then true else if r then false else decide (b.s 1 ≠ 0)
  oneBit b q [bv q]

/-- EDGE -/
def blkEdge (b : BlockIn) : List OutVal × List Int :=
  let v := decide (b.x 0 ≠ 0)
  let p := decide (b.s 1 ≠ 0)
  let up := v && !p
  let down := !v && p
  let q := !b.first && (match b.c 0 with
    | 0 => up
    | 1 => down
    | _ => up || down)
  oneBit b q [bv v]

/-- LAG -/
def blkLag (b : BlockIn) : List OutVal × List Int :=
  if b.first then one b (b.x 0) false [b.x 0]
  else
    let a := if b.c 0 + b.dt = 0 then 0 else tdiv (b.dt * 65536) (b.c 0 + b.dt)
    let (y, l) := satF (b.s 1 + rnd ((b.x 0 - b.s 1) * a) 16)
    one b y l [y]

/-- RATE -/
def blkRate (b : BlockIn) : List OutVal × List Int :=
  if b.first then one b (b.x 0) false [b.x 0]
  else
    let step := tdiv (b.c 0 * b.dt) 1000000
    let d := b.x 0 - b.s 1
    let (y, l) := satF (if (d.natAbs : Int) ≤ step then b.x 0 else if 0 < d then b.s 1 + step else b.s 1 - step)
    one b y l [y]

/-- PI -/
def blkPi (b : BlockIn) : List OutVal × List Int :=
  let (e, l1) := satF (b.x 0 - b.x 1)
  let (p, l2) := satF (rnd (e * b.c 0) 16)
  let i := clamp (b.s 1 + tdiv (rnd (e * b.c 1) 16 * b.dt) 1000000) (b.c 2) (b.c 3)
  let (y, l3) := satF (p + i)
  one b (clamp y (b.c 2) (b.c 3)) (l1 || l2 || l3) [i]

/-- Position k of a curve with xk ≤ x < xk+1. -/
def curvePos (x : Int) : List Int → Nat → Nat
  | _ :: b :: r, k => if x < b then k else curvePos x (b :: r) (k + 1)
  | _, k => k

/-- Value of a curve of points (xs, ys), ends held, linear between (R136 CURVE; R176 uses it too). -/
def curveAt (xs ys : List Int) (x : Int) : Int :=
  let n := xs.length
  if x ≤ lget xs 0 0 then lget ys 0 0
  else if lget xs (n - 1) 0 ≤ x then lget ys (n - 1) 0
  else
    let k := curvePos x xs 0
    lget ys k 0 + tdiv ((x - lget xs k 0) * (lget ys (k + 1) 0 - lget ys k 0)) (lget xs (k + 1) 0 - lget xs k 0)

/-- CURVE -/
def blkCurve (b : BlockIn) : List OutVal × List Int :=
  let n := (b.c 0).toNat
  let (y, l) := satF (curveAt ((b.k.drop 1).take n) ((b.k.drop (1 + n)).take n) (b.x 0))
  one b y l []

/-- INTEGRATE -/
def blkIntegrate (b : BlockIn) : List OutVal × List Int :=
  let q := (if b.x 0 < 0 then 0 else b.x 0) * b.dt + b.s 1
  let d := if b.c 0 = 0 then 1 else b.c 0
  let (t, l) := satF (b.last + q / d)
  ([.val t 0 b.q l], [q % d])

/-- The middle of three. -/
def median (a b c : Int) : Int :=
  if a ≤ b then (if b ≤ c then b else if a ≤ c then c else a) else (if a ≤ c then a else if b ≤ c then c else b)

/-- Flag bits [6:3] of several qualities, under state ESTIMATED. -/
def estOf (l : List Byte) : Byte := qWithState (qCombineAll l) qEst

/-- MEDIAN3 -/
def blkMedian (b : BlockIn) : List OutVal × List Int :=
  let l := notBad b
  match l with
  | [x, y, z] => ([.val (median x.1.1 y.1.1 z.1.1) b.w b.q false], [])
  | [x, y] => ([.val (Int.fdiv (x.1.1 + y.1.1) 2) b.w (estOf (l.map (·.2))) false], [])
  | [x] => ([.val x.1.1 b.w (estOf (l.map (·.2))) false], [])
  | _ => ([.hold b.q], [])

/-- QGATE -/
def blkQgate (b : BlockIn) : List OutVal × List Int :=
  let q := (lget b.recs 0 {}).quality
  if qUsable q then ([.val (b.x 0) b.w q false, .val 1 0 0 false], [])
  else ([.val (b.c 0) b.w (qWithState (q &&& 0x7F) qEst) false, .val 0 0 0 false], [])

/-- A library block by type: its outputs and its state words after word 0 (R136). -/
def libBlock (t : Nat) (b : BlockIn) : List OutVal × List Int :=
  match t with
  | 0x01 => one b (b.x 0) false []
  | 0x02 => let (y, l) := satF (isum (b.xs.map (·.1))); one b y l []
  | 0x03 => let (y, l) := satF (b.x 0 - b.x 1); one b y l []
  | 0x04 => let (y, l) := alignF (b.x 0 * b.x 1) (2 * b.w) b.w; let (y, l') := satF y; one b y (l || l') []
  | 0x05 => blkDiv b
  | 0x06 => let y := clamp (b.x 0) (b.c 0) (b.c 1); one b y (decide (y ≠ b.x 0)) []
  | 0x07 => let (y, l) := satF (rnd (b.x 0 * b.c 0) (b.c 1).toNat + b.c 2); one b y l []
  | 0x08 => blkCompare b
  | 0x09 => blkLogic b
  | 0x0A => blkSelect b
  | 0x0B => blkMux b
  | 0x0C => blkMinmax b
  | 0x0D => blkTimer b
  | 0x0E => blkCounter b
  | 0x0F => blkLatch b
  | 0x10 => blkEdge b
  | 0x11 => blkLag b
  | 0x12 => blkRate b
  | 0x13 => blkPi b
  | 0x14 => blkCurve b
  | 0x15 => blkIntegrate b
  | 0x16 => blkMedian b
  | 0x17 => blkQgate b
  | _ => ([], [])

/-! ### Block code (R137 to R144) -/

/-- The state of a custom block's run (R137, R141, R142). -/
structure Vm where
  /-- V0 to V15 -/
  regs : List Int := List.replicate 16 0
  /-- Z -/
  z    : Bool := false
  /-- N -/
  n    : Bool := false
  /-- V -/
  v    : Bool := false
  /-- S -/
  sx   : Bool := false
  /-- position in the block's code -/
  pc   : Nat := 0
  /-- instance state words -/
  st   : List Int := []
  /-- scratch words by byte address (R142) -/
  scr  : FMap Int := []
  /-- R29 quality of the inputs read so far -/
  q    : Byte := 0
  /-- outputs written: value at the output's scale, quality -/
  outs : FMap (Int × Byte) := []
deriving DecidableEq, Repr

/-- What one instruction of block code leads to. -/
inductive VmNext where
  /-- the next instruction -/
  | go (m : Vm)
  /-- END -/
  | done (m : Vm)
  /-- a trap code (R144) -/
  | trap (code : Nat)
deriving DecidableEq, Repr

/-- Register of a machine. -/
def Vm.r (m : Vm) (i : Nat) : Int := lget m.regs i 0

/-- A value modulo 2^64, signed. -/
def wrap64 (x : Int) : Int := toSigned 64 (ofSigned 64 x)

/-- Write RD, with Z and N. -/
def vmSet (m : Vm) (rd : Nat) (x : Int) : Vm :=
  { m with regs := lset m.regs rd x, z := decide (x = 0), n := decide (x < 0), pc := m.pc + 1 }

/-- Write sat(x) into RD; a limiting sat sets S. -/
def vmSat (m : Vm) (rd : Nat) (x : Int) : VmNext := .go { vmSet m rd (sat x) with sx := m.sx || !fits64 x }

/-- Write x modulo 2^64 into RD; V says that it did not fit. -/
def vmWrap (m : Vm) (rd : Nat) (x : Int) : VmNext := .go { vmSet m rd (wrap64 x) with v := !fits64 x }

/-- Write x into RD. -/
def vmPut (m : Vm) (rd : Nat) (x : Int) : VmNext := .go (vmSet m rd x)

/-- Conditions of R140. -/
def vmCond (m : Vm) : Nat → Bool
  | 0 => true
  | 1 => m.z
  | 2 => !m.z
  | 3 => m.n
  | 4 => !m.n
  | 5 => !m.n && !m.z
  | 6 => m.n || m.z
  | 7 => m.v
  | 8 => !m.v
  | 9 => m.sx
  | 10 => !m.sx
  | _ => false

/-- Jump relative to the next instruction. -/
def vmJump (m : Vm) (d : Int) : Vm := { m with pc := ((m.pc : Int) + 1 + d).toNat }

/-- Reading an input enters its quality (R141). -/
def vmSeen (m : Vm) (r : PointRec) : Vm := { m with q := qCombine m.q r.quality }

/-- OUT and OUTQ (R139, R141). -/
def vmOut (m : Vm) (w sOut : Int) (u : Nat) (y : Int) (st : Option Nat) : VmNext :=
  let (x, l) := alignF y w sOut
  let sx := m.sx || l
  let q := if sx then qSet m.q qOver else m.q
  let q := match st with
    | some k => qWithState q k
    | none => q
  .go { m with outs := fset m.outs u (x, q), sx := sx, pc := m.pc + 1 }

/-- A scratch address is in order (R142). -/
def scrOk (a : Int) (limit : Nat) : Bool := decide (0 ≤ a) && a % 8 = 0 && decide (a < (limit : Int))

/-- Bitwise operation on 64-bit values. -/
def bit64 (f : Nat → Nat → Nat) (a b : Int) : Int := toSigned 64 (f (ofSigned 64 a) (ofSigned 64 b))

/-- Arithmetic opcodes 0x02 to 0x13. -/
def vmArith (i : InstEntry) (m : Vm) (w : W32) : VmNext :=
  let rd := wRd w
  let a := m.r (wRa w)
  let b := m.r (wRb w)
  let u := wImm w
  match wOpc w with
  | 0x02 => vmPut m rd a
  | 0x03 => vmPut m rd (wSext w)
  | 0x04 => vmPut m rd (lget i.consts u 0)
  | 0x05 => vmWrap m rd (a + b)
  | 0x06 => vmSat m rd (a + b)
  | 0x07 => vmSat m rd (a + wSext w)
  | 0x08 => vmWrap m rd (a - b)
  | 0x09 => vmSat m rd (a - b)
  | 0x0A => vmSat m rd (-a)
  | 0x0B => vmSat m rd (a.natAbs : Int)
  | 0x0C => vmWrap m rd (a * b)
  | 0x0D => vmSat m rd (a * b)
  | 0x0E => vmSat m rd (rnd (a * b) u)
  | 0x0F => if b = 0 then .trap 1 else vmSat m rd (tdiv a b)
  | 0x10 => if b = 0 then .trap 1 else vmPut m rd (a - b * tdiv a b)
  | 0x11 => vmPut m rd (if a < b then a else b)
  | 0x12 => vmPut m rd (if a < b then b else a)
  | _ => if b < a then .trap 2 else
      let x := clamp (m.r rd) a b
      .go { vmSet m rd x with sx := m.sx || decide (x ≠ m.r rd) }

/-- Logic, shift and conversion opcodes 0x14 to 0x1E. -/
def vmLogic (m : Vm) (w : W32) : VmNext :=
  let rd := wRd w
  let a := m.r (wRa w)
  let b := m.r (wRb w)
  let u := wImm w
  match wOpc w with
  | 0x14 => vmPut m rd (bit64 Nat.land a b)
  | 0x15 => vmPut m rd (bit64 Nat.lor a b)
  | 0x16 => vmPut m rd (bit64 Nat.xor a b)
  | 0x17 => vmPut m rd (-a - 1)
  | 0x18 => vmPut m rd (wrap64 (a * (2 : Int) ^ u))
  | 0x19 => vmSat m rd (a * (2 : Int) ^ u)
  | 0x1A => vmPut m rd (toSigned 64 (ofSigned 64 a / 2 ^ u))
  | 0x1B => vmPut m rd (Int.fdiv a ((2 : Int) ^ u))
  | 0x1C => vmPut m rd (rnd a u)
  | 0x1D =>
    let s := toSigned 8 (ofSigned 64 b % 256)
    let t := toSigned 8 (u % 256)
    if s < -63 ∨ 63 < s ∨ t < -63 ∨ 63 < t then .trap 2
    else
      let (x, l) := alignF a s t
      .go { vmSet m rd x with sx := m.sx || l }
  | _ => if a < 0 then .trap 2 else vmPut m rd (isqrt a.toNat : Nat)

/-- Compare, select and branch opcodes 0x1F to 0x23. -/
def vmBranch (m : Vm) (w : W32) : VmNext :=
  let a := m.r (wRa w)
  let b := m.r (wRb w)
  match wOpc w with
  | 0x1F => .go { m with z := decide (a = b), n := decide (a < b), pc := m.pc + 1 }
  | 0x20 => .go { m with z := decide (a = wSext w), n := decide (a < wSext w), pc := m.pc + 1 }
  | 0x21 => .go { m with regs := lset m.regs (wRd w) (if vmCond m (wImm w % 16) then a else b), pc := m.pc + 1 }
  | 0x22 => .go (if vmCond m (wRd w) then vmJump m (wSext w) else { m with pc := m.pc + 1 })
  | _ =>
    let x := wrap64 (m.r (wRd w) - 1)
    let m' := vmSet m (wRd w) x
    .go (if x ≠ 0 then { m' with pc := (vmJump m (wSext w)).pc } else m')

/-- Input, output, state and scratch opcodes 0x24 to 0x2F. -/
def vmAccess (i : InstEntry) (recs : List PointRec) (outScales : List Int) (scratch stamp : Nat) (count : W32)
    (m : Vm) (w : W32) : VmNext :=
  let rd := wRd w
  let a := m.r (wRa w)
  let b := m.r (wRb w)
  let u := wImm w
  let rec' := lget recs u {}
  let addr := a + 8 * wSext w
  match wOpc w with
  | 0x24 => vmPut (vmSeen m rec') rd rec'.value
  | 0x25 =>
    let (x, l) := alignF rec'.value rec'.scale i.w
    .go { vmSet (vmSeen m rec') rd x with sx := m.sx || l }
  | 0x26 => vmPut (vmSeen m rec') rd
      ((rec'.quality.toNat + 256 * ofSigned 8 rec'.scale + 65536 * tfType rec'.typeflags : Nat) : Int)
  | 0x27 => vmOut m i.w (lget outScales u 0) u a none
  | 0x28 => if b < 0 ∨ 4 < b then .trap 2 else vmOut m i.w (lget outScales u 0) u a (some b.toNat)
  | 0x29 => vmPut m rd (lget m.st u 0)
  | 0x2A => .go { m with st := lset m.st u a, pc := m.pc + 1 }
  | 0x2B => if scrOk addr scratch then vmPut m rd (fgetD m.scr addr.toNat 0) else .trap 3
  | 0x2C => if scrOk addr scratch then .go { m with scr := fset m.scr addr.toNat b, pc := m.pc + 1 } else .trap 3
  | 0x2D => vmPut m rd (if u = 0 then toSigned 64 stamp else count.toNat)
  | 0x2E => .trap (0x100 + u)
  | _ => if b = 0 then .trap 1 else vmSat m rd (divr (m.r rd * a) b)

/-- One instruction (R139). -/
def vmStep (i : InstEntry) (recs : List PointRec) (outScales : List Int) (scratch stamp : Nat) (count : W32) (m : Vm) :
    VmNext :=
  match i.code[m.pc]? with
  | none => .done m
  | some w =>
    let o := wOpc w
    if o = 0 then .go { m with pc := m.pc + 1 }
    else if o = 1 then .done m
    else if o ≤ 0x13 then vmArith i m w
    else if o ≤ 0x1E then vmLogic m w
    else if o ≤ 0x23 then vmBranch m w
    else vmAccess i recs outScales scratch stamp count m w

/-- A run of at most `fuel` instructions, with the scratch it leaves; STEPS when END is not reached (R142, R143). -/
def vmRun (i : InstEntry) (recs : List PointRec) (outScales : List Int) (scratch stamp : Nat) (count : W32) :
    Nat → Vm → VmNext × FMap Int
  | 0, m => (.trap 4, m.scr)
  | n + 1, m =>
    match vmStep i recs outScales scratch stamp count m with
    | .go m => vmRun i recs outScales scratch stamp count n m
    | .done m => (.done m, m.scr)
    | .trap c => (.trap c, m.scr)

/-! ### One instance and one unit (R70, R71, R84, R144) -/

/-- What a unit's run sees (R36, R71, R83). -/
structure UnitEnv where
  /-- a point as the unit reads it -/
  read   : Nat → PointRec
  /-- last committed record of a point -/
  last   : Nat → PointRec
  /-- definition of a point -/
  pdef   : Nat → Option PointDef
  /-- a record as it is stored (R27): the record and whether R27 holds -/
  store  : PointDef → PointRec → PointRec × Bool
  /-- state words of an instance in the read buffer -/
  state  : Nat → List W64
  /-- FRESH mark of an instance (R135) -/
  fresh  : Nat → Bool
  /-- cycle stamp -/
  stamp  : Nat
  /-- cycle counter -/
  count  : W32

/-- What a run of a unit leaves (R71, R84, R88, R144). -/
structure UnitOut where
  /-- point writes -/
  writes  : FMap PointRec := []
  /-- new instance states -/
  states  : FMap (List W64) := []
  /-- trap count -/
  traps   : Nat := 0
  /-- first trap: instance id and code -/
  first   : Option (Nat × Nat) := none
  /-- points whose write broke R27 -/
  invalid : List Nat := []
  /-- writes outside the write set -/
  outside : List Nat := []
  /-- scratch, kept from instance to instance (R142) -/
  scr     : FMap Int := []
  /-- a computation fault waits for the first write (R458) -/
  upset   : Int := 0
deriving DecidableEq, Repr

/-- A record that keeps its last committed value with state BAD and HELD set (R84, R90, R144). -/
def heldBad (r : PointRec) : PointRec := { r with quality := qSet (qWithState r.quality qBad) qHeld }

/-- The write guard (R84) and the store of R27. -/
def guardWrite (env : UnitEnv) (u : UnitEntry) (id : Nat) (r : PointRec) (o : UnitOut) : UnitOut :=
  if id = noPoint then o
  else if !u.writeSet.contains id then { o with outside := o.outside ++ [id] }
  else match env.pdef id with
    | none => o
    | some d =>
      let (r', ok) := env.store d { r with value := r.value + o.upset }
      { o with writes := fset o.writes id r', upset := 0, invalid := if ok then o.invalid else o.invalid ++ [id] }

/-- Scale of an output's POINTDEF. -/
def outScale (env : UnitEnv) (id : Nat) : Int := ((env.pdef id).map (·.scale)).getD 0

/-- A sat that limits an output: the block's own or that of the output's align (R133). -/
def outLimits (env : UnitEnv) (e : Nat × OutVal) : Bool :=
  match e.2 with
  | .val y sc _ past => past || (e.1 ≠ noPoint && (alignF y sc (outScale env e.1)).2)
  | _ => false

/-- A quality with OVERRANGE when a sat of the block has limited (R133). -/
def overIf (lim : Bool) (q : Byte) : Byte := if lim then qSet q qOver else q

/-- Write one output of a block; `lim`: a sat of the block has limited a value (R133, R134). -/
def putOut (env : UnitEnv) (u : UnitEntry) (lim : Bool) (id : Nat) (v : OutVal) (o : UnitOut) : UnitOut :=
  match v with
  | .skip => o
  | .hold q =>
    guardWrite env u id
      { env.last id with quality := overIf lim (qWithState (q &&& 0x7F) qBad), stime := shortOf env.stamp } o
  | .val y sc q _ =>
    guardWrite env u id
      { value := (alignF y sc (outScale env id)).1, stime := shortOf env.stamp, quality := overIf lim q
        scale := outScale env id, typeflags := 0 } o

/-- Write outputs in order. -/
def putOuts (env : UnitEnv) (u : UnitEntry) (lim : Bool) : List (Nat × OutVal) → UnitOut → UnitOut
  | [], o => o
  | (id, v) :: r, o => putOuts env u lim r (putOut env u lim id v o)

/-- A trap: every output keeps its last committed value with state BAD and HELD (R144). -/
def trapInst (env : UnitEnv) (u : UnitEntry) (i : InstEntry) (code : Nat) (o : UnitOut) : UnitOut :=
  let rec go : List Nat → UnitOut → UnitOut
    | [], o => o
    | id :: r, o => go r (guardWrite env u id { heldBad (env.last id) with stime := shortOf env.stamp } o)
  let o := go i.outs o
  let first := match o.first with
    | none => some (i.id, code)
    | f => f
  { o with traps := o.traps + 1, first := first, states := fset o.states i.id (env.state i.id) }

/-- Blocks that need elapsed time and keep the cycle stamp of their last run in state word 0: TIMER, LAG, RATE, PI and INTEGRATE
(R135, R136). -/
def keepsStamp (t : Nat) : Bool := [0x0D, 0x11, 0x12, 0x13, 0x15].contains t

/-- Run a library block; any sat that limits sets OVERRANGE on every output (R133). Word 0 of a block that does not keep the
stamp stays as it is. -/
def runLib (env : UnitEnv) (u : UnitEntry) (i : InstEntry) (o : UnitOut) : UnitOut :=
  let recs := i.ins.map env.read
  let st := (env.state i.id).map (·.toInt)
  let b : BlockIn :=
    { w := i.w, k := i.consts, recs := recs, xs := takeInputs i.blockType i.w recs, st := st
      dt := elapsed env.stamp (lget st 0 0), first := env.fresh i.id
      last := match i.outs with
        | id :: _ => let r := env.last id; align r.value r.scale 0
        | [] => 0 }
  let (vs, rest) := libBlock i.blockType b
  let word0 := if keepsStamp i.blockType then BitVec.ofNat 64 env.stamp else lget (env.state i.id) 0 0
  let words := word0 :: rest.map (BitVec.ofInt 64)
  let outs := i.outs.zip vs
  putOuts env u (b.lim || outs.any (outLimits env)) outs { o with states := fset o.states i.id words }

/-- Run a custom block. -/
def runCustom (env : UnitEnv) (u : UnitEntry) (i : InstEntry) (o : UnitOut) : UnitOut :=
  let m : Vm := { st := (env.state i.id).map (·.toInt), scr := o.scr }
  match vmRun i (i.ins.map env.read) (i.outs.map (outScale env)) u.scratchBytes env.stamp env.count i.stepLimit m with
  | (.trap c, scr) => trapInst env u i c { o with scr := scr }
  | (.go m, _) | (.done m, _) =>
    let vals := (indexed 0 i.outs).map fun e =>
      (e.2, match fget m.outs e.1 with
        | some (x, q) => OutVal.val x (outScale env e.2) q false
        | none => OutVal.skip)
    putOuts env u false vals { o with states := fset o.states i.id (m.st.map (BitVec.ofInt 64)), scr := m.scr }

/-- Run the instances of a unit in order (R71). -/
def runInsts (env : UnitEnv) (u : UnitEntry) : List InstEntry → UnitOut → UnitOut
  | [], o => o
  | i :: r, o => runInsts env u r (if i.blockType = 0xFF then runCustom env u i o else runLib env u i o)

/-- Points of a unit that keep their last committed values with state BAD and HELD (R84, R90). -/
def failedWrites (env : UnitEnv) (u : UnitEntry) : FMap PointRec :=
  u.writeSet.foldr (fun id m => fset m id (heldBad (env.last id))) []

/-- Run a unit (R70, R71, R84). -/
def runUnit (env : UnitEnv) (im : Image) (u : UnitEntry) (upset : Int) : UnitOut :=
  let o := runInsts env u (unitInsts im u) { upset := upset }
  if o.outside.isEmpty then o else { o with writes := failedWrites env u, states := [] }

/-- Result hash of a staged run (R88). -/
def resultHash (o : UnitOut) : W64 :=
  let b := (o.writes.flatMap fun e => putLE 4 e.1 ++ putSLE 8 e.2.value ++ [e.2.quality] ++ putSLE 1 e.2.scale) ++
    (o.states.flatMap fun e => putLE 4 e.1 ++ e.2.flatMap fun w => putLE 8 w.toNat) ++ putLE 2 o.traps
  BitVec.ofNat 64 (Nat.xor (crcMsb 64 0x42F0E1EBA9EA3693 0xFFFFFFFFFFFFFFFF b) 0xFFFFFFFFFFFFFFFF)

end Sys2Proof.Machine
end

