-- ==== Sys2Proof/Machine/Loops.lean ====
section
/-! DEFINITION. Loops.lean: the loop engine LB (R150 to R173). -/

namespace Sys2Proof.Machine

/-- Change a channel. -/
def setChan (n : Nat) (f : Channel → Channel) (s : State) : State :=
  { s with loops := fset s.loops n (f (chan s n)) }

/-! ### Descriptor (R153 to R156) -/

/-- A coefficient set at an offset (R154). -/
def parseCoef (b : Bytes) (o : Nat) : CoefSet :=
  { regionLo := getSLE b o 8, bandHi := getLE b (o + 8) 4, bandLo := getLE b (o + 12) 4, bandIn := getLE b (o + 16) 4
    minOn := getLE b (o + 20) 2, minOff := getLE b (o + 22) 2, pulse := getLE b (o + 24) 2, pause := getLE b (o + 26) 2
    vstep := getLE b (o + 28) 4, astep := getLE b (o + 32) 4, jstep := getLE b (o + 36) 4 }

/-- A channel descriptor (R153). -/
def parseLoop (b : Bytes) : LoopDesc :=
  { mode := getLE b 0 1, flags := byte (getLE b 1 1), nsets := getLE b 2 1, tripGroup := getLE b 3 1
    periodMs := getLE b 4 2, phaseMs := getLE b 6 2, pvPoint := getLE b 8 4, targetId := getLE b 12 4
    svPoint := getLE b 16 4, outPoint := getLE b 20 4, speffPoint := getLE b 24 4
    outRoute := BitVec.ofNat 32 (getLE b 28 4), fallback := getSLE b 32 8, feLimit := getSLE b 40 8
    feTimeMs := getLE b 48 4, jerkN := getLE b 52 1, tripState := getLE b 53 1, regionHyst := getSLE b 56 8
    sets := (upto 8).map fun i => parseCoef b (64 + 40 * i), raw := b }

/-- DIR -/
def LoopDesc.reverse (d : LoopDesc) : Bool := d.flags.getLsbD 0
/-- TSRC 1: the target comes from the plan. -/
def LoopDesc.fromPlan (d : LoopDesc) : Bool := d.flags.getLsbD 1
/-- FAULT_ACT -/
def LoopDesc.action (d : LoopDesc) : Nat := d.flags.toNat / 4 % 4

/-- A point has one of some types. -/
def hasType (s : State) (id : Nat) (types : List Nat) : Bool :=
  match defOf s id with
  | some d => types.contains (tfType d.typeflags)
  | none => false

/-- OUT_POINT has SOURCE 3 and the type of its MODE; R153 names none for MODE 0 (R153, R155). -/
def outPointOk (s : State) (d : LoopDesc) : Bool :=
  match defOf s d.outPoint with
  | none => false
  | some p => tfSource p.typeflags = 3 && (match d.mode with
    | 0 => true
    | 1 => tfType p.typeflags = 0
    | 2 => tfType p.typeflags = 3 && p.enumSize = 3
    | _ => tfType p.typeflags = 2)

/-- SPEFF_POINT has SOURCE 3 and a numeric type (R153, R155). -/
def speffOk (s : State) (id : Nat) : Bool :=
  id = noPoint || (match defOf s id with
    | some p => tfSource p.typeflags = 3 && (tfType p.typeflags = 1 || tfType p.typeflags = 2)
    | none => false)

/-- The argument of OUT_ROUTE fits its kind (R313, R349, R564). -/
def routeFits (d : LoopDesc) : Bool :=
  let w := d.outRoute.toNat
  match w % 256 with
  | 0 => w / 256 = 0
  | 1 => decide (w / 256 < 2048)
  | 2 => decide (w / 256 < 256)
  | 3 => decide (w / 256 < 16) && d.mode = 1
  | _ => false

/-- Faults of a coefficient set, with payload offsets (R154, R155, R406). -/
def setFaults (d : LoopDesc) (n : Nat) : List (Nat × Bool) :=
  let o := 68 + 40 * n
  let c := lget d.sets n (parseCoef [] 0)
  if n < d.nsets then
    [(o, decide (2 ≤ n) && decide (c.regionLo - (lget d.sets (n - 1) c).regionLo ≤ 2 * d.regionHyst)),
     (o + 16, decide (c.bandHi < c.bandIn) || decide (c.bandLo < c.bandIn)),
     (o + 20, d.mode = 2 && c.minOn = 0), (o + 24, d.mode = 2 && decide (c.pulse < c.minOn)),
     (o + 28, c.vstep = 0), (o + 32, c.astep = 0), (o + 36, c.jstep = 0 || decide (d.jerkN * c.jstep < 2 * c.astep))]
  else [(o, notZero d.raw (64 + 40 * n) 40)]

/-- Faults of a descriptor, with payload offsets (R155). -/
def loopFaults (s : State) (d : LoopDesc) : List (Nat × Bool) :=
  [(4, decide (3 < d.mode)), (5, d.action = 3 || decide (16 ≤ d.flags.toNat)), (6, d.nsets = 0 || decide (8 < d.nsets)),
   (7, decide (16 < d.tripGroup)), (8, d.periodMs = 0 || decide (10000 < d.periodMs)), (10, decide (d.periodMs ≤ d.phaseMs)),
   (12, !hasType s d.pvPoint [1, 2]), (16, if d.fromPlan then decide (4096 ≤ d.targetId) else !defined s d.targetId),
   (20, decide (d.svPoint ≠ noPoint) && !defined s d.svPoint), (24, !outPointOk s d), (28, !speffOk s d.speffPoint),
   (32, !routeFits d), (44, decide (d.feLimit < 0)), (52, decide (86400000 < d.feTimeMs)),
   (56, d.jerkN = 0 || decide (32 < d.jerkN)), (57, (d.mode = 1 || d.mode = 2) && decide (d.mode < d.tripState)),
   (58, notZero d.raw 54 2), (60, decide (d.regionHyst < 0))] ++ (upto 8).flatMap (setFaults d)

/-! ### Target (R39, R160) -/

/-- Class whose running program writes a point. -/
def classWriting (s : State) (id : Nat) : Option Nat :=
  (upto 4).find? fun c => match (cls s c).prog with
    | some im => im.units.any fun u => u.cls = c && u.writeSet.contains id
    | none => false

/-- Class that owns a channel: the class that writes its target, Main for a plan (R160). -/
def ownerClass (s : State) (d : LoopDesc) : Nat := if d.fromPlan then 1 else (classWriting s d.targetId).getD 1

/-- SCALE of the PV point, in which the channel works (R152). -/
def pvScale (s : State) (d : LoopDesc) : Int := ((defOf s d.pvPoint).map (·.scale)).getD 0

/-- A target point's value as LB latches it. -/
def latchTarget (s : State) (d : LoopDesc) (c : Channel) : Channel :=
  let r := readRec s d.targetId
  { c with latched := r.value, latchedSc := r.scale, latchedQ := r.quality }

/-- LB latches the set-points of a class's commit (R39 step 1). -/
def latchLoops (c : Nat) (s : State) : State :=
  let latch (e : Nat × Channel) : Nat × Channel :=
    match e.2.desc with
    | some d => if !d.fromPlan && ownerClass s d = c then (e.1, latchTarget s d e.2) else e
    | none => e
  if inService s idLB then { s with loops := s.loops.map latch } else s

/-- Value of a trajectory in the plan in force at an instant, with its scale (R160 rule 4, R241). -/
def planValue (s : State) (traj t : Nat) : Option (Int × Int × Bool) :=
  match s.opt.plan with
  | none => none
  | some p =>
    let gone := wrapDiff 64 p.t0 t
    if 0 ≤ gone ∧ gone < p.horizon * p.stepS * 1000000000 then
      let k := gone.toNat / (Nat.max p.stepS 1 * 1000000000)
      match p.values[traj]? with
      | some l => some (lget l k 0, lget p.scales traj 0, p.estimated)
      | none => none
    else none

/-- The target of a sample: its value in Q16, its quality, and whether the plan leaves a gap (R160). -/
def fixTarget (s : State) (d : LoopDesc) (c : Channel) (t : Nat) : Int × Byte × Bool :=
  let safe := decide ((cls s (ownerClass s d)).st = .safe)
  if c.fault = .fallback || c.fault = .trip || safe then (d.fallback * 65536, 0, false)
  else if c.held || c.fault = .hold then (c.holdQ, 0, c.planGap)
  else if d.fromPlan then
    match planValue s d.targetId t with
    | some (v, sc, est) => (align v sc (pvScale s d) * 65536, byte (if est then qEst else qGood), false)
    | none => (c.target, byte qStale, true)
  else (align c.latched c.latchedSc (pvScale s d) * 65536, c.latchedQ, false)

/-! ### Region, profile and law (R157 to R161) -/

/-- Move to higher regions. -/
def regionUp (d : LoopDesc) (sv : Int) : Nat → Nat → Nat
  | 0, r => r
  | n + 1, r =>
    if r + 1 < d.nsets && decide ((lget d.sets (r + 1) (parseCoef [] 0)).regionLo + d.regionHyst < sv) then
      regionUp d sv n (r + 1) else r

/-- Move to lower regions. -/
def regionDown (d : LoopDesc) (sv : Int) : Nat → Nat → Nat
  | 0, r => r
  | n + 1, r =>
    if 0 < r && decide (sv < (lget d.sets r (parseCoef [] 0)).regionLo - d.regionHyst) then regionDown d sv n (r - 1) else r

/-- Pending region from a usable SV (R157). -/
def pendingRegion (d : LoopDesc) (sv : Int) (r : Nat) : Nat := regionDown d sv 8 (regionUp d sv 8 r)

/-- Sign of an integer. -/
def sgn (x : Int) : Int := if x < 0 then -1 else if x = 0 then 0 else 1

/-- New velocity of the trapezoid stage (R158). -/
def newVelocity (d u a v : Int) : Int :=
  if (d.natAbs : Int) ≤ a ∧ ((d - u).natAbs : Int) ≤ a then d
  else
    let w := tdiv (((isqrt (8 * a * d.natAbs + a * a).toNat : Nat) : Int) - a) 2
    let w := sgn d * (if v < w then v else w)
    clamp w (u - a) (u + a)

/-- One sample of the profile generator (R158). -/
def profile (d : LoopDesc) (set : CoefSet) (t : Int) (c : Channel) : Channel :=
  let un := newVelocity (t - c.q) c.u set.astep set.vstep
  let n := Nat.max d.jerkN 1
  let q := c.q + un
  let ring := lset (c.ring ++ List.replicate (n - c.ring.length) q) (c.k % n) q
  { c with q := q, u := un, ring := ring, k := c.k + 1, target := t
           spEff := divr (isum (ring.take n)) (n * 65536) }

/-- The generator starts from a position (R159). -/
def startProfile (n : Nat) (q : Int) (c : Channel) : Channel :=
  { c with q := q, u := 0, ring := List.replicate n q, k := 0, restart := false }

/-- Set a two-point or three-point output, restarting the counter of the state it enters (R161). -/
def setOut (o : Int) (c : Channel) : Channel :=
  if c.out = o then c
  else if o = 0 then { c with out := o, offN := 0 } else { c with out := o, onN := 0 }

/-- Two-point law (R161). -/
def lawTwo (set : CoefSet) (e : Int) (c : Channel) : Channel :=
  if c.out = 0 && decide ((set.bandHi : Int) < e) && decide (set.minOff ≤ c.offN) then setOut 1 c
  else if c.out = 1 && decide (e < -(set.bandLo : Int)) && decide (set.minOn ≤ c.onN) then setOut 0 c
  else c

/-- Zone update (R161). -/
def zoneOf (set : CoefSet) (e : Int) (z : Nat) : Nat :=
  if (set.bandHi : Int) < e then 1
  else if e < -(set.bandLo : Int) then 2
  else if (z = 1 && decide (e ≤ set.bandIn)) || (z = 2 && decide (-(set.bandIn : Int) ≤ e)) then 0
  else z

/-- Three-point law (R161). -/
def lawThree (set : CoefSet) (e : Int) (c : Channel) : Channel :=
  let z := zoneOf set e c.zone
  let c := { c with zone := z }
  if c.out ≠ 0 then
    (if set.pulse ≤ c.onN || (decide ((z : Int) ≠ c.out) && decide (set.minOn ≤ c.onN)) then setOut 0 c else c)
  else if z ≠ 0 && decide (Nat.max set.pause set.minOff ≤ c.offN) then setOut z c
  else c

/-- The law of a channel that is not held (R161). -/
def law (d : LoopDesc) (set : CoefSet) (pv : Int) (c : Channel) : Channel :=
  let e := if d.reverse then pv - c.spEff else c.spEff - pv
  match d.mode with
  | 1 => lawTwo set e c
  | 2 => lawThree set e c
  | _ => { c with out := c.spEff }

/-- Output under HOLD: three-point goes to STOP, the others hold (R163, R166). -/
def holdOut (d : LoopDesc) (c : Channel) : Channel := if d.mode = 2 then setOut 0 c else c

/-! ### Supervision (R162, R163) -/

/-- Take the fault action (R163). -/
def takeAction (n : Nat) (d : LoopDesc) (c : Channel) (s : State) : Channel × State :=
  let s := raise 0x43 [n, c.fe] s
  match d.action with
  | 0 => (holdOut d { c with fault := .hold, holdQ := c.q }, s)
  | 1 => ({ c with fault := .fallback }, s)
  | _ =>
    let c := { c with fault := .trip }
    let c := if d.mode = 3 then c else setOut d.tripState c
    (c, fireFromLoop d.tripGroup (raise 0x45 [n, d.tripGroup] s))

/-- Supervise a sample; FE_TIME_MS 0 disables the timer, and a held channel's is frozen; a HOLD clears by itself in either
case (R153, R162, R163, R166). -/
def supervise (n : Nat) (d : LoopDesc) (pvOk : Bool) (pv : Int) (c : Channel) (s : State) : Channel × State :=
  let c := { c with fe := c.spEff - pv }
  let bad := !pvOk || decide (d.feLimit < (c.fe.natAbs : Int))
  let c := if c.held then c else { c with feMs := if bad && decide (d.feTimeMs ≠ 0) then c.feMs + d.periodMs else 0 }
  if c.fault = .hold && !bad then ({ c with fault := .none }, raise 0x44 [n] s)
  else if !c.held && c.fault = .none && decide (d.feTimeMs ≠ 0) && decide (d.feTimeMs ≤ c.feMs) then takeAction n d c s
  else (c, s)

/-! ### The sample (R164) -/

/-- The descriptor that waits may take effect at a sample (R169). -/
def nextReady (c : Channel) (t : Nat) : Bool := c.next.isSome && decide (0 ≤ wrapDiff 64 c.nextFrom t)

/-- A descriptor that waits takes effect at a sample (R157, R159, R160, R169). -/
def adoptDesc (s : State) (t : Nat) (c : Channel) : Channel :=
  match c.next with
  | none => c
  | some d =>
    if !nextReady c t then c
    else
      let old := c.desc
      let fresh := match old with
        | some o => decide (o.mode ≠ d.mode) || decide (o.pvPoint ≠ d.pvPoint)
        | none => true
      let modeNew := decide ((old.map (·.mode)) ≠ some d.mode)
      let bound (r : Nat) : Nat := if d.svPoint = noPoint then 0 else Nat.min r (d.nsets - 1)
      let c := { c with desc := some d, next := none, nextFrom := 0, restart := c.restart || fresh
                        region := bound c.region, pendRegion := bound c.pendRegion }
      let c := if decide ((old.map (·.jerkN)) ≠ some d.jerkN) then { c with ring := List.replicate d.jerkN c.q, k := 0 } else c
      let c := if modeNew then { c with out := 0, zone := 0, onN := 0, offN := 0, feMs := 0, fe := 0, fault := .none } else c
      let same := match old with
        | some o => !o.fromPlan && decide (o.targetId = d.targetId)
        | none => false
      if !d.fromPlan && !same then latchTarget s d c else c

/-- Quality of the output points (R164): the R29 combination of PV and target, with state GOOD without a target fault, and HELD
while the channel is held or in HOLD. -/
def loopQuality (pvq tq : Byte) (c : Channel) : Byte :=
  let q := if qUsable tq then qWithState (qCombine pvq tq) qGood else qCombine pvq tq
  if c.held || c.fault = .hold then qSet q qHeld else q

/-- The output on its way: value and scale (R161, R164). -/
def loopValue (s : State) (d : LoopDesc) (c : Channel) : Int × Int := (c.out, if d.mode = 3 then pvScale s d else 0)

/-- Write OUT_POINT and SPEFF_POINT and hand the output to OUT_ROUTE (R164, R313, R349, R564). -/
def loopOutput (d : LoopDesc) (q : Byte) (t : Nat) (c : Channel) (s : State) : State :=
  let (v, sc) := loopValue s d c
  let s := writeScaled d.outPoint v sc (shortOf t) q s
  let s := writeScaled d.speffPoint c.spEff (pvScale s d) (shortOf t) q s
  let r := liveRec s d.outPoint
  let arg := d.outRoute.toNat / 256
  match d.outRoute.toNat % 256 with
  | 1 => sendLoop arg t r.quality r.scale r.value s
  | 2 => if routing s then canLoopFill (arg % 4) (arg / 4 % 64) v sc s else s
  | 3 => if routing s then { s with rings := { s.rings with gpo := fset s.rings.gpo arg (decide (c.out = 1)) } } else s
  | _ => s

/-- One sample of a channel of MODE other than 0 (R164). -/
def sampleChannel (n t : Nat) (d : LoopDesc) (s : State) : State :=
  let c := chan s n
  let held := c.disabled || !cfgBit s 0xA04 0
  let begins := held && !c.held && decide (c.fault ≠ .hold)
  let c := { c with held := held, holdQ := if begins then c.q else c.holdQ }
  let c := { c with region := c.pendRegion, onN := satBits 16 (c.onN + 1), offN := satBits 16 (c.offN + 1)
                    samples := c.samples + 1 }
  let pvr := readRec s d.pvPoint
  let pvOk := defined s d.pvPoint && qUsable pvr.quality
  let pv := align pvr.value pvr.scale (pvScale s d)
  let svr := readRec s d.svPoint
  let q0 := if pvOk then pv * 65536 else (fixTarget s d c t).1
  let c := if c.restart then { startProfile (Nat.max d.jerkN 1) q0 c with holdQ := if begins then q0 else c.holdQ } else c
  let (tgt, tq, gap) := fixTarget s d c t
  let s := raiseOnce (c.planGap || !gap) 0x42 [n] s
  let c := { c with planGap := gap }
  let set := lget d.sets c.region (parseCoef [] 0)
  let c := profile d set tgt c
  let c := if c.held || c.fault = .hold then holdOut d c
    else if c.fault = .trip && decide (d.mode ≠ 3) then setOut d.tripState c
    else if pvOk then law d set pv c else c
  let (c, s) := supervise n d pvOk pv c s
  let svOk := decide (d.svPoint = noPoint) || (defined s d.svPoint && qUsable svr.quality)
  let s := raiseOnce (c.schedBad || svOk) 0x41 [n] s
  let c := { c with
    schedBad := !svOk, recovering := decide (0 < c.feMs) && qHas pvr.quality qHeld
    pendRegion := if d.svPoint = noPoint then 0 else if svOk then pendingRegion d svr.value c.region else c.region }
  loopOutput d (loopQuality pvr.quality tq c) t c (setChan n (fun _ => c) s)

/-- The channel samples at a millisecond (R150). -/
def dueAt (d : LoopDesc) (ms : Nat) : Bool :=
  decide (d.phaseMs ≤ ms) && (ms - d.phaseMs) % Nat.max d.periodMs 1 = 0

/-- Descriptor that governs a sample. -/
def sampleDesc (c : Channel) (t : Nat) : Option LoopDesc := if nextReady c t then c.next else c.desc

/-- The channel is to be evaluated at a millisecond (R150). -/
def channelDue (s : State) (ms n : Nat) : Bool :=
  match sampleDesc (chan s n) (ms * 1000000) with
  | some d => decide (d.mode ≠ 0) && dueAt d ms
  | none => false

/-- The evaluation of one channel for a millisecond. -/
def evalChannel (ms n : Nat) (s : State) : State :=
  let t := ms * 1000000
  match sampleDesc (chan s n) t with
  | some d => sampleChannel n t d (setChan n (adoptDesc s t) s)
  | none => s

/-- Channels in turn. -/
def evalChannels (ms : Nat) : List Nat → State → State
  | [], s => s
  | n :: r, s => evalChannels ms r (evalChannel ms n s)

/-- A descriptor of MODE 0 takes effect without an evaluation (R166). -/
def adoptOff (t : Nat) (s : State) (e : Nat × Channel) : Nat × Channel :=
  match sampleDesc e.2 t with
  | some d => if d.mode = 0 then (e.1, adoptDesc s t e.2) else e
  | none => e

/-- LOOP_MS_TICK: each millisecond of device time (R150, R151). `evalUs` is how long the evaluation takes; the last `left` of
the channels due are not evaluated before the next millisecond, which evaluates them first and is late. -/
def execLoopMsTick (evalUs left : Nat) (s : State) : Res :=
  let ms := devNs s / 1000000
  .next (if s.power.ready && inService s idLB && decide (s.loopMs ≠ ms) then
      let rest := s.loopLeft
      let s := if rest.isEmpty then s else evalChannels s.loopMs rest (raise 0x40 [s.loopMs] (rcAdd 0xA10 1 s))
      let s := { s with loops := s.loops.map (adoptOff (ms * 1000000) s) }
      let due := (s.loops.map (·.1)).filter (channelDue s ms)
      let now := due.take (due.length - left)
      let s := evalChannels ms now s
      { s with loopMs := ms, loopLeft := due.drop now.length, loopEvals := (s.loopEvals + rest.length + now.length) % 2 ^ 64
               loopMaxLoad := Nat.max s.loopMaxLoad evalUs }
    else s)

/-- LOOP_FE_EXPIRY: fe_ms has reached FE_TIME_MS on a channel without a fault: the fault action governs the output
(R162, R164). -/
def execLoopFeExpiry (ch : Fin 2048) (s : State) : Res :=
  let n := ch.val
  let c := chan s n
  .next (match c.desc with
    | none => s
    | some d =>
      if d.mode ≠ 0 && d.feTimeMs ≠ 0 && decide (d.feTimeMs ≤ c.feMs) && decide (c.fault = .none) && !c.held then
        let (c, s) := takeAction n d c s
        loopOutput d (loopQuality (readRec s d.pvPoint).quality c.latchedQ c) (devNs s) c (setChan n (fun _ => c) s)
      else s)

/-! ### Dynamic state (R165, R416) -/

/-- Fault code of a mirror record. -/
def faultCode : LoopFault → Nat
  | .none => 0
  | .hold => 1
  | .fallback => 2
  | .trip => 3

/-- Fault state of a code. -/
def faultOf : Nat → LoopFault
  | 1 => .hold
  | 2 => .fallback
  | 3 => .trip
  | _ => .none

/-- The ring of a channel, oldest entry first. -/
def ringOldest (c : Channel) : List Int :=
  let k := c.k % Nat.max c.ring.length 1
  c.ring.drop k ++ c.ring.take k

/-- Dynamic state of a channel (R165). -/
def mirrorOf (n : Nat) (c : Channel) : MirrorChannel :=
  { channel := n, q := c.q, u := c.u, ring := ringOldest c, out := c.out, zone := c.zone, onN := c.onN, offN := c.offN
    feMs := c.feMs, region := c.region, fault := faultCode c.fault }

/-- Dynamic state of every configured channel. -/
def loopState (s : State) : List MirrorChannel :=
  (s.loops.filter fun e => chanMode e.2 ≠ 0).map fun e => mirrorOf e.1 e.2

/-- A channel's dynamic state as bytes, for the digest of R448. -/
def mirrorBytes (m : MirrorChannel) : Bytes :=
  putLE 2 m.channel ++ putSLE 8 m.q ++ putSLE 8 m.u ++ m.ring.flatMap (putSLE 8) ++ putSLE 8 m.out ++ [byte m.zone] ++
    putLE 2 m.onN ++ putLE 2 m.offN ++ putLE 4 m.feMs ++ [byte m.region, byte m.fault]

/-- CRC-64 of R88 over a byte string. -/
def crc64 (b : Bytes) : W64 :=
  BitVec.ofNat 64 (Nat.xor (crcMsb 64 0x42F0E1EBA9EA3693 0xFFFFFFFFFFFFFFFF b) 0xFFFFFFFFFFFFFFFF)

/-- Digest of channel dynamic state (R448). -/
def loopDigest (l : List MirrorChannel) : W64 := crc64 (l.flatMap mirrorBytes)

/-- The standby takes over a channel's dynamic state; the region that its own last sample left pending stays; a HOLD that begins with it begins at its q (R160, R165). -/
def adoptMirror (m : MirrorChannel) (s : State) : State :=
  setChan m.channel (fun c => { c with
    holdQ := if faultOf m.fault = .hold && decide (c.fault ≠ .hold) then m.q else c.holdQ
    q := m.q, u := m.u, ring := m.ring, k := 0, out := m.out, zone := m.zone, onN := m.onN, offN := m.offN, feMs := m.feMs
    region := m.region, fault := faultOf m.fault, restart := false }) s

/-- Take over several channels. -/
def adoptMirrors : List MirrorChannel → State → State
  | [], s => s
  | m :: r, s => adoptMirrors r (adoptMirror m s)

/-- A warm start restores a channel's fault state, region, output and counters; the profile starts again (R416 step 5). -/
def restoreLoop (m : MirrorChannel) (s : State) : State :=
  setChan m.channel (fun c => { c with
    out := m.out, zone := m.zone, onN := m.onN, offN := m.offN, feMs := m.feMs, region := m.region
    pendRegion := m.region, fault := faultOf m.fault, restart := true, holdQ := m.q }) s

/-! ### Commands (R169 to R173) -/

/-- Device time from which an accepted descriptor may take effect: in a pair the Main boundary that both modules take, else at
once (R169). -/
def loopInstant (s : State) : Nat := if activeJoined s then startInstant s 1 else devNs s

/-- CMD_LOOP_CONFIG (R155, R156, R169, R409). -/
def specLoopConfig : CmdSpec where
  opcode := 0x0401
  length := fixedLen 388
  check _ p s :=
    let d := parseLoop (p.drop 4)
    firstRefusal
      [lockRefusal s 0xA08, badParam ([(0, decide (2048 ≤ getLE p 0 2)), (2, notZero p 2 2)] ++ loopFaults s d),
       conflictRefusal (firstConflict [row3 s d, row5Chan s d])]
  run r p s :=
    finishOk 0x0401 r [] (setChan (getLE p 0 2) (fun c => { c with
      next := some (parseLoop (p.drop 4)), nextFrom := effectTime s (loopInstant s) }) s)
  instant _ s := loopInstant s

/-- CMD_LOOP_CONFIG -/
def execCmdLoopConfig (r : Req) (s : State) : Res := .next (runCmd specLoopConfig r s)

/-- A CHANNEL field. -/
def chanBad (p : Bytes) : Option (Nat × Nat) := badParam [(0, decide (2048 ≤ getLE p 0 2))]

/-- CMD_LOOP_READ (R170). -/
def specLoopRead : CmdSpec where
  opcode := 0x0402
  length := fixedLen 2
  check _ p _ := chanBad p
  run r p s := finishOk 0x0402 r (((chan s (getLE p 0 2)).desc.map (·.raw)).getD (zeros 384)) s

/-- CMD_LOOP_READ -/
def execCmdLoopRead (r : Req) (s : State) : Res := .next (runCmd specLoopRead r s)

/-- CMD_LOOP_ENABLE (R171). -/
def specLoopEnable : CmdSpec where
  opcode := 0x0403
  length := fixedLen 3
  check _ p _ := badParam [(0, decide (2048 ≤ getLE p 0 2) && decide (getLE p 0 2 ≠ 0xFFFF)), (2, decide (1 < getLE p 2 1))]
  run r p s :=
    let off := decide (getLE p 2 1 = 0)
    let s := if getLE p 0 2 = 0xFFFF then { s with loops := (upto 2048).map fun n => (n, { chan s n with disabled := off }) }
      else setChan (getLE p 0 2) (fun c => { c with disabled := off }) s
    finishOk 0x0403 r [] s

/-- CMD_LOOP_ENABLE -/
def execCmdLoopEnable (r : Req) (s : State) : Res := .next (runCmd specLoopEnable r s)

/-- CMD_LOOP_ACK (R172). -/
def specLoopAck : CmdSpec where
  opcode := 0x0404
  length := fixedLen 2
  check _ p _ := chanBad p
  run r p s :=
    let n := getLE p 0 2
    let c := chan s n
    let s := if c.fault = .fallback ∨ c.fault = .trip then setChan n (fun c => { c with fault := .none, feMs := 0 }) s else s
    finishOk 0x0404 r [] s

/-- CMD_LOOP_ACK -/
def execCmdLoopAck (r : Req) (s : State) : Res := .next (runCmd specLoopAck r s)

/-- STATE of CMD_LOOP_STATUS (R173): a fault before held, held before recovering. -/
def chanState (c : Channel) : Nat :=
  if chanMode c = 0 then 0
  else match c.fault with
    | .hold => 4
    | .fallback => 5
    | .trip => 6
    | .none => if c.held then 2 else if c.recovering then 3 else 1

/-- A status entry (R173). -/
def chanEntry (n : Nat) (c : Channel) : Bytes :=
  let m := chanMode c
  putLE 2 n ++ [byte (chanState c), byte (c.region + 16 * c.pendRegion + (if c.planGap then 128 else 0)),
    byte (if m = 3 then 0 else c.out.toNat), byte (if m = 2 then c.zone else 0)] ++ zeros 2 ++
    putSLE 8 (divr c.target 65536) ++ putSLE 8 c.spEff ++ putSLE 8 c.u ++ putSLE 8 c.fe ++ putLE 4 c.feMs ++
    putLE 4 c.samples.toNat

/-- CMD_LOOP_STATUS (R173). -/
def specLoopStatus : CmdSpec where
  opcode := 0x0405
  length := fixedLen 4
  check _ p _ := badParam [(2, getLE p 2 2 = 0 || decide (84 < getLE p 2 2) || decide (2048 < getLE p 0 2 + getLE p 2 2))]
  run r p s :=
    finishOk 0x0405 r ((upto (getLE p 2 2)).flatMap fun i => chanEntry (getLE p 0 2 + i) (chan s (getLE p 0 2 + i))) s

/-- CMD_LOOP_STATUS -/
def execCmdLoopStatus (r : Req) (s : State) : Res := .next (runCmd specLoopStatus r s)

end Sys2Proof.Machine
end

