-- ==== Sys2Proof/Machine/Num.lean ====
section
/-! DEFINITION. Num.lean: the solver array's arithmetic: exact products and sums, scalars, range-checked writes, the
divide/square-root unit, and lanes that share tile rows (R188 to R192, R196 to R198). -/

namespace Sys2Proof.Machine

/-! ### Exact values and scalars (R188, R189) -/

/-- An exact value m × 2^e: a raw value with its scale, a product, or a sum of products. -/
structure Dy where
  /-- mantissa -/
  m : Int
  /-- exponent -/
  e : Int
deriving DecidableEq, Repr

/-- Zero. -/
def Dy.zero : Dy := { m := 0, e := 0 }

/-- The mantissa of a value at an exponent that is not above its own. -/
def Dy.down (x : Dy) (e : Int) : Int := x.m * (2 : Int) ^ (x.e - e).toNat

/-- Exact sum. -/
def Dy.add (x y : Dy) : Dy :=
  if x.m = 0 then y else if y.m = 0 then x
  else
    let e := if x.e < y.e then x.e else y.e
    { m := x.down e + y.down e, e := e }

/-- Exact product. -/
def Dy.mul (x y : Dy) : Dy := { m := x.m * y.m, e := x.e + y.e }

/-- Negated. -/
def Dy.neg (x : Dy) : Dy := { x with m := -x.m }

/-- Exact difference. -/
def Dy.sub (x y : Dy) : Dy := x.add y.neg

/-- Magnitude. -/
def Dy.abs (x : Dy) : Dy := { x with m := x.m.natAbs }

/-- Exact comparison. -/
def Dy.le (x y : Dy) : Bool := decide ((x.sub y).m ≤ 0)

/-- Exact sum of a list. -/
def dySum : List Dy → Dy
  | [] => .zero
  | x :: r => x.add (dySum r)

/-- The larger of two values. -/
def Dy.max (x y : Dy) : Dy := if x.le y then y else x

/-- The smaller of two values. -/
def Dy.min (x y : Dy) : Dy := if x.le y then x else y

/-- The largest of a list, zero for none. -/
def dyMax : List Dy → Dy
  | [] => .zero
  | x :: r => x.max (dyMax r)

/-- The raw value at a scale, rounded by rnd of R132. -/
def Dy.at (x : Dy) (scale : Int) : Int := alignRaw x.m x.e scale

/-- Position of the highest bit of a magnitude. -/
def topBit (x : Int) : Int := (Nat.log2 x.natAbs : Nat)

/-- A scalar (R188, R189): 31 significant bits, ties upwards, 2^30 ≤ |mantissa| < 2^31, or 0. -/
def toScalar (x : Dy) : Dy :=
  if x.m = 0 then .zero
  else
    let k := topBit x.m - 30
    let v := alignRaw x.m 0 k
    if v.natAbs = 2 ^ 31 then { m := Int.fdiv v 2, e := x.e + k + 1 } else { m := v, e := x.e + k }

/-! ### The divide/square-root unit (R198) -/

/-- A result of the unit: the value, and whether the requesting lane's saturation counter counted. -/
abbrev UnitRes := Dy × Bool

/-- Nearest integer to n ÷ d, ties away from zero. -/
def quotNear (n d : Int) : Int := divr n d

/-- n ÷ d of two exact values at a scale, before saturation. -/
def quotAt (a b : Dy) (w : Int) : Int :=
  let k := a.e - b.e - w
  if 0 ≤ k then quotNear (a.m * (2 : Int) ^ k.toNat) b.m else quotNear a.m (b.m * (2 : Int) ^ (-k).toNat)

/-- A result limited to 32 bits, counted where it is. -/
def unitSat (v w : Int) : UnitRes :=
  if v.natAbs < 2 ^ 31 then ({ m := v, e := w }, false)
  else ({ m := if v < 0 then -(2 ^ 31 - 1) else 2 ^ 31 - 1, e := w }, true)

/-- A division by zero: ±(2^31 - 1) with the sign of the dividend, 0 for 0 ÷ 0; counted. -/
def byZero (a : Int) (w : Int) : UnitRes := ({ m := if a = 0 then 0 else if a < 0 then -(2 ^ 31 - 1) else 2 ^ 31 - 1, e := w }, true)

/-- Divide at a requested scale. -/
def unitDivAt (a b : Dy) (w : Int) : UnitRes :=
  let a := toScalar a
  let b := toScalar b
  if b.m = 0 then byZero a.m w else unitSat (quotAt a b w) w

/-- The scale at which a quotient has 31 significant bits. -/
def quotScale (a b : Dy) : Int :=
  let w := topBit a.m + a.e - (topBit b.m + b.e) - 30
  if a.m.natAbs * 2 ^ (topBit b.m).toNat < b.m.natAbs * 2 ^ (topBit a.m).toNat then w - 1 else w

/-- Divide into a scalar. -/
def unitDiv (a b : Dy) : UnitRes :=
  let a := toScalar a
  let b := toScalar b
  if b.m = 0 then byZero a.m (a.e - b.e)
  else if a.m = 0 then (.zero, false)
  else (toScalar { m := quotAt a b (quotScale a b), e := quotScale a b }, false)

/-- Reciprocal at a requested scale. -/
def unitRecipAt (a : Dy) (w : Int) : UnitRes := unitDivAt { m := 1, e := 0 } a w

/-- Nearest integer to the square root of n ÷ d. -/
def rootNear (n d : Nat) : Nat := (isqrt (4 * n / d) + 1) / 2

/-- The square root of a value at a scale. -/
def rootAt (x : Dy) (w : Int) : Int :=
  let k := x.e - 2 * w
  if 0 ≤ k then rootNear (x.m.toNat * 2 ^ k.toNat) 1 else rootNear x.m.toNat (2 ^ (-k).toNat)

/-- Square root into a scalar; a negative operand gives 2^31 - 1 and counts. -/
def unitSqrt (x : Dy) : UnitRes :=
  let a := toScalar x
  if a.m < 0 then ({ m := 2 ^ 31 - 1, e := 0 }, true)
  else if a.m = 0 then (.zero, false)
  else
    let w := Int.fdiv (30 + a.e) 2 - 30
    (toScalar { m := rootAt a w, e := w }, false)

/-- The reciprocal square root of a value at a scale. -/
def rrootAt (x : Dy) (w : Int) : Int :=
  let k := -x.e - 2 * w
  if 0 ≤ k then rootNear (2 ^ k.toNat) x.m.toNat else rootNear 1 (x.m.toNat * 2 ^ (-k).toNat)

/-- Reciprocal square root at a requested scale; a negative operand and 0 give 2^31 - 1 and count. -/
def unitRsqrtAt (x : Dy) (w : Int) : UnitRes :=
  let a := toScalar x
  if a.m ≤ 0 then ({ m := 2 ^ 31 - 1, e := w }, true) else unitSat (rrootAt a w) w

/-- Reciprocal square root into a scalar. -/
def unitRsqrt (x : Dy) : UnitRes :=
  let a := toScalar x
  if a.m ≤ 0 then ({ m := 2 ^ 31 - 1, e := 0 }, true)
  else
    let w := -(Int.fdiv (31 + a.e + 1) 2) - 30
    (toScalar { m := rrootAt a w, e := w }, false)

/-! ### Formats of a job (R188 to R192) -/

/-- The formats of a job: its RANGE records and the positions of those raised by R192, one entry for each raise. -/
structure NumFmt where
  /-- JOB of the records -/
  job    : Nat
  /-- RANGE records -/
  ranges : List RangeRec
  /-- positions of records whose SCALE has been raised by 1 -/
  up     : List Nat := []
deriving DecidableEq, Repr

/-- An object of a job: the position of its RANGE record, its scale in force and its RMAX. -/
structure NumObj where
  /-- position of the record -/
  pos   : Nat
  /-- scale -/
  scale : Int
  /-- RMAX -/
  rmax  : Nat
deriving DecidableEq, Repr

/-- The object of a kind, role and index. -/
def NumFmt.obj (f : NumFmt) (kind role index : Nat) : NumObj :=
  match (indexed 0 f.ranges).find? fun e => e.2.job = f.job && e.2.kind = kind && e.2.role = role && e.2.index = index with
  | some (i, r) => { pos := i, scale := r.scale + (f.up.filter (· = i)).length, rmax := r.rmax }
  | none => { pos := f.ranges.length, scale := 0, rmax := 2 ^ 31 - 1 }

/-- The segment of a vector that holds an entry. -/
def NumFmt.seg (f : NumFmt) (role i : Nat) : NumObj := f.obj 1 role (i / 64)

/-- The accumulator of a row's tile row. -/
def NumFmt.acc (f : NumFmt) (i : Nat) : NumObj := f.obj 2 0 (i / 64)

/-- The tile of a row and a column. -/
def NumFmt.tile (f : NumFmt) (i j : Nat) : NumObj := f.obj 0 0 (i / 64 + 65536 * (j / 64))

/-- A vector entry as an exact value. -/
def NumFmt.val (f : NumFmt) (role i : Nat) (raw : Int) : Dy := { m := raw, e := (f.seg role i).scale }

/-- A value written to an object: aligned, compared with RMAX, stored as ±RMAX and counted beyond it (R189, R191). -/
def NumObj.put (o : NumObj) (x : Dy) : Int × List Nat :=
  let v := x.at o.scale
  if v.natAbs ≤ o.rmax then (v, []) else (if v < 0 then -(o.rmax : Int) else o.rmax, [o.pos])

/-- A lane's saturation counter counted for an object (R198). -/
def NumObj.counted (o : NumObj) (b : Bool) : List Nat := if b then [o.pos] else []

/-- A scalar of a role: its exponent is checked against RMAX less 32 768 (R190, R191). -/
def NumFmt.scalar (f : NumFmt) (role : Nat) (x : UnitRes) : Dy × List Nat :=
  let o := f.obj 3 role 0
  let v := toScalar x.1
  let top : Int := o.rmax - 32768
  if v.m ≠ 0 && decide (top < v.e) then
    ({ m := if v.m < 0 then -(2 ^ 31 - 1) else 2 ^ 31 - 1, e := top }, o.pos :: o.counted x.2)
  else (v, o.counted x.2)

/-- The values and the counts of a list of writes. -/
def gathered (l : List (Int × List Nat)) : List Int × List Nat := (l.map (·.1), l.flatMap (·.2))

/-! ### Lanes and tile rows (R196, R197) -/

/-- Lanes of a phase: rows queued at each, rows in computation, rows complete in order of completion. -/
structure Lanes where
  /-- lane, rows queued -/
  queues : List (Nat × List Nat)
  /-- lane, row in computation -/
  held   : List (Nat × Nat)
  /-- rows complete -/
  done   : List Nat
deriving DecidableEq, Repr

/-- The queues at the start of a phase: tile row k at lane k mod L of the lanes in service. -/
def lanesStart (lanes : List Nat) (rows : Nat) : Lanes :=
  { queues := (indexed 0 lanes).map fun (i, l) => (l, (upto rows).filter fun k => k % lanes.length = i)
    held := [], done := [] }

/-- The fullest queue of a list, the lowest lane number among the fullest. -/
def fullest : List (Nat × List Nat) → Option (Nat × List Nat)
  | [] => none
  | q :: r => match fullest r with
    | some w => if q.2.length < w.2.length then some w else some q
    | none => if q.2.isEmpty then none else some q

/-- The brick of a lane, 0 to 7. -/
def laneBrick (l : Nat) : Nat := l / 4

/-- The queue that a lane steals from: the fullest of its own brick, else of brick b XOR d for d = 1 to 7. -/
def stealFrom (queues : List (Nat × List Nat)) (l : Nat) : Option (Nat × List Nat) :=
  ((upto 8).filterMap fun d => fullest (queues.filter fun q => laneBrick q.1 = Nat.xor (laneBrick l) d)).head?

/-- A lane takes work: the next row of its own queue, else the last row of a queue it steals from. -/
def laneTake (l : Nat) (x : Lanes) : Lanes :=
  match x.queues.find? fun q => q.1 = l with
  | some (_, k :: r) => { x with
      held := x.held ++ [(l, k)], queues := x.queues.map fun q => if q.1 = l then (l, r) else q }
  | some (_, []) =>
    (match stealFrom x.queues l with
     | some (v, q) => { x with
         held := x.held ++ [(l, lget q (q.length - 1) 0)]
         queues := x.queues.map fun y => if y.1 = v then (v, q.take (q.length - 1)) else y }
     | none => x)
  | none => x

/-- A lane finishes the row it computes and takes the next. -/
def laneTurn (l : Nat) (x : Lanes) : Lanes :=
  laneTake l { x with
    done := x.done ++ (x.held.filter fun e => e.1 = l).map (·.2), held := x.held.filter fun e => e.1 ≠ l }

/-- A lane becomes a cinder: its rows are queued again from the start, at the lanes that remain (R197). -/
def laneLost (l : Nat) (x : Lanes) : Lanes :=
  let rows := (x.held.filter fun e => e.1 = l).map (·.2) ++ (x.queues.filter fun q => q.1 = l).flatMap (·.2)
  let left := x.queues.filter fun q => q.1 ≠ l
  { x with
    held := x.held.filter fun e => e.1 ≠ l
    queues := (indexed 0 left).map fun (i, q) => (q.1, q.2 ++ rows.filter fun k => k % left.length = i) }

/-- The turns of a phase. -/
def laneTurns : List LaneTurn → Lanes → Lanes
  | [], x => x
  | .finish l :: r, x => laneTurns r (laneTurn l x)
  | .lost l :: r, x => laneTurns r (laneLost l x)

/-- The order in which the rows of a phase complete: as the lanes took them, then what was left at the barrier. -/
def phaseOrder (lanes : List Nat) (turns : List LaneTurn) (rows : Nat) : List Nat :=
  let done := (laneTurns turns (lanesStart lanes rows)).done
  done ++ (upto rows).filter fun k => !done.contains k

/-- The results of a phase by tile row, each computed when its turn came: `f` computes one tile row (R196, R197). -/
def phase {α : Type} (lanes : List Nat) (turns : List LaneTurn) (rows : Nat) (f : Nat → α) : List α :=
  let out := (phaseOrder lanes turns rows).map fun k => (k, f k)
  (upto rows).filterMap fun k => (out.find? fun e => e.1 = k).map (·.2)

end Sys2Proof.Machine
end

