-- ==== Sys2Proof/Machine/Linear.lean ====
section
/-! DEFINITION. Linear.lean: linear systems held in tiles, their preconditioners and the inner solve (R189, R191 to R194,
R200 to R205). The recurrences of PCG, MINRES, BiCGStab and CGLS are the textbook ones (log entry 178). -/

namespace Sys2Proof.Machine

/-! ### Systems, products and norms (R189, R193, R204) -/

/-- A linear system: formats, nonzeros in tile layout, rows and columns, rows that take part, right-hand side (ROLE 0),
the role of its unknown, and the lanes with their turns. -/
structure LinSys where
  /-- formats -/
  fmt   : NumFmt
  /-- nonzeros, each with its tile's scale -/
  mat   : List NonZero
  /-- rows -/
  rows  : Nat
  /-- columns -/
  cols  : Nat
  /-- columns that take part (R193) -/
  live  : List Bool
  /-- right-hand side, raw -/
  b     : List Int
  /-- ROLE of the unknown: 1 x, 9 δ -/
  role  : Nat
  /-- lanes in service -/
  lanes : List Nat
  /-- turns of the lanes -/
  turns : List LaneTurn
deriving DecidableEq, Repr

/-- The system of the transposed matrix. -/
def LinSys.transposed (y : LinSys) : LinSys :=
  { y with mat := y.mat.map fun e => { e with row := e.col, col := e.row }, rows := y.cols, cols := y.rows }

/-- A column takes part. -/
def LinSys.isLive (y : LinSys) (i : Nat) : Bool := lget y.live i true

/-- One row of a matrix-vector product: every tile's partial sum is exact and rounded once to ACC_SCALE, tiles in
ascending TCOL, and the partial sums are added exactly (R189). -/
def rowProduct (f : NumFmt) (mat : List NonZero) (cols role : Nat) (x : List Int) (i : Nat) : Dy :=
  let acc := (f.acc i).scale
  let row := mat.filter fun e => e.row = i
  let part (t : Nat) : Int :=
    (dySum ((row.filter fun e => e.col / 64 = t).map fun e =>
      Dy.mul { m := e.val, e := e.scale } (f.val role e.col (lget x e.col 0)))).at acc
  { m := isum ((upto ((cols + 63) / 64)).map part), e := acc }

/-- Rows of a tile row. -/
def tileRowOf (rows k : Nat) : List Nat := (upto 64).filterMap fun j => if 64 * k + j < rows then some (64 * k + j) else none

/-- A matrix-vector product written to a vector: one phase, tile row by tile row (R196). -/
def LinSys.matVec (y : LinSys) (role : Nat) (x : List Int) (dst : Nat) : List Int × List Nat :=
  gathered ((phase y.lanes y.turns ((y.rows + 63) / 64) fun k =>
    (tileRowOf y.rows k).map fun i => (y.fmt.seg dst i).put (rowProduct y.fmt y.mat y.cols role x i)).flatten)

/-- A linear combination of vectors, exact, written to a vector of `n` entries. -/
def combine (f : NumFmt) (n dst : Nat) (live : Nat → Bool) (terms : List (Dy × Nat × List Int)) : List Int × List Nat :=
  gathered ((upto n).map fun i =>
    if live i then (f.seg dst i).put (dySum (terms.map fun t => t.1.mul (f.val t.2.1 i (lget t.2.2 i 0)))) else (0, []))

/-- One as a scalar. -/
def dyOne : Dy := { m := 1, e := 0 }

/-- An exact dot product (R188). -/
def dotOf (f : NumFmt) (ra : Nat) (a : List Int) (rb : Nat) (b : List Int) : Dy :=
  dySum ((indexed 0 (a.zip b)).map fun (i, e) => (f.val ra i e.1).mul (f.val rb i e.2))

/-- An exact squared norm (R204). -/
def normOf (f : NumFmt) (role : Nat) (l : List Int) : Dy := dotOf f role l role l

/-- ‖r‖ ≤ bound × ‖b‖ with a Q32 bound, tested exactly on squared norms (R204). -/
def normWithin (n2 d2 : Dy) (bound : Nat) : Bool := (n2.mul { m := 1, e := 64 }).le (d2.mul { m := (bound * bound : Nat), e := 0 })

/-- A ratio of norms from their squares, Q32, saturating at 0xFFFF_FFFF. -/
def normRatio (n2 d2 : Dy) : Nat :=
  let e := if n2.e < d2.e then n2.e else d2.e
  let d := (d2.down e).natAbs
  if d = 0 then 0xFFFFFFFF else sat32 (isqrt ((n2.down e).natAbs * 2 ^ 64 / d))

/-! ### Preconditioners (R200, R201) -/

/-- The raw value at a row and column, and whether the pattern has it. -/
def entryAt (mat : List NonZero) (i j : Nat) : Option Int := (mat.find? fun e => e.row = i && e.col = j).map (·.val)

/-- A result of the unit written to an object. -/
def NumObj.putUnit (o : NumObj) (u : UnitRes) : Int × List Nat :=
  let (v, h) := o.put u.1
  (v, o.counted u.2 ++ h)

/-- A raw value of an object as an exact value. -/
def NumObj.val (o : NumObj) (v : Int) : Dy := { m := v, e := o.scale }

/-- Jacobi entries of a diagonal tile: the reciprocal of each diagonal entry, of its absolute value for MINRES. -/
def jacobiTile (y : LinSys) (method k : Nat) : FactorTile × List Nat :=
  let o := y.fmt.tile (64 * k) (64 * k)
  let (v, h) := gathered ((tileRowOf y.rows k).map fun i =>
    match entryAt y.mat i i with
    | some d => if y.isLive i then o.putUnit (unitRecipAt (o.val (if method = 1 then d.natAbs else d)) o.scale) else (0, [])
    | none => (0, []))
  ({ trow := k, scale := o.scale, rows := [], recips := v, jacobi := true }, h)

/-- Columns of one row of an elimination, those before it done: L below the diagonal, U on and above it; for IC(0) only
L on the tile's pattern. -/
def elimCols (ic : Bool) (o : NumObj) (a : Nat → Nat → Option Int) (done : List (List Int × Int)) (i : Nat) :
    List Nat → List Int × List Nat → List Int × List Nat
  | [], x => x
  | j :: r, (l, h) =>
    if ic && (decide (i < j) || (a i j).isNone) then elimCols ic o a done i r (l ++ [0], h)
    else
      let other (k : Nat) : Int :=
        if ic then (if j = i then lget l k 0 else lget (lget done j ([], 0)).1 k 0) else lget (lget done k ([], 0)).1 j 0
      let sum := dySum ((upto (if i < j then i else j)).map fun k => (o.val (lget l k 0)).mul (o.val (other k)))
      let (c, h1) := o.put ((o.val ((a i j).getD 0)).sub sum)
      if j < i then
        let (v, h2) := o.put ((o.val c).mul (o.val (lget done j ([], 0)).2))
        elimCols ic o a done i r (l ++ [v], h ++ h1 ++ h2)
      else elimCols ic o a done i r (l ++ [c], h ++ h1)

/-- Rows of an elimination with the reciprocals of their pivots; the flag says that a pivot was zero or negative. -/
def elimRows (ic : Bool) (o : NumObj) (w : Nat) (a : Nat → Nat → Option Int) (live : Nat → Bool) :
    List Nat → List (List Int × Int) × List Nat × Bool → List (List Int × Int) × List Nat × Bool
  | [], x => x
  | i :: r, (done, h, bad) =>
    if live i then
      let (l, h1) := elimCols ic o a done i (upto w) ([], [])
      let p := lget l i 0
      let (q, h2) := if p ≤ 0 then (0, []) else
        o.putUnit (if ic then unitRsqrtAt (o.val p) o.scale else unitRecipAt (o.val p) o.scale)
      elimRows ic o w a live r (done ++ [(l, q)], h ++ h1 ++ h2, bad || decide (p ≤ 0))
    else elimRows ic o w a live r (done ++ [(List.replicate w 0, 0)], h, bad)

/-- The factor of a diagonal tile: IC(0) on its pattern, or dense elimination without pivoting. For a symmetric tile the
elimination's U is D·Lᵀ, so LDLᵀ of PCG and LU of BiCGStab are one. A breakdown leaves the tile its Jacobi entries. -/
def factorTile (y : LinSys) (precond method k : Nat) : FactorTile × List Nat × Bool :=
  let (jac, hj) := jacobiTile y method k
  if precond ≤ 1 then (jac, hj, false)
  else
    let o := y.fmt.tile (64 * k) (64 * k)
    let n := (tileRowOf y.rows k).length
    let a (i j : Nat) : Option Int := entryAt y.mat (64 * k + i) (64 * k + j)
    let live (i : Nat) : Bool := y.isLive (64 * k + i) && (a i i).isSome
    let (rows, h, bad) := elimRows (decide (precond = 3)) o n a live (upto n) ([], [], false)
    if bad then (jac, h ++ hj, true)
    else ({ trow := k, scale := o.scale, rows := rows.map (·.1), recips := rows.map (·.2), jacobi := false }, h, false)

/-- A factor of the whole system, one phase: the factor, the counts, and whether a tile broke down. -/
def buildFactor (y : LinSys) (precond method : Nat) (open' : List Bool) : Factor × List Nat × Bool :=
  let l := phase y.lanes y.turns ((y.rows + 63) / 64) (factorTile y precond method)
  ({ precond := precond, open' := open', tiles := l.map (·.1) }, l.flatMap (·.2.1), l.any (·.2.2))

/-- Forward substitution: entries in ascending order. -/
def forwardSub (ic : Bool) (t : FactorTile) (o : NumObj) (r : List Dy) : List Nat → List Int × List Nat → List Int × List Nat
  | [], x => x
  | i :: l, (v, h) =>
    let fact (x : Int) : Dy := { m := x, e := t.scale }
    let sum := dySum ((upto i).map fun j => (fact (lget (lget t.rows i []) j 0)).mul (o.val (lget v j 0)))
    let c := (lget r i .zero).sub sum
    let (w, h1) := if ic then
        (let (d, h0) := o.put c
         let (e, h1) := o.put ((fact (lget t.recips i 0)).mul (o.val d))
         (e, h0 ++ h1))
      else o.put c
    forwardSub ic t o r l (v ++ [w], h ++ h1)

/-- Backward substitution: entries in descending order, with the entries already found after `i`. -/
def backwardSub (ic : Bool) (t : FactorTile) (o : NumObj) (r : List Int) : List Nat → List Int × List Nat → List Int × List Nat
  | [], x => x
  | i :: l, (v, h) =>
    let fact (x : Int) : Dy := { m := x, e := t.scale }
    let upper (j : Nat) : Int := if ic then lget (lget t.rows j []) i 0 else lget (lget t.rows i []) j 0
    let sum := dySum ((indexed 0 v).map fun (j, x) => (fact (upper (i + 1 + j))).mul (o.val x))
    let (d, h0) := o.put ((o.val (lget r i 0)).sub sum)
    let (w, h1) := o.put ((fact (lget t.recips i 0)).mul (o.val d))
    backwardSub ic t o r l (w :: v, h ++ h0 ++ h1)

/-- One tile row of an application of a factor. -/
def applyTile (y : LinSys) (precond : Nat) (t : FactorTile) (role : Nat) (r : List Int) (k : Nat) : List Int × List Nat :=
  let o := y.fmt.seg 4 (64 * k)
  let rows := tileRowOf y.rows k
  let part := rows.map fun i => y.fmt.val role i (lget r i 0)
  if t.jacobi then
    gathered ((indexed 0 part).map fun (i, x) => o.put (Dy.mul { m := lget t.recips i 0, e := t.scale } x))
  else
    let ic := decide (precond = 3)
    let (v, h) := forwardSub ic t o part (upto rows.length) ([], [])
    let (z, h1) := backwardSub ic t o v (upto rows.length).reverse ([], [])
    (z, h ++ h1)

/-- The preconditioned vector z (ROLE 4): a copy for none, else the factor applied, tile row by tile row. -/
def LinSys.precondition (y : LinSys) (f : Option Factor) (role : Nat) (r : List Int) : List Int × List Nat :=
  match f with
  | none => combine y.fmt y.rows 4 y.isLive [(dyOne, role, r)]
  | some f =>
    let l := phase y.lanes y.turns ((y.rows + 63) / 64) fun k =>
      match f.tiles.find? fun t => t.trow = k with
      | some t => applyTile y f.precond t role r k
      | none => ([], [])
    (l.flatMap (·.1), l.flatMap (·.2))

/-! ### Methods (R200, R203, R245) -/

/-- Where an inner solve stands: its vectors and scalars, the counts gathered in the iteration, a breakdown, and the
restarts made. -/
structure Iter where
  /-- unknown -/
  x     : List Int
  /-- recurrence residual, ROLE 2 -/
  r     : List Int
  /-- preconditioned vector, ROLE 4 -/
  z     : List Int := []
  /-- direction, ROLE 3 -/
  p     : List Int := []
  /-- matrix times direction, ROLE 5 -/
  ap    : List Int := []
  /-- Lanczos vector of MINRES, A·z of BiCGStab, ROLE 8 -/
  v     : List Int := []
  /-- the Lanczos vector before it -/
  vOld  : List Int := []
  /-- the direction before it -/
  pOld  : List Int := []
  /-- matrix times direction before it -/
  apOld : List Int := []
  /-- shadow residual of BiCGStab, ROLE 2 -/
  rh    : List Int := []
  /-- s of BiCGStab and CGLS, ROLE 6 -/
  s     : List Int := []
  /-- ρ -/
  rho   : Dy := dyOne
  /-- α -/
  alpha : Dy := dyOne
  /-- ω -/
  omega : Dy := dyOne
  /-- γ of MINRES -/
  gam   : Dy := dyOne
  /-- γ before it -/
  gamOld : Dy := dyOne
  /-- η of MINRES -/
  eta   : Dy := .zero
  /-- rotation of MINRES: cosine, and the one before it -/
  c     : Dy := dyOne
  /-- the cosine before it -/
  cOld  : Dy := dyOne
  /-- sine -/
  sn    : Dy := .zero
  /-- the sine before it -/
  snOld : Dy := .zero
  /-- saturation counts gathered (R191) -/
  hits  : List Nat := []
  /-- breakdown of the method (R203) -/
  broken : Bool := false
  /-- restarts of BiCGStab -/
  restarts : Nat := 0
deriving DecidableEq, Repr

/-- The true residual b - Ax (ROLE 2), rounded as a phase writes it. -/
def LinSys.residual (y : LinSys) (x : List Int) : List Int × List Nat :=
  gathered ((phase y.lanes y.turns ((y.rows + 63) / 64) fun k => (tileRowOf y.rows k).map fun i =>
    (y.fmt.seg 2 i).put ((y.fmt.val 0 i (lget y.b i 0)).sub (rowProduct y.fmt y.mat y.cols y.role x i))).flatten)

/-- The gradient Jᵀr of CGLS (ROLE 6). -/
def LinSys.gradient (y : LinSys) (r : List Int) : List Int × List Nat := y.transposed.matVec 2 r 6

/-- Column weights of CGLS with PRECOND 1: the reciprocal of each column's squared norm (R237); 1 with PRECOND 0. -/
def columnWeights (y : LinSys) (precond : Nat) : List (Dy × Bool) :=
  (upto y.cols).map fun j =>
    if precond = 0 then (dyOne, false)
    else unitDiv dyOne (dySum ((y.mat.filter fun e => e.col = j).map fun e => { m := e.val * e.val, e := 2 * e.scale }))

/-- z of CGLS: the gradient weighted by columns. -/
def weightGradient (y : LinSys) (precond : Nat) (s : List Int) : List Int × List Nat :=
  gathered (((columnWeights y precond).zip (upto y.cols)).map fun (w, j) =>
    let o := y.fmt.seg 4 j
    let (v, h) := o.put (w.1.mul (y.fmt.val 6 j (lget s j 0)))
    (v, o.counted w.2 ++ h))

/-- Zeros for a vector. -/
def zeroVec (n : Nat) : List Int := List.replicate n 0

/-- The start of an inner solve from an iterate. -/
def iterStart (y : LinSys) (f : Option Factor) (method precond : Nat) (x : List Int) : Iter :=
  let (r, h0) := y.residual x
  match method with
  | 0 =>
    let (z, h1) := y.precondition f 2 r
    let (rho, h2) := y.fmt.scalar 2 (dotOf y.fmt 2 r 4 z, false)
    { x := x, r := r, z := z, p := z, rho := rho, hits := h0 ++ h1 ++ h2 }
  | 1 =>
    let (v, hv) := combine y.fmt y.rows 8 y.isLive [(dyOne, 2, r)]
    let (z, h1) := y.precondition f 8 v
    let (g, h2) := y.fmt.scalar 8 (unitSqrt (dotOf y.fmt 8 v 4 z))
    let n := zeroVec y.rows
    { x := x, r := r, v := v, vOld := n, z := z, p := n, pOld := n, ap := n, apOld := n, gam := g, eta := g
      hits := h0 ++ hv ++ h1 ++ h2 }
  | 2 =>
    let n := zeroVec y.rows
    { x := x, r := r, rh := r, p := n, v := n, hits := h0 }
  | _ =>
    let (s, h1) := y.gradient r
    let (z, h2) := weightGradient y precond s
    let (g, h3) := y.fmt.scalar 2 (dotOf y.fmt 6 s 4 z, false)
    { x := x, r := r, s := s, z := z, p := z, rho := g, hits := h0 ++ h1 ++ h2 ++ h3 }

/-- One iteration of PCG: pᵀAp ≤ 0 is a breakdown. -/
def pcgStep (y : LinSys) (f : Option Factor) (t : Iter) : Iter :=
  let (ap, h1) := y.matVec 3 t.p 5
  let pap := dotOf y.fmt 3 t.p 5 ap
  if pap.m ≤ 0 then { t with broken := true, hits := t.hits ++ h1 }
  else
    let (a, h2) := y.fmt.scalar 1 (unitDiv t.rho pap)
    let (x, h3) := combine y.fmt y.rows y.role y.isLive [(dyOne, y.role, t.x), (a, 3, t.p)]
    let (r, h4) := combine y.fmt y.rows 2 y.isLive [(dyOne, 2, t.r), (a.neg, 5, ap)]
    let (z, h5) := y.precondition f 2 r
    let (rho, h6) := y.fmt.scalar 2 (dotOf y.fmt 2 r 4 z, false)
    let (b, h7) := y.fmt.scalar 3 (if rho.m = 0 then (.zero, false) else unitDiv rho t.rho)
    let (p, h8) := combine y.fmt y.rows 3 y.isLive [(dyOne, 4, z), (b, 3, t.p)]
    { t with x := x, r := r, z := z, p := p, ap := ap, rho := rho, alpha := a
             hits := t.hits ++ h1 ++ h2 ++ h3 ++ h4 ++ h5 ++ h6 ++ h7 ++ h8 }

/-- One iteration of MINRES. A Lanczos vector of norm 0 means that the residual is 0: the iteration changes nothing. -/
def minresStep (y : LinSys) (f : Option Factor) (t : Iter) : Iter :=
  if t.gam.m = 0 then t
  else
    let n := y.rows
    let (ig, h1) := y.fmt.scalar 8 (unitDiv dyOne t.gam)
    let (zn, h2) := combine y.fmt n 4 y.isLive [(ig, 4, t.z)]
    let (az, h3) := y.matVec 4 zn 7
    let (del, h4) := y.fmt.scalar 8 (dotOf y.fmt 7 az 4 zn, false)
    let (k1, h5) := y.fmt.scalar 8 (unitDiv del t.gam)
    let (k2, h6) := y.fmt.scalar 8 (unitDiv t.gam t.gamOld)
    let (v, h7) := combine y.fmt n 8 y.isLive [(dyOne, 7, az), (k1.neg, 8, t.v), (k2.neg, 8, t.vOld)]
    let (z, h8) := y.precondition f 8 v
    let (g, h9) := y.fmt.scalar 8 (unitSqrt (dotOf y.fmt 8 v 4 z))
    let a0 := toScalar ((t.c.mul del).sub (t.cOld.mul (t.sn.mul t.gam)))
    let (a1, h10) := y.fmt.scalar 8 (unitSqrt ((a0.mul a0).add (g.mul g)))
    let a2 := toScalar ((t.sn.mul del).add (t.cOld.mul (t.c.mul t.gam)))
    let a3 := toScalar (t.snOld.mul t.gam)
    let (c, h11) := y.fmt.scalar 8 (unitDiv a0 a1)
    let (sn, h12) := y.fmt.scalar 8 (unitDiv g a1)
    let (i1, h13) := y.fmt.scalar 3 (unitDiv dyOne a1)
    let k3 := toScalar (a3.mul i1)
    let k4 := toScalar (a2.mul i1)
    let (p, h14) := combine y.fmt n 3 y.isLive [(i1, 4, zn), (k3.neg, 3, t.pOld), (k4.neg, 3, t.p)]
    let (ap, h15) := combine y.fmt n 5 y.isLive [(i1, 7, az), (k3.neg, 5, t.apOld), (k4.neg, 5, t.ap)]
    let (a, h16) := y.fmt.scalar 1 (c.mul t.eta, false)
    let (x, h17) := combine y.fmt n y.role y.isLive [(dyOne, y.role, t.x), (a, 3, p)]
    let (r, h18) := combine y.fmt n 2 y.isLive [(dyOne, 2, t.r), (a.neg, 5, ap)]
    { t with x := x, r := r, z := z, v := v, vOld := t.v, p := p, pOld := t.p, ap := ap, apOld := t.ap, alpha := a
             gam := g, gamOld := t.gam, eta := toScalar (sn.mul t.eta).neg, c := c, cOld := t.c, sn := sn, snOld := t.sn
             hits := t.hits ++ h1 ++ h2 ++ h3 ++ h4 ++ h5 ++ h6 ++ h7 ++ h8 ++ h9 ++ h10 ++ h11 ++ h12 ++ h13 ++ h14 ++
               h15 ++ h16 ++ h17 ++ h18 }

/-- A breakdown of BiCGStab: one restart from the current iterate, then a breakdown of the step (R203). -/
def bicgBroken (y : LinSys) (f : Option Factor) (hits : List Nat) (t : Iter) : Iter :=
  if t.restarts = 0 then
    let u := iterStart y f 2 0 t.x
    { u with restarts := 1, hits := t.hits ++ hits ++ u.hits }
  else { t with broken := true, hits := t.hits ++ hits }

/-- One iteration of BiCGStab: ρ = 0 or ω = 0 is a breakdown; at ω = 0 the iterate has taken its α step. -/
def bicgStep (y : LinSys) (f : Option Factor) (t : Iter) : Iter :=
  let n := y.rows
  let rho := dotOf y.fmt 2 t.rh 2 t.r
  if rho.m = 0 then bicgBroken y f [] t
  else
    let (rho, h1) := y.fmt.scalar 2 (rho, false)
    let (b1, h2) := y.fmt.scalar 3 (unitDiv rho t.rho)
    let (b2, h3) := y.fmt.scalar 3 (unitDiv t.alpha t.omega)
    let b := toScalar (b1.mul b2)
    let (p, h4) := combine y.fmt n 3 y.isLive [(dyOne, 2, t.r), (b, 3, t.p), ((toScalar (b.mul t.omega)).neg, 8, t.v)]
    let (z, h5) := y.precondition f 3 p
    let (v, h6) := y.matVec 4 z 8
    let (a, h7) := y.fmt.scalar 1 (unitDiv rho (dotOf y.fmt 2 t.rh 8 v))
    let (s, h8) := combine y.fmt n 6 y.isLive [(dyOne, 2, t.r), (a.neg, 8, v)]
    let (z2, h9) := y.precondition f 6 s
    let (q, h10) := y.matVec 4 z2 7
    let hs := h1 ++ h2 ++ h3 ++ h4 ++ h5 ++ h6 ++ h7 ++ h8 ++ h9 ++ h10
    let qq := dotOf y.fmt 7 q 7 q
    let qs := dotOf y.fmt 7 q 6 s
    if qq.m = 0 || qs.m = 0 then
      let (x, h11) := combine y.fmt n y.role y.isLive [(dyOne, y.role, t.x), (a, 4, z)]
      bicgBroken y f (hs ++ h11) { t with x := x, r := s }
    else
      let (w, h11) := y.fmt.scalar 6 (unitDiv qs qq)
      let (x, h12) := combine y.fmt n y.role y.isLive [(dyOne, y.role, t.x), (a, 4, z), (w, 4, z2)]
      let (r, h13) := combine y.fmt n 2 y.isLive [(dyOne, 6, s), (w.neg, 7, q)]
      { t with x := x, r := r, p := p, v := v, s := s, rho := rho, alpha := a, omega := w
               hits := t.hits ++ hs ++ h11 ++ h12 ++ h13 }

/-- One iteration of CGLS; a direction that the Jacobian maps to 0 ends it as a breakdown. -/
def cglsStep (y : LinSys) (precond : Nat) (t : Iter) : Iter :=
  let (q, h1) := y.matVec 3 t.p 5
  let qq := dotOf y.fmt 5 q 5 q
  if qq.m = 0 then { t with broken := true, hits := t.hits ++ h1 }
  else
    let (a, h2) := y.fmt.scalar 1 (unitDiv t.rho qq)
    let (x, h3) := combine y.fmt y.cols y.role y.isLive [(dyOne, y.role, t.x), (a, 3, t.p)]
    let (r, h4) := combine y.fmt y.rows 2 (fun _ => true) [(dyOne, 2, t.r), (a.neg, 5, q)]
    let (s, h5) := y.gradient r
    let (z, h6) := weightGradient y precond s
    let (g, h7) := y.fmt.scalar 2 (dotOf y.fmt 6 s 4 z, false)
    let (b, h8) := y.fmt.scalar 3 (if g.m = 0 then (.zero, false) else unitDiv g t.rho)
    let (p, h9) := combine y.fmt y.cols 3 y.isLive [(dyOne, 4, z), (b, 3, t.p)]
    { t with x := x, r := r, s := s, z := z, p := p, ap := q, rho := g, alpha := a
             hits := t.hits ++ h1 ++ h2 ++ h3 ++ h4 ++ h5 ++ h6 ++ h7 ++ h8 ++ h9 }

/-- One iteration of a method. -/
def iterate (y : LinSys) (f : Option Factor) (method precond : Nat) (t : Iter) : Iter :=
  match method with
  | 0 => pcgStep y f t
  | 1 => minresStep y f t
  | 2 => bicgStep y f t
  | _ => cglsStep y precond t

/-! ### The inner solve (R204, R205) -/

/-- The squared norm that the linear test takes: of the residual, or of the gradient for CGLS (R204, R245). -/
def testNorm (y : LinSys) (method : Nat) (r s : List Int) : Dy := if method = 3 then normOf y.fmt 6 s else normOf y.fmt 2 r

/-- What the test compares with: ‖b‖², or the gradient at the start of the step for CGLS. -/
def testBase (y : LinSys) (method : Nat) (start : Iter) : Dy := if method = 3 then normOf y.fmt 6 start.s else normOf y.fmt 0 y.b

/-- The true squared norm of an iterate with the counts of forming it. -/
def trueNorm (y : LinSys) (method : Nat) (x : List Int) : Dy × List Nat :=
  let (r, h) := y.residual x
  if method = 3 then
    let (s, h1) := y.gradient r
    (normOf y.fmt 6 s, h ++ h1)
  else (normOf y.fmt 2 r, h)

/-- How time bears on an inner solve (R205): durations of the iterations, the stage deadline as ns from the job's issue,
t_reserve, t_iter before the first iteration; or the counts that a stop record gives, whatever the time (R210). -/
structure TimeRule where
  /-- durations of the iterations -/
  iters    : List Nat
  /-- stage deadline -/
  deadline : Nat
  /-- t_reserve -/
  reserve  : Nat
  /-- t_iter before the first iteration of the job -/
  first    : Nat
  /-- iterations and cause of a stop record -/
  forced   : Option (Nat × StopCause)
deriving DecidableEq, Repr

/-- Where an inner solve ends. -/
structure InnerOut where
  /-- the best iterate -/
  best    : List Int
  /-- iterations run -/
  its     : Nat
  /-- why it stopped -/
  cause   : StopCause
  /-- true residual ratio of the best iterate, Q32 -/
  resid   : Nat
  /-- counts gathered where they were not zero -/
  hits    : List Nat
  /-- time, ns from the job's issue -/
  now     : Nat
  /-- longest iteration of the job so far, 0 before the first -/
  longest : Nat
deriving DecidableEq, Repr

/-- The end of an inner solve: the true residual of the best iterate. -/
def innerEnd (y : LinSys) (method : Nat) (base : Dy) (best : List Int) (it : Nat) (cause : StopCause) (hits : List Nat)
    (now longest : Nat) : InnerOut :=
  let (n, h) := trueNorm y method best
  { best := best, its := it, cause := cause, resid := normRatio n base, hits := hits ++ h, now := now, longest := longest }

/-- The loop of R205 with `fuel` iterations left: the cap, the time test, an iteration, a breakdown, the best iterate and
the two residual tests, in that order. Counts that are not zero end it at once (R192). -/
def innerLoop (y : LinSys) (f : Option Factor) (method precond tol : Nat) (w : TimeRule) (base : Dy) :
    Nat → Iter → List Int → Dy → Nat → Nat → Nat → InnerOut
  | 0, t, best, _, it, now, longest => innerEnd y method base best it ((w.forced.map (·.2)).getD .cap) t.hits now longest
  | n + 1, t, best, best2, it, now, longest =>
    if !t.hits.isEmpty then
      { best := best, its := it, cause := .cap, resid := 0xFFFFFFFF, hits := t.hits, now := now, longest := longest }
    else if w.forced.isNone && decide (w.deadline < now + (if longest = 0 then w.first else longest) + w.reserve) then
      innerEnd y method base best it .deadline [] now longest
    else
      let u := iterate y f method precond t
      let now := now + lget w.iters it 0
      let longest := Nat.max longest (lget w.iters it 0)
      if !u.hits.isEmpty then
        { best := best, its := it + 1, cause := .cap, resid := 0xFFFFFFFF, hits := u.hits, now := now, longest := longest }
      else if u.broken then innerEnd y method base best (it + 1) .breakdown [] now longest
      else
        let n2 := testNorm y method u.r u.s
        let better := decide ((n2.sub best2).m < 0)
        let best := if better then u.x else best
        let best2 := if better then n2 else best2
        if normWithin n2 base tol then
          let (tn, h) := trueNorm y method u.x
          if !h.isEmpty then
            { best := best, its := it + 1, cause := .cap, resid := 0xFFFFFFFF, hits := h, now := now, longest := longest }
          else if normWithin tn base tol then innerEnd y method base best (it + 1) .converged [] now longest
          else innerLoop y f method precond tol w base n u best best2 (it + 1) now longest
        else innerLoop y f method precond tol w base n u best best2 (it + 1) now longest

/-- The inner solve of an outer step from an iterate. -/
def innerSolve (y : LinSys) (f : Option Factor) (method precond tol cap : Nat) (w : TimeRule) (x : List Int)
    (now longest : Nat) : InnerOut :=
  let t := iterStart y f method precond x
  innerLoop y f method precond tol w (testBase y method t) ((w.forced.map (·.1)).getD cap) t x (testNorm y method t.r t.s) 0
    now longest

end Sys2Proof.Machine
end

