-- ==== Sys2Proof/Machine/Solver.lean ====
section
/-! DEFINITION. Solver.lean: the network model, its formation, Newton and thermal stages, and what a returned job does
(R174 to R217). How long the lanes took is an operand of the row that returns a job (log entry 19). -/

namespace Sys2Proof.Machine

/-! ### Reading and checking a model (R181 to R187) -/

/-- A section of a model. -/
def modelSect (b : Bytes) (t : Nat) : Bytes := sectBytes b (directory b (getLE b 36 2)) t

/-- A NODE entry (R183). -/
def parseNode (e : Bytes) : Node :=
  { id := getLE e 0 4, kind := getLE e 4 1, bcPoint := getLE e 8 4, pPoint := getLE e 12 4, tPoint := getLE e 16 4
    tinPoint := getLE e 20 4, object := getLE e 24 1, objIndex := getLE e 26 2 }

/-- A BRANCH entry (R184). -/
def parseBranch (e : Bytes) : Branch :=
  { id := getLE e 0 4, from' := getLE e 4 4, to' := getLE e 8 4, kind := getLE e 12 1, rough := getLE e 13 1
    segs := getLE e 14 1, kg := getLE e 16 4, rePerQ := getLE e 20 4, dpLam := getLE e 24 4, a0 := getLE e 28 4
    a1 := getLE e 32 4, a2 := getLE e 36 4, ctrl := getLE e 40 4, lambda := getLE e 44 4, segMass := getLE e 48 4
    qPoint := getLE e 52 4, group := getLE e 56 2 }

/-- A RANGE record (R190). -/
def parseRange (e : Bytes) : RangeRec :=
  { job := getLE e 0 1, kind := getLE e 1 1, role := getLE e 2 1, scale := getSLE e 3 1, index := getLE e 4 4
    rmax := getLE e 8 4 }

/-- The sixteen friction tables (R186). -/
def parseFriction (x : Bytes) : Nat → Nat → List (List Nat × List Nat)
  | 0, _ => []
  | k + 1, o =>
    let n := getLE x o 2
    ((upto n).map fun i => getLE x (o + 8 + 4 * i) 4, (upto n).map fun i => getLE x (o + 8 + 4 * n + 4 * i) 4) ::
      parseFriction x k (o + 8 + 8 * n)

/-- Row of each node among the hydraulic unknowns; none for a fixed-pressure node (R193). -/
def hydRows : Nat → List Node → List (Option Nat)
  | _, [] => []
  | k, n :: r => if n.kind = 1 then none :: hydRows k r else some k :: hydRows (k + 1) r

/-- First thermal row of each branch's segments (R193). -/
def segRows : Nat → List Branch → List Nat
  | _, [] => []
  | k, b :: r => k :: segRows (k + b.segs) r

/-- Coupled pairs of rows of the hydraulic system, every branch open. -/
def hydPairs (nodes : List Node) (branches : List Branch) : List (Nat × Nat) :=
  let rows := hydRows 0 nodes
  branches.flatMap fun b =>
    match lget rows b.from' none, lget rows b.to' none with
    | some i, some j => [(i, j), (j, i)]
    | _, _ => []

/-- Coupled pairs of rows of the thermal system, every branch open, either direction of flow. -/
def thermPairs (nodes : List Node) (branches : List Branch) : List (Nat × Nat) :=
  (branches.zip (segRows nodes.length branches)).flatMap fun (b, o) =>
    (o, b.from') :: (b.from', o) :: (o + b.segs - 1, b.to') :: (b.to', o + b.segs - 1) ::
      ((upto (b.segs - 1)).flatMap fun i => [(o + i, o + i + 1), (o + i + 1, o + i)])

/-- A tile pattern over `n` rows: the diagonal and the coupled pairs, ascending (R193). -/
def patternOf (n : Nat) (pairs : List (Nat × Nat)) : List (Nat × Nat) :=
  (upto n).flatMap fun i => ((upto n).filter fun j => i = j || pairs.contains (i, j)).map fun j => (i, j)

/-- Unknown nodes of a model (R178). -/
def unknowns (nodes : List Node) : Nat := (nodes.filter fun n => n.kind ≠ 1).length

/-- Rows of the thermal system (R180, R193). -/
def thermRows (nodes : List Node) (branches : List Branch) : Nat := nodes.length + nsum (branches.map (·.segs))

/-- Tile rows of a number of rows. -/
def tileRowCount (n : Nat) : Nat := (n + 63) / 64

/-- The whole model, with its tile patterns. -/
def parseModel (b : Bytes) : Model :=
  let nodes := (entriesOf (modelSect b 1) 32).map parseNode
  let branches := (entriesOf (modelSect b 2) 64).map parseBranch
  { crc := BitVec.ofNat 32 (getLE b 12 4), modelId := BitVec.ofNat 64 (getLE b 16 8), ambPoint := getLE b 48 4
    gMin := getLE b 52 4, nodes := nodes, branches := branches, friction := parseFriction (modelSect b 3) 16 0
    ranges := (entriesOf (modelSect b 4) 16).map parseRange
    hydPat := patternOf (unknowns nodes) (hydPairs nodes branches)
    thermPat := patternOf (thermRows nodes branches) (thermPairs nodes branches) }

/-- Check 1 of R187: header and directory. -/
def modelCheck1 (b : Bytes) : Bool :=
  decide (144 ≤ b.length) && getLE b 0 4 = 0x4D4E4756 && getLE b 4 2 = 1 && getLE b 8 4 = b.length && b.length % 64 = 0 &&
    getLE b 36 2 = 5 && getLE b 40 4 = 64 && dirOk b (directory b 5) 14 (getLE b 44 4) &&
    [1, 2, 3, 4, 14].all (hasSect (directory b 5))

/-- Check 2 of R187: CRCs. -/
def modelCheck2 (b : Bytes) : Bool :=
  getLE b 12 4 = crc32c (slice b 16 (getLE b 44 4 - 16)) && sectCrcsOk b (directory b 5) 14

/-- A point field names a point of the database or *no point*. -/
def pointField (s : State) (id : Nat) : Bool := id = noPoint || defined s id

/-- A NODE entry is in order (R183, R185). -/
def nodeOk (s : State) (n : Node) : Bool :=
  decide (n.kind ≤ 2) && (if n.kind = 0 then n.bcPoint = noPoint else defined s n.bcPoint) && pointField s n.pPoint &&
    pointField s n.tPoint && pointField s n.tinPoint && decide (n.object ≤ 2) &&
    (match n.object with
     | 0 => n.objIndex = 0
     | 1 => decide (n.objIndex ≤ 63) && n.tinPoint ≠ noPoint
     | _ => decide (n.objIndex ≤ 255) && n.kind ≠ 0)

/-- A BRANCH entry is in order (R184, R185). -/
def branchFits (s : State) (nodes : Nat) (b : Branch) : Bool :=
  decide (b.from' < nodes) && decide (b.to' < nodes) && b.from' ≠ b.to' && decide (b.kind ≤ 2) && decide (1 ≤ b.segs) &&
    decide (b.segs ≤ 16) && decide (0 < b.dpLam) && pointField s b.ctrl && pointField s b.qPoint &&
    (if b.kind = 0 then decide (b.rough ≤ 15) && decide (0 < b.kg) else true) &&
    (if b.kind = 1 then decide (0 < b.a2) && (b.group = 0xFFFF || decide (b.group ≤ 1023)) else b.group = 0xFFFF)

/-- Friction tables are in order (R186). -/
def frictionOk (t : List Nat × List Nat) : Bool :=
  decide (2 ≤ t.1.length) && decide (t.1.length ≤ 32) && increasing (t.1.map fun (n : Nat) => (n : Int))

/-- Headers of the friction tables: reserved bytes 0, and the tables fill the section (R186). -/
def frictionHeads (x : Bytes) : Nat → Nat → Bool
  | 0, o => o = x.length
  | k + 1, o => allZero (slice x (o + 2) 6) && frictionHeads x k (o + 8 + 8 * getLE x o 2)

/-- A table that no pipe uses has N = 2 (R186). -/
def frictionUsed (m : Model) : Bool :=
  (indexed 0 m.friction).all fun (i, t) => t.1.length = 2 || m.branches.any fun b => b.kind = 0 && b.rough = i

/-- RANGE records ascend by JOB, KIND, ROLE and INDEX, with fields in range (R190). -/
def rangesOk (l : List RangeRec) (jobs : List Nat) (maxRole : Nat) : Bool :=
  increasing (l.map fun r => ((((r.job * 256 + r.kind) * 256 + r.role) * 2 ^ 32 + r.index : Nat) : Int)) &&
    l.all fun r => jobs.contains r.job && decide (r.kind ≤ 3) && decide (r.role ≤ maxRole) && decide (-63 ≤ r.scale) &&
      decide (r.scale ≤ 63) && decide (1 ≤ r.rmax) && decide (r.rmax < 2 ^ 31) &&
      (r.role = 0 || r.kind = 1 || r.kind = 3) && (r.kind ≠ 3 || r.index = 0)

/-- The pumps of one group name one control point (R185). -/
def groupsAgree : List Branch → Bool
  | [] => true
  | b :: r => (b.group = 0xFFFF || r.all fun c => c.group ≠ b.group || c.ctrl = b.ctrl) && groupsAgree r

/-- Reserved fields of a model. -/
def modelReserved (b : Bytes) : Bool :=
  let z (t size : Nat) (offs : List (Nat × Nat)) : Bool :=
    (entriesOf (modelSect b t) size).all fun e => offs.all fun o => allZero (slice e o.1 o.2)
  getLE b 6 2 = 0 && getLE b 38 2 = 0 && allZero (slice b 56 8) && ((directory b 5).all fun x => x.spare = 0) &&
    z 1 32 [(5, 3), (25, 1), (28, 4)] && z 2 64 [(15, 1), (58, 6)] && z 4 16 [(12, 4)] && sigSpareOk b (getLE b 44 4)

/-- Check 4 of R187. -/
def modelCheck4 (s : State) (b : Bytes) (m : Model) : Bool :=
  let plants := (m.nodes.filter fun n => n.object = 1).map (·.objIndex)
  let stores := (m.nodes.filter fun n => n.object = 2).map (·.objIndex)
  (modelSect b 1).length % 32 = 0 && (modelSect b 2).length % 64 = 0 && (modelSect b 4).length % 16 = 0 &&
    decide (1 ≤ m.nodes.length) && decide (m.nodes.length ≤ 131072) && decide (m.branches.length ≤ 196608) &&
    getLE b 24 4 = m.nodes.length && getLE b 28 4 = m.branches.length &&
    getLE b 32 4 = nsum (m.branches.map (·.segs)) && decide (getLE b 32 4 ≤ 393216) && pointField s m.ambPoint &&
    m.nodes.all (nodeOk s) && m.branches.all (branchFits s m.nodes.length) && m.friction.all frictionOk &&
    rangesOk m.ranges [1, 2] 9 && distinct (m.nodes.map (·.id)) && distinct (m.branches.map (·.id)) && distinct plants &&
    distinct stores && groupsAgree m.branches && modelReserved b && frictionHeads (modelSect b 3) 16 0 && frictionUsed m

/-- Check 5 of R187: output points have SOURCE 3. -/
def modelCheck5 (s : State) (m : Model) : Bool :=
  let out (id : Nat) : Bool := match defOf s id with
    | some d => tfSource d.typeflags = 3
    | none => true
  (m.nodes.all fun n => out n.pPoint && out n.tPoint) && m.branches.all fun b => out b.qPoint

/-- A RANGE record is present. -/
def hasRange (l : List RangeRec) (job kind role index : Nat) : Bool :=
  l.any fun r => r.job = job && r.kind = kind && r.role = role && r.index = index

/-- RANGE records of a job over `rows` rows with coupled pairs: every tile, accumulator, segment and scalar. -/
def rangesCover (l : List RangeRec) (job rows : Nat) (pairs : List (Nat × Nat)) : Bool :=
  let tr := upto ((rows + 63) / 64)
  (tr.all fun k => hasRange l job 0 0 (k + 65536 * k) && hasRange l job 2 0 k &&
    (upto 10).all fun role => hasRange l job 1 role k) &&
  (pairs.all fun p => hasRange l job 0 0 (p.1 / 64 + 65536 * (p.2 / 64))) &&
  (upto 10).all fun role => hasRange l job 3 role 0

/-- Check 6 of R187. -/
def modelCheck6 (m : Model) : Bool :=
  rangesCover m.ranges 1 (unknowns m.nodes) m.hydPat && rangesCover m.ranges 2 (thermRows m.nodes m.branches) m.thermPat

/-- A failed load check of a model: its number and status (R187). -/
def modelFault (s : State) (b : Bytes) : Option (Nat × Nat) :=
  let m := parseModel b
  firstRefusal
    [refuseIf (!modelCheck1 b) 1 stBadCrc, refuseIf (!modelCheck2 b) 2 stBadCrc,
     refuseIf (!sectionVerify s destUv b (getLE b 44 4)) 3 stDenied, refuseIf (!modelCheck4 s b m) 4 stBadCrc,
     refuseIf (!modelCheck5 s m) 5 stBadCrc, refuseIf (!modelCheck6 m) 6 stBadCrc]

/-! ### Descriptors and result records (R200, R214, R216) -/

/-- A job descriptor. -/
def parseDesc (p : Bytes) : JobDesc :=
  { kind := getLE p 0 1, method := getLE p 1 1, precond := getLE p 2 1, tprecond := getLE p 3 1, cap := getLE p 4 2
    tcap := getLE p 6 2, newtonMax := getLE p 8 1, flags := byte (getLE p 9 1), keepMax := getLE p 10 2
    tol := getLE p 12 4, accept := getLE p 16 4, ntol := getLE p 20 4, deadlineUs := getLE p 24 4
    reserveUs := getLE p 28 4, factorUs := getLE p 32 4, dpMax := getLE p 36 4, tail := slice p 40 24
    sigma := getLE p 40 2, eta := getLE p 42 2, mu0 := (getSLE p 44 4, getSLE p 48 2), reg := (getSLE p 50 4, getSLE p 54 2)
    thetaMax := (getSLE p 56 4, getSLE p 60 2) }

/-- FLAGS.THERMAL -/
def JobDesc.thermal (d : JobDesc) : Bool := d.flags.getLsbD 0
/-- FLAGS.WARM -/
def JobDesc.warm (d : JobDesc) : Bool := d.flags.getLsbD 1

/-- Tile rows of a job on a model: of its larger stage (R193). -/
def jobTiles (m : Model) (d : JobDesc) : Nat :=
  let hyd := if d.kind = 2 then 0 else tileRowCount (unknowns m.nodes)
  let therm := if d.kind = 2 ∨ (d.kind = 1 ∧ d.thermal) then tileRowCount (thermRows m.nodes m.branches) else 0
  Nat.max hyd therm

/-- A method with its preconditioner (R200). -/
def methodOk (method precond : Nat) : Bool :=
  match method with
  | 0 => decide (precond ≤ 3)
  | 1 => decide (precond ≤ 1)
  | 2 => decide (precond ≤ 2)
  | _ => false

/-- Faulty fields of a descriptor of KIND 0, 1 or 2 (R200, R214); `deadlineUs` is the deadline that holds for the job. -/
def descFaults (p : Bytes) (kinds : List Nat) (deadlineUs : Nat) : List (Nat × Bool) :=
  let d := parseDesc p
  let therm := d.kind = 2 || d.thermal
  [(0, !kinds.contains d.kind), (1, decide (2 < d.method)), (2, !methodOk d.method d.precond),
   (3, if therm then !(d.tprecond = 1 || d.tprecond = 2) else decide (2 < d.tprecond)),
   (4, decide (d.cap < 1 ∨ 4096 < d.cap)), (6, decide (d.tcap < 1 ∨ 4096 < d.tcap)),
   (8, decide (d.newtonMax < 1 ∨ 32 < d.newtonMax)), (9, decide (4 ≤ d.flags.toNat)),
   (10, decide (d.keepMax < 1 ∨ 1000 < d.keepMax)), (12, d.tol = 0), (16, decide (d.accept < d.tol)), (20, d.ntol = 0),
   (28, decide (deadlineUs ≤ d.reserveUs)), (32, decide (d.factorUs < 100)), (36, d.dpMax = 0), (40, !allZero d.tail)]

/-- Result record of a job (R216), 48 bytes. -/
def jobBytes (r : JobRecord) : Bytes :=
  putLE 2 r.status ++ putLE 2 r.flags.toNat ++ [byte r.steps, 0] ++ putLE 2 r.capUsed ++ putLE 4 (sat32 r.iters) ++
    putLE 4 (sat32 r.resid) ++ putLE 4 (sat32 r.nresid) ++ putLE 4 (sat32 r.tresid) ++ putLE 4 (sat32 r.elapsedUs) ++
    putLE 4 (sat32 r.coarsened) ++ putLE 8 r.stamp ++ putLE 4 r.islands ++ zeros 4

/-! ### Flows and conductances (R175, R176, R198) -/

/-- Friction factor of a pipe, Q24, from the flow of the previous step (R176). -/
def friction (m : Model) (b : Branch) (q : Int) : Int :=
  let t := lget m.friction b.rough ([], [])
  curveAt (t.1.map fun (n : Nat) => (n : Int)) (t.2.map fun (n : Nat) => (n : Int)) (rnd (b.rePerQ * q.natAbs : Nat) 16)

/-- A raw value of R182 at its scale. -/
def rawAt (v e : Int) : Dy := { m := v, e := e }

/-- What a lane computes for a branch: flow, raw 2^-16 kg/s, conductance dq/dΔp, and whether the unit counted. -/
structure BranchEval where
  /-- q -/
  q       : Int
  /-- g -/
  g       : Dy
  /-- the lane's saturation counter counted -/
  counted : Bool
deriving DecidableEq, Repr

/-- A pipe or valve of resistance K: r = rsqrt(K × abs(Δp)), q = sgn(Δp) × abs(Δp) × r and g = r ÷ 2 from DP_LAM on, and
q = Δp × G_LAM, g = G_LAM = rsqrt(K × DP_LAM) below it (R175). -/
def frictionFlow (k : Dy) (dpLam : Nat) (dp : Dy) : BranchEval :=
  let lam := rawAt dpLam (-16)
  if lam.le dp.abs then
    let r := unitRsqrt (k.mul dp.abs)
    { q := (dp.mul r.1).at (-16), g := { r.1 with e := r.1.e - 1 }, counted := r.2 }
  else
    let r := unitRsqrt (k.mul lam)
    { q := (dp.mul r.1).at (-16), g := r.1, counted := r.2 }

/-- Flow and conductance of an open branch for a pressure difference: `ctrl` is s or x in Q16, `f` the friction factor in
Q24 (R175, R182). -/
def branchEval (gMin : Nat) (b : Branch) (ctrl f : Int) (dp : Dy) : BranchEval :=
  match b.kind with
  | 0 => frictionFlow (rawAt (b.kg * f) (-48)) b.dpLam dp
  | 1 =>
    let as' := rawAt (b.a1 * ctrl) (-40)
    let d := (as'.mul as').add ((rawAt (4 * b.a2) (-24)).mul ((rawAt (b.a0 * ctrl * ctrl) (-48)).add dp))
    if 0 < d.m then
      let root := unitSqrt d
      let q := unitDivAt (as'.add root.1) (rawAt (2 * b.a2) (-24)) (-16)
      if 0 < q.1.m then
        let g := unitRsqrt d
        { q := q.1.m, g := g.1, counted := root.2 || q.2 || g.2 }
      else { q := 0, g := rawAt gMin (-24), counted := root.2 || q.2 }
    else { q := 0, g := rawAt gMin (-24), counted := false }
  | _ =>
    let k := unitDiv (rawAt b.a0 (-24)) (rawAt (ctrl * ctrl) (-32))
    let e := frictionFlow k.1 b.dpLam dp
    { e with counted := e.counted || k.2 }

/-- Pressure of a node: its unknown at the scale of its segment (ROLE 1), or its set value. -/
def nodePressure (f : NumFmt) (rows : List (Option Nat)) (bc x : List Int) (i : Nat) : Dy :=
  match lget rows i none with
  | some k => f.val 1 k (lget x k 0)
  | none => rawAt (lget bc i 0) (-16)

/-- Every branch at given node pressures, with friction from the flows `q` of the previous step; no flow and no
conductance for a branch that is not open (R175 to R177). -/
def evalAt (m : Model) (r : JobRun) (press : Nat → Dy) (q : List Int) : List BranchEval :=
  (indexed 0 m.branches).map fun (i, b) =>
    if lget r.open' i false then
      branchEval m.gMin b (lget r.ctrl i 0) (friction m b (lget q i 0)) ((press b.from').sub (press b.to'))
    else { q := 0, g := .zero, counted := false }

/-- Every branch at unknown pressures `x`. -/
def evalBranches (m : Model) (r : JobRun) (f : NumFmt) (x q : List Int) : List BranchEval :=
  evalAt m r (nodePressure f (hydRows 0 m.nodes) r.bc x) q

/-- Saturation counts of the branches, against the tile of the first unknown end (R191, R198). -/
def evalHits (m : Model) (f : NumFmt) (l : List BranchEval) : List Nat :=
  let rows := hydRows 0 m.nodes
  (m.branches.zip l).flatMap fun (b, e) =>
    if e.counted then
      match lget rows b.from' none, lget rows b.to' none with
      | some k, _ => [(f.tile k k).pos]
      | none, some k => [(f.tile k k).pos]
      | none, none => []
    else []

/-- Nodes of the hydraulic rows. -/
def rowNodes (m : Model) : List Nat := ((indexed 0 m.nodes).filter fun e => e.2.kind ≠ 1).map (·.1)

/-- Hydraulic rows that take part: nodes not removed as islands (R193). -/
def hydLive (m : Model) (r : JobRun) : List Bool := (rowNodes m).map fun i => !r.island.contains i

/-- Mass imbalance of a node, raw 2^-16 kg/s (R178); `d` is its demand. -/
def nodeImbalance (m : Model) (q : List Int) (d : Int) (i : Nat) : Int :=
  isum ((m.branches.zip q).map fun (b, x) => (if b.to' = i then x else 0) - (if b.from' = i then x else 0)) - d

/-- F over the unknowns, written to ROLE 0; 0 for removed rows (R178). -/
def formF (m : Model) (r : JobRun) (f : NumFmt) (q : List Int) : List Int × List Nat :=
  gathered ((indexed 0 (rowNodes m)).map fun (k, i) =>
    if r.island.contains i then (0, [])
    else
      let d := if (m.nodes[i]?).map (·.kind) = some 2 then lget r.bc i 0 else 0
      (f.seg 0 k).put (rawAt (nodeImbalance m q d i) (-16)))

/-- J′ = A·G·Aᵀ over the unknowns in the model's tile pattern: closed branches contribute 0, rows of removed nodes hold no
entries (R178, R193). -/
def formJ (m : Model) (r : JobRun) (f : NumFmt) (l : List BranchEval) : List NonZero × List Nat :=
  let rows := hydRows 0 m.nodes
  let live := hydLive m r
  let ends := (m.branches.zip l).map fun (b, e) => (lget rows b.from' none, lget rows b.to' none, e.g)
  let out := (m.hydPat.filter fun (i, j) => lget live i false && lget live j false).map fun (i, j) =>
    let v := dySum (ends.map fun (a, b, g) =>
      if i = j then (if (a = some i) ≠ (b = some i) then g else .zero)
      else if (a = some i ∧ b = some j) ∨ (a = some j ∧ b = some i) then g.neg else .zero)
    let o := f.tile i j
    let (w, h) := o.put v
    (({ row := i, col := j, val := w, scale := o.scale } : NonZero), h)
  (out.map (·.1), out.flatMap (·.2))

/-- Squared norm of the demands, 1 kg/s when all are 0 (R179). -/
def demandNorm2 (m : Model) (r : JobRun) : Dy :=
  let d := nsum ((indexed 0 m.nodes).map fun (i, n) =>
    if n.kind = 2 && !r.island.contains i then (lget r.bc i 0).natAbs * (lget r.bc i 0).natAbs else 0)
  if d = 0 then dyOne else rawAt d (-32)

/-! ### Outer steps (R192, R202, R205, R210) -/

/-- What the solver array brings to a job: lanes in service, the factor by which times of R211 grow, the solver scales
since the job's issue, newest first, and the stop records that a standby follows. -/
structure ArrayEnv where
  /-- lanes in service -/
  lanes  : List Nat
  /-- growth of the times of R211: numerator and denominator -/
  slow   : Nat × Nat
  /-- ns since the issue, S -/
  scales : List (Nat × Nat)
  /-- stop records of the active, by outer step; none: none are followed -/
  stops  : Option (List StopRec)
deriving DecidableEq, Repr

/-- A time of R211 in µs as the array takes it, ns. -/
def ArrayEnv.ns (a : ArrayEnv) (us : Nat) : Nat := us * 1000 * a.slow.1 / Nat.max a.slow.2 1

/-- S in force at a time of the job (R112). -/
def ArrayEnv.scaleAt (a : ArrayEnv) (now : Nat) : Nat := ((a.scales.find? fun e => decide (e.1 ≤ now)).map (·.2)).getD 256

/-- Inner iteration cap of an outer step (R112). -/
def stepCap (cap scale : Nat) : Nat := Nat.max 16 (cap * scale / 256)

/-- One outer step's settings. -/
structure StepEnv where
  /-- JOB of its range records, as SOLVER_RANGE names it -/
  job      : Nat
  /-- outer step -/
  step     : Nat
  /-- METHOD -/
  method   : Nat
  /-- PRECOND -/
  precond  : Nat
  /-- TOL -/
  tol      : Nat
  /-- inner cap -/
  cap      : Nat
  /-- S of the step -/
  scale    : Nat
  /-- stage deadline, ns from the issue -/
  deadline : Nat
  /-- t_reserve -/
  reserve  : Nat
  /-- t_iter before the first iteration -/
  first    : Nat
  /-- FACTOR_LIMIT_US, ns -/
  factorNs : Nat
  /-- instants at which a factorisation limit fell -/
  lateAt   : List Nat
  /-- kept factor -/
  kept     : Option Factor
  /-- open branches -/
  open'    : List Bool
  /-- stop record to follow -/
  rec'     : Option StopRec
  /-- durations -/
  time     : StepTiming
deriving DecidableEq, Repr

/-- One try of an outer step: its inner solve, what it made of the best iterate, the factor it used and the counts. -/
structure TryOut (β : Type) where
  /-- inner solve -/
  inner  : InnerOut
  /-- the step's result -/
  res    : β
  /-- factor use -/
  use    : FactorUse
  /-- factor that completed -/
  factor : Option Factor
  /-- counts -/
  hits   : List Nat

/-- The factor that a try uses (R202): a new one, the kept one of the same structure where the limit fell during the
factorisation, else Jacobi; a stop record decides for a standby. -/
def chooseFactor (e : StepEnv) (y : LinSys) (start prep : Nat) : Option Factor × FactorUse × Option Factor × List Nat :=
  if e.precond = 0 || e.method = 3 then (none, .new, none, [])
  else
    let limit := if e.deadline < start + e.factorNs then e.deadline else start + e.factorNs
    let late : Bool := match e.rec' with
      | some x => decide (x.factor ≠ .new)
      | none => e.lateAt.any fun t => decide (limit ≤ t) && decide (t ≤ start + prep)
    let kept := if e.rec'.map (·.factor) = some .jacobi then none
      else e.kept.bind fun k => if k.open' = e.open' then some k else none
    if late then
      match kept with
      | some k => (some k, .kept, none, [])
      | none =>
        let (j, h, _) := buildFactor y 1 e.method e.open'
        (some j, .jacobi, none, h)
    else
      let (k, h, _) := buildFactor y e.precond e.method e.open'
      (some k, .new, some k, h)

/-- One try of an outer step from `now`: formation, factorisation, the inner solve and what follows from its best iterate. -/
def tryStep {β : Type} (e : StepEnv) (form : NumFmt → LinSys × List Int × List Nat) (finish : NumFmt → List Int → β × List Nat)
    (f : NumFmt) (prep : Nat) (iters : List Nat) (cap used now longest : Nat) : TryOut β :=
  let (y, x, h1) := form f
  let y := { y with turns := e.time.turns }
  let (k, use, built, h2) := chooseFactor e y now prep
  let w : TimeRule := { iters := iters, deadline := e.deadline, reserve := e.reserve, first := e.first
                        forced := e.rec'.map fun r => (r.iterations - used, r.cause) }
  let o := innerSolve y k e.method e.precond e.tol cap w x (now + prep) longest
  let o := if (h1 ++ h2).isEmpty then o else { o with its := 0, hits := h1 ++ h2, now := now + prep, longest := longest }
  let (res, h3) := finish f o.best
  { inner := o, res := res, use := use, factor := built, hits := if o.hits.isEmpty then h3 else o.hits }

/-- What an outer step comes to. -/
structure StepOut (β : Type) where
  /-- formats after it -/
  fmt       : NumFmt
  /-- result, none where the step counted twice and is not applied (R192) -/
  res       : Option β
  /-- inner iterations of both tries -/
  its       : Nat
  /-- stop cause -/
  cause     : StopCause
  /-- true residual ratio of the best iterate -/
  resid     : Nat
  /-- factor use -/
  use       : FactorUse
  /-- factor that completed -/
  factor    : Option Factor
  /-- SOLVER_RANGE parameters: job, outer step and first object (R192) -/
  ranges    : List (List Int)
  /-- objects coarsened -/
  coarsened : Nat
  /-- it was re-run -/
  retried   : Bool
  /-- time, ns from the issue -/
  now       : Nat
  /-- longest iteration -/
  longest   : Nat

/-- An outer step (R192): where counts are gathered, SOLVER_RANGE, the iterate the step started from, each counted object
a step coarser, and one re-run with the iterations left. A stop record says whether the active re-ran it. -/
def outerStep {β : Type} (e : StepEnv) (form : NumFmt → LinSys × List Int × List Nat)
    (finish : NumFmt → List Int → β × List Nat) (f : NumFmt) (now longest : Nat) : StepOut β :=
  let a := tryStep e form finish f e.time.prep e.time.iters e.cap 0 now longest
  let note (t : TryOut β) : List Int := [(e.job : Int), e.step, (lget t.hits 0 0 : Nat)]
  let again := match e.rec' with
    | some r => r.retry
    | none => true
  if a.hits.isEmpty then
    { fmt := f, res := some a.res, its := a.inner.its, cause := a.inner.cause, resid := a.inner.resid, use := a.use
      factor := a.factor, ranges := [], coarsened := 0, retried := false, now := a.inner.now, longest := a.inner.longest }
  else if !again then
    { fmt := f, res := none, its := a.inner.its, cause := a.inner.cause, resid := a.inner.resid, use := a.use
      factor := a.factor, ranges := [note a], coarsened := 0, retried := false, now := a.inner.now
      longest := a.inner.longest }
  else
    let objects := a.hits.eraseDups
    let g := { f with up := f.up ++ objects }
    let b := tryStep e form finish g (lget e.time.again 0 0) (e.time.again.drop 1) (e.cap - a.inner.its) a.inner.its
      a.inner.now a.inner.longest
    { fmt := g, res := if b.hits.isEmpty then some b.res else none, its := a.inner.its + b.inner.its, cause := b.inner.cause
      resid := b.inner.resid, use := b.use, factor := b.factor
      ranges := note a :: (if b.hits.isEmpty then [] else [note b]), coarsened := objects.length, retried := true
      now := b.inner.now, longest := b.inner.longest }

/-! ### A job as it stands -/

/-- A job as it stands: formats, counts and flags gathered over its outer steps, the kept factors, and the stop records
that an active sends (R192, R202, R210, R216). -/
structure JobAcc where
  /-- formats -/
  fmt   : NumFmt
  /-- outer steps run -/
  steps : Nat := 0
  /-- inner iterations -/
  iters : Nat := 0
  /-- RESID of the last step -/
  resid : Nat := 0
  /-- objects coarsened -/
  coarsened : Nat := 0
  /-- gathered counts that were not zero: job, outer step and first object of each (R192) -/
  ranges : List (List Int) := []
  /-- a step was re-run (R192) -/
  retried : Bool := false
  /-- flag RANGE -/
  rangeStop : Bool := false
  /-- cause of the last step -/
  last : StopCause := .converged
  /-- flag BREAKDOWN -/
  breakdown : Bool := false
  /-- flag PRECOND_KEPT -/
  kept : Bool := false
  /-- flag PRECOND_JACOBI -/
  jacobi : Bool := false
  /-- the kept factor of the stage -/
  factor : Option Factor := none
  /-- inner cap of the last step -/
  capUsed : Nat := 0
  /-- time, ns from the issue -/
  now : Nat := 0
  /-- longest iteration so far -/
  longest : Nat := 0
  /-- stop records of the steps -/
  stops : List StopRec := []
deriving DecidableEq, Repr

/-- Take a step into the job's counts; `kind` is the stop record's (R113, R210). -/
def JobAcc.after {β : Type} (x : JobAcc) (kind : Nat) (e : StepEnv) (o : StepOut β) : JobAcc :=
  { x with
    fmt := o.fmt, steps := x.steps + 1, iters := x.iters + o.its, resid := o.resid
    coarsened := x.coarsened + o.coarsened, ranges := x.ranges ++ o.ranges, retried := x.retried || o.retried
    rangeStop := x.rangeStop || o.res.isNone, last := o.cause, breakdown := x.breakdown || decide (o.cause = .breakdown)
    kept := x.kept || decide (o.use = .kept), jacobi := x.jacobi || decide (o.use = .jacobi)
    factor := match o.factor with
      | some k => some k
      | none => x.factor
    capUsed := e.cap, now := o.now, longest := o.longest
    stops := x.stops ++ [{ kind := kind, step := x.steps, scale := e.scale, iterations := o.its, cause := o.cause
                           factor := o.use, retry := o.retried }] }

/-- The stage has stopped at the deadline rule. -/
def JobAcc.late (x : JobAcc) : Bool := decide (0 < x.steps) && decide (x.last = .deadline)

/-- The stop record that a standby follows in a step; where the active recorded steps but not this one, the job has ended. -/
def recordOf (a : ArrayEnv) (kind step : Nat) : Option StopRec :=
  a.stops.bind fun l => l.find? fun x => x.kind = kind && x.step = step

/-- Times that a step past the end of a list takes. -/
def noTime : StepTiming := { prep := 0, iters := [], again := [], turns := [] }

/-- Longest time of an iteration by method, µs (R211). -/
def iterationUs (method : Nat) : Nat := match method with
  | 0 => 16
  | 1 => 17
  | _ => 32

/-- Settings of the next outer step of a job: cap, times and kept factor (R112, R202, R205, R210). `newton`: t_reserve
holds a formation too. -/
def stepEnv (a : ArrayEnv) (r : JobRun) (t : StepTiming) (job kind method precond cap deadline : Nat) (newton : Bool)
    (x : JobAcc) : StepEnv :=
  let rec' := recordOf a kind x.steps
  let scale := (rec'.map (·.scale)).getD (a.scaleAt x.now)
  { job := job, step := x.steps, method := method, precond := precond, tol := r.desc.tol, cap := stepCap cap scale
    scale := scale, deadline := deadline, reserve := a.ns (if newton then 7 + 60 else 7), first := a.ns (iterationUs method)
    factorNs := r.desc.factorUs * 1000, lateAt := r.lateAt, kept := x.factor, open' := r.open', rec' := rec', time := t }

/-! ### The Newton stage (R178, R179, R206) -/

/-- The iterate of a network job: unknown pressures at their segments' scales, flows, F and its squared norm. -/
structure Hyd where
  /-- unknown pressures, ROLE 1 -/
  x  : List Int
  /-- flows by branch, raw 2^-16 kg/s -/
  q  : List Int
  /-- branches as last computed -/
  ev : List BranchEval
  /-- F, ROLE 0 -/
  b  : List Int
  /-- ‖F‖² -/
  f2 : Dy
deriving DecidableEq, Repr

/-- The iterate at given pressures: branches, F and its norm, with the counts of forming them. -/
def hydAt (m : Model) (r : JobRun) (f : NumFmt) (x q : List Int) : Hyd × List Nat :=
  let ev := evalBranches m r f x q
  let flows := ev.map (·.q)
  let (b, h) := formF m r f flows
  ({ x := x, q := flows, ev := ev, b := b, f2 := normOf f 0 b }, evalHits m f ev ++ h)

/-- A vector written again at the formats in force (R192). -/
def rescale (f g : NumFmt) (role : Nat) (l : List Int) : List Int :=
  (indexed 0 l).map fun (i, v) => ((g.seg role i).put (f.val role i v)).1

/-- The system of a Newton step from an iterate held at formats `f0`: J′ and F at the formats of the try, δ = 0 to start. -/
def formNewton (m : Model) (r : JobRun) (a : ArrayEnv) (f0 : NumFmt) (h : Hyd) (g : NumFmt) : LinSys × List Int × List Nat :=
  let (mat, h1) := formJ m r g h.ev
  let (b, h2) := formF m r g h.q
  let n := (rowNodes m).length
  ({ fmt := g, mat := mat, rows := n, cols := n, live := hydLive m r, b := if f0 = g then h.b else b, role := 9
     lanes := a.lanes, turns := [] }, zeroVec n, evalHits m g h.ev ++ h1 ++ h2)

/-- δ scaled by DP_MAX ÷ max abs(δ) of the divide unit where it exceeds DP_MAX (R179); ROLE 9. -/
def scaleDelta (f : NumFmt) (dpMax : Nat) (l : List Int) : List Int × List Nat :=
  let top := dyMax ((indexed 0 l).map fun (i, v) => (f.val 9 i v).abs)
  let lim := rawAt dpMax (-16)
  if top.le lim then (l, [])
  else
    let k := unitDiv lim top
    gathered ((indexed 0 l).map fun (i, v) => (f.seg 9 i).put (k.1.mul (f.val 9 i v)))

/-- p := p + δ and F at the new pressures (R178, R206). -/
def applyDelta (m : Model) (r : JobRun) (f0 : NumFmt) (h : Hyd) (g : NumFmt) (d : List Int) : Hyd × List Nat :=
  let (d, h1) := scaleDelta g r.desc.dpMax d
  let live := hydLive m r
  let (x, h2) := gathered ((indexed 0 h.x).map fun (k, v) =>
    if lget live k false then (g.seg 1 k).put ((f0.val 1 k v).add (g.val 9 k (lget d k 0))) else (v, []))
  let (y, h3) := hydAt m r g x h.q
  (y, h1 ++ h2 ++ h3)

/-- The Newton stage has converged (R179). -/
def newtonMet (m : Model) (r : JobRun) (h : Hyd) : Bool := normWithin h.f2 (demandNorm2 m r) r.desc.ntol

/-- JOB of a hydraulic and of a thermal system's RANGE records. -/
def jobHyd : Nat := 1
/-- JOB 2: thermal -/
def jobTherm : Nat := 2

/-- The end of a stage on a standby: the active recorded no further step (R210, R240). -/
def followedUp (a : ArrayEnv) (kind steps : Nat) : Bool := a.stops.isSome && (recordOf a kind steps).isNone

/-- Newton steps until convergence, NEWTON_MAX, the deadline rule, or a second range count (R179, R192, R206). -/
def newtonRun (m : Model) (r : JobRun) (a : ArrayEnv) (deadline : Nat) : Nat → List StepTiming → JobAcc → Hyd → JobAcc × Hyd
  | 0, _, x, h => (x, h)
  | n + 1, t, x, h =>
    if newtonMet m r h || x.late || x.rangeStop || followedUp a 1 x.steps then (x, h)
    else
      let e := stepEnv a r ((t.head?).getD noTime) jobHyd 1 r.desc.method r.desc.precond r.desc.cap deadline true x
      let o := outerStep e (formNewton m r a x.fmt h) (applyDelta m r x.fmt h) x.fmt x.now x.longest
      let y := x.after 1 e o
      match o.res with
      | some g => newtonRun m r a deadline n (t.drop 1) y g
      | none => (y, { h with x := rescale x.fmt o.fmt 1 h.x })

/-- The Newton stage's start: starting pressures limited to their segments' formats. -/
def newtonStart (m : Model) (r : JobRun) (f : NumFmt) : Hyd :=
  let x := (indexed 0 (rowNodes m)).map fun (k, i) => ((f.seg 1 k).put (rawAt (lget r.p0 i 0) (-16))).1
  (hydAt m r f x r.q0).1

/-- A linear job (KIND 0) solves J′δ = F once, at the starting pressures (R214; log entry 179). -/
def linearRun (m : Model) (r : JobRun) (a : ArrayEnv) (t : List StepTiming) (x : JobAcc) (h : Hyd) : JobAcc × List Int :=
  let e := stepEnv a r ((t.head?).getD noTime) jobHyd 1 r.desc.method r.desc.precond r.desc.cap r.limitNs false x
  let start := (rowNodes m).map fun i => fgetD r.lin0 ((m.nodes[i]?).map (·.id) |>.getD 0) 0
  let form (g : NumFmt) : LinSys × List Int × List Nat :=
    let (y, _, c) := formNewton m r a x.fmt h g
    let (s, c1) := gathered ((indexed 0 start).map fun (k, v) => (g.seg 9 k).put (rawAt v (-16)))
    (y, s, c ++ c1)
  let o := outerStep e form (fun g d => ((indexed 0 d).map fun (k, v) => (g.val 9 k v).at (-16), [])) x.fmt x.now x.longest
  (x.after 1 e o, o.res.getD [])

/-! ### The thermal stage (R180, R182) -/

/-- Upstream row of a segment, and whether its flow leaves into the branch's end of flow: segments are numbered from FROM,
and the flow's direction decides which neighbour is upstream (R180). -/
def upstreamRow (b : Branch) (o : Nat) (q : Int) (k : Nat) : Nat :=
  if q < 0 then (if k + 1 < b.segs then o + k + 1 else b.to') else (if k = 0 then b.from' else o + k - 1)

/-- The last segment of a branch along its flow, and the node it flows into. -/
def outflow (b : Branch) (o : Nat) (q : Int) : Nat × Nat := if q < 0 then (o, b.from') else (o + b.segs - 1, b.to')

/-- Thermal rows that take part: nodes not in islands, segments of open branches outside islands (R180, R193). -/
def thermLive (m : Model) (r : JobRun) : List Bool :=
  ((upto m.nodes.length).map fun i => !r.island.contains i) ++
    (indexed 0 m.branches).flatMap fun (i, b) => List.replicate b.segs (lget r.open' i false && !r.island.contains b.from')

/-- The thermal equations: coefficient by row and column, and right-hand side by row, exact (R180, R182). -/
def thermEquations (m : Model) (r : JobRun) (q : List Int) : List ((Nat × Nat) × Dy) × List (Nat × Dy) :=
  let offs := segRows m.nodes.length m.branches
  let segs := (indexed 0 (m.branches.zip (offs.zip q))).filter fun e => lget r.open' e.1 false
  let dt := rawAt r.dtUs 0
  let parts : List (List ((Nat × Nat) × Dy) × List (Nat × Dy)) := segs.map fun (_, b, o, x) =>
    let flow := rawAt (x.natAbs : Nat) (-16)
    let store := (unitDiv (rawAt (b.segMass * 1000000) (-8)) dt).1
    let lam := rawAt b.lambda (-16)
    ((upto b.segs).flatMap fun k =>
        [((o + k, o + k), (store.add flow).add lam), ((o + k, upstreamRow b o x k), flow.neg)],
     (upto b.segs).map fun k =>
        (o + k, (store.mul (rawAt (lget r.t0 (o + k) 0) (-16))).add (lam.mul (rawAt r.amb (-16)))))
  let nodes : List (List ((Nat × Nat) × Dy) × List (Nat × Dy)) := (upto m.nodes.length).map fun i =>
    let into := segs.filter fun (_, b, o, x) => x ≠ 0 && (outflow b o x).2 = i
    match lget r.tin i none with
    | some t => ([((i, i), dyOne)], [(i, rawAt t (-16))])
    | none =>
      if into.isEmpty then ([((i, i), dyOne)], [(i, rawAt (lget r.t0 i 0) (-16))])
      else
        (((i, i), dySum (into.map fun (_, _, _, x) => rawAt (x.natAbs : Nat) (-16))) ::
            into.map fun (_, b, o, x) => ((i, (outflow b o x).1), (rawAt (x.natAbs : Nat) (-16)).neg), [])
  ((parts.flatMap (·.1)) ++ nodes.flatMap (·.1), (parts.flatMap (·.2)) ++ nodes.flatMap (·.2))

/-- The thermal system in its tile pattern, from the old temperatures (ROLE 1). -/
def formTherm (m : Model) (r : JobRun) (a : ArrayEnv) (q : List Int) (g : NumFmt) : LinSys × List Int × List Nat :=
  let (co, rhs) := thermEquations m r q
  let n := thermRows m.nodes m.branches
  let live := thermLive m r
  let mat : List (NonZero × List Nat) := (m.thermPat.filter fun (i, j) => lget live i false && lget live j false).map fun (i, j) =>
    let o := g.tile i j
    let (v, h) := o.put (dySum ((co.filter fun (e : (Nat × Nat) × Dy) => e.1 = (i, j)).map (·.2)))
    (({ row := i, col := j, val := v, scale := o.scale } : NonZero), h)
  let (b, h1) := gathered ((upto n).map fun i =>
    if lget live i false then (g.seg 0 i).put (dySum ((rhs.filter fun (e : Nat × Dy) => e.1 = i).map (·.2))) else (0, []))
  let (x, h2) := gathered ((upto n).map fun i =>
    if lget live i false then (g.seg 1 i).put (rawAt (lget r.t0 i 0) (-16)) else (0, []))
  ({ fmt := g, mat := mat.map (·.1), rows := n, cols := n, live := live, b := b, role := 1, lanes := a.lanes, turns := [] },
    x, (mat.flatMap (·.2)) ++ h1 ++ h2)

/-- The thermal stage: BiCGStab with TPRECOND under TCAP, by the job's deadline (R180, R200, R205). The temperatures by row,
raw 2^-16 °C, where its step is applied. -/
def thermRun (m : Model) (r : JobRun) (a : ArrayEnv) (t : StepTiming) (q : List Int) (x : JobAcc) : JobAcc × Option (List Int) :=
  let e := stepEnv a r t jobTherm 2 2 r.desc.tprecond r.desc.tcap r.limitNs false x
  let back (g : NumFmt) (l : List Int) : List Int × List Nat := ((indexed 0 l).map fun (i, v) => (g.val 1 i v).at (-16), [])
  let o := outerStep e (formTherm m r a q) back x.fmt x.now x.longest
  (x.after 2 e o, o.res)

/-! ### Job start (R177, R212, R213, R215) -/

/-- Value of a point at a raw scale of -16 (R182). -/
def at16 (r : PointRec) : Int := align r.value r.scale (-16)

/-- Control value of a branch: 1 where it has no CTRL_POINT; a pipe's isolation reads as 0 or 1 (R184). -/
def ctrlOf (read : Nat → PointRec) (b : Branch) : Int :=
  if b.ctrl = noPoint then 65536
  else if b.kind = 0 then (if (read b.ctrl).value = 0 then 0 else 65536) else at16 (read b.ctrl)

/-- Nodes reached from a set over open branches, in a number of rounds. -/
def reach (edges : List (Nat × Nat)) : Nat → List Nat → List Nat
  | 0, l => l
  | k + 1, l =>
    let new := edges.flatMap fun e =>
      (if l.contains e.1 && !l.contains e.2 then [e.2] else []) ++ (if l.contains e.2 && !l.contains e.1 then [e.1] else [])
    if new.isEmpty then l else reach edges k (l ++ new.eraseDups)

/-- Open branches as pairs of nodes. -/
def openEdges (m : Model) (open' : List Bool) : List (Nat × Nat) :=
  ((m.branches.zip open').filter (·.2)).map fun e => (e.1.from', e.1.to')

/-- Nodes of islands: components without a fixed-pressure node (R177). -/
def islands (m : Model) (open' : List Bool) : List Nat :=
  let fixed := ((indexed 0 m.nodes).filter fun e => e.2.kind = 1).map (·.1)
  let live := reach (openEdges m open') m.nodes.length fixed
  (upto m.nodes.length).filter fun i => !live.contains i

/-- Mean of a list of values (R132 divr); a default for none. -/
def meanOf (l : List Int) (d : Int) : Int := if l.isEmpty then d else divr (isum l) l.length

/-- One round of R213 step 3: nodes without a value take the mean of their valued neighbours. -/
def fillRound (edges : List (Nat × Nat)) (v : List (Option Int)) : List (Option Int) :=
  (indexed 0 v).map fun (i, x) =>
    match x with
    | some y => some y
    | none =>
      let near := (edges.filterMap fun e => if e.1 = i then some e.2 else if e.2 = i then some e.1 else none).eraseDups
      let known := near.filterMap fun j => lget v j none
      if known.isEmpty then none else some (meanOf known 0)

/-- Rounds of R213 step 3. -/
def fillRounds (edges : List (Nat × Nat)) : Nat → List (Option Int) → List (Option Int)
  | 0, v => v
  | k + 1, v => fillRounds edges k (fillRound edges v)

/-- Pressure of the fixed-pressure node with the lowest index in a node's component. -/
def fixedNear (m : Model) (edges : List (Nat × Nat)) (bc : List Int) (i : Nat) : Int :=
  let comp := reach edges m.nodes.length [i]
  match (indexed 0 m.nodes).find? fun e => e.2.kind = 1 && comp.contains e.1 with
  | some (k, _) => lget bc k 0
  | none => 0

/-- Starting pressures: the fixed ones at their set values, the others from an earlier solution by NODE_ID, and the rest
under R213. -/
def startPressures (m : Model) (edges : List (Nat × Nat)) (bc : List Int) (island : List Nat) (old : Nat → Option Int) :
    List Int :=
  let v := (indexed 0 m.nodes).map fun (i, n) =>
    if n.kind = 1 then some (lget bc i 0) else if island.contains i then none else old n.id
  (indexed 0 (fillRounds edges m.nodes.length v)).map fun (i, x) => x.getD (fixedNear m edges bc i)

/-- Starting temperatures of the nodes, then of the segments at their upstream nodes; a cold start is at the TIN mean
(R213). -/
def startTemps (m : Model) (edges : List (Nat × Nat)) (cold : Bool) (tin : List (Option Int)) (q : List Int)
    (old : Nat → Option Int) (oldSeg : Nat → Option Int) : List Int :=
  let mean := meanOf (tin.filterMap id) (10 * 65536)
  let v := (indexed 0 m.nodes).map fun (i, n) =>
    match old n.id with
    | some t => some t
    | none => if cold then some mean else lget tin i none
  let nodes := (fillRounds edges m.nodes.length v).map (·.getD mean)
  nodes ++ (m.branches.zip q).flatMap fun (b, x) =>
    let up := if cold then mean else lget nodes (if x < 0 then b.to' else b.from') mean
    (upto b.segs).map fun k => (oldSeg (16 * b.id + k)).getD up

/-- TIN value of a node. -/
def tinOf (read : Nat → PointRec) (n : Node) : Option Int := if n.tinPoint = noPoint then none else some (at16 (read n.tinPoint))

/-- A demand whose point is not GOOD and for which the estimator keeps a value (R250 step 2). -/
def estimated (s : State) (read : Nat → PointRec) (n : Node) : Option Int :=
  if n.kind = 2 && qState (read n.bcPoint).quality ≠ qGood then fget s.solver.estDemand n.id else none

/-- Boundary value of a node: its set pressure, its demand, or the estimate of a demand whose point is not GOOD. -/
def bcOf (s : State) (read : Nat → PointRec) (n : Node) : Int :=
  if n.kind = 0 then 0 else (estimated s read n).getD (at16 (read n.bcPoint))

/-- The solution that a job of a kind starts from where it is warm (R212); an estimate seeds the next Main job's pressures
(R250). -/
def warmOf (s : State) (kind : Nat) : Option Solution :=
  match kind with
  | 0 => s.solver.linSol
  | 2 => s.solver.thermSol
  | _ => s.solver.solution

/-- The empty solution. -/
def noSolution : Solution := { p := [], q := [], tn := [], ts := [], open' := [], modelCrc := 0, stamp := 0 }

/-- What a network job reads and starts from (R177, R212, R213, R215, R250). A thermal job takes its flows from the last
accepted network solution. `limit` is its deadline in ns of device time. -/
def startJob (s : State) (m : Model) (d : JobDesc) (stamp limit : Nat) (req : Option Req) (read : Nat → PointRec) : JobRun :=
  let ctrl := m.branches.map (ctrlOf read)
  let open' := ctrl.map fun x => decide (0 < x)
  let island := islands m open'
  let edges := openEdges m open'
  let bc := m.nodes.map (bcOf s read)
  let tin := m.nodes.map (tinOf read)
  let seeded := s.solver.seeded && req.isNone && d.kind ≠ 4
  let warm := if seeded && d.kind = 1 then s.solver.solution else if d.warm then warmOf s d.kind else none
  let same := match warm with
    | some w => w.modelCrc = m.crc && decide (w.open' = open') && !s.solver.switched
    | none => true
  let old := warm.getD noSolution
  let flow := if d.kind = 2 then (s.solver.solution.getD noSolution).q else old.q
  let mean := meanOf (((m.nodes.zip bc).filter fun e => e.1.kind = 1).map (·.2)) 0
  let q0 := m.branches.map fun b => fgetD flow b.id 0
  { model := m, desc := d, stamp := stamp, req := req, open' := open', ctrl := ctrl, bc := bc, tin := tin
    amb := if m.ambPoint = noPoint then 10 * 65536 else at16 (read m.ambPoint)
    p0 := if warm.isSome then startPressures m edges bc island (fget old.p)
          else (m.nodes.zip bc).map fun e => if e.1.kind = 1 then e.2 else mean
    q0 := q0
    t0 := startTemps m edges (old.tn.isEmpty && s.solver.estTemps.isEmpty) tin q0 (fun id => match fget s.solver.estTemps id with
      | some t => some t
      | none => if s.solver.estTemps.isEmpty then fget old.tn id else none) (fget old.ts)
    partial' := !same, island := island, estUsed := m.nodes.any fun n => (estimated s read n).isSome
    lin0 := if d.kind = 0 then old.p else [], issued := s.refNs, limitNs := (wrapDiff 64 (devNs s) limit).toNat, dtUs := (cls s 1).periodUs
    lateAt := [], tileRows := jobTiles m d }

/-! ### Writing results (R207 to R209) -/

/-- Change the state of a point's live record (R207, R208). -/
def markState (st : Nat) (id : Nat) (s : State) : State :=
  if id = noPoint || !defined s id then s else setQuality id (qWithState (liveRec s id).quality st) s

/-- Change the state of several points. -/
def markStates (st : Nat) : List Nat → State → State
  | [], s => s
  | id :: r, s => markStates st r (markState st id s)

/-- Write one result value at the model's units. -/
def writeResult (stime : W32) (q : Byte) (e : Nat × Int) (s : State) : State :=
  if e.1 = noPoint then s else writeScaled e.1 e.2 (-16) stime q s

/-- Write result values. -/
def writeResults (stime : W32) (q : Byte) : List (Nat × Int) → State → State
  | [], s => s
  | e :: r, s => writeResults stime q r (writeResult stime q e s)

/-- A branch touches a removed node. -/
def inIsland (r : JobRun) (b : Branch) : Bool := r.island.contains b.from' && r.island.contains b.to'

/-- Points of the Newton stage with their values, islands left out. -/
def hydOutputs (m : Model) (r : JobRun) (p q : List Int) : List (Nat × Int) :=
  (((indexed 0 m.nodes).filter fun e => !r.island.contains e.1).map fun e => (e.2.pPoint, lget p e.1 0)) ++
    ((m.branches.zip q).filter fun e => !inIsland r e.1).map fun e => (e.1.qPoint, e.2)

/-- Points of the thermal stage with their values, islands left out. -/
def thermOutputs (m : Model) (r : JobRun) (t : List Int) : List (Nat × Int) :=
  ((indexed 0 m.nodes).filter fun e => !r.island.contains e.1).map fun e => (e.2.tPoint, lget t e.1 0)

/-- Points of the nodes and branches in islands. -/
def islandPoints (m : Model) (r : JobRun) : List Nat :=
  (((indexed 0 m.nodes).filter fun e => r.island.contains e.1).flatMap fun e => [e.2.pPoint, e.2.tPoint]) ++
    (m.branches.filter (inIsland r)).map (·.qPoint)

/-- A list of results by identifier. -/
def byId (l : List (Nat × Int)) : FMap Int := l.foldr (fun e m => fset m e.1 e.2) []

/-- Segment temperatures of a thermal iterate by 16 × BRANCH_ID + segment. -/
def segTemps : List Branch → List Int → List (Nat × Int)
  | [], _ => []
  | b :: r, t => ((upto b.segs).zip t).map (fun e => (16 * b.id + e.1, e.2)) ++ segTemps r (t.drop b.segs)

/-- The solution that an accepted stage leaves (R212). Removed nodes hold no value. -/
def newSolution (old : Option Solution) (m : Model) (r : JobRun) (p q : List Int) (temps : Option (List Int)) : Solution :=
  let ids := ((indexed 0 m.nodes).filter fun e => !r.island.contains e.1)
  { p := byId (ids.map fun e => (e.2.id, lget p e.1 0))
    q := byId ((m.branches.zip q).map fun e => (e.1.id, e.2))
    tn := match temps with
      | some t => byId (ids.map fun e => (e.2.id, lget t e.1 0))
      | none => (old.map (·.tn)).getD []
    ts := match temps with
      | some t => byId (segTemps m.branches (t.drop m.nodes.length))
      | none => (old.map (·.ts)).getD []
    open' := r.open', modelCrc := m.crc, stamp := r.stamp }

/-- What the stages of a returned job come to. -/
structure JobEnd where
  /-- counts and flags over its steps -/
  acc      : JobAcc
  /-- pressures by node, raw 2^-16 kPa -/
  p        : List Int
  /-- flows by branch, raw 2^-16 kg/s -/
  q        : List Int
  /-- temperatures by thermal row, raw 2^-16 °C -/
  temps    : List Int
  /-- δ of a linear job by unknown node -/
  lin      : List Int
  /-- the Newton stage, or the linear job, is accepted (R207) -/
  hydOk    : Bool
  /-- the job has a thermal stage -/
  therm    : Bool
  /-- the thermal stage is accepted -/
  thermOk  : Bool
  /-- kept hydraulic factor after the job -/
  facHyd   : Option Factor
  /-- kept thermal factor after the job -/
  facTherm : Option Factor
  /-- the record of R216 -/
  rec'     : JobRecord
deriving DecidableEq, Repr

/-- Flags of a result record (R216) from their bits. -/
def recordFlags (l : List (Nat × Bool)) : W16 := BitVec.ofNat 16 (nsum (l.map fun e => if e.2 then 2 ^ e.1 else 0))

/-- The first stage of a network job: Newton (KIND 1), the linear system (KIND 0), or none (KIND 2). -/
def firstStage (a : ArrayEnv) (r : JobRun) (t : JobTiming) (x : JobAcc) : JobAcc × Hyd × List Int :=
  let h := newtonStart r.model r x.fmt
  match r.desc.kind with
  | 0 =>
    let (y, l) := linearRun r.model r a t.steps x h
    (y, h, l)
  | 1 =>
    let (y, g) := newtonRun r.model r a (r.limitNs - (if r.desc.thermal then r.desc.reserveUs * 1000 else 0)) r.desc.newtonMax
      t.steps x h
    (y, g, [])
  | _ => (x, h, [])

/-- The run of a network job: its first stage, its thermal stage, and the acceptance rule (R180, R192, R204 to R207, R216).
A job that a second range count has stopped runs no thermal stage. -/
def runJob (a : ArrayEnv) (facHyd facTherm : Option Factor) (elapsedUs : Nat) (r : JobRun) (t : JobTiming) : JobEnd :=
  let m := r.model
  let hyd := decide (r.desc.kind = 1)
  let therm := r.desc.kind = 2 || (hyd && r.desc.thermal)
  let (x, h, lin) := firstStage a r t { fmt := { job := jobHyd, ranges := m.ranges }, factor := facHyd, now := t.wait }
  let q := if hyd then h.q else r.q0
  let ran := therm && !x.rangeStop
  let (y, temps) := if ran then thermRun m r a t.therm q { x with fmt := { x.fmt with job := jobTherm }, factor := facTherm }
    else (x, none)
  let rows := hydRows 0 m.nodes
  let d2 := demandNorm2 m r
  let met := if hyd then newtonMet m r h else r.desc.kind = 2 || decide (x.last = .converged)
  let hydOk := if hyd then normWithin h.f2 d2 r.desc.accept else decide (x.resid ≤ r.desc.accept)
  let thermOk := ran && temps.isSome && decide (y.resid ≤ r.desc.accept)
  let ok := (r.desc.kind = 2 || hydOk) && (!therm || thermOk)
  let capped := (if hyd then !met && decide (r.desc.newtonMax ≤ x.steps) else decide (r.desc.kind = 0) && decide (x.last = .cap))
    || (ran && decide (y.last = .cap))
  { acc := y, p := (upto m.nodes.length).map fun i => (nodePressure x.fmt rows r.bc h.x i).at (-16), q := q
    temps := temps.getD r.t0, lin := lin, hydOk := hydOk, therm := therm, thermOk := thermOk
    facHyd := x.factor, facTherm := if ran then y.factor else facTherm
    rec' := {
      status := stOk
      flags := recordFlags [(0, met && (!therm || (ran && decide (y.last = .converged)))),
        (1, (x.late || (ran && y.late))), (2, capped), (3, y.rangeStop), (4, y.breakdown), (5, r.partial'), (6, y.kept),
        (7, y.jacobi), (8, ok), (9, !ok), (10, !r.island.isEmpty), (11, ran), (12, y.retried)]
      steps := x.steps, capUsed := y.capUsed, iters := y.iters, resid := if r.desc.kind = 2 then y.resid else x.resid
      nresid := if hyd then normRatio h.f2 d2 else 0, tresid := if ran then y.resid else 0
      elapsedUs := elapsedUs, coarsened := y.coarsened, stamp := r.stamp, islands := r.island.length } }

/-- The slowest clock of the solver bricks in service, MHz (R99). -/
def slowestClock (s : State) : Nat :=
  let clk (p : Fin 5) : Nat := lget [1200, 960, 720, 480, 240] p.val 1200
  (((upto 8).map (· + 0x10)).filter (inService s)).foldr (fun b c => Nat.min (clk (brick s b).pt) c) 1200

/-- The array as a job finds it: lanes, the growth of the times of R211, and the scales since its issue (R112). -/
def arrayEnv (s : State) (issued : Nat) (stops : Option (List StopRec)) : ArrayEnv :=
  { lanes := lanesUp s, slow := (32 * 1200, (lanesUp s).length * slowestClock s)
    scales := s.solver.scales.map fun e => (e.1 - issued, e.2), stops := stops }

/-- Issue to now, µs (R216). -/
def sinceIssue (s : State) (issued : Nat) : Nat := (s.refNs - issued) / 1000

/-- A network job with the array's state (R209). -/
def endJob (s : State) (stops : Option (List StopRec)) (r : JobRun) (t : JobTiming) : JobEnd :=
  runJob (arrayEnv s r.issued stops) s.solver.keptHyd s.solver.keptTherm (sinceIssue s r.issued) r t

/-- SOLVER_RANGE for every gathered count that was not zero (R192). -/
def raiseRanges : List (List Int) → State → State
  | [], s => s
  | k :: r, s => raiseRanges r (raise 0x50 k (rcAdd 0xB14 1 s))

/-- Record of an aborted job (R216, R217). -/
def abortedRecord (s : State) (r : JobRun) : JobRecord :=
  { status := stAborted, flags := recordFlags [(5, r.partial'), (10, !r.island.isEmpty)], stamp := r.stamp
    islands := r.island.length, elapsedUs := sinceIssue s r.issued }

/-- Lanes are free again: the solver bricks have held no tile from now on (R102). -/
def restLanes (s : State) : State :=
  let rec go : List Nat → State → State
    | [], s => s
    | b :: r, s => go r (setBrick b (fun x => { x with quietFrom := s.refNs }) s)
  go ((upto 8).map (· + 0x10)) s

/-- SOLVER_BAD once for each episode of a stage (R208). -/
def settleBad (keepMax : Nat) (s : State) : State :=
  let n := decide (keepMax ≤ s.solver.rejN)
  let t := decide (keepMax ≤ s.solver.rejT)
  let new := (n && !s.solver.badN) || (t && !s.solver.badT)
  let s' := { s with solver := { s.solver with badN := n, badT := t } }
  if new then raise 0x53 [s.solver.rejN, s.solver.rejT] s' else s'

/-- State of the points of a stage that has not been accepted for `n` Main jobs in a row (R207, R208). -/
def keptState (keepMax n : Nat) : Nat := if keepMax ≤ n then qBad else qEst

/-- A stage of the Main job is not accepted: SOLVER_REJECTED and its points (R207, R208). -/
def rejectStage (keepMax n stage : Nat) (pts : List Nat) (s : State) : State :=
  raise 0x52 [stage, n] (rcAdd 0xB18 1 (markStates (keptState keepMax n) pts s))

/-- Points of the Newton stage, islands left out. -/
def hydPoints (r : JobRun) : List Nat :=
  (hydOutputs r.model r [] (r.model.branches.map fun _ => 0)).map (·.1)

/-- The Newton stage's points and rejection count (R207, R208); a linear job has the count and no points, a thermal job
neither. -/
def applyHyd (r : JobRun) (e : JobEnd) (s : State) : State :=
  let est := e.acc.retried || r.estUsed
  if r.desc.kind = 2 then s
  else if e.hydOk then
    let s := { s with solver := { s.solver with rejN := 0 } }
    if r.desc.kind = 1 then
      writeResults (shortOf r.stamp) (byte (if est then qEst else qGood)) (hydOutputs r.model r e.p e.q) s
    else s
  else
    let n := s.solver.rejN + 1
    rejectStage r.desc.keepMax n 0 (if r.desc.kind = 1 then hydPoints r else []) { s with solver := { s.solver with rejN := n } }

/-- The thermal stage's points and rejection count. -/
def applyTherm (r : JobRun) (e : JobEnd) (s : State) : State :=
  let est := e.acc.retried || r.estUsed
  if !e.therm then s
  else if e.thermOk then
    writeResults (shortOf r.stamp) (byte (if est then qEst else qGood)) (thermOutputs r.model r e.temps)
      { s with solver := { s.solver with rejT := 0 } }
  else
    let n := s.solver.rejT + 1
    rejectStage r.desc.keepMax n 1 ((thermOutputs r.model r []).map (·.1)) { s with solver := { s.solver with rejT := n } }

/-- The solutions after the Main job, each for its kind: pressures and flows of an accepted Newton stage, temperatures of
an accepted thermal stage, δ of an accepted linear job (R212). Pressures and flows of an estimate that returned meanwhile
stay, for they seed the next Main job (R250). -/
def solutionAfter (r : JobRun) (e : JobEnd) (s : State) : State :=
  let m := r.model
  let t := if e.thermOk then some e.temps else none
  match r.desc.kind with
  | 0 =>
    if e.hydOk then
      let sol := byId ((((rowNodes m).filterMap fun i => m.nodes[i]?).zip e.lin).map fun (n, v) => (n.id, v))
      { s with solver := { s.solver with linSol := some { noSolution with
          p := sol, open' := r.open', modelCrc := m.crc, stamp := r.stamp } } }
    else s
  | 1 =>
    let old := s.solver.solution
    if e.hydOk && !s.solver.seeded then { s with solver := { s.solver with solution := some (newSolution old m r e.p e.q t) } }
    else if e.thermOk then
      let new := newSolution old m r e.p e.q t
      { s with solver := { s.solver with solution := old.map fun o => { o with tn := new.tn, ts := new.ts } } }
    else s
  | _ => if e.thermOk then { s with solver := { s.solver with
      thermSol := some (newSolution s.solver.thermSol m r e.p e.q t) } } else s

/-- Factors, record and counters after the Main job (R202, R216, R218). A model switch during the job leaves its marks for
the next job (R213, R220). -/
def settleMain (r : JobRun) (e : JobEnd) (s : State) : State :=
  let same := decide (s.solver.model = some r.model)
  { s with solver := { s.solver with
      mainJob := none, lastMain := e.rec', lastNresid := BitVec.ofNat 32 e.rec'.nresid
      keptHyd := if same then e.facHyd else none, keptTherm := if same then e.facTherm else none
      switched := s.solver.switched && !same, iters := (s.solver.iters + e.rec'.iters) % 2 ^ 64 } }

/-- Events of a returned job (R192, R203, R207). -/
def jobEvents (r : JobRun) (e : JobEnd) (s : State) : State :=
  let s := raiseRanges e.acc.ranges s
  let s := if e.acc.breakdown then raise 0x54 [r.desc.kind] s else s
  let late := e.rec'.flags.getLsbD 1
  let s := if late then rcAdd 0xB10 1 s else s
  if late && e.rec'.flags.getLsbD 8 then raise 0x51 [r.desc.kind, e.rec'.nresid] s else s

/-- Points of removed nodes go to BAD (R177). -/
def markIslands (r : JobRun) (s : State) : State :=
  if r.desc.kind = 0 then s else markStates qBad (islandPoints r.model r) s

/-- Nodes removed as islands raise SOLVER_ISLAND (R177). -/
def raiseIslands (r : JobRun) (s : State) : State := if r.island.isEmpty then s else raise 0x55 [r.island.length] s

/-- The Main job returns: points, rejection rules, records (R207 to R209). -/
def returnMain (r : JobRun) (e : JobEnd) (s : State) : State :=
  let s := markIslands r (jobEvents r e s)
  let s := applyTherm r e (applyHyd r e s)
  restLanes (settleMain r e (solutionAfter r e (settleBad r.desc.keepMax s)))

/-- A host job returns: its events, its record, and no points (R207, R216, R222). -/
def returnHost (r : JobRun) (t : JobTiming) (s : State) : State :=
  let e := endJob s none r t
  let s := jobEvents r e s
  let s := if r.desc.kind ≠ 2 && !e.hydOk then raise 0x52 [(0 : Int), (0 : Int)] (rcAdd 0xB18 1 s) else s
  let s := if e.therm && !e.thermOk then raise 0x52 [(1 : Int), (0 : Int)] (rcAdd 0xB18 1 s) else s
  let s := { s with solver := { s.solver with hostJob := none, iters := (s.solver.iters + e.rec'.iters) % 2 ^ 64 } }
  restLanes (finishOpt 0x0510 r.req stOk 0 (jobBytes e.rec') s)

/-- The Main job is aborted: its points keep their values with state ESTIMATED, or BAD after KEEP_MAX (R217). -/
def abortMain (s : State) : State :=
  match s.solver.mainJob with
  | some r =>
    let therm := r.desc.kind = 2 || (r.desc.kind = 1 && r.desc.thermal)
    let nN := if r.desc.kind = 2 then s.solver.rejN else s.solver.rejN + 1
    let nT := if therm then s.solver.rejT + 1 else s.solver.rejT
    let s := { s with solver := { s.solver with
      mainJob := none, lastMain := abortedRecord s r, lastNresid := 0, rejN := nN, rejT := nT } }
    let s := if r.desc.kind = 1 then markStates (keptState r.desc.keepMax nN) (hydPoints r) s else s
    let s := if therm then markStates (keptState r.desc.keepMax nT) ((thermOutputs r.model r []).map (·.1)) s else s
    restLanes (settleBad r.desc.keepMax s)
  | none => s

/-- The host job is aborted: ST_ABORTED with its record (R217, R224). -/
def abortHost (s : State) : State :=
  match s.solver.hostJob with
  | some r => restLanes (finishOpt 0x0510 r.req stAborted 0 (jobBytes (abortedRecord s r))
      { s with solver := { s.solver with hostJob := none } })
  | none => s

end Sys2Proof.Machine
end

