-- ==== Sys2Proof/Machine/OptEst.lean ====
section
/-! DEFINITION. OptEst.lean: the optimiser's problem and plan and the state estimator's run (R225 to R250).
How long the lanes took is an operand of the rows that return a job (log entry 19). -/

namespace Sys2Proof.Machine

/-! ### Problem images (R226 to R231) -/

/-- Sections of a problem. -/
def probDir (b : Bytes) : List Sect := directory b (getLE b 46 2)

/-- A section of a problem. -/
def probSect (b : Bytes) (t : Nat) : Bytes := sectBytes b (probDir b) t

/-- A VARBOUND or CONBOUND entry (R228). -/
def parseBound (e : Bytes) : BoundEntry :=
  { lo := getSLE e 0 8, hi := getSLE e 8 8, loPoint := getLE e 16 4, hiPoint := getLE e 20 4, cPoint := getLE e 24 4
    c := getSLE e 28 4 }

/-- Length of a tile at an offset (R194), rounded up to a multiple of 8 as the sections store them (R227). -/
def tileLen (x : Bytes) (o : Nat) : Nat :=
  let n := getLE x (o + 4) 2
  (144 + (n + 7) / 8 * 8 + 4 * n + 7) / 8 * 8

/-- Offsets of the tiles of a section. -/
def tileOffsets (x : Bytes) : Nat → Nat → List Nat
  | 0, _ => []
  | k + 1, o => if o + 144 ≤ x.length then o :: tileOffsets x k (o + tileLen x o) else []

/-- Local row of nonzero `k` of a tile. -/
def tileRow (x : Bytes) (o k : Nat) : Nat := ((upto 64).filter fun r => decide (getLE x (o + 8 + 2 * (r + 1)) 2 ≤ k)).length

/-- Nonzeros of a tile. -/
def tileEntries (x : Bytes) (o : Nat) : List NonZero :=
  let n := getLE x (o + 4) 2
  let cols := o + 144
  let vals := cols + (n + 7) / 8 * 8
  (upto n).map fun k =>
    { row := 64 * getLE x o 2 + tileRow x o k, col := 64 * getLE x (o + 2) 2 + getLE x (cols + k) 1
      val := getSLE x (vals + 4 * k) 4, scale := getSLE x (o + 6) 1 }

/-- Every tile offset of a section. -/
def tilesOf (x : Bytes) : List Nat := tileOffsets x (x.length / 144) 0

/-- Nonzeros of a tile section. -/
def nonZeros (x : Bytes) : List NonZero := (tilesOf x).flatMap (tileEntries x)

/-- A TRAJ entry (R230). -/
def parseTraj (e : Bytes) : Traj := { first := getLE e 0 4, stride := getLE e 4 4, outPoint := getLE e 8 4 }

/-- The whole problem. -/
def parseProblem (b : Bytes) : Problem :=
  { crc := BitVec.ofNat 32 (getLE b 12 4), problemId := BitVec.ofNat 64 (getLE b 16 8), modelId := BitVec.ofNat 64 (getLE b 24 8)
    horizon := getLE b 6 2, stepS := getLE b 40 4, delta0 := getLE b 56 4
    vars := (entriesOf (probSect b 1) 32).map parseBound, cons := (entriesOf (probSect b 2) 32).map parseBound
    h := nonZeros (probSect b 3), a := nonZeros (probSect b 4), trajs := (entriesOf (probSect b 5) 16).map parseTraj
    ranges := (entriesOf (probSect b 6) 16).map parseRange }

/-- Check 1 of R231. -/
def probCheck1 (b : Bytes) : Bool :=
  let d := probDir b
  decide (160 ≤ b.length) && getLE b 0 4 = 0x504F4756 && getLE b 4 2 = 1 && getLE b 8 4 = b.length && b.length % 64 = 0 &&
    (getLE b 46 2 = 6 || getLE b 46 2 = 7) && getLE b 48 4 = 64 && dirOk b d 14 (getLE b 52 4) &&
    [1, 2, 3, 4, 6, 14].all (hasSect d) && (getLE b 46 2 = 6 || hasSect d 5)

/-- Check 2 of R231. -/
def probCheck2 (b : Bytes) : Bool :=
  getLE b 12 4 = crc32c (slice b 16 (getLE b 52 4 - 16)) && sectCrcsOk b (probDir b) 14

/-- The *none* value of a lower bound (R228). -/
def noLo : Int := int64Min
/-- The *none* value of an upper bound (R228). -/
def noHi : Int := int64Max

/-- A tile of a section is in order (R194). -/
def tileOk (x : Bytes) (rows cols : Nat) (o : Nat) : Bool :=
  let n := getLE x (o + 4) 2
  let z := tileEntries x o
  decide (1 ≤ n) && decide (n ≤ 4096) && decide (o + 144 + n + 4 * n ≤ x.length) && getLE x (o + 8) 2 = 0 &&
    getLE x (o + 8 + 128) 2 = n && allZero (slice x (o + 138) 6) && decide (getLE x (o + 7) 1 ≤ 1) &&
    ((upto 64).all fun r => decide (getLE x (o + 8 + 2 * r) 2 ≤ getLE x (o + 10 + 2 * r) 2)) &&
    (bit (getLE x (o + 7) 1) 0 = decide (getLE x o 2 = getLE x (o + 2) 2)) &&
    ((upto n).all fun k => decide (getLE x (o + 144 + k) 1 ≤ 63)) &&
    (z.all fun e => decide (e.row < rows) && decide (e.col < cols) && decide (-63 ≤ e.scale) && decide (e.scale ≤ 63)) &&
    increasing (z.map fun e => ((e.row * 2 ^ 32 + e.col : Nat) : Int))

/-- A tile section is in order and sorted by TROW, then TCOL (R227). -/
def tilesOk (x : Bytes) (rows cols : Nat) : Bool :=
  ((tilesOf x).all (tileOk x rows cols)) && nsum ((tilesOf x).map (tileLen x)) = x.length &&
    increasing ((tilesOf x).map fun o => ((getLE x o 2 * 65536 + getLE x (o + 2) 2 : Nat) : Int))

/-- Check 4 of R231. -/
def probCheck4 (s : State) (b : Bytes) (p : Problem) : Bool :=
  let n := getLE b 32 4
  let k := getLE b 36 4
  decide (1 ≤ p.horizon) && decide (p.horizon ≤ 96) && decide (1 ≤ n) && decide (n ≤ 262144) && decide (k ≤ 524288) &&
    decide (10 ≤ p.stepS) && decide (p.stepS ≤ 3600) && decide (1 ≤ p.delta0) && decide (getLE b 44 2 ≤ 4096) &&
    (probSect b 1).length = 32 * n && (probSect b 2).length = 32 * k && (probSect b 5).length = 16 * getLE b 44 2 &&
    (probSect b 6).length % 16 = 0 && getLE b 60 4 = 0 && ((probDir b).all fun x => x.spare = 0) &&
    sigSpareOk b (getLE b 52 4) && tilesOk (probSect b 3) n n && tilesOk (probSect b 4) k n &&
    (p.vars.all fun e => pointField s e.loPoint && pointField s e.hiPoint && pointField s e.cPoint) &&
    (p.cons.all fun e => pointField s e.loPoint && pointField s e.hiPoint && e.cPoint = noPoint && e.c = 0) &&
    ((entriesOf (probSect b 5) 16).all fun e => allZero (slice e 12 4)) &&
    (p.trajs.all fun t => decide (1 ≤ t.stride) && (t.outPoint = noPoint ||
      (match defOf s t.outPoint with
       | some d => tfSource d.typeflags = 3 && (tfType d.typeflags = 1 || tfType d.typeflags = 2)
       | none => false))) &&
    ((tilesOf (probSect b 3)).all fun o => p.ranges.any fun r => r.kind = 0 && r.index = getLE (probSect b 3) o 2 +
      65536 * getLE (probSect b 3) (o + 2) 2 && r.scale = getSLE (probSect b 3) (o + 6) 1) &&
    rangesOk p.ranges [3] 12 && (entriesOf (probSect b 6) 16).all fun e => allZero (slice e 12 4)

/-- Check 5 of R231: H is symmetric, and every diagonal entry is present. -/
def probCheck5 (p : Problem) : Bool :=
  (p.h.all fun e => p.h.any fun f => f.row = e.col && f.col = e.row && f.val * (2 : Int) ^ (f.scale + 63).toNat =
    e.val * (2 : Int) ^ (e.scale + 63).toNat) &&
  (upto p.vars.length).all fun i => p.h.any fun e => e.row = i && e.col = i

/-- Checks 6 to 8 of R231. -/
def probCheck6 (p : Problem) : Bool := p.cons.all fun e => e.lo ≠ noLo || e.hi ≠ noHi || e.loPoint ≠ noPoint || e.hiPoint ≠ noPoint

/-- Check 7 of R231. -/
def probCheck7 (p : Problem) : Bool := p.trajs.all fun t => decide (t.first + (p.horizon - 1) * t.stride < p.vars.length)

/-- Check 8 of R231. -/
def probCheck8 (p : Problem) : Bool := decide (p.h.length + 2 * p.a.length + p.cons.length ≤ 3145728)

/-- Check 9 of R231: the KKT system numbers the variables first, then the rows of A. -/
def probCheck9 (p : Problem) : Bool :=
  let n := p.vars.length
  let rows := n + p.cons.length
  let tr := upto ((rows + 63) / 64)
  let pairs := p.h.map (fun e => (e.row, e.col)) ++ p.a.flatMap fun e => [(n + e.row, e.col), (e.col, n + e.row)]
  (tr.all fun k => hasRange p.ranges 3 0 0 (k + 65536 * k) && hasRange p.ranges 3 2 0 k &&
    (upto 12).all fun role => hasRange p.ranges 3 1 role k) &&
  ((upto ((p.cons.length + 63) / 64)).all fun k => hasRange p.ranges 3 1 12 k) &&
  (pairs.all fun x => hasRange p.ranges 3 0 0 (x.1 / 64 + 65536 * (x.2 / 64))) &&
  (upto 13).all fun role => hasRange p.ranges 3 3 role 0

/-- A failed load check of a problem: its number and status (R231). -/
def probFault (s : State) (b : Bytes) : Option (Nat × Nat) :=
  let p := parseProblem b
  firstRefusal
    [refuseIf (!probCheck1 b) 1 stBadCrc, refuseIf (!probCheck2 b) 2 stBadCrc,
     refuseIf (!sectionVerify s destUv b (getLE b 52 4)) 3 stDenied, refuseIf (!probCheck4 s b p) 4 stBadCrc,
     refuseIf (!probCheck5 p) 5 stBadCrc, refuseIf (!probCheck6 p) 6 stBadCrc, refuseIf (!probCheck7 p) 7 stBadCrc,
     refuseIf (!probCheck8 p) 8 stBadCrc, refuseIf (!probCheck9 p) 9 stBadCrc]

/-! ### The optimise job (R229, R232, R235, R238) -/

/-- Scale of a vector segment of JOB 3. -/
def segScale (p : Problem) (role n : Nat) : Int :=
  ((p.ranges.find? fun r => r.kind = 1 && r.role = role && r.index = n / 64).map (·.scale)).getD 0

/-- A field that may name a point (R229): its value and whether a constant stood in. -/
def fieldOf (read : Nat → PointRec) (point : Nat) (const scale : Int) : Int × Bool :=
  if point = noPoint then (const, false)
  else
    let r := read point
    if qUsable r.quality then (align r.value r.scale scale, false) else (const, true)

/-- The bounds of an entry (R229). -/
def boundsOf (read : Nat → PointRec) (e : BoundEntry) (scale : Int) : (Int × Int) × Bool :=
  let (lo, a) := fieldOf read e.loPoint e.lo scale
  let (hi, b) := fieldOf read e.hiPoint e.hi scale
  if hi < lo then ((e.lo, e.hi), true) else ((lo, hi), a || b)

/-- A value limited to [ℓ + g, h - g] (R232 step 2). -/
def limitIn (delta0 : Nat) (lo hi x : Int) : Int :=
  let fl := decide (lo ≠ noLo)
  let fh := decide (hi ≠ noHi)
  let g : Int := if fl && fh then (if Int.fdiv (hi - lo) 64 < delta0 then delta0 else Int.fdiv (hi - lo) 64) else delta0
  let x := if fl && decide (x < lo + g) then lo + g else x
  if fh && decide (hi - g < x) then hi - g else x

/-- Start value of a variable (R232 steps 1 and 2). -/
def startX (delta0 : Nat) (lo hi : Int) (last : Option Int) : Int :=
  let fl := decide (lo ≠ noLo)
  let fh := decide (hi ≠ noHi)
  limitIn delta0 lo hi (match last with
    | some x => x
    | none => if fl && fh then Int.fdiv (lo + hi) 2 else if fl then lo + delta0 else if fh then hi - delta0 else 0)

/-- What an optimise job reads at its start. -/
def startOpt (s : State) (p : Problem) (d : JobDesc) (stamp : Nat) (read : Nat → PointRec) : OptRun :=
  let vb := (indexed 0 p.vars).map fun (i, e) => boundsOf read e (segScale p 1 i)
  let cb := (indexed 0 p.cons).map fun (i, e) => boundsOf read e (segScale p 12 i)
  let c := (indexed 0 p.vars).map fun (i, e) => fieldOf read e.cPoint e.c (segScale p 0 i)
  { prob := p, stamp := stamp, desc := d
    estimated := (vb.any (·.2)) || (cb.any (·.2)) || (c.any (·.2))
    x0 := (indexed 0 vb).map fun (i, b) => startX p.delta0 b.1.1 b.1.2 (s.opt.lastX.map fun l => lget l i 0)
    lo := vb.map (·.1.1), hi := vb.map (·.1.2), cost := c.map (·.1)
    conLo := cb.map (·.1.1), conHi := cb.map (·.1.2), issued := s.refNs
    limitNs := (wrapDiff 64 (devNs s) (stamp + d.deadlineUs * 1000)).toNat
    tileRows := tileRowCount p.vars.length + tileRowCount p.cons.length }

/-! ### Interior-point steps (R232 to R235) -/

/-- The iterate of an optimise job. Entries v of x and w are numbered x first, then w; slacks and duals of a bound that is
infinite, or of an equality row, are 0 and take no part. -/
structure IpState where
  /-- x, ROLE 1 -/
  x  : List Int
  /-- w, ROLE 12 -/
  w  : List Int
  /-- y, ROLE 10 -/
  y  : List Int
  /-- slacks of lower bounds, ROLE 6 -/
  sl : List Int
  /-- slacks of upper bounds -/
  sh : List Int
  /-- duals of lower bounds, ROLE 11 -/
  zl : List Int
  /-- duals of upper bounds -/
  zh : List Int
deriving DecidableEq, Repr

/-- Number of variables. -/
def OptRun.n (r : OptRun) : Nat := r.prob.vars.length

/-- Number of entries v: variables, then rows of A. -/
def OptRun.total (r : OptRun) : Nat := r.prob.vars.length + r.prob.cons.length

/-- Row j of A is an equality row (R225). -/
def OptRun.equality (r : OptRun) (j : Nat) : Bool := lget r.conLo j 0 = lget r.conHi j 1

/-- The finite lower bound of an entry; none for an infinite one and for an equality row. -/
def OptRun.lower (r : OptRun) (i : Nat) : Option Int :=
  let l := if i < r.n then lget r.lo i noLo else lget r.conLo (i - r.n) noLo
  if l = noLo || (decide (r.n ≤ i) && r.equality (i - r.n)) then none else some l

/-- The finite upper bound of an entry. -/
def OptRun.upper (r : OptRun) (i : Nat) : Option Int :=
  let h := if i < r.n then lget r.hi i noHi else lget r.conHi (i - r.n) noHi
  if h = noHi || (decide (r.n ≤ i) && r.equality (i - r.n)) then none else some h

/-- m: finite bounds, equality rows not counted (R232). -/
def OptRun.bounds (r : OptRun) : Nat :=
  ((upto r.total).filter fun i => (r.lower i).isSome).length + ((upto r.total).filter fun i => (r.upper i).isSome).length

/-- The formats of JOB 3. -/
def optFmt (p : Problem) : NumFmt := { job := 3, ranges := p.ranges }

/-- A as rows NVAR + j of the KKT system over the variables. -/
def kktA (p : Problem) : List NonZero := p.a.map fun e => { e with row := p.vars.length + e.row }

/-- Aᵀ as rows of the variables over the rows of A. -/
def kktAt (p : Problem) : List NonZero := p.a.map fun e => { e with row := e.col, col := e.row }

/-- The object that holds entry v. -/
def vObj (r : OptRun) (f : NumFmt) (i : Nat) : NumObj := if i < r.n then f.seg 1 i else f.seg 12 (i - r.n)

/-- The value of entry v. -/
def vVal (r : OptRun) (f : NumFmt) (s : IpState) (i : Nat) : Dy :=
  (vObj r f i).val (if i < r.n then lget s.x i 0 else lget s.w (i - r.n) 0)

/-- A scalar of a descriptor. -/
def descScalar (x : Int × Int) : Dy := { m := x.1, e := x.2 }

/-- The start point (R232): w := Ax limited, w := ℓ on equality rows, z := MU0 ÷ s and y := 0. -/
def ipStart (r : OptRun) (f : NumFmt) : IpState :=
  let w := (upto r.prob.cons.length).map fun j =>
    if r.equality j then lget r.conLo j 0
    else
      let ax := ((f.seg 12 j).put (rowProduct f (kktA r.prob) r.n 1 r.x0 (r.n + j))).1
      limitIn r.prob.delta0 (lget r.conLo j noLo) (lget r.conHi j noHi) ax
  let s : IpState := { x := r.x0, w := w, y := zeroVec r.prob.cons.length, sl := [], sh := [], zl := [], zh := [] }
  let bound (i : Nat) (l : Int) : Dy := (vObj r f i).val l
  let slack (d : Option Dy) (i : Nat) : Int := (d.map fun x => ((f.seg 6 i).put x).1).getD 0
  let sl := (upto r.total).map fun i => slack ((r.lower i).map fun l => (vVal r f s i).sub (bound i l)) i
  let sh := (upto r.total).map fun i => slack ((r.upper i).map fun h => (bound i h).sub (vVal r f s i)) i
  let dual (has : Bool) (i : Nat) (v : Int) : Int :=
    if has then ((f.seg 11 i).put (unitDiv (descScalar r.desc.mu0) (f.val 6 i v)).1).1 else 0
  { s with
    sl := sl, sh := sh
    zl := (indexed 0 sl).map fun (i, v) => dual (r.lower i).isSome i v
    zh := (indexed 0 sh).map fun (i, v) => dual (r.upper i).isSome i v }

/-- μ = (Σ s × z) ÷ m, 0 for m = 0 (R233). -/
def ipMu (r : OptRun) (f : NumFmt) (s : IpState) : Dy :=
  if r.bounds = 0 then .zero
  else (unitDiv ((dotOf f 6 s.sl 11 s.zl).add (dotOf f 6 s.sh 11 s.zh)) { m := r.bounds, e := 0 }).1

/-- τ ÷ s of a bound; 0 without one. -/
def tauOver (tau : Dy) (f : NumFmt) (has : Bool) (i : Nat) (v : Int) : Dy :=
  if has then (unitDiv tau (f.val 6 i v)).1 else .zero

/-- θ of an entry before and after its limiting to [1 ÷ THETA_MAX, THETA_MAX] (R233). -/
def thetaOf (r : OptRun) (f : NumFmt) (s : IpState) (i : Nat) : Dy × Bool :=
  let part (has : Bool) (z v : Int) : Dy := if has then (unitDiv (f.val 11 i z) (f.val 6 i v)).1 else .zero
  let t := toScalar ((part (r.lower i).isSome (lget s.zl i 0) (lget s.sl i 0)).add
    (part (r.upper i).isSome (lget s.zh i 0) (lget s.sh i 0)))
  let top := toScalar (descScalar r.desc.thetaMax)
  let low := (unitDiv dyOne top).1
  if (t.sub low).m < 0 then (low, true) else if 0 < (t.sub top).m then (top, true) else (t, false)

/-- What a step takes from its iterate: τ, and by entry θ with its limiting and τ ÷ s_ℓ - τ ÷ s_h. -/
structure IpTerms where
  /-- τ -/
  tau   : Dy
  /-- θ and whether it was limited -/
  theta : List (Dy × Bool)
  /-- τ ÷ s_ℓ - τ ÷ s_h -/
  push  : List Dy
deriving DecidableEq, Repr

/-- The terms of a step (R233). -/
def ipTerms (r : OptRun) (f : NumFmt) (s : IpState) : IpTerms :=
  let tau := toScalar (Dy.mul { m := r.desc.sigma, e := -16 } (ipMu r f s))
  { tau := tau, theta := (upto r.total).map (thetaOf r f s)
    push := (upto r.total).map fun i =>
      (tauOver tau f (r.lower i).isSome i (lget s.sl i 0)).sub (tauOver tau f (r.upper i).isSome i (lget s.sh i 0)) }

/-- Hx + c + Aᵀy of a variable's row. -/
def gradRow (r : OptRun) (f : NumFmt) (s : IpState) (i : Nat) : Dy :=
  ((rowProduct f r.prob.h r.n 1 s.x i).add ((optFmt r.prob).val 0 i (lget r.cost i 0))).add
    (rowProduct f (kktAt r.prob) r.prob.cons.length 10 s.y i)

/-- g_w = y + τ ÷ s_ℓ - τ ÷ s_h of row j of A (R233). -/
def gW (r : OptRun) (f : NumFmt) (s : IpState) (t : IpTerms) (j : Nat) : Dy :=
  (f.val 10 j (lget s.y j 0)).add (lget t.push (r.n + j) .zero)

/-- The KKT system of a step, from an iterate held at formats `f0`, at the formats of the try (R233). -/
def formKkt (r : OptRun) (a : ArrayEnv) (f0 : NumFmt) (s : IpState) (g : NumFmt) : LinSys × List Int × List Nat :=
  let p := r.prob
  let n := r.n
  let k := p.cons.length
  let t := ipTerms r f0 s
  let th (i : Nat) : Dy := (lget t.theta i (dyOne, false)).1
  let reg := descScalar r.desc.reg
  let cell (i j : Nat) (v : Dy) : NonZero × List Nat :=
    let o := g.tile i j
    let (w, h) := o.put v
    (({ row := i, col := j, val := w, scale := o.scale } : NonZero), h)
  let raw (e : NonZero) : Dy := { m := e.val, e := e.scale }
  let h := p.h.map fun e => cell e.row e.col (if e.row = e.col then ((raw e).add (th e.row)).add reg else raw e)
  let am := p.a.flatMap fun e => [cell (n + e.row) e.col (raw e), cell e.col (n + e.row) (raw e)]
  let dg := (upto k).map fun j =>
    cell (n + j) (n + j) ((if r.equality j then reg else (unitDiv dyOne (th (n + j))).1.add reg).neg)
  let (b, h1) := gathered ((upto (n + k)).map fun i =>
    if i < n then (g.seg 0 i).put ((lget t.push i .zero).sub (gradRow r f0 s i))
    else
      let d := (vVal r f0 s i).sub (rowProduct f0 (kktA p) n 1 s.x i)
      (g.seg 0 i).put (if r.equality (i - n) then d else d.add (unitDiv (gW r f0 s t (i - n)) (th i)).1))
  let m := h ++ am ++ dg
  ({ fmt := g, mat := m.map (·.1), rows := n + k, cols := n + k, live := [], b := b, role := 9, lanes := a.lanes, turns := [] },
    zeroVec (n + k), m.flatMap (·.2) ++ h1)

/-- One bound of an entry in a step: its slack and dual with their increments; `sign` is 1 for a lower bound (R234). -/
structure BoundStep where
  /-- s -/
  s  : Dy
  /-- z -/
  z  : Dy
  /-- ds -/
  ds : Dy
  /-- dz = τ ÷ s - z - (z ÷ s) × ds -/
  dz : Dy
deriving DecidableEq, Repr

/-- The increments of a bound. -/
def boundStep (tau s z ds : Dy) : BoundStep :=
  { s := s, z := z, ds := ds, dz := toScalar (((unitDiv tau s).1.sub z).sub ((unitDiv z s).1.mul ds)) }

/-- The largest step that keeps a bound's slack and dual from turning negative; none: no limit (R234). -/
def BoundStep.reach (b : BoundStep) : Option Dy :=
  let one (v d : Dy) : Option Dy := if d.m < 0 then some (unitDiv v d.neg).1 else none
  match one b.s b.ds, one b.z b.dz with
  | some x, some y => some (x.min y)
  | some x, none => some x
  | none, y => y

/-- Recover the other increments, form α and move the iterate (R234): the new iterate and the θ values limited. -/
def ipMove (r : OptRun) (f0 : NumFmt) (s : IpState) (g : NumFmt) (d : List Int) : (IpState × Nat) × List Nat :=
  let n := r.n
  let t := ipTerms r f0 s
  let dx (i : Nat) : Dy := g.val 9 i (lget d i 0)
  let dv (i : Nat) : Dy :=
    if i < n then dx i
    else if r.equality (i - n) then .zero
    else (unitDiv ((dx i).add (gW r f0 s t (i - n))) (lget t.theta i (dyOne, false)).1).1
  let low := (upto r.total).map fun i => (r.lower i).map fun _ =>
    boundStep t.tau (f0.val 6 i (lget s.sl i 0)) (f0.val 11 i (lget s.zl i 0)) (dv i)
  let high := (upto r.total).map fun i => (r.upper i).map fun _ =>
    boundStep t.tau (f0.val 6 i (lget s.sh i 0)) (f0.val 11 i (lget s.zh i 0)) (dv i).neg
  let reach := ((low ++ high).filterMap id).filterMap BoundStep.reach
  let alpha := match reach with
    | [] => dyOne
    | x :: l => dyOne.min (toScalar (Dy.mul { m := r.desc.eta, e := -16 } (l.foldr Dy.min x)))
  let vec (obj : Nat → NumObj) (val inc : Nat → Dy) (k : Nat) : List Int × List Nat :=
    gathered ((upto k).map fun i => (obj i).put ((val i).add (alpha.mul (inc i))))
  let part (role : Nat) (l : List (Option BoundStep)) (val inc : BoundStep → Dy) : List Int × List Nat :=
    gathered ((indexed 0 l).map fun (i, b) => match b with
      | some b => (g.seg role i).put ((val b).add (alpha.mul (inc b)))
      | none => (0, []))
  let (x, h1) := vec (vObj r g) (vVal r f0 s) dv n
  let (w, h2) := vec (fun j => g.seg 12 j) (fun j => vVal r f0 s (n + j)) (fun j => dv (n + j)) r.prob.cons.length
  let (y, h3) := vec (fun j => g.seg 10 j) (fun j => f0.val 10 j (lget s.y j 0)) (fun j => dx (n + j)) r.prob.cons.length
  let (sl, h4) := part 6 low BoundStep.s BoundStep.ds
  let (sh, h5) := part 6 high BoundStep.s BoundStep.ds
  let (zl, h6) := part 11 low BoundStep.z BoundStep.dz
  let (zh, h7) := part 11 high BoundStep.z BoundStep.dz
  (({ x := x, w := w, y := y, sl := sl, sh := sh, zl := zl, zh := zh }, (t.theta.filter (·.2)).length),
    h1 ++ h2 ++ h3 ++ h4 ++ h5 ++ h6 ++ h7)

/-- An exact row of a matrix-vector product. -/
def exactRow (m : List NonZero) (i : Nat) (x : Nat → Dy) : Dy :=
  dySum ((m.filter fun e => e.row = i).map fun e => Dy.mul { m := e.val, e := e.scale } (x e.col))

/-- Squared norm of a list of exact values. -/
def norm2Of (l : List Dy) : Dy := dySum (l.map fun x => x.mul x)

/-- Least scale of a vector's segments: one raw unit of its norm (R235). -/
def leastScale (f : NumFmt) (role n : Nat) : Int :=
  ((upto n).map fun i => (f.seg role i).scale).foldr (fun a b => if a < b then a else b) (f.seg role 0).scale

/-- Squared norm limited below by one raw unit. -/
def normFloor (unit : Int) (l : List Dy) : Dy := (norm2Of l).max { m := 1, e := 2 * unit }

/-- P of R235 as squared norms: numerator and denominator. -/
def primalRatio (r : OptRun) (f : NumFmt) (s : IpState) : Dy × Dy :=
  let k := r.prob.cons.length
  let w := (upto k).map fun j => vVal r f s (r.n + j)
  let ax := (upto k).map fun j => exactRow (kktA r.prob) (r.n + j) (vVal r f s)
  (norm2Of ((ax.zip w).map fun e => e.1.sub e.2), normFloor (leastScale f 12 k) w)

/-- D of R235 as squared norms: the rows of x. -/
def dualRatio (r : OptRun) (f : NumFmt) (s : IpState) : Dy × Dy :=
  let f0 := optFmt r.prob
  let c := (upto r.n).map fun i => f0.val 0 i (lget r.cost i 0)
  (norm2Of ((upto r.n).map fun i =>
      ((((exactRow r.prob.h i (vVal r f s)).add (lget c i .zero)).add
        (exactRow (kktAt r.prob) i fun j => f.val 10 j (lget s.y j 0))).sub (f.val 11 i (lget s.zl i 0))).add
          (f.val 11 i (lget s.zh i 0))),
    normFloor (leastScale f0 0 r.n) c)

/-- M = μ ÷ μ_start, Q32 rounded up, 0 for m = 0 (R233, R235). -/
def muRatio (mu mu0 : Dy) : Nat :=
  if mu.m = 0 || mu0.m ≤ 0 then 0
  else
    let e := if mu.e < mu0.e then mu.e else mu0.e
    sat32 (((mu.down e).natAbs * 2 ^ 32 + (mu0.down e).natAbs - 1) / (mu0.down e).natAbs)

/-- The ratios P and D are within a bound (R235). -/
def ratiosWithin (r : OptRun) (f : NumFmt) (s : IpState) (bound : Nat) : Bool :=
  normWithin (primalRatio r f s).1 (primalRatio r f s).2 bound && normWithin (dualRatio r f s).1 (dualRatio r f s).2 bound

/-- An optimise job as it stands: counts, iterate, θ values limited, longest step and whether it stopped at its deadline. -/
structure IpRun where
  /-- counts -/
  acc      : JobAcc
  /-- iterate -/
  s        : IpState
  /-- θ values limited -/
  limited  : Nat := 0
  /-- longest step, ns -/
  longest  : Nat := 0
  /-- the deadline rule stopped it -/
  deadline : Bool := false
deriving DecidableEq, Repr

/-- P, D and M are all at most NTOL (R235). -/
def ipMet (r : OptRun) (mu0 : Dy) (x : IpRun) : Bool :=
  ratiosWithin r x.acc.fmt x.s r.desc.ntol && decide (muRatio (ipMu r x.acc.fmt x.s) mu0 ≤ r.desc.ntol)

/-- Settings of an interior-point step: no time test inside it (R235, R239). -/
def ipEnv (a : ArrayEnv) (r : OptRun) (t : StepTiming) (x : IpRun) : StepEnv :=
  let rec' := recordOf a 3 x.acc.steps
  let scale := (rec'.map (·.scale)).getD (a.scaleAt x.acc.now)
  { job := 3, step := x.acc.steps, method := 1, precond := r.desc.precond, tol := r.desc.tol, cap := stepCap r.desc.cap scale
    scale := scale, deadline := 2 ^ 128, reserve := 0, first := 0, factorNs := 0, lateAt := [], kept := none, open' := []
    rec' := rec', time := t }

/-- Interior-point steps until convergence, the step limit, the deadline rule at step granularity, or a second range count
(R235, R240). The first step is taken to last a formation and the iterations of its cap at their longest (R236). -/
def ipRun (r : OptRun) (a : ArrayEnv) (mu0 : Dy) : Nat → List StepTiming → IpRun → IpRun
  | 0, _, x => x
  | n + 1, t, x =>
    let e := ipEnv a r ((t.head?).getD noTime) x
    let step := if x.longest = 0 then a.ns (70 + 26 * e.cap) else x.longest
    if (decide (0 < x.acc.steps) && ipMet r mu0 x) || x.acc.rangeStop || followedUp a 3 x.acc.steps then x
    else if a.stops.isNone && decide (r.limitNs < x.acc.now + step + a.ns 7) then { x with deadline := true }
    else
      let o := outerStep e (formKkt r a x.acc.fmt x.s) (ipMove r x.acc.fmt x.s) x.acc.fmt x.acc.now x.acc.longest
      let y := x.acc.after 3 e o
      let took := Nat.max x.longest (o.now - x.acc.now)
      match o.res with
      | some (s, k) => ipRun r a mu0 n (t.drop 1) { x with acc := y, s := s, limited := x.limited + k, longest := took }
      | none => { x with acc := { y with fmt := x.acc.fmt }, longest := took }

/-- The whole job. -/
def runOpt (a : ArrayEnv) (r : OptRun) (t : JobTiming) : IpRun × Dy :=
  let f := optFmt r.prob
  let s := ipStart r f
  let mu0 := ipMu r f s
  (ipRun r a mu0 r.desc.newtonMax t.steps { acc := { fmt := f, now := t.wait }, s := s }, mu0)

/-- x of a job's end at the scales of the problem's records. -/
def finalX (r : OptRun) (x : IpRun) : List Int := rescale x.acc.fmt (optFmt r.prob) 1 x.s.x

/-- A trajectory's values of a plan: x at VAR_FIRST + k × VAR_STRIDE, at the scale of its first variable (R230, R241). -/
def trajValues (p : Problem) (t : Traj) (x : List Int) : List Int :=
  (upto p.horizon).map fun k =>
    let i := t.first + k * t.stride
    align (lget x i 0) (segScale p 1 i) (segScale p 1 t.first)

/-- Bytes of a plan for its CRC-32C (R240; log entry 20). -/
def planBytes (t0 stepS horizon : Nat) (values : List (List Int)) : Bytes :=
  putLE 8 t0 ++ putLE 4 stepS ++ putLE 2 horizon ++ values.flatMap fun l => l.flatMap (putSLE 8)

/-- The plan of an accepted job (R241); it carries ESTIMATED after a range retry too (R192, R229). -/
def planOf (p : Problem) (r : OptRun) (retried : Bool) (x : List Int) : Plan :=
  let values := p.trajs.map fun t => trajValues p t x
  { t0 := r.stamp, stepS := p.stepS, horizon := p.horizon, values := values
    scales := p.trajs.map fun t => segScale p 1 t.first, outs := p.trajs.map (·.outPoint), estimated := r.estimated || retried
    crc := BitVec.ofNat 32 (crc32c (planBytes r.stamp p.stepS p.horizon values)) }

/-- The problem belongs to another model (R244). -/
def optMismatch (s : State) (p : Problem) : Bool :=
  p.modelId ≠ 0 && (match s.solver.model with
    | some m => decide (m.modelId ≠ p.modelId)
    | none => true)

/-- OPT_MODEL_MISMATCH once an episode (R244). -/
def noteMismatch (s : State) : State :=
  match s.opt.problem with
  | none => s
  | some p =>
    let bad := optMismatch s p
    let s' := { s with opt := { s.opt with mismatch := bad } }
    if bad && !s.opt.mismatch then raise 0x5C [p.modelId.toNat] s' else s'

/-- SOL_CTRL.ENABLE (R218). -/
def solEnabled (s : State) : Bool := cfgBit s 0xB04 0

/-- The Optimise cycle runs a job (R238, R244). -/
def optRuns (s : State) : Bool :=
  s.opt.desc.isSome && (match s.opt.problem with
    | some p => !optMismatch s p
    | none => false)

/-! ### Plans in force (R242, R243) -/

/-- A plan comes into force at a Main period start (R242). -/
def installPlan (s : State) : State :=
  match s.opt.nextPlan with
  | none => s
  | some p => sendMirror (.plan p.t0) (raise 0x59 [p.t0] { s with opt := { s.opt with
      nextPlan := none, plan := some p, gapRaised := false } })

/-- One trajectory's OUT_POINT before a Main mark (R243). -/
def writeTraj (stamp : Nat) (e : Nat × Nat) (s : State) : State :=
  if e.2 = noPoint then s
  else match planValue s e.1 stamp with
    | some (v, sc, est) =>
      writeScaled e.2 v sc (shortOf stamp) (byte (if est then qEst else qGood)) s
    | none => markState qStale e.2 s

/-- Every trajectory's OUT_POINT. -/
def writeTrajs (stamp : Nat) : List (Nat × Nat) → State → State
  | [], s => s
  | e :: r, s => writeTrajs stamp r (writeTraj stamp e s)

/-- OUT_POINTs of the trajectories: of the plan in force, else of the problem in force (R243). -/
def trajOuts (s : State) : List Nat :=
  match s.opt.plan with
  | some p => p.outs
  | none => ((s.opt.problem.map (·.trajs)).getD []).map (·.outPoint)

/-- The plan in force covers an instant (R241). -/
def planCovers (s : State) (t : Nat) : Bool :=
  s.opt.plan.any fun p => decide (0 ≤ wrapDiff 64 p.t0 t) && decide (wrapDiff 64 p.t0 t < p.horizon * p.stepS * 1000000000)

/-- Trajectory points before a Main mark; LOOP_PLAN_GAP once while no plan covers it (R243). -/
def trajectoryWrite (stamp : Nat) (s : State) : State :=
  let outs := trajOuts s
  if outs.all (· = noPoint) && s.opt.plan.isNone then s
  else
    let gap := !planCovers s stamp
    let s := writeTrajs stamp (indexed 0 outs) s
    let s' := { s with opt := { s.opt with gapRaised := gap } }
    if gap && !s.opt.gapRaised then raise 0x42 [0xFFFF] s' else s'

/-! ### Switches that fall due (R213, R220, R244, R251) -/

/-- The model switch that an instant has reached takes effect, and the kept factors are discarded (R213, R220, R244). -/
def modelDue (t : Nat) (s : State) : State :=
  match s.solver.switch, s.solver.loaded with
  | some (r, t'), some m =>
    if 0 ≤ wrapDiff 64 t' t then
      let s := { s with solver := { s.solver with
        model := some m, loaded := none, switch := none, switched := true, keptHyd := none, keptTherm := none } }
      finishOk 0x0502 r [] (noteMismatch (raise 0x57 [(m.crc.toNat : Int)] s))
    else s
  | _, _ => s

/-- NTRAJ, HORIZON and STEP_S, by which a problem switch keeps or discards plans (R244). -/
def planShape (p : Problem) : Nat × Nat × Nat := (p.trajs.length, p.horizon, p.stepS)

/-- The problem takes effect: plans of another NTRAJ, HORIZON or STEP_S are discarded (R232, R244, R251). -/
def adoptProblem (p : Problem) (s : State) : State :=
  let keep := (s.opt.problem.map planShape) = some (planShape p)
  { s with opt := { s.opt with
      problem := some p, loaded := none, switch := none, lastX := none
      plan := if keep then s.opt.plan else none, nextPlan := if keep then s.opt.nextPlan else none } }

/-- The problem switch that an instant has reached takes effect (R244, R251). -/
def problemDue (t : Nat) (s : State) : State :=
  match s.opt.switch, s.opt.loaded with
  | some (r, t'), some p => if 0 ≤ wrapDiff 64 t' t then finishOk 0x0521 r [] (noteMismatch (adoptProblem p s)) else s
  | _, _ => s

/-! ### The optimise job returns (R235, R241, R244, R253) -/

/-- An accepted plan waits for the next Main period start; a rejected one is counted (R242, R244). -/
def judgePlan (r : OptRun) (v : IpRun) (ok : Bool) (s : State) : State :=
  if ok then
    { s with opt := { s.opt with
      nextPlan := if (s.opt.problem.map planShape) = some (planShape r.prob) then
        some (planOf r.prob r v.acc.retried (finalX r v)) else s.opt.nextPlan
      lastX := if s.opt.problem = some r.prob then some (finalX r v) else s.opt.lastX
      rejected := 0, badRaised := false } }
  else
    let n := sat32 (s.opt.rejected + 1)
    let bad := decide (r.desc.keepMax ≤ n)
    let s' := raise 0x5A [n] { s with opt := { s.opt with rejected := n, badRaised := bad || s.opt.badRaised } }
    if bad && !s.opt.badRaised then raise 0x5B [n] s' else s'

/-- The optimise job's record (R253). -/
def optRecord (s : State) (r : OptRun) (v : IpRun) (mu0 : Dy) : JobRecord :=
  let f := v.acc.fmt
  let conv := ipMet r mu0 v
  let ok := ratiosWithin r f v.s r.desc.accept
  let (pn, pd) := primalRatio r f v.s
  let (dn, dd) := dualRatio r f v.s
  { status := stOk
    flags := recordFlags [(0, conv), (1, v.deadline), (2, !conv && decide (r.desc.newtonMax ≤ v.acc.steps)),
      (3, v.acc.rangeStop), (8, ok), (9, !ok), (12, v.acc.retried)]
    steps := v.acc.steps, capUsed := v.acc.capUsed, iters := v.acc.iters, resid := v.acc.resid
    nresid := Nat.max (normRatio pn pd) (normRatio dn dd), tresid := muRatio (ipMu r f v.s) mu0
    elapsedUs := sinceIssue s r.issued, coarsened := v.limited + v.acc.coarsened, stamp := r.stamp }

/-- Events that a returned job of KIND 3 or 4 may raise: range, breakdown, deadline (R192, R203, R207). -/
def returnEvents (kind : Nat) (ranges : List (List Int)) (rec' : JobRecord) (s : State) : State :=
  let s := raiseRanges ranges s
  let s := if rec'.flags.getLsbD 4 then raise 0x54 [kind] s else s
  if rec'.flags.getLsbD 1 then
    (if rec'.flags.getLsbD 8 then raise 0x51 [kind, rec'.nresid] (rcAdd 0xB10 1 s) else rcAdd 0xB10 1 s)
  else s

/-- The optimise job returns (R235, R244): its record, its events and its plan; P and D at most ACCEPT accept it. -/
def returnOpt (r : OptRun) (v : IpRun) (mu0 : Dy) (s : State) : State :=
  let rec' := optRecord s r v mu0
  let s := { s with
    opt := { s.opt with job := none, last := rec' }
    solver := { s.solver with iters := (s.solver.iters + rec'.iters) % 2 ^ 64 } }
  restLanes (judgePlan r v (ratiosWithin r v.acc.fmt v.s r.desc.accept) (returnEvents 3 v.acc.ranges rec' s))

/-- The optimise job, running or waiting, is aborted (R96, R217). -/
def abortOpt (s : State) : State :=
  match s.opt.job with
  | some r => restLanes { s with opt := { s.opt with
      job := none, wanted := false
      last := { status := stAborted, stamp := r.stamp, elapsedUs := sinceIssue s r.issued } } }
  | none => { s with opt := { s.opt with wanted := false } }

/-! ### The estimator (R245 to R250) -/

/-- A row of a measurement table (R247). -/
def parseMeas (e : Bytes) : MeasRow := { kind := getLE e 0 1, object := getLE e 4 4, point := getLE e 8 4, sigma := getLE e 12 4 }

/-- A measurement table. -/
def parseTable (b : Bytes) : MeasTable :=
  { crc := BitVec.ofNat 32 (getLE b 12 4), modelId := BitVec.ofNat 64 (getLE b 16 8), sigmaZero := getLE b 28 4
    sigmaPseudo := getLE b 32 4, badK := getLE b 36 4
    rows := (entriesOf (slice b 64 (16 * getLE b 24 4)) 16).map parseMeas }

/-- A row names an object of the model that its kind may name (R246). -/
def measOk (s : State) (m : Model) (r : MeasRow) : Bool :=
  defined s r.point && decide (0 < r.sigma) &&
    (match r.kind with
     | 0 => decide (r.object < m.nodes.length) && ((m.nodes[r.object]?).map (fun n => decide (n.kind ≠ 1))).getD false
     | 1 => decide (r.object < m.branches.length)
     | 2 => ((m.nodes[r.object]?).map (fun n => decide (n.kind = 2))).getD false
     | 3 => decide (r.object < m.nodes.length)
     | _ => false)

/-- A failed load check of a table: its number and status (R247). -/
def tableFault (s : State) (b : Bytes) : Option (Nat × Nat) :=
  let n := getLE b 24 4
  let so := getLE b 40 4
  let t := parseTable b
  let fits := match s.solver.model with
    | some m => decide (m.modelId = t.modelId) && t.rows.all (measOk s m)
    | none => false
  firstRefusal
    [refuseIf (!(decide (64 ≤ b.length) && getLE b 0 4 = 0x4D454756 && getLE b 4 2 = 1 && getLE b 8 4 = b.length &&
       decide (64 + 16 * n ≤ so) && so + 128 = b.length)) 1 stBadCrc,
     refuseIf (getLE b 12 4 ≠ crc32c (slice b 16 (so - 16))) 2 stBadCrc,
     refuseIf (!sectionVerify s destUv b so) 3 stDenied,
     refuseIf (!(decide (n ≤ 262144) && fits && getLE b 6 2 = 0 && allZero (slice b 44 20) &&
       ((entriesOf (slice b 64 (16 * n)) 16).all fun e => allZero (slice e 1 3)) && sigSpareOk b so)) 4 stBadCrc]

/-- A model, a table of that model and a descriptor are there for a run. -/
def estReady (s : State) : Bool :=
  s.est.desc.isSome && (match s.solver.model, s.est.table with
    | some m, some t => decide (m.modelId = t.modelId)
    | _, _ => false)

/-- A trigger joins the pending run, the demand trigger's request with it; a test waits by itself (R249). -/
def estTrigger (t : EstTrigger) (req : Option Req) (s : State) : State :=
  if !estReady s then s
  else if t = .test then { s with est := { s.est with testReq := req } }
  else
    let p := match s.est.pending with
      | none => (t, req)
      | some (t', r') => (if t = .demand then (t, req) else (t', r'))
    { s with est := { s.est with pending := some p } }

/-- Table rows in use with their values (R246). -/
def rowsInUse (t : MeasTable) (read : Nat → PointRec) : List (MeasRow × Int) :=
  (t.rows.filter fun r => qState (read r.point).quality = qGood).map fun r => (r, at16 (read r.point))

/-- A run starts (R245, R246). -/
def startEst (t : EstTrigger) (req : Option Req) (s : State) : State :=
  match s.solver.model, s.est.table, s.est.desc with
  | some m, some tab, some d =>
    wakeHomes (jobTiles m d) { s with est := { s.est with run := some {
        trig := t, req := req, job := startJob s m d (devNs s) (devNs s + d.deadlineUs * 1000) req (readRec s)
        used := rowsInUse tab (readRec s), table := tab, prior := s.solver.estDemand } } }
  | _, _, _ => s

/-- Where a run stands: counts, pressures by node and demands of the demand nodes in order, raw in the units of R182, the
branches at them, and its last ratio ‖δ‖ ÷ ‖x‖ (R245). -/
structure EstIter where
  /-- counts -/
  acc   : JobAcc
  /-- pressures by node -/
  p     : List Int
  /-- demands of the demand nodes -/
  d     : List Int
  /-- branches at the iterate -/
  ev    : List BranchEval
  /-- ‖δ‖ ÷ ‖x‖ of the last step, Q32 -/
  ratio : Nat := 0xFFFFFFFF
deriving DecidableEq, Repr

/-- Demands of the demand nodes in order. -/
def demandsOf (m : Model) (bc : List Int) : List Int := ((m.nodes.zip bc).filter fun e => e.1.kind = 2).map (·.2)

/-- Demand nodes, by node index. -/
def demandNodes (m : Model) : List Nat := ((indexed 0 m.nodes).filter fun e => e.2.kind = 2).map (·.1)

/-- The column of a node's pressure and of a demand node's demand among the columns (R245). -/
def pressCol (m : Model) (i : Nat) : Option Nat := (rowNodes m).findIdx? (· = i)
/-- The demand column. -/
def demandCol (m : Model) (i : Nat) : Option Nat := ((demandNodes m).findIdx? (· = i)).map (· + (rowNodes m).length)

/-- Columns: unknown pressures, then demands. -/
def estCols (m : Model) : Nat := (rowNodes m).length + (demandNodes m).length

/-- A measurement as the fit takes it: h(x), z, σ and its derivatives by column (R246). -/
structure FitRow where
  /-- h(x), raw -/
  h     : Int
  /-- z, raw -/
  z     : Int
  /-- σ, raw -/
  sigma : Nat
  /-- derivatives -/
  grad  : List (Nat × Dy)
deriving DecidableEq, Repr

/-- Demand of a node at the iterate. -/
def demandAt (m : Model) (x : EstIter) (i : Nat) : Int := (((demandNodes m).findIdx? (· = i)).map fun k => lget x.d k 0).getD 0

/-- Derivatives of a branch's flow. -/
def flowGrad (m : Model) (b : Branch) (g : Dy) : List (Nat × Dy) :=
  [((pressCol m b.from'), g), ((pressCol m b.to'), g.neg)].filterMap fun e => e.1.map fun c => (c, e.2)

/-- A table row in the fit; none for a temperature and for an object in an island (R246, R177). -/
def tableFit (m : Model) (r : JobRun) (x : EstIter) (e : MeasRow × Int) : Option FitRow :=
  let o := e.1.object
  match e.1.kind with
  | 0 => if r.island.contains o then none
    else some { h := lget x.p o 0, z := e.2, sigma := e.1.sigma, grad := ((pressCol m o).map fun c => (c, dyOne)).toList }
  | 1 => (m.branches[o]?).bind fun b =>
    if r.island.contains b.from' && r.island.contains b.to' then none
    else
      let v := lget x.ev o { q := 0, g := .zero, counted := false }
      some { h := v.q, z := e.2, sigma := e.1.sigma, grad := flowGrad m b v.g }
  | 2 => if r.island.contains o then none
    else some { h := demandAt m x o, z := e.2, sigma := e.1.sigma, grad := ((demandCol m o).map fun c => (c, dyOne)).toList }
  | _ => none

/-- The zero-injection row of an unknown node (R246). -/
def zeroFit (m : Model) (sigma : Nat) (x : EstIter) (i : Nat) : FitRow :=
  let touching := (m.branches.zip x.ev).filter fun e => e.1.to' = i || e.1.from' = i
  { h := nodeImbalance m (x.ev.map (·.q)) (demandAt m x i) i, z := 0, sigma := sigma
    grad := (touching.flatMap fun (b, v) => (flowGrad m b (if b.to' = i then v.g else v.g.neg))) ++
      ((demandCol m i).map fun c => (c, dyOne.neg)).toList }

/-- The pseudo-demand row of a demand node without a kind-2 row in use (R246). -/
def pseudoFit (m : Model) (r : EstRun) (x : EstIter) (i : Nat) : FitRow :=
  { h := demandAt m x i, z := ((m.nodes[i]?).map fun n => fgetD r.prior n.id 0).getD 0, sigma := r.table.sigmaPseudo
    grad := ((demandCol m i).map fun c => (c, dyOne)).toList }

/-- Every row of the fit (R246). -/
def fitRows (m : Model) (r : EstRun) (x : EstIter) : List FitRow :=
  let live (i : Nat) : Bool := !r.job.island.contains i
  let measured (i : Nat) : Bool := r.used.any fun e => e.1.kind = 2 && e.1.object = i
  (r.used.filterMap (tableFit m r.job x)) ++ ((rowNodes m).filter live).map (zeroFit m r.table.sigmaZero x) ++
    ((demandNodes m).filter fun i => live i && !measured i).map (pseudoFit m r x)

/-- Formats of an estimator job of given tile rows and columns: no RANGE record has its JOB, so scales and bounds are free
values (log entry 183). -/
def estFmt (rows cols : Nat) : NumFmt :=
  let big := Nat.max ((rows + 63) / 64) ((cols + 63) / 64)
  let one (kind role index : Nat) : RangeRec :=
    { job := 4, kind := kind, role := role, scale := (Config.estRange kind role index).1, index := index
      rmax := Nat.max 1 (Nat.min (Config.estRange kind role index).2 (2 ^ 31 - 1)) }
  { job := 4
    ranges := ((upto big).flatMap fun i => (upto big).map fun j => one 0 0 (i + 65536 * j)) ++
      ((upto 10).flatMap fun role => (upto big).map (one 1 role)) ++ (upto big).map (one 2 0) ++
      (upto 10).map fun role => one 3 role 0 }

/-- The row-scaled Jacobian W^½J and residual of a Gauss-Newton step; 1 ÷ σ comes from the divide unit (R245). -/
def formFit (m : Model) (r : EstRun) (a : ArrayEnv) (x : EstIter) (g : NumFmt) : LinSys × List Int × List Nat :=
  let rows := fitRows m r x
  let n := estCols m
  let weight (e : FitRow) : Dy := (unitDiv dyOne (rawAt e.sigma (-16))).1
  let cells : List (NonZero × List Nat) := (indexed 0 rows).flatMap fun (i, e) =>
    ((e.grad.map (·.1)).eraseDups).map fun j =>
      let o := g.tile i j
      let (v, h) := o.put ((weight e).mul (dySum ((e.grad.filter fun (d : Nat × Dy) => d.1 = j).map (·.2))))
      (({ row := i, col := j, val := v, scale := o.scale } : NonZero), h)
  let (b, h1) := gathered ((indexed 0 rows).map fun (i, e) => (g.seg 0 i).put ((weight e).mul (rawAt (e.z - e.h) (-16))))
  let live := (rowNodes m ++ demandNodes m).map fun i => !r.job.island.contains i
  ({ fmt := g, mat := cells.map (·.1), rows := rows.length, cols := n, live := live, b := b, role := 9, lanes := a.lanes
     turns := [] }, zeroVec n, (cells.flatMap (·.2)) ++ h1)

/-- δ applied under R179 with DP_MAX acting on the pressure part, the branches at the new pressures, and the ratio
‖δ‖ ÷ ‖x‖ (R245). -/
def applyFit (m : Model) (r : EstRun) (x : EstIter) (g : NumFmt) (d : List Int) : EstIter × List Nat :=
  let np := (rowNodes m).length
  let raw := (indexed 0 d).map fun (k, v) => g.val 9 k v
  let top := dyMax ((raw.take np).map Dy.abs)
  let lim := rawAt r.job.desc.dpMax (-16)
  let cut := if top.le lim then raw else raw.map fun v => (unitDiv lim top).1.mul v
  let step := cut.map fun v => v.at (-16)
  let p := (indexed 0 x.p).map fun (i, v) => match pressCol m i with
    | some c => if r.job.island.contains i then v else v + lget step c 0
    | none => v
  let dem := (indexed 0 x.d).map fun (k, v) => v + lget step (np + k) 0
  let free := (rowNodes m).filterMap fun i => if r.job.island.contains i then none else some (lget p i 0)
  let size (l : List Int) : Dy := norm2Of (l.map fun v => rawAt v (-16))
  ({ x with p := p, d := dem, ev := evalAt m r.job (fun i => rawAt (lget p i 0) (-16)) (x.ev.map (·.q))
            ratio := normRatio (size step) (size (free ++ dem)) }, [])

/-- The start of a run. -/
def estStart (m : Model) (r : EstRun) (t : JobTiming) : EstIter :=
  { acc := { fmt := estFmt (2 * m.nodes.length + r.used.length) (estCols m), now := t.wait }, p := r.job.p0
    d := demandsOf m r.job.bc, ev := evalAt m r.job (fun i => rawAt (lget r.job.p0 i 0) (-16)) r.job.q0 }

/-- Gauss-Newton steps by CGLS until the step bound, the step limit, the deadline rule, or a second range count (R245). -/
def estSteps (m : Model) (r : EstRun) (a : ArrayEnv) : Nat → List StepTiming → EstIter → EstIter
  | 0, _, x => x
  | n + 1, t, x =>
    if decide (x.ratio ≤ r.job.desc.ntol) || x.acc.late || x.acc.rangeStop || followedUp a 4 x.acc.steps then x
    else
      let e := stepEnv a r.job ((t.head?).getD noTime) 4 4 3 r.job.desc.precond r.job.desc.cap r.job.limitNs false x.acc
      let o := outerStep e (formFit m r a x) (applyFit m r x) x.acc.fmt x.acc.now x.acc.longest
      let y := x.acc.after 4 e o
      match o.res with
      | some z => estSteps m r a n (t.drop 1) { z with acc := y }
      | none => { x with acc := y }

/-- Demands by NODE_ID of an estimate: given for the demand nodes in order. -/
def estDemands : List Node → List Int → List (Nat × Int)
  | [], _ => []
  | n :: ns, d => if n.kind = 2 then (n.id, lget d 0 0) :: estDemands ns (d.drop 1) else estDemands ns d

/-- Fitted value of a measurement row (R246). -/
def fittedRow (m : Model) (p q : List Int) (dem : FMap Int) (r : MeasRow) : Option Int :=
  match r.kind with
  | 0 => some (lget p r.object 0)
  | 1 => some (lget q r.object 0)
  | 2 => (m.nodes[r.object]?).map fun n => fgetD dem n.id 0
  | _ => none

/-- Residuals abs(z - h) of the rows in use with σ and their points (R248). -/
def residuals (m : Model) (p q : List Int) (dem : FMap Int) (used : List (MeasRow × Int)) : List (Nat × Nat × Nat) :=
  used.filterMap fun (r, z) => (fittedRow m p q dem r).map fun h => (r.point, (z - h).natAbs, Nat.max r.sigma 1)

/-- The row with the largest normalised residual, compared exactly. -/
def worstRow : List (Nat × Nat × Nat) → Nat × Nat × Nat
  | [] => (0, 0, 1)
  | e :: r => let w := worstRow r; if w.2.1 * e.2.2 ≤ e.2.1 * w.2.2 then e else w

/-- The run's record (R256). -/
def estRecord (s : State) (r : EstRun) (y : EstIter) : JobRecord :=
  let d := r.job.desc
  let x := y.acc
  let conv := decide (y.ratio ≤ d.ntol)
  { status := stOk
    flags := recordFlags [(0, conv), (1, x.late), (2, !conv && decide (d.newtonMax ≤ x.steps)), (3, x.rangeStop),
      (4, x.breakdown), (5, r.job.partial'), (8, decide (y.ratio ≤ d.accept)), (10, !r.job.island.isEmpty), (12, x.retried)]
    steps := x.steps, capUsed := x.capUsed, iters := x.iters, resid := x.resid, nresid := y.ratio
    elapsedUs := sinceIssue s r.job.issued, coarsened := x.coarsened, stamp := r.job.stamp, islands := r.job.island.length }

/-- An accepted result is used (R250). -/
def useEstimate (m : Model) (r : EstRun) (p q : List Int) (dem : FMap Int) (s : State) : State :=
  let keep := (indexed 0 m.nodes).filter fun e => !r.job.island.contains e.1
  let old := s.solver.solution
  let sol : Solution :=
    { p := byId (keep.map fun e => (e.2.id, lget p e.1 0))
      q := byId ((m.branches.zip q).map fun e => (e.1.id, e.2))
      tn := (old.map (·.tn)).getD [], ts := (old.map (·.ts)).getD []
      open' := r.job.open', modelCrc := m.crc, stamp := r.job.stamp }
  let temps := byId (r.used.filterMap fun (x, z) =>
    if x.kind = 3 then (m.nodes[x.object]?).map fun n => (n.id, z) else none)
  let s := { s with solver := { s.solver with
    solution := some sol, estDemand := dem, estTemps := temps, seeded := true } }
  if r.trig = .demand ∨ r.trig = .coldStart then
    writeResults (shortNow s) (byte qEst) (hydOutputs m r.job p q) s
  else s

/-- The run of an estimator job with the array's state. -/
def runEst (s : State) (stops : Option (List StopRec)) (r : EstRun) (t : JobTiming) : EstIter :=
  estSteps r.job.model r (arrayEnv s r.job.issued stops) r.job.desc.newtonMax t.steps (estStart r.job.model r t)

/-- The estimator's run returns (R248 to R250, R256). -/
def returnEst (r : EstRun) (y : EstIter) (s : State) : State :=
  let m := r.job.model
  let rec' := estRecord s r y
  let q := y.ev.map (·.q)
  let dem := byId (estDemands m.nodes y.d)
  let ok := decide (y.ratio ≤ r.job.desc.accept)
  let worst := worstRow (residuals m y.p q dem r.used)
  let s := { s with
    est := { s.est with run := none, last := rec', lastTrig := r.trig }
    solver := { s.solver with iters := (s.solver.iters + rec'.iters) % 2 ^ 64 } }
  let s := returnEvents 4 y.acc.ranges rec' s
  let s := if r.table.badK * worst.2.2 < worst.2.1 * 65536 then
      raise 0x5E [worst.1, (worst.2.1 * 65536 / worst.2.2 : Nat)] s else s
  let s := if r.trig = .test then s
    else if ok then useEstimate m r y.p q dem s
    else raise 0x5F [y.ratio] { s with est := { s.est with rejected := sat32 (s.est.rejected + 1) } }
  restLanes (finishOpt 0x0532 r.req stOk 0 (jobBytes rec') s)

/-- A run of the estimator is aborted (R217, R250). -/
def abortEst (s : State) : State :=
  match s.est.run with
  | some r => restLanes (finishOpt 0x0532 r.req stAborted 0 (jobBytes (abortedRecord s r.job))
      { s with est := { s.est with run := none, last := abortedRecord s r.job, lastTrig := r.trig } })
  | none => s

/-- Estimates of demands whose points are GOOD again are dropped (R250 step 2). -/
def dropEstimates (m : Model) (read : Nat → PointRec) (s : State) : State :=
  let good (id : Nat) : Bool := m.nodes.any fun n => n.id = id && n.kind = 2 && qState (read n.bcPoint).quality = qGood
  { s with solver := { s.solver with estDemand := s.solver.estDemand.filter fun e => !good e.1 } }

/-- The Main job is issued with the snapshot of its cycle and uses up an estimate that seeds it (R215, R250); an estimator run is triggered by a structure change or
a model switch (R249). Whether a job is out. -/
def issueMain (stamp : Nat) (read : Nat → PointRec) (s : State) : State × Bool :=
  match s.solver.model, s.solver.mainDesc with
  | some m, some d =>
    if solEnabled s then
      let s := dropEstimates m read s
      let r := startJob s m d stamp (stamp + s.solveDeadline * 1000) none read
      let fresh := decide (s.solver.lastOpen ≠ r.open')
      let s := { s with solver := { s.solver with mainJob := some r, seeded := false, estTemps := [], lastOpen := r.open' } }
      let s := wakeHomes r.tileRows (raiseIslands r s)
      (if (r.partial' && fresh) || s.solver.switched then estTrigger .structureChange none s else s, true)
    else (s, false)
  | _, _ => (s, false)

end Sys2Proof.Machine
end

