-- ==== Sys2Proof/Machine/Retain.lean ====
section
/-! DEFINITION. Retain.lean: instance states and the retentive image (R60, R72, R128, R135, R417, R420 to R422, R449). -/

namespace Sys2Proof.Machine

/-! ### Instance states (R72, R127, R135) -/

/-- Class of an instance: that of the unit that holds it (R123). -/
def instClass (im : Image) (id : Nat) : Option Nat :=
  (im.units.find? fun u => (unitInsts im u).any fun i => i.id = id).map (·.cls)

/-- An instance of an image. -/
def instOf (im : Image) (id : Nat) : Option InstEntry := im.instances.find? fun i => i.id = id

/-- Words of a byte string. -/
def wordsOf (b : Bytes) : List W64 := (upto (b.length / 8)).map fun i => BitVec.ofNat 64 (getLE b (8 * i) 8)

/-- Initial state of an instance (R127). -/
def initState (im : Image) (i : InstEntry) : List W64 :=
  wordsOf (slice (lget im.initialState ((instClass im i.id).getD 4) []) i.stateOffset i.stateLen)

/-- State of an instance in the read buffer of its class; one that no commit and no start has written holds its
initial state. -/
def instState (s : State) (im : Image) (c : Nat) (i : InstEntry) : List W64 := (fget (cls s c).readBuf i.id).getD (initState im i)

/-- Instances of a class (R123). -/
def classInsts (im : Image) (c : Nat) : List InstEntry := (im.units.filter fun u => u.cls = c).flatMap (unitInsts im)

/-! ### The retentive state (R420) -/

/-- A retentive entry with the value it has now: the point record, or the read-buffer state with its FRESH mark. -/
def retainNow (s : State) (im : Image) (e : RetainEntry) : RetainVal :=
  let v : RetainVal := { kind := e.kind, crit := e.crit, key := e.key, layout := e.layout, length := e.length, point := {}, words := [] }
  if e.kind = 0 then { v with point := liveRec s e.key }
  else match instClass im e.key, instOf im e.key with
    | some c, some i => { v with words := instState s im c i, fresh := (cls s c).fresh.contains e.key }
    | _, _ => v

/-- The retentive values of the program in force. -/
def retainVals (s : State) : List RetainVal :=
  match s.program with
  | some im => im.retain.map (retainNow s im)
  | none => []

/-- A half with the retentive state as it stands (R420, R421). -/
def halfNow (s : State) (final : Bool) (gen : W64) (stamp : Nat) : RetHalf :=
  { format := Config.retainFormat (svVersion s), final := final, gen := gen, imageCrc := (s.program.map (·.crc)).getD 0, stamp := stamp, entries := retainVals s
    forces := s.forces, trips := s.rings.latched, loops := loopState s, solution := s.solver.solution }

/-- A retentive entry as bytes (R421): the first 12 bytes of its RETAIN entry, its data, and the padding to a multiple
of 8, whose first byte holds the FRESH mark of an instance (DESIGN CHOICE, log entry 21). -/
def entryBytes (v : RetainVal) : Bytes :=
  let head := [byte v.kind, byte v.crit] ++ putLE 2 v.length ++ putLE 4 v.key ++ putLE 4 v.layout
  let data := if v.kind = 0 then recBytes v.point else v.words.flatMap (fun w => putLE 8 w.toNat) ++ [byte (b2n v.fresh)]
  padTo ((head.length + data.length + 7) / 8 * 8) (head ++ data)

/-- The last accepted solution as bytes (DESIGN CHOICE, log entry 21). -/
def solutionBytes : Option Solution → Bytes
  | none => zeros 4
  | some x =>
    let m (l : FMap Int) : Bytes := putLE 4 l.length ++ l.flatMap fun e => putLE 4 e.1 ++ putSLE 8 e.2
    putLE 4 1 ++ m x.p ++ m x.q ++ m x.tn ++ m x.ts ++ x.open'.map (fun b => byte (b2n b)) ++ putLE 4 x.modelCrc.toNat ++ putLE 8 x.stamp

/-- The retentive state without the half header (R421, R449). The layout of the loop, trip and solution state is the
model's (log entry 21). -/
def halfBody (h : RetHalf) : Bytes :=
  h.entries.flatMap entryBytes ++ h.forces.flatMap (fun e => putLE 4 e.1 ++ putLE 4 e.2.stime.toNat ++ putSLE 8 e.2.value) ++
    h.loops.flatMap mirrorBytes ++ putLE 2 h.trips.toNat ++ solutionBytes h.solution

/-- The retentive digest (R449). -/
def retainDigest (s : State) : W64 := crc64 (halfBody (halfNow s false 0 0))

/-! ### Writing a half (R420, R429) -/

/-- Generation of a half; one that is missing or of a FORMAT the running firmware does not read is invalid and counts as
lower than any (R420, R422). -/
def halfGen (s : State) (n : Nat) : Int :=
  match fget s.stores.halves n with
  | some h => if h.format ≤ Config.retainFormat (svVersion s) then (h.gen.toNat : Int) else -1
  | none => -1

/-- The half that the next save overwrites: that with the lower GENERATION. -/
def nextHalf (s : State) : Nat := if halfGen s 0 ≤ halfGen s 1 then 0 else 1

/-- A save starts: the half being overwritten is invalid until its header is written. A save that falls while another
is in progress, or after PFW_N has fallen, does not take place. -/
def saveRetain (final : Bool) (stamp : Nat) (s : State) : State :=
  if s.stores.writing.isSome || !s.power.pfw || s.program.isNone then s
  else
    let n := nextHalf s
    let g : W64 := BitVec.ofInt 64 (halfGen s (1 - n) + 1)
    { s with stores := { s.stores with writing := some (n, halfNow s final g stamp), halves := ferase s.stores.halves n } }

/-- The header is written and the half is valid. -/
def sealHalf (s : State) : State :=
  match s.stores.writing with
  | some (n, h) => { s with stores := { s.stores with halves := fset s.stores.halves n h, writing := none } }
  | none => s

/-- The newest valid half (R422). -/
def newestHalf (s : State) : Option RetHalf :=
  if halfGen s 0 < 0 ∧ halfGen s 1 < 0 then none
  else fget s.stores.halves (if halfGen s 0 < halfGen s 1 then 1 else 0)

/-- Bytes that an image's retentive data take in a half: header, entries and CRC (R421, R422). -/
def retainSize (im : Image) : Nat := 68 + nsum (im.retain.map fun e => (12 + e.length + 7) / 8 * 8)

/-! ### Mapping (R60, R128, R417) -/

/-- An old value matches a new entry. -/
def matchesEntry (v : RetainVal) (e : RetainEntry) : Bool := v.kind = e.kind && v.key = e.key && v.layout = e.layout

/-- Entries of an image that find their old value. -/
def mapped (old : List RetainVal) (im : Image) : List RetainVal :=
  im.retain.filterMap fun e => old.find? fun v => matchesEntry v e

/-- Old values with no match. -/
def droppedVals (old : List RetainVal) (im : Image) : Nat := (old.filter fun v => !im.retain.any fun e => matchesEntry v e).length

/-- Class-C retentive values of an image with no match. -/
def missingCrit (old : List RetainVal) (im : Image) : Nat :=
  (im.retain.filter fun e => e.crit = 1 && !old.any fun v => matchesEntry v e).length

/-- A class takes the state of an instance into its read buffer, with its FRESH mark. -/
def putInst (c id : Nat) (words : List W64) (fresh : Bool) (s : State) : State :=
  setCls c (fun k => { k with
    readBuf := fset k.readBuf id words
    fresh := if fresh then id :: k.fresh.filter (fun x => decide (x ≠ id)) else k.fresh.filter fun x => decide (x ≠ id) }) s

end Sys2Proof.Machine
end

