-- ==== Sys2Proof/Machine/PairCore.lean ====
section
/-! DEFINITION. PairCore.lean: roles and output paths, output and retentive digests with their comparison, and the
mismatch self-check (R317, R357, R435, R437, R446 to R450). -/

namespace Sys2Proof.Machine

/-- Change the pair's state. -/
def setPair (f : Pair → Pair) (s : State) : State := { s with pair := f s.pair }

/-- The standby runs its cycles from the active's mirror records (R443 step 5, R441). -/
def followsMarks (s : State) : Bool :=
  decide (s.pair.role = .standby) && s.pair.joined && s.pair.linkUp && s.pair.lostAt.isNone

/-! ### Roles and output paths -/

/-- A role whose module drives nothing: TRIP_OUT and loop pins go to high impedance and the CAN controllers to
RESTRICTED, with their pending frames lost (R317, R357, R454). -/
def dropPaths (s : State) : State :=
  let s := { s with rings := { s.rings with pins := [], gpo := [] } }
  refreshModes { s with can := s.can.map fun e => (e.1, cancelAll e.2) }

/-- Take a role that does not drive (R435, R453). -/
def restRole (r : Role) (s : State) : State :=
  dropPaths (setPair (fun p => { p with role := r }) s)

/-- No partner is joined any more: commands that wait for its acknowledgement complete (R399). -/
def dropPartner (s : State) : State :=
  let last := s.pair.mirrorSeq
  ackMirrored last (setPair (fun p => { p with joined := false, synced := false, joining := false, resync := false }) s)

/-- The requests that a fence ends (R455). -/
def endExchange (status : Nat) (s : State) : State :=
  match s.pair.exchange with
  | none => s
  | some x => finishOpt (if x.drill then 0x0904 else 0x0903) x.req status 0 [] (setPair (fun p => { p with exchange := none }) s)

/-- The module fences itself: it stops its heartbeats and releases ACTIVE_N (R435, R440). -/
def fenceSelf (s : State) : State := endExchange stAborted (dropPartner (restRole .fenced s))

/-! ### Output digest (R447) -/

/-- Output datasets of a commit. -/
def datasetStream (set : List (Nat × Nat × Bytes)) : Bytes :=
  set.flatMap fun e => putLE 2 e.1 ++ putLE 2 e.2.1 ++ putLE 2 (e.2.2.length / 12) ++ e.2.2

/-- CAN frames of a commit: the windows of the class's transmit buffers. -/
def canStream (s : State) (c : Nat) : Bytes :=
  [0, 1, 2, 3].flatMap fun n => ((canCtl s n).bufs.filter fun e => e.2.desc.dir = 2 && e.2.desc.trigger = c).flatMap fun e =>
    let f := windowFrame e.2
    putLE 4 f.id.toNat ++ [byte (f.dlc.toNat % 16)] ++ f.data

/-- LB set-points latched by a commit. -/
def latchStream (s : State) (c : Nat) : Bytes :=
  s.loops.flatMap fun e => match e.2.desc with
    | some d => if d.mode ≠ 0 && !d.fromPlan && ownerClass s d = c then putLE 2 e.1 ++ putSLE 8 e.2.latched else []
    | none => []

/-- The output digest of a commit. -/
def outputDigest (s : State) (c : Nat) (set : List (Nat × Nat × Bytes)) : W64 :=
  crc64 (datasetStream set ++ canStream s c ++ latchStream s c)

/-! ### Mismatches (R450) -/

/-- A mismatch is counted; the first one starts the self-check (R450). -/
def mismatch (row : Nat) (s : State) : State :=
  let s := rcAdd 0x1410 1 (countFault row (setPair (fun p => { p with mismatches := sat32 (p.mismatches + 1) }) s))
  if s.pair.selfCheck || s.pair.resync || s.pair.joining then s else setPair (fun p => { p with selfCheck := true }) s

/-- A digest of this list is later than a Main cycle: the active has committed a later one (R446). -/
def laterMain (l : List OutDigest) (n : W32) : Bool := l.any fun o => o.cls = 1 && later 32 n.toNat o.cycle.toNat

/-- The standby loses SYNCED and starts a resync (R446, R450). -/
def startResync (s : State) : State :=
  raise 0xAC [] (setPair (fun p => { p with
    synced := false, resync := true, resyncs := sat32 (p.resyncs + 1), lateRun := 0, matched := none }) s)

/-- Lag of a Main digest after the active's commit, and a digest that comes late (R446, R461). -/
def noteLag (own their : OutDigest) (active : List OutDigest) (s : State) : State :=
  if own.cls ≠ 1 then s
  else
    let standby := decide (s.pair.role = .standby)
    let lag := if standby then own.at' - their.at' else their.at' - own.at'
    let isLate := laterMain active own.cycle
    let s := setPair (fun p => { p with lagUs := satBits 24 (lag / 1000), lateRun := if isLate then p.lateRun + 1 else 0 }) s
    let s := if isLate then raise 0xB1 [own.cycle.toNat] s else s
    if standby && decide (3 ≤ s.pair.lateRun) then startResync s else s

/-- Compare two digests of one commit (R447). -/
def compareDigest (own their : OutDigest) (s : State) : State :=
  if own.digest = their.digest then
    (if own.cls = 1 then setPair (fun p => { p with matched := some (own.cycle, own.at') }) s else s)
  else mismatch 7 (raise 0xAA [own.cls, own.cycle.toNat] s)

/-- Two digests of the same commit. -/
def samePair (a b : OutDigest) : Bool := a.cls = b.cls && a.cycle = b.cycle

/-- Compare every own digest whose counterpart is present. -/
def compareAll : List OutDigest → State → State
  | [], s => s
  | o :: r, s =>
    match s.pair.theirs.find? (samePair o) with
    | none => compareAll r s
    | some t =>
      let active := if s.pair.role = .standby then s.pair.theirs else s.pair.digests
      let s := noteLag o t active s
      let s := setPair (fun p => { p with
        digests := p.digests.filter fun x => !samePair o x, theirs := p.theirs.filter fun x => !samePair o x }) s
      compareAll r (compareDigest o t s)

/-- Add a digest to a list, keeping the four newest of its class. -/
def addDigest (d : OutDigest) (l : List OutDigest) : List OutDigest :=
  d :: ((l.filter fun x => x.cls = d.cls).take 3 ++ l.filter fun x => x.cls ≠ d.cls)

/-- The module has an output digest of its own (R447). -/
def ownDigest (c : Nat) (cycle : W32) (digest : W64) (s : State) : State :=
  if !s.pair.joined then s
  else
    let d : OutDigest := { cls := c, cycle := cycle, digest := digest, at' := s.refNs }
    let s := setPair (fun p => { p with digests := addDigest d p.digests }) s
    compareAll [d] s

/-- The partner's output digest arrives (R447). -/
def theirDigest (c : Nat) (cycle : W32) (digest : W64) (s : State) : State :=
  let d : OutDigest := { cls := c, cycle := cycle, digest := digest, at' := s.refNs }
  let s := setPair (fun p => { p with theirs := addDigest d p.theirs }) s
  compareAll (s.pair.digests.filter (samePair d)) s

/-- The digests of a commit leave: the active's OUTPUT record, or the standby's own digest to the active (R444 to
R447). A cycle marked NOT_COMPARED sends none. -/
def sendDigest (c : Fin 4) (cycle : W32) (digest : W64) (set : List (Nat × Nat × Bytes)) (notCompared : Bool) (s : State) : State :=
  if notCompared then
    rcAdd 0x1410 65536 (setPair (fun p => { p with theirs := p.theirs.filter fun x => !(x.cls = c.val && x.cycle = cycle) }) s)
  else
    let s := sendMirror (.output c cycle digest set) s
    let s := if followsMarks s then emit (.mirror 0 (.output c cycle digest [])) s else s
    ownDigest c.val cycle digest s

/-! ### Retentive digest (R449) -/

/-- CRC-32C of the plan in force, 0 without one. -/
def planCrc (s : State) : W32 := (s.opt.plan.map (·.crc)).getD 0

/-- Compare the retentive digests once both are present. -/
def compareRetain (s : State) : State :=
  match s.pair.retDigest, s.pair.retTheirs with
  | some a, some b =>
    let s := setPair (fun p => { p with retDigest := none, retTheirs := none }) s
    if a = b then s else mismatch 7 (raise 0xAB [] s)
  | _, _ => s

/-- A Slow commit: the retentive digest, the RETAIN record and the save (R420, R444, R449). -/
def retainCommit (stamp : Nat) (s : State) : State :=
  let d := retainDigest s
  let s := sendMirror (.retain d (planCrc s)) s
  let s := if s.pair.joined then
      (if followsMarks s then emit (.mirror 0 (.retain d (planCrc s))) (setPair (fun p => { p with retDigest := some (d, planCrc s) }) s)
       else setPair (fun p => { p with retDigest := some (d, planCrc s) }) s)
    else s
  saveRetain false stamp (compareRetain s)

/-! ### Loop state (R448) -/

/-- The channel state that the active mirrors at a Main boundary. -/
def sendLoops (s : State) : State := sendMirror (.loop (loopDigest (loopState s)) (loopState s)) s

/-- The standby compares its channel state with the record's digest, then adopts the record (R165, R448). -/
def takeLoops (digest : W64) (l : List MirrorChannel) (s : State) : State :=
  let s := if loopDigest (loopState s) = digest then s
    else mismatch 10 (raise 0xAA [5, (cls s 1).cycleCount.toNat] s)
  adoptMirrors l s

end Sys2Proof.Machine
end

