-- ==== Sys2Proof/Machine/Classes.lean ====
section
/-! DEFINITION. Classes.lean: HOLD and SAFE, stopping a class's work, the safe publication and the historian's sampling
(R43, R44, R52 to R55, R91, R96, R97). -/

namespace Sys2Proof.Machine

/-! ### Stopping work in flight (R91, R96) -/

/-- The deciding run of a vote has been taken, and its hash has not been judged: it runs to its end (R91). -/
def deciderTaken (s : State) (v : Vote) : Bool :=
  v.decider.isNone && s.work.ledger.any fun l =>
    l.entry.cls = v.cls && l.entry.unit = v.unit && l.entry.role = 3 && l.entry.stamp = v.stamp && l.taken.isSome

/-- Entries of a class leave every deque (R96 step 1). -/
def clearDeque (c : Nat) (x : Engine) : Engine := { x with deque := x.deque.filter fun e => decide (e.cls ≠ c) }

/-- An engine that runs a unit of the class ends it at the instance in progress; a deciding run goes on (R91, R96). -/
def stopEngine (c : Nat) (x : Engine) : Engine :=
  match x.running with
  | some e => if e.cls = c && decide (e.role ≠ 3) then { x with stopping := true } else x
  | none => x

/-- Bricks whose deques have lost their last entries of a class start their BANK_DELAY count (R102). -/
def restBricks : List Nat → State → State
  | [], s => s
  | b :: r, s => restBricks r (restBrick b s)

/-- Work of a class that is stopped: deques, feeder queue, ledger, votes and staged results (R91, R96). -/
def stopWork (c : Nat) (s : State) : State :=
  let keepVote (v : Vote) : Bool := v.cls ≠ c || v.discard || deciderTaken s v
  let keepHash (h : Entry × Staged) : Bool := h.1.cls ≠ c || h.1.role = 3
  let held := (upto 16).filter fun b => (enginesOf b).any fun e => (engine s e).deque.any fun x => decide (x.cls = c)
  restBricks held { s with
    engines := s.engines.map fun e =>
      let x := stopEngine c (clearDeque c e.2)
      (e.1, { x with hashOut := x.hashOut.filter keepHash
                     grant := match x.grant with
                       | some (some g) => if g.cls = c then some none else some (some g)
                       | o => o })
    work := { s.work with
      feeder := s.work.feeder.filter fun e => decide (e.cls ≠ c)
      ledger := s.work.ledger.filter fun l => l.entry.cls ≠ c || (l.entry.role = 3 && l.taken.isSome && !l.done)
      votes := (s.work.votes.filter keepVote).map fun v =>
        if v.cls = c && !v.discard then { v with discard := true, ctx := (cls s c).cycle } else v } }

/-- Solver jobs of a class stop (R96 step 3). -/
def stopJobs (c : Nat) (s : State) : State := if c = 1 then abortMain s else if c = 3 then abortOpt s else s

/-- A class's running cycle stops at its natural boundary; its writes and its state buffer are discarded (R96). -/
def stopClass (c : Nat) (s : State) : State :=
  let s := stopJobs c (stopWork c s)
  setCls c (fun k => { k with cycle := none, stopping := true }) s

/-- An engine still runs a unit of a stopped class. -/
def unitsRunning (s : State) (c : Nat) : Bool := s.engines.any fun e => e.2.stopping && (match e.2.running with
  | some x => decide (x.cls = c)
  | none => false)

/-- A restart command that waits for its first commit ends (R64). -/
def endRestart (c status : Nat) (s : State) : State :=
  let r := (cls s c).restartReq
  finishOpt 0x0203 r status 0 [] (setCls c (fun k => { k with restartReq := none }) s)

/-- A class is halted: its work stops and its outputs are held (R43, R97). -/
def haltClass (c : Nat) (s : State) : State :=
  let st := (cls s c).st
  if st = .hold ∨ st = .safe then s
  else
    let s := setCls c (fun k => { k with st := .hold, halted := true }) s
    stopClass c (canCancelClass c (endRestart c stAborted (raise 0x2A [c] s)))

/-- Every periodic class is halted (R428, R549). -/
def haltAll (s : State) : State := haltClass 3 (haltClass 2 (haltClass 1 (haltClass 0 s)))

/-- No class's units are still running after a stop. -/
def allStopped (s : State) : Bool := (upto 4).all fun c => !(cls s c).stopping

/-! ### SAFE (R44, R459) -/

/-- OUTPUT points of a class with their safe values (R44, R129). -/
def safePoints (im : Image) (c : Nat) : List (Nat × Int) :=
  let w := writtenBy (im.units.filter fun u => u.cls = c)
  im.safeOut.filter fun e => w.contains e.1

/-- Write safe values with state GOOD. -/
def putSafe (stime : W32) : List (Nat × Int) → State → State
  | [], s => s
  | (id, v) :: r, s =>
    let s := match defOf s id with
      | some d => putRec id { value := v, stime := stime, quality := byte qGood, scale := d.scale, typeflags := d.typeflags } s
      | none => s
    putSafe stime r s

/-- A period start of a class in SAFE: the safe values are written and published (R44). -/
def publishSafe (c stamp : Nat) (s : State) : State :=
  let s := match (cls s c).prog with
    | some im => putSafe (shortOf stamp) (safePoints im c) s
    | none => s
  publishClass c stamp (canPublish c s)

/-- A class enters SAFE. -/
def enterSafe (c : Nat) (s : State) : State :=
  let k := cls s c
  let s := if k.cycle.isSome then stopClass c s else s
  endRestart c stAborted (setCls c (fun k => { k with st := .safe }) s)

/-- Every periodic class enters SAFE (R459). -/
def allSafe (s : State) : State := raise 0xB0 [] (enterSafe 3 (enterSafe 2 (enterSafe 1 (enterSafe 0 s))))

/-! ### Historian (R52 to R55) -/

/-- The sample of a subscription produces a record (R53). -/
def histAdmits (h : HistSub) (v : Int) (q : Byte) : Bool :=
  match h.last with
  | none => true
  | some (v0, q0) =>
    h.mode = 0 || ((h.mode = 1 || h.mode = 3) && decide (h.deadband < ((v - v0).natAbs : Int))) ||
      ((h.mode = 2 || h.mode = 3) && decide (q ≠ q0)) || (decide (h.maxGap ≠ 0) && decide (h.maxGap ≤ h.sinceRec + 1))

/-- Number of records the ring holds (R54). -/
def histSlots : Nat := 33554432

/-- A record enters the ring (R54). -/
def histPut (r : HistRec) (s : State) : State :=
  { s with hist := { s.hist with ring := fset s.hist.ring (r.seq.toNat % histSlots) r, nextSeq := s.hist.nextSeq + 1 } }

/-- Change a subscription. -/
def setSub (i : Nat) (h : HistSub) (s : State) : State := { s with hist := { s.hist with subs := fset s.hist.subs i h } }

/-- The sample of one subscription (R53, R54). -/
def sampleSub (stamp : Nat) (safe : Bool) (i : Nat) (s : State) : State :=
  match fget s.hist.subs i with
  | none => s
  | some h =>
    let r := readRec s h.point
    if histAdmits h r.value r.quality then
      let flags := b2n h.last.isNone + 2 * b2n h.gap + 4 * b2n safe
      histPut { stamp := stamp, value := r.value, point := h.point, stime := r.stime, quality := r.quality, scale := r.scale,
                flags := byte flags, seq := s.hist.nextSeq }
        (setSub i { h with last := some (r.value, r.quality), sinceRec := 0, gap := false } s)
    else setSub i { h with sinceRec := h.sinceRec + 1 } s

/-- Subscriptions in ascending index. -/
def sampleSubs (stamp : Nat) (safe : Bool) : List Nat → State → State
  | [], s => s
  | i :: r, s => sampleSubs stamp safe r (sampleSub stamp safe i s)

/-- A subscription takes effect at its first Slow commit, and is sampled at every DIVIDER-th one from there (R53). -/
def subDue (n : Nat) (h : HistSub) : Bool := (n - h.start.getD n) % Nat.max h.divider 1 = 0

/-- Subscriptions that the last sampling has not reached are skipped for it: LOST, and GAP on their next record (R55). -/
def skipSubs (l : List Nat) (s : State) : State :=
  { s with hist := { s.hist with
      lost := s.hist.lost + l.length
      subs := s.hist.subs.map fun e => if l.contains e.1 then (e.1, { e.2 with gap := true }) else e } }

/-- The sampling in progress comes to its end: every subscription left is sampled (R53). -/
def endSampling (s : State) : State :=
  match s.hist.run with
  | none => s
  | some x =>
    let s := sampleSubs x.stamp x.safe x.left s
    { s with hist := { s.hist with run := none, lastStamp := x.stamp, lastUs := x.us } }

/-- A Slow commit, or a Slow period start in SAFE, begins a sampling; one that is still in progress is cut short (R53,
R55). How long it takes is open: within 10 ms (R53). -/
def sampleHist (stamp : Nat) (safe : Bool) (s : State) : State :=
  let n := (cls s 2).commits
  let s := skipSubs ((s.hist.run.map (·.left)).getD []) s
  let due := (s.hist.subs.filter fun e => subDue n e.2).map (·.1)
  let subs := s.hist.subs.map fun e => (e.1, { e.2 with start := some (e.2.start.getD n) })
  let (us, s) := takeFree s
  setCls 2 (fun k => { k with commits := k.commits + 1 })
    { s with hist := { s.hist with
        subs := subs, run := some { stamp := stamp, safe := safe, left := due, since' := s.refNs, us := us.toNat % 10001 } } }

/-- The sampling in progress ends once it has taken its time. -/
def samplingTick (s : State) : State :=
  match s.hist.run with
  | none => s
  | some x => if x.us * 1000 ≤ since s x.since' then endSampling s else s

end Sys2Proof.Machine
end

