-- ==== Sys2Proof/Machine/Faults.lean ====
section
/-! DEFINITION. Faults.lean: the module fault and its consequence (R21, R437, R459, R466). -/

namespace Sys2Proof.Machine

/-- The module can mask no module fault: SOLO, or ACTIVE with no synchronised standby (R437). A fault of a new active before
step 7 of R452 fences it (R455). -/
def unmasked (s : State) : Bool :=
  decide (s.pair.role = .solo) || (decide (s.pair.role = .active) && !activeSynced s && !s.pair.takingUp)

/-- A running loopback is aborted: its interface is restored, and its command ends (R472). -/
def abortLoopback (s : State) : State :=
  match s.test.loop with
  | none => s
  | some l =>
    let s := rcAdd 0x1518 1 { s with test := { s.test with loop := none } }
    finish 0x0E10 l.req stAborted 0 [] s

/-- A module fault is declared, for a row of R458 (R21, R437, R459). Before the roles are decided the fault stands, and
the role decision fences the module (R412). -/
def moduleFault (row : Nat) (s : State) : State :=
  if s.pair.fault then s
  else
    let s := abortLoopback (raise 0xAF [row] (setPair (fun p => { p with fault := true }) s))
    if unmasked s then allSafe s
    else if s.pair.role = .active ∨ s.pair.role = .standby then fenceSelf s
    else s

/-- A fault of a row is counted and declared (R458, R466). -/
def rowFault (row : Nat) (s : State) : State := moduleFault row (countFault row s)

/-- Control bricks in service (R21). -/
def controlBricks (s : State) : Nat := ((upto 16).filter (inService s)).length

/-- Solver bricks in service (R21). -/
def solverBricks (s : State) : Nat := (((upto 8).map (· + 16)).filter (inService s)).length

/-- Consequence of the loss of PL (R21): an ACTIVE or SOLO module goes on without a partner and reports DRILL_OVERDUE; a
STANDBY fences itself. -/
def losePair (s : State) : State :=
  let s := setPair (fun p => { p with linkUp := false, lane0 := false, lane1 := false, lastHb := none, hbAt := none }) s
  match s.pair.role with
  | .standby => fenceSelf s
  | .active => raise 0xA9 [] (setPair (fun p => { p with overdue := true }) (endExchange stAborted (dropPartner s)))
  | _ => s

/-- KB is lost: the key update or transition it was carrying out gets no further before the next start, and its command ends
(R19, R524). -/
def dropKeyReq (s : State) : State :=
  match s.keys.op with
  | none => s
  | some o =>
    let op := match o.work with
      | .update .. => 0x0C01
      | .transition .. => 0x0C10
    finishOpt op o.req stNotActive 0 [] { s with keys := { s.keys with op := some { o with req := none } } }

/-- Consequence of the loss of a brick (R21), once its engines are cinders. -/
def brickConsequence (b : Nat) (s : State) : State :=
  if b < 16 then (if controlBricks s < 3 then moduleFault 8 s else s)
  else if b < 24 then (if solverBricks s < 2 then moduleFault 8 s else s)
  else if b = idPX then (if unmasked s then s else moduleFault 8 s)
  else if b = idPL then losePair s
  else if b = idKB then dropKeyReq s
  else if b = idPN then s
  else moduleFault 8 s

end Sys2Proof.Machine
end

