-- ==== Sys2Proof/Machine/Mortar.lean ====
section
/-! DEFINITION. Mortar.lean: the packets of the mortar, the service of a crossing by class, acknowledges and held barrier
arrivals (R6, R10 to R14, R17 to R19). -/

namespace Sys2Proof.Machine

/-! ### Header flits (R11) -/

/-- DEST of a header flit. -/
def mortarDest (h : Nat) : Nat := bits h 0 6
/-- SRC of a header flit. -/
def mortarSrc (h : Nat) : Nat := bits h 6 6
/-- CLASS of a header flit. -/
def mortarClass (h : Nat) : Nat := bits h 12 2
/-- LEN of a header flit. -/
def mortarLen (h : Nat) : Nat := bits h 14 4
/-- KIND of a header flit. -/
def mortarKind (h : Nat) : Nat := bits h 18 4

/-- A response to a packet: class RSP, of a KIND, with the packet's TAG and ADDR (R11). -/
def responseTo (kind h : Nat) : W64 :=
  BitVec.ofNat 64 (mortarSrc h + 64 * mortarDest h + 4096 * 2 + 262144 * kind + bits h 22 42 * 4194304)

/-- The write acknowledge of a write (R14). -/
def writeAck (h : Nat) : W64 := responseTo 2 h

/-- The error response to a packet (R11). -/
def errorResponse (h : Nat) : W64 := responseTo 10 h

/-- The retransmit request for a packet (R18). -/
def retransmitRequest (h : Nat) : W64 := responseTo 11 h

/-- A packet of a header flit alone, without flit errors. -/
def headerPacket (h : W64) : MortarPacket := ⟨h, [], 0, false, true⟩

/-- A packet that the first router discards: an invalid LEN, a reserved KIND (R11), or payload flits that LEN does not
count. -/
def mortarBad (p : MortarPacket) : Bool :=
  let h := p.header.toNat
  decide (8 < mortarLen h) || decide (12 ≤ mortarKind h) || decide (p.payload.length ≠ mortarLen h)

/-! ### Crossings (R12, R13) -/

/-- Ports of a boundary in each direction: 8 at MC, 2 at a solver brick, 1 at every other brick. -/
def portCount (b : Nat) : Nat := if b = idMC then 8 else if 16 ≤ b ∧ b < 24 then 2 else 1

/-- The port by which the packets of a source reach a brick (DESIGN CHOICE, log entry 172). -/
def portOf (h : Nat) : Nat := mortarSrc h % portCount (mortarDest h)

/-- A crossing of a brick. -/
def crossingOf (x : Brick) (p : Nat) : Crossing := fgetD x.ports p {}

/-- Change a crossing. -/
def setCrossing (b p : Nat) (f : Crossing → Crossing) (s : State) : State :=
  setBrick b (fun x => { x with ports := fset x.ports p (f (crossingOf x p)) }) s

/-- Two packets of one class from one source: they arrive in the order sent (R13). -/
def sameStream (h k : Nat) : Bool := decide (mortarClass h = mortarClass k) && decide (mortarSrc h = mortarSrc k)

/-- Packets that a crossing may serve now: not awaiting retransmission, and none of their stream ahead of them (R13). -/
def serveable : List MortarPacket → List WaitingPacket → List MortarPacket
  | _, [] => []
  | ahead, w :: r =>
    let p := w.pkt
    let rest := serveable (p :: ahead) r
    if w.retry || ahead.any (fun q => sameStream q.header.toNat p.header.toNat) then rest else p :: rest

/-- The class that wins a flit slot: FLT, CYC, RSP, REQ, and a waiting REQ flit at least one slot in 8 (R12). -/
def slotClass (reqLost : Nat) (l : List MortarPacket) : Option Nat :=
  let has (c : Nat) : Bool := l.any fun p => mortarClass p.header.toNat = c
  if has 3 && decide (7 ≤ reqLost) then some 3 else [0, 1, 2, 3].find? has

/-- Places between the port served last and a packet's input port, round the 64 identifiers (R12). -/
def portTurn (last : Option Nat) (p : MortarPacket) : Nat :=
  match last with
  | none => mortarSrc p.header.toNat
  | some n => (mortarSrc p.header.toNat + 63 - n) % 64

/-- The packet of a class whose turn it is (R12). -/
def turnOf (last : Option Nat) : List MortarPacket → Option MortarPacket
  | [] => none
  | p :: r =>
    match turnOf last r with
    | none => some p
    | some q => if portTurn last q < portTurn last p then some q else some p

/-- A router output at work: packets in progress by class with the flits they still have, and the packets through it. -/
structure Output where
  /-- the crossing -/
  cross : Crossing
  /-- packet in progress of a class, and its flits still to go -/
  busy  : FMap (MortarPacket × Nat)
  /-- packets that have crossed, the latest first -/
  done  : List MortarPacket
deriving DecidableEq, Repr

/-- One flit slot of a router output (R12): within a class a packet's flits stay together. -/
def flitSlot (o : Output) : Output :=
  let x := o.cross
  let l := serveable [] x.waiting
  match slotClass x.reqLost l with
  | none => o
  | some c =>
    let lost := if c = 3 then 0 else if l.any (fun p => mortarClass p.header.toNat = 3) then x.reqLost + 1 else 0
    let now := match fget o.busy c with
      | some y => some y
      | none => (turnOf (fget x.last c) (l.filter fun p => mortarClass p.header.toNat = c)).map fun p => (p, p.payload.length + 1)
    match now with
    | none => o
    | some (p, n) =>
      if 1 < n then { o with cross := { x with reqLost := lost }, busy := fset o.busy c (p, n - 1) }
      else
        { cross := { x with reqLost := lost, waiting := x.waiting.erase ⟨p, false⟩, last := fset x.last c (mortarSrc p.header.toNat) }
          busy := ferase o.busy c, done := p :: o.done }

/-- A number of flit slots. -/
def flitSlots : Nat → Output → Output
  | 0, o => o
  | n + 1, o => flitSlots n (flitSlot o)

/-- Flits that wait for a crossing. -/
def flitsWaiting (x : Crossing) : Nat := nsum (x.waiting.map fun w => w.pkt.payload.length + 1)

/-- Everything that may cross does so, in the order of R12 and R13. -/
def serveCrossing (x : Crossing) : Crossing × List MortarPacket :=
  let o := flitSlots (flitsWaiting x) { cross := { x with raisedAt := none }, busy := [], done := [] }
  (o.cross, o.done.reverse)

/-- A packet waits at its crossing; a banked brick is woken (R17, R102). -/
def waitAt (p : MortarPacket) (s : State) : State :=
  let h := p.header.toNat
  setCrossing (mortarDest h) (portOf h) (fun x => { x with waiting := x.waiting ++ [⟨p, false⟩] }) (wakeBrick (mortarDest h) s)

/-- A packet of the mortar's own crosses at once: the brick runs, and nothing waits at the crossing. -/
def crossesNow (s : State) (h : Nat) : Bool :=
  let x := brick s (mortarDest h)
  atPoint x && (crossingOf x (portOf h)).waiting.isEmpty

/-! ### Acknowledges and barriers (R14) -/

/-- A packet goes on to its destination, or waits at its crossing; a closed one is answered with nothing further. -/
def sendOn (p : MortarPacket) (s : State) : State :=
  let h := p.header.toNat
  if !inService s (mortarDest h) then s
  else if crossesNow s h then emit (.mortar p.header p.payload) s
  else waitAt p s

/-- The barrier arrivals at the head of what a brick has issued go out (R14). -/
def sendBarriers (b : Nat) : List Issued → State → State
  | .barrier p :: r, s => sendBarriers b r (sendOn p s)
  | l, s => setBrick b (fun x => { x with issued := l }) s

/-- The response answers the write. -/
def answers (r : Nat) : Issued → Bool
  | .write h => decide (mortarDest h.toNat = mortarSrc r) && decide (bits h.toNat 22 42 = bits r 22 42)
  | .barrier _ => false

/-- A write acknowledge or an error response ends the write it answers; the barrier arrivals behind it then go out. -/
def endWrite (r : Nat) (s : State) : State :=
  let b := mortarDest r
  let l := (brick s b).issued
  match l.find? (answers r) with
  | none => s
  | some w => sendBarriers b (l.erase w) s

/-- A response arrives. -/
def responseArrives (r : W64) (s : State) : State := endWrite r.toNat (emit (.mortar r []) s)

/-- A response travels to its destination: it crosses at once, or waits. -/
def mortarRespond (r : W64) (s : State) : State :=
  if !inService s (mortarDest r.toNat) then s
  else if crossesNow s r.toNat then responseArrives r s
  else waitAt (headerPacket r) s

/-- Every packet that waits for a brick is answered with an error response (R19 step 2). -/
def answerAll : List MortarPacket → State → State
  | [], s => s
  | p :: r, s => answerAll r (mortarRespond (errorResponse p.header.toNat) s)

/-- Packets that wait at a brick's crossings. -/
def waitingFor (x : Brick) : List MortarPacket := x.ports.flatMap fun c => c.2.waiting.map (·.pkt)

/-- A packet has crossed: it is delivered, a write is acknowledged, a response ends its write (R14). -/
def mortarDeliver (p : MortarPacket) (s : State) : State :=
  let h := p.header.toNat
  let s := emit (.mortar p.header p.payload) s
  if mortarKind h = 1 then mortarRespond (writeAck h) s
  else if mortarKind h = 2 ∨ mortarKind h = 10 then endWrite h s
  else s

end Sys2Proof.Machine
end

