-- ==== Sys2Proof/Machine/Work.lean ====
section
/-! DEFINITION. Work.lean: eligibility, placement, feeder queue, ledger, taking and stealing, fencing of engines and
bricks (R19, R75 to R81, R86, R87, R92 to R95). -/

namespace Sys2Proof.Machine

/-! ### Eligibility and placement (R76, R77, R86, R87) -/

/-- The value of EXCL1 and EXCL2 for none. -/
def noBrick : Nat := 0x3F

/-- SPLIT that restricts the placement no longer (R94 exception 1). -/
def noSplit : Nat := 4

/-- An entry is eligible for a control brick (R76). -/
def eligible (x : Entry) (b : Nat) : Bool :=
  decide (b ≠ x.excl1) && decide (b ≠ x.excl2) &&
  (x.split = noSplit || (x.role ≠ 1 && x.role ≠ 2) || decide (bit b x.split = decide (x.role = 2)))

/-- The first engine from a number on, wrapping, that is in service and whose brick is eligible. -/
def placeFrom (s : State) (x : Entry) (start : Nat) : Option Nat :=
  ((upto 64).map fun i => (start + i) % 64).find? fun e => engineUp s e && eligible x (e / 4)

/-- Image of the class of an entry. -/
def entryUnit (s : State) (x : Entry) : Option UnitEntry := ((cls s x.cls).prog).bind fun im => unitAt im x.unit

/-- Engine from which the placement of an entry counts: home, replica B 32 on, deciding run 16 on (R77, R87, R90). -/
def placeStart (s : State) (x : Entry) : Nat :=
  let h := ((entryUnit s x).map (·.homeEngine)).getD 0
  (if x.role = 2 then h + 32 else if x.role = 3 then h + 16 else h) % 64

/-- Entries of one class on an engine's deque, bottom end first. -/
def dequeOf (x : Engine) (c : Nat) : List Entry := x.deque.filter fun e => decide (e.cls = c)

/-- A deque holds up to 64 entries. -/
def dequeFull (s : State) (e c : Nat) : Bool := decide (64 ≤ (dequeOf (engine s e) c).length)

/-- An earlier entry of the feeder queue waits for the same deque. -/
def feederAhead (s : State) (e c : Nat) : Bool :=
  s.work.feeder.any fun y => y.cls = c && decide (placeFrom s y (placeStart s y) = some e)

/-- The deque an entry can be pushed to now. -/
def pushTarget (s : State) (x : Entry) : Option Nat :=
  match placeFrom s x (placeStart s x) with
  | none => none
  | some e => if dequeFull s e x.cls || feederAhead s e x.cls then none else some e

/-- Same entry of a unit: class, unit, role and cycle. -/
def sameEntry (a b : Entry) : Bool := a.cls = b.cls && a.unit = b.unit && a.role = b.role && a.stamp = b.stamp

/-- Change the ledger line of an entry. -/
def setLine (x : Entry) (f : LedgerLine → LedgerLine) (s : State) : State :=
  { s with work := { s.work with ledger := s.work.ledger.map fun l => if sameEntry l.entry x then f l else l } }

/-- Ledger line of an entry. -/
def lineOf (s : State) (x : Entry) : Option LedgerLine := s.work.ledger.find? fun l => sameEntry l.entry x

/-- Push an entry to the bottom of a deque: the ledger notes the engine, the brick wakes and is raised for deadline
work (R77, R78, R102, R109). -/
def pushTo (e : Nat) (x : Entry) (s : State) : State :=
  let s := setEngine e (fun y => { y with deque := x :: y.deque }) s
  let s := setLine x (fun l => { l with pushed := some e }) s
  raiseDeadline (e / 4) (wakeBrick (e / 4) s)

/-- Push an entry, or keep it in the feeder queue. -/
def pushEntry (x : Entry) (s : State) : State :=
  match pushTarget s x with
  | some e => pushTo e x s
  | none => { s with work := { s.work with feeder := s.work.feeder ++ [x] } }

/-- Push what can be pushed of the feeder queue, in issue order. -/
def drainFeeder : List Entry → State → State
  | [], s => s
  | x :: r, s => drainFeeder r (pushEntry x s)

/-- FEEDER_PUSH (R77). -/
def execFeederPush (s : State) : Res :=
  .next (drainFeeder s.work.feeder { s with work := { s.work with feeder := [] } })

/-- SV issues an entry: a ledger line, and the push (R77, R78). -/
def issueEntry (x : Entry) (s : State) : State :=
  let l : LedgerLine := { entry := x, pushed := none, taken := none, done := false }
  pushEntry x { s with work := { s.work with ledger := s.work.ledger.filter (fun y => !sameEntry y.entry x) ++ [l] } }

/-- The split bit of a class-C unit (R86). -/
def splitBit (s : State) (u : Nat) : Nat :=
  let ok (k : Nat) : Bool := (upto 16).any (fun b => inService s b && !bit b k) && (upto 16).any fun b => inService s b && bit b k
  (([u % 4, (u + 1) % 4, (u + 2) % 4, (u + 3) % 4].find? ok)).getD (u % 4)

/-- Issue a unit: one entry, or two replicas with their vote (R77, R86, R87). -/
def issueUnit (c n u : Nat) (e : UnitEntry) (s : State) : State :=
  let x : Entry := { unit := u, course := n, cls := c, role := 0, split := 0, excl1 := noBrick, excl2 := noBrick,
                     attempt := 0, ember := e.ember, stamp := (((cls s c).cycle).map (·.stamp)).getD 0 }
  if e.crit = 1 then
    let k := splitBit s u
    let v : Vote := { cls := c, unit := u, stamp := x.stamp }
    let s := { s with work := { s.work with votes := s.work.votes ++ [v] } }
    issueEntry { x with role := 2, split := k } (issueEntry { x with role := 1, split := k } s)
  else issueEntry x s

/-- Issue the units of a course in ascending UNIT_INDEX (R77). -/
def issueUnits (c n : Nat) (im : Image) : List Nat → State → State
  | [], s => s
  | u :: r, s =>
    match unitAt im u with
    | some e => issueUnits c n im r (issueUnit c n u e s)
    | none => issueUnits c n im r s

/-! ### Taking and stealing (R79 to R81) -/

/-- A class is restricted at an engine: only ROLE 1, 2 and 3 are yielded (R79, R110, R111). -/
def restricted (s : State) (c : Nat) : Bool :=
  decide (1 < c) && !admitted s c && !(c = 2 && (match (cls s 2).cycle with
    | some y => y.forced
    | none => false))

/-- A restricted class yields the entry. -/
def yields (r : Bool) (x : Entry) : Bool := !r || decide (x.role ≠ 0)

/-- The bottom entry of an engine's own deque (R79 step 1). -/
def bottomEntry (x : Engine) (c : Nat) (r : Bool) : Option Entry := ((dequeOf x c).take 8).find? (yields r)

/-- The top entry that a thief's brick may take (R80). -/
def topEntry (x : Engine) (c b : Nat) (r : Bool) : Option Entry :=
  ((dequeOf x c).reverse.take 8).find? fun y => eligible y b && yields r y

/-- A victim within the own brick with an entry for the thief (R79 step 2). -/
def localVictim (s : State) (e c : Nat) (r : Bool) : Option (Nat × Entry) :=
  [1, 2, 3].foldl (fun o d => match o with
    | some x => some x
    | none =>
      let v := 4 * (e / 4) + (e % 4 + d) % 4
      (topEntry (engine s v) c (e / 4) r).map fun x => (v, x)) none

/-- Work-present bit of a control brick (R79 step 3). -/
def workPresent (s : State) (b : Nat) : Bool := (enginesOf b).any fun e => !(engine s e).deque.isEmpty

/-- The next brick to ask for a steal, from distance `d` on (R79 step 3). -/
def nextVictim (s : State) (e d : Nat) : Option Nat :=
  ((upto 16).filter fun i => decide (d ≤ i) && decide (i ≠ 0)).find? fun i =>
    let v := Nat.xor (e / 4) i
    inService s v && workPresent s v

/-- The engine of a victim brick whose deque of a class holds the most entries, the lowest winning a tie (R80). -/
def fullestEngine (s : State) (v c : Nat) : Nat :=
  (enginesOf v).foldl (fun m e => if (dequeOf (engine s m) c).length < (dequeOf (engine s e) c).length then e else m) (4 * v)

/-- Take an entry off an engine's deque. -/
def offDeque (v : Nat) (x : Entry) (s : State) : State :=
  restBrick (v / 4) (setEngine v (fun y => { y with deque := removeFirst x y.deque }) s)

/-- Engine clocks of a brick up to now, in fifths of a clock (R74, R101). -/
def brickClocks (s : State) (b : Nat) : Nat := clocksAt (brick s b) s.refNs

/-- An engine takes an entry: the ledger and the debit (R79, R104), and the unit starts (R70, R74); a brick that starts
deadline work is raised (R109). -/
def takeEntry (e : Nat) (x : Entry) (stolen : Bool) (s : State) : State :=
  let s := setLine x (fun l => { l with taken := some e }) s
  let s := setEngine e (fun y => { y with running := some x, startedAt := s.refNs, startClk := brickClocks s (e / 4), idle := false
                                          search := none, grant := none
                                          steals := if stolen then sat32 (y.steals + 1) else y.steals }) s
  raiseDeadline (e / 4) (debit x.ember s)

/-- The classes that are restricted when a selection starts (R79, R110). -/
def barredNow (s : State) : List Nat := (upto 5).filter (restricted s)

/-- One class of the selection loop from a distance of the search across the mortar; 0 starts with the own deque. -/
def selectClass (e : Nat) (barred : List Nat) (c d : Nat) (s : State) : Option State :=
  let r := barred.contains c
  let own := if d = 0 then bottomEntry (engine s e) c r else none
  match own with
  | some x => some (takeEntry e x false (offDeque e x s))
  | none =>
    match (if d = 0 then localVictim s e c r else none) with
    | some (v, x) => some (takeEntry e x true (offDeque v x s))
    | none => (nextVictim s e d).map fun i => setEngine e (fun y => { y with search := some ⟨c, i, barred⟩, idle := false }) s

/-- The selection loop over a list of classes; the first one continues at a distance (R79, R81). -/
def selectFrom (e : Nat) (barred : List Nat) (d : Nat) : List Nat → State → State
  | [], s => restBrick (e / 4) (setEngine e (fun y => { y with idle := true, search := none }) s)
  | c :: r, s =>
    match selectClass e barred c d s with
    | some s' => s'
    | none => selectFrom e barred 0 r s

/-- The engines of the brick have their clock: it is at a point, or in TRANSITION on its way to another point or to BANKED,
where the unit in progress runs on (R101, R102). -/
def enginesRun (x : Brick) : Bool := atPoint x || (decide (x.st = .transition) && !x.waking)

/-- An engine selects its next entry (R79). A brick that is banked, or has no clock yet, runs no engine. -/
def selectWork (e : Nat) (s : State) : State :=
  let x := engine s e
  if engineUp s e && enginesRun (brick s (e / 4)) && x.running.isNone && x.search.isNone && x.grant.isNone then
    selectFrom e (barredNow s) 0 [0, 1, 2, 3, 4] s
  else s

/-- ENGINE_WAKE (R81). -/
def execEngineWake (e : EngineId) (s : State) : Res := .next (if (engine s e.val).idle then selectWork e.val s else s)

/-- A deque unit answers a steal request with its top eligible entry, or with none (R80). -/
def grantSteal (e victim : Nat) (q : Search) (s : State) : State :=
  let v := fullestEngine s victim q.cls
  match topEntry (engine s v) q.cls (e / 4) (q.barred.contains q.cls) with
  | some x => setEngine e (fun y => { y with grant := some (some x) }) (offDeque v x s)
  | none => setEngine e (fun y => { y with grant := some none }) s

/-- STEAL_REQUEST (R80, R102): a thief's request reaches a victim brick, whose deque unit grants one entry or none. A banked
brick is woken, and one in TRANSITION holds the request (R17); its BANK_DELAY count starts afresh at the answer. -/
def execStealRequest (thief : EngineId) (victim : Fin 16) (c : Fin 5) (s : State) : Res :=
  let e := thief.val
  .next (match (engine s e).search with
    | none => s
    | some q =>
      if q.cls ≠ c.val ∨ Nat.xor (e / 4) q.dist ≠ victim.val ∨ (engine s e).grant.isSome ∨ !engineUp s e then s
      else if !inService s victim.val then setEngine e (fun y => { y with grant := some none }) s
      else
        let s := wakeBrick victim.val s
        if atPoint (brick s victim.val) then grantSteal e victim.val q s else s)

/-- STEAL_GRANT (R80): the answer reaches the thief, which takes the entry or goes on searching. -/
def execStealGrant (thief : EngineId) (s : State) : Res :=
  let e := thief.val
  .next (match (engine s e).search, (engine s e).grant with
    | some q, some g =>
      if !engineUp s e then s
      else match g with
        | some x => takeEntry e x true s
        | none =>
          let s := setEngine e (fun y => { y with search := none, grant := none }) s
          if q.dist < 15 then selectFrom e q.barred (q.dist + 1) ((upto 5).filter fun k => decide (q.cls ≤ k)) s
          else selectFrom e q.barred 0 ((upto 5).filter fun k => decide (q.cls < k)) s
    | _, _ => s)

/-! ### Re-issue (R93, R94) -/

/-- Remove an entry from deques and feeder queue. -/
def withdraw (x : Entry) (s : State) : State :=
  { s with engines := s.engines.map fun e => (e.1, { e.2 with deque := e.2.deque.filter fun y => !sameEntry y x })
           work := { s.work with feeder := s.work.feeder.filter fun y => !sameEntry y x } }

/-- Count a re-issue. -/
def countReissue (s : State) : State := { s with work := { s.work with reissues := sat32 (s.work.reissues + 1) } }

/-- Re-issue an entry with ATTEMPT increased by 1. -/
def issueAgain (x : Entry) (s : State) : State := issueEntry { x with attempt := x.attempt + 1 } (countReissue s)

/-- The brick of the engine that has taken an entry, a steal that is on its way included (R94). -/
def takenBrick (s : State) (x : Entry) (l : LedgerLine) : Option Nat :=
  match l.taken with
  | some t => some (t / 4)
  | none => (s.engines.find? fun e => match e.2.grant with
      | some (some y) => sameEntry y x
      | _ => false).map fun e => e.1 / 4

/-- Both replicas of a unit are issued again with a new split bit (R86, R94 exception 2). -/
def splitAgain (x sib : Entry) (s : State) : State :=
  let k := splitBit s x.unit
  issueAgain { sib with split := k, excl1 := noBrick } (issueAgain { x with split := k, excl1 := noBrick } (withdraw sib s))

/-- Re-issue an entry under R94. An entry whose class no longer runs a cycle is dropped, but for a deciding run and for
Background, which has no cycles. A replica whose placement no split bit restricts any more, and whose sibling no engine has
taken, gets a new split bit with it, so that the two never run in the same brick. -/
def reissue (x : Entry) (s : State) : State :=
  if (cls s x.cls).cycle.isNone && decide (x.role ≠ 3) && decide (x.cls ≠ 4) then s
  else if x.role = 1 ∨ x.role = 2 then
    let sib := { x with role := 3 - x.role }
    match lineOf s sib with
    | none => issueAgain x s
    | some l =>
      match takenBrick s sib l with
      | some b => issueAgain { x with excl1 := b, split := noSplit } s
      | none =>
        if x.split ≠ noSplit && l.entry.split ≠ noSplit && (placeFrom s x 0).isSome then issueAgain x s
        else splitAgain x l.entry s
  else issueAgain x s

/-- Re-issue several entries. -/
def reissueAll : List Entry → State → State
  | [], s => s
  | x :: r, s => reissueAll r (reissue x s)

/-! ### Fencing (R19, R92, R93) -/

/-- Code of a fence cause (R98). -/
def causeCode : FenceCause → Nat
  | .voteLost => 1
  | .hung => 2
  | .check => 3
  | .brick => 4

/-- Move entries to the bottom of the deques of engines in turn; an entry whose deque is full waits in the feeder queue
(R93 step 2). -/
def moveEntries (to' : List Nat) : Nat → List Entry → State → State
  | _, [], s => s
  | i, x :: r, s =>
    let e := lget to' (i % Nat.max to'.length 1) 0
    moveEntries to' (i + 1) r (if dequeFull s e x.cls then { s with work := { s.work with feeder := s.work.feeder ++ [x] } } else pushTo e x s)

/-- An engine becomes a cinder: what it ran and held, and ENGINE_FENCED (R92). The embers it spent on a unit it was
running are open: a free value is settled (R104 step 4). -/
def cinderEngine (e : Nat) (cause : FenceCause) (s : State) : State :=
  let x := engine s e
  let s := match x.running with
    | some y => let (n, s) := takeFree s
                settleEntry y (n.toNat % 2 ^ 32) s
    | none => s
  let s := setEngine e (fun y => { y with cinder := some cause, running := none, stopping := false, search := none, grant := none
                                          idle := true, deque := [] }) s
  raise 0x32 [e, causeCode cause] (restBrick (e / 4) s)

/-- Entries that a fenced engine had taken and not completed. -/
def takenEntries (x : Engine) : List Entry :=
  (match x.running with
   | some y => if x.stopping then [] else [y]
   | none => []) ++ (match x.grant with
   | some (some y) => [y]
   | _ => [])

/-- Entries of an engine's deques, class by class, from top to bottom. -/
def dequeTop (x : Engine) : List Entry := (upto 5).flatMap fun c => (dequeOf x c).reverse

/-- A brick becomes a cinder: its boundary closes, the packets that wait for it are answered, its state is CINDER, and the
events follow (R19 steps 1 to 3). -/
def closeBrick (b : Nat) (event : Option Nat) (s : State) : State :=
  let waiting := waitingFor (brick s b)
  let s := setBrick b (fun x => { x with
    st := .cinder, closed := true, toBanked := false, waking := false, issued := []
    ports := x.ports.map fun c => (c.1, { c.2 with waiting := [], raisedAt := none }) }) s
  let s := answerAll waiting s
  let s := match event with
    | some v => raise v [b] (countFault 8 s)
    | none => s
  raise 0x23 [b] s

/-- Engines of a fenced brick become cinders with cause BRICK. -/
def cinderAll : List Nat → State → State
  | [], s => s
  | e :: r, s => cinderAll r (if (engine s e).cinder.isNone then cinderEngine e .brick s else s)

/-- A brick is fenced under R19, with the consequence of R21 and the re-issue of R93 step 3. -/
def fenceBrick (b : Nat) (event : Option Nat) (s : State) : State :=
  if !inService s b then s
  else if b < 16 then
    let lost := (enginesOf b).flatMap fun e => takenEntries (engine s e) ++ dequeTop (engine s e)
    let s := cinderAll (enginesOf b) (closeBrick b event s)
    brickConsequence b (reissueAll lost s)
  else brickConsequence b (closeBrick b event s)

/-- An engine is fenced (R92, R93); when all four engines of a brick are cinders, the brick is fenced. -/
def fenceEngine (e : Nat) (cause : FenceCause) (s : State) : State :=
  if !engineUp s e then s
  else
    let x := engine s e
    let s := cinderEngine e cause s
    let b := e / 4
    let others := ([1, 2, 3].map fun d => 4 * b + (e % 4 + d) % 4).filter (engineUp s)
    if others.isEmpty then
      let s := closeBrick b none s
      brickConsequence b (reissueAll (takenEntries x ++ dequeTop x) s)
    else moveEntries others 0 (dequeTop x) (reissueAll (takenEntries x) s)

/-- ENGINE_HUNG (R74, R101): the unit watchdog has counted 4 × the recorded length in engine clocks of its brick. -/
def execEngineHung (e : EngineId) (s : State) : Res :=
  let x := engine s e.val
  .next (match x.running with
    | none => s
    | some y =>
      let worst := ((entryUnit s y).map (·.worstClocks)).getD 0
      if engineUp s e.val && decide (x.startClk + 20 * worst ≤ brickClocks s (e.val / 4)) then
        fenceEngine e.val .hung (raise 0x30 [e.val, y.unit] s)
      else s)

/-- ENGINE_CHECK (R92): the engine's own checks found an uncorrectable error. -/
def execEngineCheck (e : EngineId) (s : State) : Res :=
  .next (if engineUp s e.val then fenceEngine e.val .check (raise 0x31 [e.val] s) else s)

end Sys2Proof.Machine
end

