-- ==== Sys2Proof/Machine/Cycle.lean ====
section
/-! DEFINITION. Cycle.lean: marks and snapshots, courses, units, votes and commits (R22, R32 to R44, R70 to R72, R88 to
R91, R242, R243, R445). -/

namespace Sys2Proof.Machine

/-! ### What a cycle reads (R35, R36, R46 to R48, R209) -/

/-- A point as a snapshot holds it. -/
def snapRec (s : State) (y : Cycle) (id : Nat) : PointRec :=
  match fget y.snap id with
  | some r => r
  | none => match defOf s id with
    | some d => blankRec d
    | none => {}

/-- A record as the forces at the mark show it (R48). -/
def cycleForce (y : Cycle) (id : Nat) (r : PointRec) : PointRec :=
  match fget y.forces id with
  | some f => forcedRec f r
  | none => r

/-- A point as the snapshot shows it, forces applied. -/
def snapRead (s : State) (y : Cycle) (id : Nat) : PointRec := cycleForce y id (snapRec s y id)

/-- Points that the solver writes (R183, R184, R209). -/
def solverPoints (s : State) : List Nat :=
  match s.solver.model with
  | some m => (m.nodes.flatMap fun n => [n.pPoint, n.tPoint]) ++ m.branches.map (·.qPoint)
  | none => []

/-- Units of a class. -/
def unitsOf (im : Image) (c : Nat) : List UnitEntry := im.units.filter fun u => u.cls = c

/-- A block of a course reads a point (R36, R209). -/
def courseRead (s : State) (c course : Nat) (im : Image) (y : Cycle) (id : Nat) : PointRec :=
  let r := match fget y.writes id with
    | some r => r
    | none =>
      if (writtenBy (unitsOf im c)).contains id then liveRec s id
      else if c = 1 && decide ((classEntry im 1).solveCourse ≤ course) then (fget y.solved id).getD (snapRec s y id)
      else snapRec s y id
  cycleForce y id r

/-- What a run of a unit sees (R71, R83). -/
def unitEnv (s : State) (c course : Nat) (im : Image) (y : Cycle) : UnitEnv :=
  { read := courseRead s c course im y, last := liveRec s, pdef := defOf s
    store := fun d r => (storedRec s d r, recFits s d r)
    state := fun i => match instOf im i with
      | some e => instState s im c e
      | none => []
    fresh := fun i => (cls s c).fresh.contains i, stamp := y.stamp, count := y.count }

/-! ### Commit (R37, R39, R41, R44, R72, R78) -/

/-- Deadline of a cycle: period start + period − guard of 2% (R41). -/
def cycleDeadline (stamp periodUs : Nat) : Nat := stamp + periodUs * 980

/-- The deadline of a cycle has passed (R4, R41). -/
def pastDeadline (s : State) (y : Cycle) (periodUs : Nat) : Bool := reached s (cycleDeadline y.stamp periodUs + 1)

/-- Put a cycle's writes into the live table, with LATE as the commit has it (R37, R41). -/
def commitWrites (isLate : Bool) : List (Nat × PointRec) → State → State
  | [], s => s
  | (id, r) :: l, s =>
    commitWrites isLate l (putRec id { r with quality := if isLate then qSet r.quality qLate else qClear r.quality qLate } s)

/-- New instance states over the read buffer (R72). -/
def mergeStates (new' : List (Nat × List W64)) (m : FMap (List W64)) : FMap (List W64) := new'.foldr (fun e m => fset m e.1 e.2) m

/-- A class at its commit (R44, R63, R72, R135). -/
def committedClass (s : State) (y : Cycle) (isLate : Bool) (k : ClassSt) : ClassSt :=
  let us := (s.refNs - y.markAt) / 1000
  let onTime := !isLate && decide (k.restartSkip ≠ some y.stamp) && (decide (k.st = .init) || decide (k.st = .hold))
  { k with
    st := if onTime then .run else k.st
    cycle := none
    readBuf := mergeStates y.states k.readBuf
    fresh := k.fresh.filter fun i => (fget y.states i).isNone
    lastExecUs := sat32 us, maxExecUs := Nat.max k.maxExecUs (sat32 us)
    lastCommitStime := shortNow s, lastStamp := y.stamp, abandonRow := 0, republish := false }

/-- The output paths take a commit up (R39, R43, R419, R447). -/
def publishCommit (c : Fin 4) (y : Cycle) (s : State) : State :=
  let st := (cls s c.val).st
  let s := if st ≠ .hold then canPublish c.val (latchLoops c.val s) else s
  let set := if st = .run then outputSet s c.val else []
  let s := if st = .run then publishClass c.val y.stamp s else s
  sendDigest c y.count (outputDigest s c.val set) set y.notCompared s

/-- Class code as a periodic class. -/
def pclass (c : Nat) : Fin 4 := ⟨c % 4, Nat.mod_lt _ (by decide)⟩

/-- The first Main commit under a new release completes CMD_FWU_ACTIVATE (R549 step 8, R558). -/
def activationDone (c : Nat) (s : State) : State :=
  match s.fwu.activating with
  | some x => if c = 1 then
      finishOpt 0x0D04 x.req stOk 0 (putLE 4 x.pauseUs ++ [byte x.mode, 0, 0, 0]) { s with fwu := { s.fwu with activating := none } }
    else s
  | none => s

/-- The service pause of a live activation runs: period starts run no cycle (R549). -/
def pausing (s : State) : Bool := s.fwu.activating.any fun x => decide (s.refNs < x.until')

/-- CLASS_RUN, and the restart command that waited for this commit; a cycle that already ran when the restart was accepted is
not the one it waits for (R44, R64). -/
def commitDone (c : Nat) (was : ClassSt) (s : State) : State :=
  let now := cls s c
  let s := if now.st = .run && decide (was.st ≠ .run) && (decide (was.st = .hold) || was.restartReq.isSome) then raise 0x28 [c] s else s
  if was.restartSkip.isSome && was.restartSkip = (was.cycle.map (·.stamp)) then setCls c (fun k => { k with restartSkip := none }) s
  else finishOpt 0x0203 was.restartReq stOk 0 [] (setCls c (fun k => { k with restartReq := none, restartSkip := none }) s)

/-- Units of Background run in the time a Main cycle leaves (R31, R85): once none of them is outstanding, SV issues them all
again at a Main commit (log entry 49). -/
def issueBackground (s : State) : State :=
  if s.work.ledger.any fun l => decide (l.entry.cls = 4) then s
  else match (cls s 4).prog with
    | none => s
    | some im => issueUnits 4 0 im ((upto im.units.length).filter fun u => decide ((unitAt im u).map (·.cls) = some 4)) s

/-- SV commits a cycle (R39). -/
def commitCycle (c : Nat) (s : State) : State :=
  match (cls s c).cycle with
  | none => s
  | some y =>
    let was := cls s c
    let isLate := y.late || pastDeadline s y was.periodUs
    let s := commitWrites isLate y.writes s
    let s := setCls c (committedClass s y isLate) s
    let s := { s with work := { s.work with ledger := s.work.ledger.filter fun l => decide (l.entry.cls ≠ c) } }
    let s := activationDone c (commitDone c was (publishCommit (pclass c) y s))
    if c = 2 then retainCommit y.stamp (sampleHist y.stamp false s) else if c = 1 then issueBackground s else s

/-! ### Courses (R38, R209) -/

/-- Change the running cycle of a class. -/
def setCycle (c : Nat) (f : Cycle → Cycle) (s : State) : State :=
  setCls c (fun k => { k with cycle := k.cycle.map f }) s

/-- Release a course, or commit after the last one; `fuel` bounds the empty courses passed over. -/
def openCourse (c : Nat) : Nat → Nat → State → State
  | 0, _, s => s
  | fuel + 1, n, s =>
    match (cls s c).cycle, (cls s c).prog with
    | some y, some im =>
      let e := classEntry im c
      if e.courseCount ≤ n then
        (if y.jobOut then setCycle c (fun y => { y with phase := .awaitJob }) s else commitCycle c s)
      else if n = e.solveCourse ∧ y.jobOut then
        setCycle c (fun y => { y with phase := .course n, solveHeld := true, unitsLeft := [] }) s
      else
        let us := courseUnits im c n
        let s := setCycle c (fun y => { y with
          phase := .course n, solveHeld := false, unitsLeft := us, releasedAt := devNs s, forced := false }) s
        if us.isEmpty then openCourse c fuel (n + 1) s else issueUnits c n im us s
    | _, _ => s

/-- Courses that a class's program has at most, with the commit after them. -/
def courseFuel (s : State) (c : Nat) : Nat := (((cls s c).prog).map fun im => (classEntry im c).courseCount).getD 0 + 1

/-- Release courses from a number on. -/
def releaseFrom (c n : Nat) (s : State) : State := openCourse c (courseFuel s c) n s

/-- A snapshot takes points from the live table. -/
def takePoints (s : State) : List Nat → FMap PointRec → FMap PointRec
  | [], m => m
  | id :: r, m => takePoints s r (if defined s id then fset m id (liveRec s id) else m)

/-- The job that a cycle waits for has returned or reached its deadline (R39, R209). -/
def jobReturned (c : Nat) (s : State) : State :=
  match (cls s c).cycle with
  | none => s
  | some y =>
    let solved := if c = 1 then takePoints s (solverPoints s) [] else []
    let s := setCycle c (fun y => { y with jobOut := false, solved := solved }) s
    match y.phase with
    | .awaitJob => commitCycle c s
    | .course n => if y.solveHeld then releaseFrom c n s else s
    | .marking => s

/-! ### Snapshot (R22, R35, R46) -/

/-- Points that loop channels write (R35). -/
def loopPoints (s : State) : List Nat :=
  s.loops.flatMap fun e => match e.2.desc with
    | some d => [d.outPoint, d.speffPoint]
    | none => []

/-- Points that metering writes (R35, R288). -/
def meterPoints (s : State) : List Nat :=
  match s.meter.params with
  | none => []
  | some p => (p.sets.filter fun x => x.mode ≠ 0).flatMap (fun x => (upto 12).map (x.pointBase + ·)) ++
      (p.heats.filter fun x => x.mode ≠ 0).flatMap fun x => (upto 8).map (x.pointBase + ·)

/-- Points of a producer brick (R35). -/
def producerPoints (s : State) (b : Nat) : List Nat :=
  if b = idNB then (s.defs.filter fun e => tfSource e.2.typeflags = 1).map (·.1)
  else if b = idPB then (s.defs.filter fun e => tfSource e.2.typeflags = 2).map (·.1)
  else if b = idLB then loopPoints s
  else if b = idMB then meterPoints s
  else []

/-- SEQ of the newest dataset of every station that delivers. -/
def liveVector (s : State) : List (Nat × Nat) :=
  s.rings.stations.filterMap fun e => (e.2.datasets.head?).map fun d => (e.1, d.seq)

/-- An absent station's inputs: last values, STALE and HELD (R46). -/
def staleInputs (s : State) : List (Nat × PointDef) → FMap PointRec → FMap PointRec
  | [], m => m
  | (id, d) :: r, m =>
    let m := match fget m id with
      | some x => if tfSource d.typeflags = 1 && (station s (stationOf id)).absent && qHas x.quality qHeld then
          fset m id { x with quality := qSet (qWithState x.quality qStale) qHeld } else m
      | none => m
    staleInputs s r m

/-- Stations whose points a class reads (R445). -/
def readStations (im : Image) (c : Nat) : List Nat := (readBy im (unitsOf im c)).map stationOf

/-- A point by value in a MARK record. -/
def mirrorPoint (id : Nat) (r : PointRec) : MirrorPoint :=
  { id := id, value := r.value, stime := r.stime, quality := r.quality, scale := r.scale }

/-- The MARK record of a closed snapshot (R444, R445). -/
def sendMark (c : Nat) (s : State) : State :=
  match (cls s c).cycle, (cls s c).prog with
  | some y, some im =>
    let byValue := producerPoints s idPB ++ producerPoints s idLB ++ producerPoints s idMB
    let ids := (readBy im (unitsOf im c)).filter byValue.contains
    sendMirror (.mark (pclass c) y.count y.stamp (y.vector.filter fun e => (readStations im c).contains e.1)
      (ids.map fun id => mirrorPoint id (snapRec s y id))) s
  | _, _ => s

/-- The job of a cycle is issued (R40 step 3, R215, R238, R244). -/
def issueJob (c : Nat) (s : State) : State :=
  match (cls s c).cycle, (cls s c).prog with
  | some y, some im =>
    if c = 1 ∧ (classEntry im 1).solveCourse ≠ 0xFFFF then
      let (s, out) := issueMain y.stamp (snapRead s y) s
      setCycle 1 (fun y => { y with jobOut := out }) s
    else if c = 3 then
      let s := noteMismatch s
      if optRuns s then setCycle 3 (fun y => { y with jobOut := true }) { s with opt := { s.opt with wanted := true } } else s
    else s
  | _, _ => s

/-- The snapshot closes: the MARK record, the job and course 0 (R22, R40 step 3). -/
def closeSnapshot (c : Nat) (s : State) : State :=
  let s := setCycle c (fun y => { y with awaiting := [], snap := staleInputs s s.defs y.snap }) s
  releaseFrom c 0 (issueJob c (sendMark c s))

/-- SV stamps a cycle and broadcasts its mark (R22, R32). -/
def startCycle (c stamp : Nat) (count : W32) (s : State) : State :=
  let y : Cycle := { stamp := stamp, count := count, markAt := s.refNs, awaiting := [idNB, idPB, idMB, idLB], snap := s.points
                     forces := s.forces, vector := liveVector s }
  setCls c (fun k => { k with cycle := some y, started := stamp }) s

/-- MARK_ACK (R22, R35): a producer acknowledges the mark within 20 µs of it; its points are those of its last completed
write. -/
def execMarkAck (c : PClass) (b : BrickId) (s : State) : Res :=
  .next (match (cls s c.val).cycle with
    | none => s
    | some y =>
      if decide (y.phase = .marking) && y.awaiting.contains b.val && inService s b.val && decide (since s y.markAt ≤ 20000) then
        let vec := if b.val = idNB then liveVector s else y.vector
        let s := setCycle c.val (fun y => { y with
          awaiting := y.awaiting.filter (fun x => decide (x ≠ b.val)), vector := vec
          snap := takePoints s (producerPoints s b.val) y.snap }) s
        if y.awaiting = [b.val] then closeSnapshot c.val s else s
      else s)

/-- SNAPSHOT_PARTIAL for each producer that has not acknowledged (R22). -/
def raisePartial (c : Nat) : List Nat → State → State
  | [], s => s
  | b :: r, s => raisePartial c r (raise 0x24 [c, b] s)

/-- SNAPSHOT_TIMEOUT (R22): 20 µs after the mark SV closes the snapshot without the producers that are missing. -/
def execSnapshotTimeout (c : PClass) (s : State) : Res :=
  .next (match (cls s c.val).cycle with
    | none => s
    | some y =>
      if decide (y.phase = .marking) && !y.awaiting.isEmpty && decide (20000 ≤ since s y.markAt) then
        closeSnapshot c.val (raisePartial c.val y.awaiting s)
      else s)

/-! ### The standby's cycles (R444, R445) -/

/-- Entries of a dataset enter a snapshot as NB writes them. -/
def snapDataset (s : State) (st : Nat) (d : InDataset) (m : FMap PointRec) : FMap PointRec :=
  (writeEntries st d.time d.entries { s with points := m }).points

/-- The snapshot vector of a MARK record: datasets held enter the snapshot, the others are to be filled. -/
def snapVector (s : State) : List (Nat × Nat) → FMap PointRec → FMap PointRec × List (Nat × Nat)
  | [], m => (m, [])
  | (st, q) :: r, m =>
    match (station s st).datasets.find? fun d => d.seq = q with
    | some d => snapVector s r (snapDataset s st d m)
    | none => let (m, l) := snapVector s r m
              (m, (st, q) :: l)

/-- Points by value enter a snapshot. -/
def snapPoints (s : State) : List MirrorPoint → FMap PointRec → FMap PointRec
  | [], m => m
  | p :: r, m => snapPoints s r (match defOf s p.id with
    | some d => fset m p.id { value := p.value, stime := p.stime, quality := p.quality, scale := p.scale, typeflags := d.typeflags }
    | none => m)

/-- Requests for snapshot fills. -/
def requestFills (c : Nat) : List (Nat × Nat) → State → State
  | [], s => s
  | (st, q) :: r, s => requestFills c r (emit (.fillRequest st q) (setPair (fun p => { p with fills := p.fills ++ [(c, st, q)] }) s))

/-- Device time lies more than 10 µs from a stamp of the active (R337, R4). -/
def stampApart (s : State) (stamp : Nat) : Bool := decide (10000 < (wrapDiff 64 stamp (devNs s)).natAbs)

/-- TIME_PAIR_DIVERGE once an episode (R337). -/
def checkStamp (stamp : Nat) (s : State) : State :=
  let apart := stampApart s stamp
  let s' := { s with time := { s.time with divergeEp := apart } }
  if apart && !s.time.divergeEp then raise 0x8B [stamp] s' else s'

/-- A Main period start of the settings in force. -/
def mainStartAt (s : State) (t : Nat) : Bool := t % (Nat.max (cls s 1).periodUs 1 * 1000) = 0

/-- The standby before the marks of an instant: force changes that are due, and at a Main period start the model that is due
and the trajectory points (R48, R220, R243). -/
def followInstant (t : Nat) (s : State) : State :=
  let s := forcesDue t s
  if mainStartAt s t && decide ((cls s 1).prepared ≠ some t) then
    trajectoryWrite t (modelDue t (setCls 1 (fun k => { k with prepared := some t }) s))
  else s

/-- A halt that the active made in the cycle of this mark, or in an earlier one, takes effect (R97). -/
def haltAtMark (c stamp : Nat) (s : State) : State :=
  match (cls s c).haltAt with
  | some t => if 0 ≤ wrapDiff 64 t stamp then haltClass c (setCls c (fun k => { k with haltAt := none }) s) else s
  | none => s

/-- A MARK record starts a cycle of a class that runs none. -/
def startMarked (h : HeldMark) (s : State) : State :=
  let s := followInstant h.stamp (if h.cls = 1 then checkStamp h.stamp s else s)
  let (m, missing) := snapVector s h.vector s.points
  let y : Cycle := { stamp := h.stamp, count := h.cycle, markAt := s.refNs, snap := snapPoints s h.points m, forces := s.forces, vector := h.vector }
  let s := setCls h.cls (fun k => { k with cycle := some y, started := h.stamp, cycleCount := h.cycle, zero := false }) s
  haltAtMark h.cls h.stamp (if missing.isEmpty then closeSnapshot h.cls s else requestFills h.cls missing s)

/-- The class can start a cycle now (R44, R64, R96, R97, R249). -/
def mayStartCycle (k : ClassSt) : Bool :=
  k.cycle.isNone && !k.stopping && !k.halted && decide (k.st ≠ .safe) && k.prog.isSome

/-- The class has still to change programs for a cycle of this stamp (R59). -/
def switchFirst (s : State) (c stamp : Nat) : Bool :=
  s.switch.any fun w => decide (0 ≤ wrapDiff 64 w.at' stamp) && !w.changed.contains c

/-- A held MARK record starts its cycle once the class runs none (R452). -/
def startHeld (c : Nat) (s : State) : State :=
  match s.pair.marks.find? fun h => h.cls = c with
  | none => s
  | some h =>
    if mayStartCycle (cls s c) && !switchFirst s c h.stamp then
      startMarked h (setPair (fun p => { p with marks := removeFirst h p.marks }) s)
    else s

/-! ### Units (R71, R84, R144) -/

/-- What a run of a Background unit sees: live records as forces show them (R31, R48, R85). -/
def backEnv (s : State) (im : Image) : UnitEnv :=
  { read := readRec s, last := liveRec s, pdef := defOf s
    store := fun d r => (storedRec s d r, recFits s d r)
    state := fun i => match instOf im i with
      | some e => instState s im 4 e
      | none => []
    fresh := fun i => (cls s 4).fresh.contains i, stamp := devNs s, count := 0 }

/-- Events of a unit's run. -/
def unitEvents (c u : Nat) (o : UnitOut) (s : State) : State :=
  let s := o.outside.foldl (fun s (id : Nat) => raise 0x33 [(u : Int), (id : Int)] s) s
  let s := o.invalid.foldl (fun s (id : Nat) => raise 0x25 [(id : Int)] s) s
  match o.first, (cls s c).cycle with
  | some (i, code), some y =>
    if y.trapped.contains u then s
    else raiseC 0x37 [i, code] code (setCycle c (fun y => { y with trapped := u :: y.trapped }) s)
  | some (i, code), none => if c = 4 then raiseC 0x37 [i, code] code s else s
  | none, _ => s

/-- Results enter the class's private write area and the state buffer of the cycle. -/
def mergeResult (writes : FMap PointRec) (states : FMap (List W64)) (y : Cycle) : Cycle :=
  { y with writes := writes.foldr (fun e m => fset m e.1 e.2) y.writes, states := mergeStates states y.states }

/-- A unit is complete; the last one of the course closes the barrier (R38). -/
def unitDone (c u : Nat) (s : State) : State :=
  match (cls s c).cycle with
  | none => s
  | some y =>
    match y.phase with
    | .course n =>
      if y.unitsLeft.contains u then
        let left := y.unitsLeft.filter fun x => decide (x ≠ u)
        let s := setCycle c (fun y => { y with unitsLeft := left }) s
        if left.isEmpty then startHeld c (releaseFrom c (n + 1) s) else s
      else s
    | _ => s

/-- The run of a Background entry. -/
def runBack (s : State) (x : Entry) (upset : Int) : Option UnitOut :=
  match (cls s 4).prog, entryUnit s x with
  | some im, some u => some (runUnit (backEnv s im) im u upset)
  | _, _ => none

/-- A Background unit is complete: each point it wrote becomes its live record, its instance states their new values, and its
entry is no longer outstanding (R24, R31, R72). -/
def backDone (x : Entry) (o : UnitOut) (s : State) : State :=
  let s := commitWrites false o.writes s
  let s := setCls 4 (fun k => { k with
    readBuf := mergeStates o.states k.readBuf, fresh := k.fresh.filter fun i => (fget o.states i).isNone }) s
  { s with work := { s.work with ledger := s.work.ledger.filter fun l => !sameEntry l.entry x } }

/-- The run of an entry: cycle it belongs to and its result. -/
def runEntry (s : State) (x : Entry) (upset : Int) : Option UnitOut :=
  if x.cls = 4 then runBack s x upset
  else
  let old := (s.work.votes.find? fun v => v.cls = x.cls && v.unit = x.unit && v.stamp = x.stamp && v.discard).bind (·.ctx)
  let y := match (cls s x.cls).cycle with
    | some y => if y.stamp = x.stamp then some y else old
    | none => old
  match y, (cls s x.cls).prog, entryUnit s x with
  | some y, some im, some u => some (runUnit (unitEnv s x.cls x.course im y) im u upset)
  | _, _, _ => none

/-- An engine has finished with an entry: counters and settlement (R98, R104). -/
def engineDone (e : Nat) (x : Entry) (traps spent : Nat) (s : State) : State :=
  settleEntry x spent (setEngine e (fun y => { y with
    running := none, stopping := false, unitsRun := sat32 (y.unitsRun + 1), traps := satBits 16 (y.traps + traps) }) s)

/-- UNIT_COMPLETE (R71): the engine reports a completed unit, or ends a stopped unit at an instance boundary (R96), and
selects its next entry (R79). -/
def execUnitComplete (e : EngineId) (obs : RunObs) (s : State) : Res :=
  let k := engine s e.val
  .next (match k.running with
    | none => s
    | some x =>
      if !engineUp s e.val then s
      else if k.stopping then
        selectWork e.val (settleEntry x obs.spent (setEngine e.val (fun y => { y with running := none, stopping := false }) s))
      else match runEntry s x obs.upset with
        | none => selectWork e.val (engineDone e.val x 0 obs.spent s)
        | some o =>
          let s := unitEvents x.cls x.unit o (setLine x (fun l => { l with done := true }) (engineDone e.val x o.traps obs.spent s))
          if x.cls = 4 then selectWork e.val (backDone x o s)
          else if x.role = 0 then
            selectWork e.val (unitDone x.cls x.unit (setCycle x.cls (mergeResult o.writes o.states) s))
          else
            let g : Staged := { engine := e.val, hash := resultHash o, writes := o.writes, states := o.states }
            selectWork e.val (setEngine e.val (fun y => { y with hashOut := y.hashOut ++ [(x, g)] }) s))

/-! ### Votes (R88 to R91) -/

/-- A vote is the one on a unit of a cycle. -/
def isVote (c u stamp : Nat) (v : Vote) : Bool := v.cls = c && v.unit = u && v.stamp = stamp

/-- The vote on a unit of a cycle. -/
def voteOf (s : State) (c u stamp : Nat) : Option Vote := s.work.votes.find? (isVote c u stamp)

/-- Change a vote. -/
def setVote (c u stamp : Nat) (f : Vote → Vote) (s : State) : State :=
  { s with work := { s.work with votes := s.work.votes.map fun v => if isVote c u stamp v then f v else v } }

/-- A vote is settled. -/
def dropVote (c u stamp : Nat) (s : State) : State :=
  { s with work := { s.work with votes := s.work.votes.filter fun v => !isVote c u stamp v } }

/-- A staging area is released: MC copies it, unless the class's results are discarded (R89, R91). -/
def releaseStaged (v : Vote) (g : Staged) (s : State) : State :=
  if v.discard then dropVote v.cls v.unit v.stamp s
  else setVote v.cls v.unit v.stamp (fun v => { v with release := some g }) s

/-- Both replica hashes are there (R89, R90). -/
def compareReplicas (x : Entry) (v : Vote) (a b : Staged) (s : State) : State :=
  if a.hash = b.hash then releaseStaged v a s
  else
    let s := raise 0x34 [x.unit, a.engine / 4, b.engine / 4]
      (countFault 6 { s with work := { s.work with mismatches := sat32 (s.work.mismatches + 1) } })
    issueEntry { x with role := 3, split := 0, excl1 := a.engine / 4, excl2 := b.engine / 4, attempt := 0 } s

/-- The deciding hash is there (R90, R91). -/
def decideVote (v : Vote) (a b d : Staged) (s : State) : State :=
  let c := v.cls
  let u := v.unit
  if d.hash = a.hash ∨ d.hash = b.hash then
    let (win, lose) := if d.hash = a.hash then (a, b.engine) else (b, a.engine)
    let s := releaseStaged v win s
    let s := setEngine lose (fun y => { y with votesLost := satBits 16 (y.votesLost + 1) }) s
    raise 0x35 [u, lose] (fenceEngine lose .voteLost s)
  else
    let s := dropVote c u v.stamp (raise 0x36 [u] { s with work := { s.work with votesFailed := sat32 (s.work.votesFailed + 1) } })
    match v.discard, (cls s c).cycle, (cls s c).prog with
    | false, some y, some im =>
      match unitAt im u with
      | some e => unitDone c u (setCycle c (mergeResult (failedWrites (unitEnv s c 0 im y) e) []) s)
      | none => s
    | _, _, _ => s

/-- A staged result's hash reaches SV (R88). -/
def takeHash (x : Entry) (g : Staged) (s : State) : State :=
  match voteOf s x.cls x.unit x.stamp with
  | none => s
  | some v =>
    let v := if x.role = 1 then { v with a := some g } else if x.role = 2 then { v with b := some g } else { v with decider := some g }
    let v := { v with arrived := x.role :: v.arrived }
    let s := setVote x.cls x.unit x.stamp (fun _ => v) s
    match v.a, v.b, v.decider with
    | some a, some b, some d => decideVote v a b d s
    | some a, some b, none => compareReplicas x v a b s
    | _, _, _ => s

/-- RESULT_HASH (R88 to R90): the oldest staged result of an engine reaches SV. -/
def execResultHash (e : EngineId) (s : State) : Res :=
  .next (match (engine s e.val).hashOut with
    | [] => s
    | (x, g) :: r => takeHash x g (setEngine e.val (fun y => { y with hashOut := r }) s))

/-- STAGING_COPY_DONE (R89): MC has copied a released staging area, and the unit is complete. -/
def execStagingCopyDone (c : PClass) (u : Nat) (s : State) : Res :=
  .next (match s.work.votes.find? fun v => v.cls = c.val && v.unit = u && v.release.isSome && !v.discard with
    | none => s
    | some v =>
      match v.release with
      | none => s
      | some g => unitDone c.val u (setCycle c.val (mergeResult g.writes g.states) (dropVote c.val u v.stamp s)))

/-! ### Period starts (R32 to R34, R42, R44, R62) -/

/-- A configuration takes effect: no cycle runs, and the instant is a start of the new period that is a Main period
start under the settings in force (R62). The starts of the new period count from here on. -/
def adoptClassCfg (c now : Nat) (s : State) : State :=
  let k := cls s c
  match k.nextCfg with
  | none => s
  | some (p, d) =>
    let t := now / (Nat.max p 1 * 1000) * (Nat.max p 1 * 1000)
    if k.cycle.isNone && !k.stopping && decide (now - t ≤ 2000) && t % (Nat.max (cls s 1).periodUs 1 * 1000) = 0 then
      let s := setCls c (fun k => { k with
        periodUs := p, nextCfg := none, lastStart := if later 64 k.lastStart t then t - Nat.max p 1 * 1000 else k.lastStart }) s
      if c = 1 then { s with solveDeadline := d } else s
    else s

/-- What a period start does to the class's cycle (R42, R44, R53, R452, R550). -/
def periodStart (c t : Nat) (s : State) : State :=
  let k := cls s c
  match k.cycle with
  | some _ =>
    raise 0x26 [c, k.cycleCount.toNat] (rcAdd 0x808 1 (setCls c (fun k => { k with overruns := sat32 (k.overruns + 1) }) s))
  | none =>
    let s := if k.republish then canRepeat c (republishHeld c t s) else s
    if pausing s then s
    else if k.st = .safe then
      let s := publishSafe c t s
      if c = 2 then sampleHist t true s else s
    else if !mayStartCycle k || s.power.startHold || followsMarks s then s
    else if s.pair.marks.any fun h => h.cls = c then startHeld c s
    else startCycle c t k.cycleCount s

/-- CYCLE_DEADLINE (R41): the cycle has not committed by its deadline. -/
def execCycleDeadline (c : PClass) (s : State) : Res :=
  .next (match (cls s c.val).cycle with
    | none => s
    | some y => if pastDeadline s y (cls s c.val).periodUs then setCycle c.val (fun y => { y with late := true }) s else s)

/-- CYCLE_ABANDON (R43, R44): two full periods have passed since the cycle's period start. -/
def execCycleAbandon (c' : PClass) (s : State) : Res :=
  let c := c'.val
  .next (match (cls s c).cycle with
    | none => s
    | some y =>
      if reached s (y.stamp + 2 * (cls s c).periodUs * 1000) then
        let s := setCls c (fun k => { k with abandons := sat32 (k.abandons + 1), abandonRow := k.abandonRow + 1 }) s
        let s := canCancelClass c (stopClass c (raise 0x27 [c, y.count.toNat] s))
        let s := if (cls s c).restartSkip = some y.stamp then setCls c (fun k => { k with restartSkip := none }) s
          else endRestart c stTimeout s
        if 3 ≤ (cls s c).abandonRow then raise 0x29 [c] (setCls c (fun k => { k with st := .safe }) s)
        else setCls c (fun k => { k with st := .hold }) s
      else s)

end Sys2Proof.Machine
end

