-- ==== Sys2Proof/Machine/Reset.lean ====
section
/-! DEFINITION. Reset.lean: the cold resets of the two sides and the main rails going down (R410, R411, R414, R553, R567). -/

namespace Sys2Proof.Machine

/-! ### What a main-side cold reset leaves (R410, R414) -/

/-- Offset of a block that MG holds: RTC, REC, SBM (R410). -/
def mgOffset (off : Nat) : Bool := (0xF00 ≤ off && off < 0x1100) || (0x1600 ≤ off && off < 0x1700)

/-- Register values after a main-side cold reset: those of MG's blocks stay. -/
def mainRegs (r : Regs) : Regs :=
  { cfg := r.cfg.filter fun e => mgOffset e.1
    sig := r.sig.filter fun e => mgOffset e.1
    rc := r.rc.filter fun e => mgOffset e.1
    shadow := r.shadow.filter fun e => mgOffset (e.1 % 65536) }

/-- Events after a main-side cold reset: MG keeps its pending set, the ALERT_EN bits and ALERT_N. -/
def mainEvt (e : Evt) : Evt := { pendSb := e.pendSb, alertEn := e.alertEn, alert := e.alert }

/-- The side-band packet is discarded by a reset of the module (R394); the one that turns the main side on stays, since
MG executes it (R431). -/
def resetSb (s : State) : SideBand :=
  if s.power.onReq.isSome then s.sb else { pkts := s.sb.pkts, tag := s.sb.tag, sba := s.sb.sba }

/-- The panel driver after a reset: its ledger is in MRAM, and updates in flight are interrupted (R512, R515). -/
def mainPanel (p : Panel) : Panel :=
  { shown := p.shown, account := p.account, inflight := p.inflight.map (fun u => { u with interrupted := true })
    repairs := p.repairs, ledgerBad := p.ledgerBad, stopped := p.stopped }

/-- The firmware update after a reset: slots, boot record and session are in MRAM, and RECEIVED is that of the last whole
64 KiB (R545, R547, R556). -/
def mainFwu (s : State) : Fwu :=
  let f := s.fwu
  { f with
    session := f.session.map fun x =>
      if x.st = .downloading && decide (x.received.length < x.total) then
        { x with received := x.received.take (x.received.length / 65536 * 65536) }
      else x
    build := f.build.map fun b => { b with req := none, active := false }
    activate := none, activating := none, progress := (0, 0) }

/-- KB's store is in MRAM; the command of an interrupted operation gets no answer (R394, R524). -/
def mainKeys (k : Keys) : Keys := { k with op := k.op.map fun o => { o with req := none } }

/-- The main side as a cold reset leaves it. -/
def mainDefaults (s : State) : State :=
  let t : State := {
    pending := s.pending, free := s.free, refNs := s.refNs, emitted := s.emitted
    power := s.power, regs := mainRegs s.regs, evt := mainEvt s.evt
    host := { idleFrom := s.refNs, accepted := s.host.accepted.filter fun w => decide (w.req.origin = .sideBand) }
    sb := s.sb, stores := { s.stores with writing := none, working := [] }
    meter := resetMeter s.meter
    pair := { slotId := s.pair.slotId, present := s.pair.present, lineLow := s.pair.lineLow, lineAt := s.pair.lineAt }
    rtc := s.rtc, recorder := { s.recorder with held := s.recorder.held.filter fun e => mgServed e.source }
    panel := mainPanel s.panel, keys := mainKeys s.keys, fwu := mainFwu s }
  resign 0x400 t

/-- A main-side cold reset: KIND that a CMD_RESTART asked for, and whether it is a power-up (R410, R415, R528). -/
def coldReset (requested : Nat) (powerUp : Bool) (s : State) : State :=
  let p := s.power
  let s := { s with
    sb := resetSb s
    power := { vstby := p.vstby, pfw := p.pfw, rstLow := p.rstLow, mainUp := p.mainUp, heldOff := p.heldOff, railFails := p.railFails
               railAt := p.railAt, wdAt := p.wdAt, svBeat := s.refNs, requested := requested, powerUp := powerUp, onReq := p.onReq } }
  let s := mainDefaults { s with host := { s.host with accepted := if p.onReq.isSome then s.host.accepted else [] } }
  expireKeys s

/-! ### Life-cycle transitions (R520 to R522) -/

/-- CMD_LC_CHANGE (R521, R522). -/
def specLcChange : CmdSpec where
  opcode := 0x0C10
  length := fixedLen 100
  check _ p s :=
    let t := transitionTo s.keys.lc (getLE p 0 1)
    firstRefusal
      [badParam [(0, t.isNone), (1, notZero p 1 3), (4, (match t with
         | some (_, false) => notZero p 4 96
         | _ => false))],
       refuseIf (activeJoined s) stDenied 7, refuseIf (!cfgBit s 0x1204 1) stDenied 7, refuseIf (permFree s = 0) stDenied 7]
  run r p s :=
    match transitionTo s.keys.lc (getLE p 0 1) with
    | none => s
    | some (t, _) => startKeyOp (.transition t (slice p 4 96)) 0x0C10 r s

/-- CMD_LC_CHANGE -/
def execCmdLcChange (r : Req) (s : State) : Res := .next (runCmd specLcChange r s)

/-- The next stage of a key update or transition (R522, R533): LC_CHANGED sealed or phase 1 journalled, then the commit, then
the end, at which the command completes and a transition orders the main-side cold reset. A RETIRED module takes the role
FENCED (R520). -/
def keyStep (o : KeyOp) (s : State) : State :=
  match o.work, o.stage with
  | .update .., .checked => enterStage o .begun s
  | .update _ _ slots written _ revoked, .begun => enterStage o .committed (commitSlots slots written revoked s)
  | .update counter n _ written freed revoked, .committed =>
    finishOpt 0x0C01 o.req stOk 0 (putLE 4 counter.toNat ++ putLE 2 written.length ++ putLE 2 freed.length)
      (restBrick idKB (sealUpdate counter n written freed revoked s))
  | .transition t _, .checked =>
    enterStage o .begun (writeNewest 0xE4 (raise 0xE4 [lcCode s.keys.lc, lcCode t, s.keys.privCnt.toNat] s))
  | .transition t root, .begun =>
    let s := enterState t root s
    enterStage o .committed (if t = .retired then fenceSelf s else s)
  | .transition .., .committed =>
    let s := { s with keys := { s.keys with op := none } }
    let s := { s with power := { s.power with resetDue := some (s.refNs + 10000000), restartKind := 0 } }
    openDebug (finishOpt 0x0C10 o.req stOk 0 [] (restBrick idKB s))

/-- A moment of a key update or transition: its next stage comes when it is due. -/
def keyTick (s : State) : State :=
  match s.keys.op with
  | none => s
  | some o => if s.power.mainUp && inService s idKB && o.req.isSome && decide (o.due ≤ s.refNs) then keyStep o s else s

/-! ### Releasing the main-side reset (R412 step 5, R553) -/

/-- Swap the running slot: the other one runs, and the slot that ran is marked. -/
def swapSlots (st : SlotState) (s : State) : State :=
  { s with fwu := { s.fwu with
      running := !s.fwu.running, inactive := st, trial := false, trialBoots := 0, trialSecs := 0, trialCount := 0, bootGen := s.fwu.bootGen + 1 } }

/-- A release on trial reverts to the PREVIOUS slot at a boot (R553, R555). -/
def bootRevert (cause : Nat) (s : State) : State :=
  raiseC 0xEB [cause] cause { swapSlots .rejected s with fwu := { (swapSlots .rejected s).fwu with reverted := true } }

/-- MG counts a boot from a trial slot before it releases the reset; the fourth boots the previous slot (R553). -/
def countTrialBoot (s : State) : State :=
  if !s.fwu.trial then s
  else if 4 ≤ s.fwu.trialBoots + 1 then bootRevert 1 s
  else { s with fwu := { s.fwu with trialBoots := s.fwu.trialBoots + 1, bootGen := s.fwu.bootGen + 1 } }

/-- MG releases the main-side reset (R412 step 5). -/
def releaseReset (s : State) : State :=
  let s := countTrialBoot s
  { s with power := { s.power with released := true, svBeat := s.refNs } }

/-! ### The rails (R411, R567) -/

/-- Every condition of R411 for starting the main rails. -/
def railsMayStart (s : State) : Bool := s.power.vstby && s.power.pfw && !s.power.rstLow && !s.power.heldOff && !s.power.mainUp

/-- The main rails come up in order, within their limits: a main-side power-up (R410 to R412). -/
def railsUp (s : State) : State :=
  let s := { s with power := { s.power with mainUp := true, railFails := 0 }, fwu := { s.fwu with trialFrom := s.refNs } }
  releaseReset (coldReset 0 true s)

/-- MG switches the main rails off in reverse order: what the main side held is lost. -/
def railsOff (s : State) : State :=
  let p := s.power
  let s := { s with fwu := { s.fwu with trialCount := trialSeconds s } }
  let s := { s with power := { vstby := p.vstby, pfw := p.pfw, rstLow := p.rstLow, heldOff := p.heldOff, railFails := p.railFails
                               railAt := p.railAt, wdAt := p.wdAt, onReq := p.onReq } }
  mainDefaults s

/-- RAIL_SEQUENCE (R411, R412): MG starts the main rails and releases the main-side reset. -/
def execRailSequence (s : State) : Res := .next (if railsMayStart s && decide (s.power.railFails = 0) then railsUp s else s)

/-- RAIL_RETRY (R411): 1 s after a rail fault MG tries again. -/
def execRailRetry (s : State) : Res :=
  .next (if railsMayStart s && decide (s.power.railFails ≠ 0) && decide (1000000000 ≤ since s s.power.railAt) then railsUp s else s)

/-- RAIL_FAULT (R411, R429): a rail that is not within its limits 10 ms after it is enabled, or that leaves them later. -/
def execRailFault (rail : Fin 8) (s : State) : Res :=
  .next (if s.power.vstby && decide (rail.val ≠ 0) && (s.power.mainUp || railsMayStart s) then
      let n := s.power.railFails + 1
      let s := railsOff (raise 0xC2 [rail.val] s)
      { s with power := { s.power with railFails := n, railAt := s.refNs, heldOff := s.power.heldOff || decide (4 ≤ n) } }
    else s)

/-- VIN_OVERVOLTAGE (R567). -/
def execVinOvervoltage (s : State) : Res :=
  .next (if s.power.vstby && s.power.mainUp then railsOff (raise 0xC2 [0x10] s) else s)

/-- SV's heartbeat has stayed out for 100 ms, or for 3 s after step 5 before the first one, which SV sends as it has booted
(R413). -/
def beatLate (s : State) : Bool := decide ((if s.power.booted then 100000000 else 3000000000) ≤ since s s.power.svBeat)

/-- MAIN_WATCHDOG (R413). -/
def execMainWatchdog (s : State) : Res :=
  .next (if s.power.vstby && s.power.mainUp && s.power.released && beatLate s then
      let ats := s.refNs :: s.power.wdAt.filter fun t => decide (since s t < 600000000000)
      let s := raise 0xC3 [] { s with power := { s.power with wdAt := ats } }
      if 5 ≤ ats.length then
        let s := raise 0xC2 [0xFF] s
        railsOff { s with power := { s.power with heldOff := true, wdAt := [] } }
      else releaseReset (coldReset 0 false s)
    else s)

/-- The level of RST_N is taken as a reset: after 10 µs always, up to 1 µs never, between them an implementation may
(R571). -/
def resetTaken (lowNs : Nat) : Bool := if 10000 ≤ lowNs then true else if lowNs ≤ 1000 then false else Config.shortReset lowNs

/-- RST_N_ASSERT (R410, R571): a main-side cold reset, held while RST_N is low. -/
def execRstNAssert (lowNs : Nat) (s : State) : Res :=
  .next (if s.power.vstby && !s.power.rstLow && resetTaken lowNs then
      let s := { s with power := { s.power with rstLow := true } }
      if s.power.mainUp then coldReset 0 false s else s
    else s)

/-- RST_N_RELEASE (R571): with the rails on the main-side reset is released; with the rails off the sequence may start. -/
def execRstNRelease (s : State) : Res :=
  .next (if s.power.vstby && s.power.rstLow then
      let s := { s with power := { s.power with rstLow := false } }
      if s.power.mainUp then releaseReset s else s
    else s)

/-- MAIN_SIDE_COLD_RESET (R410, R430, R475, R522): the reset that CMD_RESTART, CMD_TEST_EXIT or a life-cycle change has
set 10 ms ahead. -/
def execMainSideColdReset (s : State) : Res :=
  .next (match s.power.resetDue with
    | some t => if t ≤ s.refNs then releaseReset (coldReset s.power.restartKind false s) else s
    | none => s)

/-! ### Standby (R410, R412, R478 to R480, R494) -/

/-- VSTBY_APPLIED: a standby cold reset; MG runs, reads the straps, raises POWER_UP and what waited for it, and finds the
recorder's next slots (R410, R412, R479, R480, R494). -/
def execVstbyApplied (slotId : Bool) (sba : BitVec 3) (s : State) : Res :=
  let osc := s.rtc.oscEvent
  let vbat := s.rtc.vbatEvent
  let s := railsOff { s with power := {}, pair := { s.pair with slotId := slotId } }
  let s := { s with
    regs := {}, evt := {}, sb := { sba := sba }, host := { s.host with accepted := [] }
    rtc := { s.rtc with oscEvent := false, vbatEvent := false, onVbat := false, vbatLow := false, vbatAt := none, disc := false, lastD := 0
                        trim := 0, freeze := [] }
    recorder := { slots := s.recorder.slots, topSeq := s.recorder.topSeq }
    fwu := { s.fwu with trialCount := s.fwu.trialSecs } }
  let s := raise 0xC0 [] s
  let s := if osc then raise 0xC8 [] s else s
  let s := if vbat then raise 0xC6 [s.rtc.vbatTs0.toNat, s.rtc.vbatTs1.toNat] s else s
  .next (recoverRecorder s)

/-- VBAT_SWITCH: VSTBY falls below its lower limit; MG and with it the main side lose their supply, and the backup domain
goes on from VBAT (R478, R480). -/
def execVbatSwitch (s : State) : Res :=
  .next (if s.power.vstby then
      let s := railsOff s
      let seen := s.rtc.vbatSeen
      { s with
        power := { s.power with vstby := false, onReq := none }
        host := {}, sb := { sba := s.sb.sba }, regs := {}, evt := { s.evt with alert := false }
        recorder := { slots := s.recorder.slots, topSeq := s.recorder.topSeq }
        rtc := { s.rtc with
          onVbat := true, vbatEvent := true, vbatSeen := true
          vbatTs0 := if seen then s.rtc.vbatTs0 else calT0 s.rtc.cal
          vbatTs1 := if seen then s.rtc.vbatTs1 else calT1 s.rtc.cal } }
    else s)

end Sys2Proof.Machine
end

