-- ==== Sys2Proof/Machine/ClassCmd.lean ====
section
/-! DEFINITION. ClassCmd.lean: the commands of classes, engines and the historian, and the end of a class's units (R45,
R56 to R58, R62 to R64, R96 to R98, R428). -/

namespace Sys2Proof.Machine

/-! ### Power-down after an orderly shutdown (R428) -/

/-- The shutdown's command completes and MG switches the rails off (R428 step 4). -/
def endShutdown (r : Req) (s : State) : State :=
  let s := finishOk 0x0031 r [] { s with power := { s.power with shutdown := none } }
  railsOff { s with power := { s.power with heldOff := true } }

/-- The final writes of a shutdown; without a retentive write the command completes at once (R428 step 3, R429, R572). -/
def finalWrites (r : Req) (s : State) : State :=
  let s := saveRetain true (devNs s) s
  let s := if s.power.pfw && meterOn s then saveTotals 2 s else s
  if s.stores.writing.isSome then s else endShutdown r s

/-- The units of every class have stopped: the shutdown goes on, after a half that is being written already. -/
def shutdownStopped (s : State) : State :=
  match s.power.shutdown with
  | some r => if allStopped s && s.stores.writing.isNone then finalWrites r s else s
  | none => s

/-- RETAIN_WRITE_DONE (R420, R428): the half's header is written. -/
def execRetainWriteDone (s : State) : Res :=
  .next (match s.power.mainUp, s.stores.writing with
    | true, some (_, h) =>
      let s := sealHalf s
      match s.power.shutdown with
      | some r => if h.final then endShutdown r s else shutdownStopped s
      | none => s
    | _, _ => s)

/-! ### The end of a class's units (R96, R97, R549) -/

/-- A halted class's command completes. -/
def haltDone (c : Nat) (s : State) : State :=
  let r := (cls s c).haltReq
  finishOpt 0x0204 r stOk 0 [] (setCls c (fun k => { k with stopping := false, haltReq := none }) s)

/-- CLASS_UNITS_STOPPED (R96): every unit of a stopped class has reached its instance boundary. -/
def execClassUnitsStopped (c : PClass) (s : State) : Res :=
  .next (if (cls s c.val).stopping && !unitsRunning s c.val then shutdownStopped (haltDone c.val s) else s)

/-! ### CMD_CLASS_CONFIG (R31, R45, R62) -/

/-- Range and step of a class's period, µs (R31). -/
def periodRange : Nat → Nat × Nat × Nat
  | 0 => (500, 10000, 100)
  | 1 => (10000, 1000000, 10000)
  | 2 => (500000, 10000000, 100000)
  | _ => (10000000, 900000000, 1000000)

/-- Period of a class with one of them replaced, µs. -/
def periodWith (s : State) (c p x : Nat) : Nat := if x = c then p else (cls s x).periodUs

/-- The multiple rules of R31 hold with the period of a class replaced. -/
def multiplesHold (s : State) (c p : Nat) : Bool :=
  let f := periodWith s c p
  f 1 % f 0 = 0 && f 2 % f 1 = 0 && f 3 % f 1 = 0

/-- A period that R31 admits for a class. -/
def periodOk (s : State) (c p : Nat) : Bool :=
  let (lo, hi, step) := periodRange c
  decide (lo ≤ p) && decide (p ≤ hi) && p % step = 0 && multiplesHold s c p

/-- T of R45: courses from the solve on of the image loaded, running or both, whichever is longer; none when neither
waits for a solve. -/
def tailInForce (s : State) : Option Nat :=
  match s.progNext, s.program with
  | none, none => some 0
  | none, some im => solveTail im
  | some im, none => solveTail im
  | some a, some b => match solveTail a, solveTail b with
    | some x, some y => some (Nat.max x y)
    | some x, none => some x
    | none, y => y

/-- The relations that a class configuration changes (R409 rows 1, 2, 5). -/
def classConflict (s : State) (c p d : Nat) : Conflict :=
  firstConflict
    [if c = 1 then (match tailInForce s with
       | some t => row1 p d t
       | none => none) else none,
     if c = 3 then (match s.opt.desc with
       | some x => row2 p x.deadlineUs
       | none => none) else none,
     row5Class s c p]

/-- CMD_CLASS_CONFIG (R62). -/
def specClassConfig : CmdSpec where
  opcode := 0x0201
  length := fixedLen 16
  check _ p s :=
    let c := getLE p 0 1
    let d := getLE p 8 4
    firstRefusal
      [badParam [(0, decide (3 < c)), (1, notZero p 1 1), (2, notZero p 2 1), (3, notZero p 3 1), (4, !periodOk s c (getLE p 4 4)),
         (8, decide (c ≠ 1) && decide (d ≠ 0)), (12, notZero p 12 4)],
       conflictRefusal (classConflict (planned s) c (getLE p 4 4) d)]
  run r p s :=
    finishOk 0x0201 r [] (setCls (getLE p 0 1) (fun k => { k with nextCfg := some (getLE p 4 4, getLE p 8 4) }) s)

/-- CMD_CLASS_CONFIG -/
def execCmdClassConfig (r : Req) (s : State) : Res := .next (runCmd specClassConfig r s)

/-! ### CMD_CLASS_STATUS, CMD_CLASS_RESTART, CMD_CLASS_HALT (R63, R64, R97) -/

/-- Result of CMD_CLASS_STATUS (R63). -/
def classStatus (s : State) (c : Nat) : Bytes :=
  if c = 4 then [4, byte (if s.program.isSome then 1 else 0)] ++ zeros 38
  else
    let k := cls s c
    [byte c, byte (clsCode k.st), 0, 0] ++ putLE 4 k.periodUs ++ putLE 4 k.cycleCount.toNat ++ putLE 4 k.overruns ++
      putLE 4 k.abandons ++ putLE 4 k.lastExecUs ++ putLE 4 k.maxExecUs ++ putLE 4 k.lastCommitStime.toNat ++ putLE 8 k.lastStamp

/-- CMD_CLASS_STATUS (R63). -/
def specClassStatus : CmdSpec where
  opcode := 0x0202
  length := fixedLen 4
  check _ p _ := badParam [(0, decide (4 < getLE p 0 1)), (1, notZero p 1 1), (2, notZero p 2 1), (3, notZero p 3 1)]
  run r p s := finishOk 0x0202 r (classStatus s (getLE p 0 1)) s

/-- CMD_CLASS_STATUS -/
def execCmdClassStatus (r : Req) (s : State) : Res := .next (runCmd specClassStatus r s)

/-- CMD_CLASS_RESTART (R64, R465). -/
def specClassRestart : CmdSpec where
  opcode := 0x0203
  length := fixedLen 4
  check _ p s :=
    let st := (cls s (getLE p 0 1)).st
    firstRefusal
      [badParam [(0, decide (3 < getLE p 0 1) || decide (st = .run) || decide (st = .init)), (1, notZero p 1 1), (2, notZero p 2 1),
         (3, notZero p 3 1)],
       refuseIf s.pair.fault stNotActive 0]
  run r p s :=
    holdCmd 0x0203 r (setCls (getLE p 0 1) (fun k => { k with
      st := .init, halted := false, abandonRow := 0, restartReq := some r, restartSkip := k.cycle.map (·.stamp) }) s)

/-- CMD_CLASS_RESTART -/
def execCmdClassRestart (r : Req) (s : State) : Res := .next (runCmd specClassRestart r s)

/-- CMD_CLASS_HALT (R97). -/
def specClassHalt : CmdSpec where
  opcode := 0x0204
  length := fixedLen 4
  check _ p _ := badParam [(0, decide (3 < getLE p 0 1)), (1, notZero p 1 1), (2, notZero p 2 1), (3, notZero p 3 1)]
  run r p s :=
    let c := getLE p 0 1
    let st := (cls s c).st
    let at' := effectTime s (cls s c).started
    if st = .hold ∨ st = .safe then finishOk 0x0204 r [] s
    else
      let s := holdCmd 0x0204 r (setCls c (fun k => { k with haltReq := some r }) s)
      if 0 ≤ wrapDiff 64 at' (cls s c).started then haltClass c s else setCls c (fun k => { k with haltAt := some at' }) s
  instant p s := (cls s (getLE p 0 1)).started

/-- CMD_CLASS_HALT -/
def execCmdClassHalt (r : Req) (s : State) : Res := .next (runCmd specClassHalt r s)

/-! ### CMD_ENGINE_STATUS (R98) -/

/-- CAUSE of a cinder. -/
def fenceCode : FenceCause → Nat
  | .voteLost => 1
  | .hung => 2
  | .check => 3
  | .brick => 4

/-- STATE of an engine (R98). -/
def engineState (s : State) (e : Nat) : Nat :=
  let x := engine s e
  if x.cinder.isSome then 3 else if (brick s (e / 4)).st = .banked then 2 else if x.running.isSome then 0 else 1

/-- Entry of an engine. -/
def engineEntry (s : State) (e : Nat) : Bytes :=
  let x := engine s e
  [byte (engineState s e), byte ((x.cinder.map fenceCode).getD 0)] ++ putLE 2 x.traps ++ putLE 4 x.unitsRun ++ putLE 4 x.steals ++
    putLE 2 x.votesLost ++ zeros 2

/-- Engines in service. -/
def enginesInService (s : State) : List Nat := (upto 64).filter fun e => (engine s e).cinder.isNone

/-- CMD_ENGINE_STATUS (R98). -/
def specEngineStatus : CmdSpec where
  opcode := 0x0220
  length := fixedLen 0
  check _ _ _ := none
  run r _ s :=
    let on := enginesInService s
    let bricks := (upto 16).filter fun b => on.any fun e => e / 4 = b
    finishOk 0x0220 r ([byte on.length, byte bricks.length, 0, 0] ++ putLE 4 s.work.mismatches ++ putLE 4 s.work.votesFailed ++
      putLE 4 s.work.reissues ++ (upto 64).flatMap (engineEntry s)) s

/-- CMD_ENGINE_STATUS -/
def execCmdEngineStatus (r : Req) (s : State) : Res := .next (runCmd specEngineStatus r s)

/-! ### Historian (R52, R56 to R58) -/

/-- A subscription entry at an offset. -/
def parseSub (p : Bytes) (off : Nat) : HistSub :=
  { point := getLE p off 4, mode := getLE p (off + 4) 1, divider := getLE p (off + 5) 1, maxGap := getLE p (off + 6) 2
    deadband := getSLE p (off + 8) 8 }

/-- Field faults of a subscription (R52, R56). -/
def subFaults (s : State) (p : Bytes) (off : Nat) : List (Nat × Bool) :=
  let h := parseSub p off
  if h.point = noPoint then []
  else [(off, !defined s h.point), (off + 4, decide (3 < h.mode)), (off + 5, decide (h.divider = 0)), (off + 8, decide (h.deadband < 0))]

/-- CMD_HIST_CONFIG: LENGTH agrees with COUNT. -/
def histConfigLen (p : Bytes) : Option Nat :=
  let n := getLE p 4 2
  if p.length < 8 then some 0xFFFFFFFF
  else if n = 0 ∨ 254 < n then some 0xFFFFFFFF
  else if p.length = 8 + 16 * n then none else some (8 + 16 * n)

/-- Write subscriptions from an index on. -/
def putSubs (p : Bytes) : List Nat → Nat → State → State
  | [], _, s => s
  | i :: r, first, s =>
    let h := parseSub p (8 + 16 * i)
    let subs := if h.point = noPoint then ferase s.hist.subs (first + i) else fset s.hist.subs (first + i) h
    let run := s.hist.run.map fun x => { x with left := x.left.filter fun k => decide (k ≠ first + i) }
    putSubs p r first { s with hist := { s.hist with subs := subs, run := run } }

/-- CMD_HIST_CONFIG (R56). -/
def specHistConfig : CmdSpec where
  opcode := 0x0320
  length := histConfigLen
  check _ p s :=
    badParam ([(4, decide (65536 < getLE p 0 4 + getLE p 4 2)), (6, notZero p 6 2)] ++
      (upto (getLE p 4 2)).flatMap fun i => subFaults s p (8 + 16 * i))
  run r p s := finishOk 0x0320 r [] (putSubs p (upto (getLE p 4 2)) (getLE p 0 4) s)

/-- CMD_HIST_CONFIG -/
def execCmdHistConfig (r : Req) (s : State) : Res := .next (runCmd specHistConfig r s)

/-- SEQ of the oldest record in the ring, NEXT_SEQ when it is empty: the ring holds the newest 33 554 432 (R54). -/
def histOldest (s : State) : Nat := (s.hist.nextSeq.toNat + 2 ^ 32 - s.hist.ring.length) % 2 ^ 32

/-- A record as R54 lays it out. -/
def histBytes (x : HistRec) : Bytes :=
  putLE 8 x.stamp ++ putSLE 8 x.value ++ putLE 4 x.point ++ putLE 4 x.stime.toNat ++ [x.quality] ++ putSLE 1 x.scale ++
    [x.flags, 0] ++ putLE 4 x.seq.toNat

/-- Records from a SEQ on. -/
def histFrom (s : State) : Nat → Nat → List HistRec
  | 0, _ => []
  | n + 1, seq =>
    if seq = s.hist.nextSeq.toNat then []
    else match fget s.hist.ring (seq % histSlots) with
      | some x => x :: histFrom s n ((seq + 1) % 2 ^ 32)
      | none => []

/-- CMD_HIST_READ (R57). -/
def specHistRead : CmdSpec where
  opcode := 0x0321
  length := fixedLen 8
  check _ p _ := badParam [(4, decide (getLE p 4 2 = 0) || decide (126 < getLE p 4 2)), (6, notZero p 6 2)]
  run r p s :=
    let next := s.hist.nextSeq.toNat
    let old := histOldest s
    let seq := getLE p 0 4
    let none' := decide (seq = next) || later 32 next seq
    let older := !none' && later 32 seq old
    let l := if none' then [] else histFrom s (getLE p 4 2) (if older then old else seq)
    finishOk 0x0321 r (putLE 4 next ++ putLE 4 old ++ putLE 2 l.length ++ putLE 2 (b2n older) ++ zeros 4 ++ l.flatMap histBytes) s

/-- CMD_HIST_READ -/
def execCmdHistRead (r : Req) (s : State) : Res := .next (runCmd specHistRead r s)

/-- CMD_HIST_STATUS (R58). -/
def specHistStatus : CmdSpec where
  opcode := 0x0322
  length := fixedLen 0
  check _ _ _ := none
  run r _ s :=
    finishOk 0x0322 r (putLE 4 s.hist.subs.length ++ putLE 4 s.hist.nextSeq.toNat ++ putLE 4 (histOldest s) ++ putLE 4 s.hist.lost ++
      putLE 8 s.hist.lastStamp ++ putLE 4 s.hist.lastUs ++ zeros 4) s

/-- CMD_HIST_STATUS -/
def execCmdHistStatus (r : Req) (s : State) : Res := .next (runCmd specHistStatus r s)

end Sys2Proof.Machine
end

