-- ==== Sys2Proof/Machine/Settings.lean ====
section
/-! DEFINITION. Settings.lean: the settings store with its records, and the restart policy (R423 to R427, R432, R433). -/

namespace Sys2Proof.Machine

/-- FORMAT of the settings records of the running firmware. -/
def setFormat (s : State) : Nat := Config.settingsFormat (svVersion s)

/-- Generation of a settings copy; one that is missing or of a FORMAT the running firmware does not read is invalid and
counts as older than any (R424, R427). -/
def copyGen (s : State) (n : Nat) : Int :=
  match fget s.stores.copies n with
  | some c => if c.format ≤ setFormat s then (c.gen.toNat : Int) else -1
  | none => -1

/-- The older copy; copy 0 when both are invalid (R424). -/
def olderCopy (s : State) : Nat := if copyGen s 0 ≤ copyGen s 1 then 0 else 1

/-- The valid copies, newer first. -/
def validCopies (s : State) : List SetRecord :=
  let n := 1 - olderCopy s
  ([n, 1 - n].filter fun i => decide (0 ≤ copyGen s i)).filterMap fun i => fget s.stores.copies i

/-- Entries of the working copy in stored order: ascending opcode, then order of acceptance (R425). -/
def workingEntries (s : State) : List (Nat × Bytes) :=
  settingsOps.flatMap fun op => (s.stores.working.filter fun e => e.1 = op).map fun e => (e.1, e.2.2)

/-- The working copy as a record (R425). -/
def recordNow (s : State) (gen : W64) : SetRecord :=
  { format := setFormat s, gen := gen, fw := BitVec.ofNat 32 (((component (runSlot s) 1).map fun c => c.version.toNat).getD 0)
    stamp := devNs s, serial := s.keys.serial, entries := workingEntries s }

/-- An entry of a record (R425). -/
def setEntry (e : Nat × Bytes) : Bytes :=
  putLE 2 e.1 ++ putLE 2 e.2.length ++ zeros 4 ++ padTo ((e.2.length + 7) / 8 * 8) e.2

/-- A settings record as bytes (R425). -/
def settingsBytes (r : SetRecord) : Bytes :=
  let body := r.entries.flatMap setEntry
  let b := putLE 4 0x54534756 ++ putLE 2 r.format ++ zeros 2 ++ putLE 8 r.gen.toNat ++ putLE 4 (68 + body.length) ++
    putLE 4 r.entries.length ++ putLE 4 r.fw.toNat ++ zeros 4 ++ putLE 8 r.stamp ++ putLE 8 r.serial.toNat ++ zeros 16 ++ body
  b ++ putLE 4 (crc32c b)

/-- Put a record into a copy. -/
def putCopy (n : Nat) (r : SetRecord) (s : State) : State :=
  { s with stores := { s.stores with copies := fset s.stores.copies n r } }

/-- Generation of the next record: one above the newer copy's. -/
def nextCopyGen (s : State) : W64 := BitVec.ofInt 64 (copyGen s (1 - olderCopy s) + 1)

/-- CMD_SETTINGS_STORE (R424). `ok` says whether the copy reads back correctly; a store whose read-back fails leaves that
copy invalid, and none is written after PFW_N has fallen (R429). -/
def specSettingsStore (ok : Bool) : CmdSpec where
  opcode := 0x0101
  length := fixedLen 0
  check _ _ _ := none
  run r _ s :=
    let n := olderCopy s
    if !s.power.pfw then finish 0x0101 r stAborted 0 [] s
    else if !ok then finish 0x0101 r stAborted 0 [] { s with stores := { s.stores with copies := ferase s.stores.copies n } }
    else
      let x := recordNow s (nextCopyGen s)
      finishOk 0x0101 r (putLE 8 x.gen.toNat ++ [byte n, 0, 0, 0] ++ putLE 4 (settingsBytes x).length)
        (raise 0xCE [(x.gen.toNat : Int), (n : Int)] (putCopy n x s))

/-- CMD_SETTINGS_STORE -/
def execCmdSettingsStore (r : Req) (readBackOk : Bool) (s : State) : Res := .next (runCmd (specSettingsStore readBackOk) r s)

/-- The record a CMD_SETTINGS_READ names: 0 the working copy, 1 copy 0, 2 copy 1. -/
def readSource (s : State) (source : Nat) : Option SetRecord :=
  if source = 0 then some (recordNow s 0)
  else if copyGen s (source - 1) < 0 then none
  else fget s.stores.copies (source - 1)

/-- CMD_SETTINGS_READ (R432). -/
def specSettingsRead : CmdSpec where
  opcode := 0x0102
  length := fixedLen 8
  check _ p s :=
    firstRefusal
      [badParam [(0, decide (2 < getLE p 0 1)), (1, notZero p 1 1), (2, notZero p 2 1), (3, notZero p 3 1)],
       (match readSource s (getLE p 0 1) with
        | none => some (stNotActive, 0)
        | some x => badParam [(4, decide ((settingsBytes x).length ≤ getLE p 4 4))])]
  run r p s :=
    match readSource s (getLE p 0 1) with
    | none => finish 0x0102 r stNotActive 0 [] s
    | some x =>
      let b := settingsBytes x
      finishOk 0x0102 r (putLE 4 (getLE p 4 4) ++ putLE 4 b.length ++ slice b (getLE p 4 4) 4064) s

/-- CMD_SETTINGS_READ -/
def execCmdSettingsRead (r : Req) (s : State) : Res := .next (runCmd specSettingsRead r s)

/-- CMD_RESTART_POLICY (R433). -/
def specRestartPolicy : CmdSpec where
  opcode := 0x0103
  length := fixedLen 8
  check _ p _ :=
    badParam [(0, decide (2 < getLE p 0 1)), (1, decide (2 < getLE p 1 1)), (2, notZero p 2 1), (3, notZero p 3 1),
      (4, decide (31536000 < getLE p 4 4))]
  run r p s :=
    finishOk 0x0103 r [] { s with power := { s.power with
      policy := { powerup := getLE p 0 1, reset := getLE p 1 1, maxOutage := getLE p 4 4 } } }

/-- CMD_RESTART_POLICY -/
def execCmdRestartPolicy (r : Req) (s : State) : Res := .next (runCmd specRestartPolicy r s)

/-- Migration of the settings at a first start: a record of lower FORMAT is written into the older copy in the running
firmware's FORMAT (R427). -/
def migrateSettings (s : State) : State :=
  match (validCopies s).find? fun c => c.serial = s.keys.serial with
  | some c =>
    if c.format < setFormat s then
      let s' := raise 0xCF [(0 : Int), (c.format : Int), (setFormat s : Int)] s
      if s.power.pfw then putCopy (olderCopy s) (recordNow s (nextCopyGen s)) s' else s'
    else s
  | none => s

end Sys2Proof.Machine
end

