-- ==== Sys2Proof/Machine/Progs.lean ====
section
/-! DEFINITION. Progs.lean: loading and switching programs, and the start that the first switch makes (R49, R50, R59 to
R61, R65, R66, R131, R415 to R419, R422, R427). -/

namespace Sys2Proof.Machine

/-! ### CMD_PROG_LOAD (R65, R131) -/

/-- Refusal of a completed image, with the number of the failed check (R65, R131, R406, R409). -/
def imageRefusal (s : State) (b : Bytes) : Option (Nat × Nat × Nat) :=
  match imgFault s b with
  | none => none
  | some (n, st) =>
    let detail := if st = stDenied then 7
      else if st = stConflict then
        (match solveTail (parseImage b) with
         | some t => ((conflictRefusal (row1 (cls s 1).periodUs s.solveDeadline t)).map (·.2)).getD n
         | none => n)
      else n
    some (n, st, detail)

/-- CMD_PROG_LOAD (R65). -/
def specProgLoad : CmdSpec where
  opcode := 0x0210
  length := chunkLen
  check _ p s :=
    firstRefusal
      [badParam [(4, decide (getLE p 4 4 = 0) || decide (0x20000000 < getLE p 4 4)), (8, notZero p 8 4)],
       refuseIf s.switch.isSome stBusy 0,
       chunkRefusal (fun t => decide (0 < t) && decide (t ≤ 0x20000000)) s.progLoad p]
  run r p s :=
    let c := chunkNext s.progLoad p
    let s := if getLE p 0 4 = 0 then { s with progNext := none } else s
    if chunkDone c then
      let s := { s with progLoad := none }
      let f := imageRefusal s c.received
      let s := afterChecks (f.map (·.1)) c.received (getLE c.received 36 4) s
      match f with
      | some (n, st, d) => finish 0x0210 r st d [] (raiseC 0x2B [n] n s)
      | none => finishOk 0x0210 r [] { s with progNext := some (parseImage c.received) }
    else finishOk 0x0210 r [] { s with progLoad := some c }

/-- CMD_PROG_LOAD -/
def execCmdProgLoad (r : Req) (s : State) : Res := .next (runCmd specProgLoad r s)

/-! ### CMD_PROG_SWITCH (R59 to R61, R66, R422) -/

/-- Retentive values of the program in force, without its points' records (R60). -/
def missingNow (s : State) (im : Image) : Bool := decide (missingCrit (retainVals s) im ≠ 0)

/-- Bytes of the loaded image's retentive data with the force table, past one half (R422). -/
def retainTooLong (im : Image) : Bool := decide (16777216 < retainSize im)

/-- CMD_PROG_SWITCH (R66). -/
def specProgSwitch : CmdSpec where
  opcode := 0x0211
  length := fixedLen 8
  check _ p s :=
    let crc := getLE p 0 4
    firstRefusal
      [badParam [(4, decide (1 < getLE p 4 4))], refuseIf s.switch.isSome stBusy 0,
       badParam [(0, decide ((s.progNext.map fun im => im.crc.toNat) ≠ some crc))],
       (match s.progNext with
        | some im => firstRefusal
          [refuseIf (retainTooLong im) stDenied 7,
           refuseIf (!s.power.unstarted && getLE p 4 4 = 0 && missingNow s im) stDenied 7]
        | none => none)]
  run r p s :=
    holdCmd 0x0211 r { s with switch := some { req := r, allowInit := bit (getLE p 4 4) 0, at' := effectTime s (startInstant s 1) } }
  instant _ s := startInstant s 1

/-- CMD_PROG_SWITCH -/
def execCmdProgSwitch (r : Req) (s : State) : Res := .next (runCmd specProgSwitch r s)

/-! ### The database at S (R24, R50, R127) -/

/-- Change the pending switch. -/
def setSwitch (f : ProgSwitch → ProgSwitch) (s : State) : State := { s with switch := s.switch.map f }

/-- Definitions of an image. -/
def imageDefs (im : Image) : FMap PointDef := im.points.foldr (fun d m => fset m d.id d) []

/-- Definitions of two images, the second's first. -/
def mergeDefs (old new' : FMap PointDef) : FMap PointDef := new'.foldr (fun e m => fset m e.1 e.2) old

/-- The record a point starts with: its INITIAL value, state INIT (R127). -/
def initialRec (im : Image) (d : PointDef) : PointRec :=
  { blankRec d with value := ((im.initialPts.find? fun e => e.1 = d.id).map (·.2)).getD 0 }

/-- Points that a definition list starts. -/
def startPoints (im : Image) : List PointDef → State → State
  | [], s => s
  | d :: r, s => startPoints im r (putRec d.id (initialRec im d) s)

/-- Every force against the new image (R50): removed when its point is gone, orphaned when nothing writes it. -/
def judgeForces (im : Image) (written : List Nat) : FMap Force → State → State
  | [], s => s
  | (id, f) :: r, s =>
    match imgPoint im id with
    | none =>
      judgeForces im written r (setSwitch (fun w => { w with removed := w.removed + 1 })
        (raise 0x2F [(id : Int), f.value] { s with forces := ferase s.forces id }))
    | some d =>
      if tfSource d.typeflags = 0 && !written.contains id then
        judgeForces im written r (setSwitch (fun w => { w with orphaned := w.orphaned + 1 }) (raise 0x2E [(id : Int)] s))
      else judgeForces im written r s

/-- Forces under R50. -/
def orphanForces (im : Image) (s : State) : State := judgeForces im (writtenBy im.units) s.forces s

/-! ### Start kinds (R415 to R419) -/

/-- Start policy in force at this start: of a power-up or of another reset; a request for warm overrides it (R415). -/
def startPolicy (s : State) : Nat :=
  if s.power.requested = 2 then 0 else if s.power.powerUp then s.power.policy.powerup else s.power.policy.reset

/-- The kind of a start and its cause (R415). -/
inductive StartKind where
  /-- 1 COLD, with its cause -/
  | cold (cause : Nat)
  /-- 2 WARM -/
  | warm
  /-- 4 MIGRATION_WARM -/
  | migration
deriving DecidableEq, Repr

/-- The decision of R415. -/
def decideStart (im : Image) (now : Nat) (s : State) : StartKind :=
  let pol := startPolicy s
  if s.power.requested = 1 ∨ pol = 1 then .cold 1
  else match newestHalf s with
    | none => .cold 3
    | some h =>
      let limit := s.power.policy.maxOutage
      if limit ≠ 0 && (s.rtc.oscStop || decide (limit < (now - h.stamp) / 1000000000)) then .cold 5
      else if missingCrit h.entries im ≠ 0 then .cold 4
      else if pol = 2 then .migration
      else .warm

/-- A cold start (R49, R419): the retentive image is discarded and the forces are removed; with a model and a table the
estimator runs before any class leaves INIT. -/
def coldStart (s : State) : State :=
  let n := ((newestHalf s).map fun h => h.forces.length).getD 0 + s.forces.length
  let s := raise 0x2D [n] { s with stores := { s.stores with halves := [], writing := none }, forces := [] }
  if estReady s then estTrigger .coldStart none { s with power := { s.power with startHold := true } } else s

/-- TPOL of an instance: that of the POINTDEF of its first output (R418). -/
def timerPolicy (im : Image) (i : InstEntry) : Nat :=
  match i.outs with
  | [] => 0
  | o :: _ => ((imgPoint im o).map fun d => tfTpol d.typeflags).getD 0

/-- The state of a restored instance under the timer policy (R135, R418). -/
def timerState (im : Image) (i : InstEntry) (v : RetainVal) (asNone : Bool) : List W64 × Bool :=
  match timerPolicy im i with
  | 1 => (if asNone then 0 :: v.words.drop 1 else v.words, v.fresh)
  | 2 => (initState im i, true)
  | _ => (0 :: v.words.drop 1, v.fresh)

/-- Retentive values of a half enter the module: points with HELD, instance states for the change of their class (R416). -/
def restoreVals (im : Image) (asNone : Bool) : List RetainVal → State → State
  | [], s => s
  | v :: r, s =>
    let s := if v.kind = 0 then putRec v.key { v.point with quality := qSet v.point.quality qHeld } s
      else match instOf im v.key with
        | some i => setSwitch (fun w => { w with staged := w.staged ++ [(v.key, timerState im i v asNone)] }) s
        | none => s
    restoreVals im asNone r s

/-- Channel states of a half. -/
def restoreLoops : List MirrorChannel → State → State
  | [], s => s
  | m :: r, s => restoreLoops r (restoreLoop m s)

/-- A warm start from a half (R416, R418). -/
def warmStart (im : Image) (h : RetHalf) (migration : Bool) (s : State) : State :=
  let s := restoreVals im (migration || s.rtc.oscStop) (mapped h.entries im) s
  let s := orphanForces im { s with forces := h.forces }
  let s := settlePins { s with rings := { s.rings with latched := h.trips } }
  let s := restoreLoops h.loops s
  { s with solver := { s.solver with solution := h.solution } }

/-- Code of HIF_STATUS.START and of the kind taken (R415). -/
def startCode : StartKind → Nat × Nat × Nat
  | .cold c => (1, 1, c)
  | .warm => (2, 2, 0)
  | .migration => (2, 4, 0)

/-- The manifest CRC of the running slot. -/
def runManifestCrc (s : State) : Option W32 := (runSlot s).manifest.map (·.crc)

/-- Migration of the stores at a first start (R427). -/
def migrateStores (s : State) : State :=
  let s := migrateSettings s
  match newestHalf s with
  | some h => if h.format < Config.retainFormat (svVersion s) then
      raise 0xCF [(1 : Int), (h.format : Int), (Config.retainFormat (svVersion s) : Int)] s else s
  | none => s

/-- The start at the switch instant of the first CMD_PROG_SWITCH (R415, R416, R419). -/
def startAt (im : Image) (now : Nat) (s : State) : State :=
  let first := decide (s.stores.lastManifest ≠ runManifestCrc s)
  let s := if first then migrateStores { s with stores := { s.stores with lastManifest := runManifestCrc s } } else s
  let kind := decideStart im now s
  let (code, taken, cause) := startCode kind
  let half := newestHalf s
  let (m, d) := match kind, half with
    | .cold _, _ => (0, 0)
    | _, some h => ((mapped h.entries im).length, droppedVals h.entries im)
    | _, none => (0, 0)
  let s := startPoints im im.points s
  let s := match kind, half with
    | .warm, some h => warmStart im h false s
    | .migration, some h => warmStart im h true s
    | _, _ => coldStart s
  let shown := if first then 3 else code
  let s := { s with power := { s.power with start := shown, unstarted := false } }
  let s := setSwitch (fun w => { w with mapped := m, dropped := d }) s
  let restart (c : Nat) (s : State) : State := setCls c (fun k => { k with zero := true }) s
  let s := restart 3 (restart 2 (restart 1 (restart 0 s)))
  let bit7 := if s.power.noSettings then 128 else 0
  fillPool (raise 0xC1 [(shown : Int), (taken : Int), ((cause + bit7 : Nat) : Int), ((m + d * 2 ^ 32 : Nat) : Int)] s)

/-! ### The change of the classes (R59, R60) -/

/-- Main cycle counter at the Main period start S. -/
def switchCycle (s : State) (at' : Nat) : W32 :=
  let k := cls s 1
  if k.zero then 0 else if later 64 k.lastStart at' then k.cycleCount + 1 else k.cycleCount

/-- Records of points that the new image defines carry its TYPEFLAGS (R26). -/
def retype (im : Image) (m : FMap PointRec) : FMap PointRec :=
  m.map fun e => match imgPoint im e.1 with
    | some d => (e.1, { e.2 with typeflags := d.typeflags })
    | none => e

/-- S has come: the database takes the new points, forces are judged, and the first switch after a reset starts the
module (R24, R50, R415). -/
def beginSwitch (im : Image) (w : ProgSwitch) (s : State) : State :=
  let old := s.program
  let starting := s.power.unstarted
  let added := im.points.filter fun d => (fget s.defs d.id).isNone
  let s := { s with defs := mergeDefs s.defs (imageDefs im), program := some im, progNext := none, points := retype im s.points }
  let s := setSwitch (fun w => { w with begun := true, old := old }) s
  let s := if starting then startAt im w.at' s else orphanForces im (startPoints im added s)
  setSwitch (fun x => { x with cycle := w.counted.getD (switchCycle s w.at') }) s

/-- Class of a retentive entry: that of its instance, or of the class that writes its point; Fast when none does. -/
def retainClass (im : Image) (e : RetainEntry) : Nat :=
  if e.kind = 1 then (instClass im e.key).getD 0
  else ((im.units.find? fun u => u.writeSet.contains e.key).map (·.cls)).getD 0

/-- Old state of an instance: as collected when its class changed, else as its class holds it. -/
def oldState (s : State) (w : ProgSwitch) (im : Image) (id : Nat) : Option (List W64 × Bool) :=
  match w.oldStates.find? fun x => x.1 = id with
  | some x => some x.2
  | none => match instClass im id, instOf im id with
    | some c, some i => some (instState s im c i, (cls s c).fresh.contains id)
    | _, _ => none

/-- The old program holds a value that an entry of the new one matches (R128). -/
def hadEntry (old : Option Image) (e : RetainEntry) : Bool :=
  match old with
  | some im => im.retain.any fun o => o.kind = e.kind && o.key = e.key && o.layout = e.layout
  | none => false

/-- Retentive entries of one class of the new image at its change (R60). -/
def mapEntries (c : Nat) (im : Image) : List RetainEntry → State → State
  | [], s => s
  | e :: r, s =>
    let w := s.switch
    let old := w.bind (·.old)
    let s :=
      if hadEntry old e then
        let s := setSwitch (fun w => { w with mapped := w.mapped + 1, consumed := (e.kind, e.key) :: w.consumed }) s
        if e.kind = 1 then
          (match w, old with
           | some w, some o => match oldState s w o e.key with
             | some (words, fresh) => putInst c e.key words fresh s
             | none => s
           | _, _ => s)
        else s
      else
        let s := if e.crit = 1 then setSwitch (fun w => { w with inits := w.inits + 1 }) s else s
        if e.kind = 0 then (match imgPoint im e.key with
          | some d => putRec e.key (initialRec im d) s
          | none => s)
        else s
    mapEntries c im r s

/-- States that a warm start restores for the instances of a class. -/
def putStaged (c : Nat) (im : Image) : List (Nat × List W64 × Bool) → State → State
  | [], s => s
  | (id, words, fresh) :: r, s =>
    putStaged c im r (if instClass im id = some c then putInst c id words fresh s else s)

/-- Retentive instance states that a class of the old program holds at its change. -/
def collectStates (s : State) (old : Option Image) (c : Nat) : List (Nat × List W64 × Bool) :=
  match old with
  | none => []
  | some im => (im.retain.filter fun e => e.kind = 1 && instClass im e.key = some c).filterMap fun e =>
    (instOf im e.key).map fun i => (e.key, instState s im c i, (cls s c).fresh.contains e.key)

/-- A class changes programs (R59, R60, R135, R416). -/
def changeClass (c : Nat) (im : Image) (w : ProgSwitch) (s : State) : State :=
  let states := collectStates s w.old c
  let s := setSwitch (fun w => { w with oldStates := w.oldStates ++ states, changed := c :: w.changed }) s
  let ids := (classInsts im c).map (·.id)
  let s := setCls c (fun k => { k with prog := some im, readBuf := [], fresh := ids }) s
  let s := if w.old.isSome then mapEntries c im (im.retain.filter fun e => retainClass im e = c) s else s
  putStaged c im w.staged s

/-- Background changes programs with the last class: what is left of its work stops (R59, R96; log entry 49). -/
def changeBackground (im : Image) (w : ProgSwitch) (s : State) : State := changeClass 4 im w (stopWork 4 s)

/-- Every class has changed: PROG_SWITCHED, and the command completes with its counts (R60, R61, R66). -/
def endSwitch (im : Image) (w : ProgSwitch) (s : State) : State :=
  let dropped : Nat := match w.old with
    | some o => (o.retain.filter fun e => !w.consumed.contains (e.kind, e.key)).length
    | none => w.dropped
  let s := { s with defs := imageDefs im, switch := none }
  let s := raise 0x2C [(w.mapped : Int), (dropped : Int)] s
  finishOk 0x0211 w.req (putLE 4 w.cycle.toNat ++ putLE 4 w.mapped ++ putLE 4 dropped ++ putLE 4 w.inits ++ putLE 4 w.orphaned ++
    putLE 4 w.removed) s

/-- The last periodic class has changed: Background follows, and the switch ends. -/
def closeSwitch (im : Image) (w : ProgSwitch) (s : State) : State :=
  let s := changeBackground im w s
  match s.switch with
  | some w => endSwitch im w s
  | none => s

/-- The class is at a period start at or after S with no cycle running (R59). -/
def mayChange (s : State) (w : ProgSwitch) (c : Nat) : Bool :=
  let p := Nat.max (cls s c).periodUs 1 * 1000
  let t := devNs s / p * p
  !w.changed.contains c && decide (0 ≤ wrapDiff 64 w.at' t) && decide (devNs s - t ≤ 2000) && (cls s c).cycle.isNone

/-- The image that a pending switch brings. -/
def switchImage (s : State) (w : ProgSwitch) : Option Image := if w.begun then s.program else s.progNext

/-- A class changes programs, if a switch is due for it (R59). -/
def changeProgram (c : Nat) (s : State) : State :=
  match s.switch with
  | none => s
  | some w =>
    match switchImage s w with
    | none => s
    | some im =>
      if mayChange s w c then
        let s := if w.begun then s else beginSwitch im w s
        let s := match s.switch with
          | some w => changeClass c im w s
          | none => s
        match s.switch with
        | some w => if 4 ≤ w.changed.length then closeSwitch im w s else s
        | none => s
      else s

/-- PROG_SWITCH_INSTANT (R59): a class changes programs; a mark that waited for the change starts its cycle. -/
def execProgSwitchInstant (c : PClass) (s : State) : Res := .next (startHeld c.val (changeProgram c.val s))

end Sys2Proof.Machine
end

