-- ==== Sys2Proof/Machine/SolverCmd.lean ====
section
/-! DEFINITION. SolverCmd.lean: models, jobs and the commands of the network solver (R202, R209, R210, R213, R217 to
R224). -/

namespace Sys2Proof.Machine

/-! ### Stop records (R113, R210, R240) -/

/-- The active sends the records of a returned job: for each outer step the S it used and its stop record, then the number
of its steps. -/
def sendStops (kinds : List Nat) : List StopRec → State → State
  | [], s => sendMirror (.jobEnd kinds) s
  | x :: r, s =>
    sendStops kinds r (sendMirror (.stop x.kind x.step x.iterations x.cause x.factor x.retry) (sendMirror (.scale x.scale) s))

/-- The end of a job that this module follows has been recorded. -/
def endRecorded (s : State) (kind : Nat) : Bool := s.pair.jobEnds.any fun l => l.contains kind

/-- The records of a standby's job kinds; a module that follows no active has none (R210). -/
def stopsFor (s : State) (kinds : List Nat) : Option (List StopRec) :=
  if followsMarks s then some (s.pair.stops.filter fun x => kinds.contains x.kind) else none

/-- A job of this module may return: a standby that follows its active runs the recorded steps, so it returns after their
records (R210, R240). -/
def mayReturn (s : State) (kind : Nat) : Bool := !followsMarks s || endRecorded s kind

/-- The records of a job have been used. -/
def dropStops (kinds : List Nat) (s : State) : State :=
  setPair (fun p => { p with
    stops := p.stops.filter fun x => !kinds.contains x.kind, jobEnds := p.jobEnds.filter fun l => l ≠ kinds }) s

/-! ### Job events (R202, R209, R217) -/

/-- SOLVER_JOB_RETURN (R209): the Main job or a host job returns. -/
def execSolverJobReturn (host : Bool) (t : JobTiming) (s : State) : Res :=
  .next (if host then
      (match s.solver.hostJob with
       | some r => returnHost r t s
       | none => s)
    else
      (match s.solver.mainJob with
       | some r =>
         if mayReturn s 1 then
           let e := endJob s (stopsFor s [1, 2]) r t
           jobReturned 1 (returnMain r e (sendStops [1, 2] e.acc.stops (dropStops [1, 2] s)))
         else s
       | none => s))

/-- A factorisation limit falls in a job at the earliest at min(deadline, FACTOR_LIMIT_US) after its issue (R202). -/
def noteLimit (s : State) (r : JobRun) : Option JobRun :=
  let t := s.refNs - r.issued
  let first := if r.limitNs < r.desc.factorUs * 1000 then r.limitNs else r.desc.factorUs * 1000
  if first ≤ t then some { r with lateAt := r.lateAt ++ [t] } else none

/-- FACTOR_LIMIT (R202): the limit falls during a factorisation of the Main job, else of the host job; the step whose
limit it is uses the kept factor or Jacobi (`chooseFactor`). -/
def execFactorLimit (s : State) : Res :=
  .next (match s.solver.mainJob.bind (noteLimit s) with
    | some r => { s with solver := { s.solver with mainJob := some r } }
    | none => match s.solver.hostJob.bind (noteLimit s) with
      | some r => { s with solver := { s.solver with hostJob := some r } }
      | none => s)

/-- Abort the Main job; its cycle no longer waits (R39, R217). -/
def stopMain (s : State) : State := if s.solver.mainJob.isSome then jobReturned 1 (abortMain s) else s

/-- Abort the optimise job; its cycle no longer waits. -/
def stopOpt (s : State) : State := if s.opt.job.isSome then jobReturned 3 (abortOpt s) else s

/-- An estimator run other than a test has ended: a cold start no longer waits for it, or for the run it was merged into
(R249). -/
def releaseStart (t : EstTrigger) (s : State) : State :=
  if t = .test then s else { s with power := { s.power with startHold := false } }

/-- Abort the estimator's run. -/
def stopEst (s : State) : State :=
  match s.est.run with
  | some r => releaseStart r.trig (abortEst s)
  | none => s

/-- A written value of SOL_CTRL: ENABLE 0 aborts the jobs in flight (R217, R218). -/
def solCtrl (v : W32) (s : State) : State :=
  let s := cfgSet 0xB04 v s
  if v.getLsbD 0 then s else stopEst (stopOpt (abortHost (stopMain s)))

/-- SOL_CTRL_ENABLE (R217). -/
def execSolCtrlEnable (p : Port) (v : W32) (s : State) : Res := .next (ownWrite p 0xB04 (solCtrl v) s)

/-! ### Models (R219, R220) -/

/-- SOL_LOCK.CFG_LOCK. -/
def solLock (s : State) : Option (Nat × Nat) := lockRefusal s 0xB08

/-- DETAIL of a failed load check (R406). -/
def loadDetail (n st : Nat) : Nat := if st = stDenied then 7 else n

/-- TOTAL_LENGTH up to a maximum. -/
def lengthTo (m t : Nat) : Bool := decide (0 < t) && decide (t ≤ m)

/-- CMD_MODEL_LOAD (R187, R219). -/
def specModelLoad : CmdSpec where
  opcode := 0x0501
  length := chunkLen
  check _ p s := firstRefusal [solLock s, chunkRefusal (lengthTo 0x04000000) s.solver.load p]
  run r p s :=
    let c := chunkNext s.solver.load p
    let s := if getLE p 0 4 = 0 then { s with solver := { s.solver with loaded := none } } else s
    if chunkDone c then
      let s := { s with solver := { s.solver with load := none } }
      let f := modelFault s c.received
      let s := afterChecks (f.map (·.1)) c.received (getLE c.received 44 4) s
      match f with
      | some (n, st) => finish 0x0501 r st (loadDetail n st) [] (raiseC 0x56 [n] n s)
      | none => finishOk 0x0501 r [] { s with solver := { s.solver with loaded := some (parseModel c.received) } }
    else finishOk 0x0501 r [] { s with solver := { s.solver with load := some c } }

/-- CMD_MODEL_LOAD -/
def execCmdModelLoad (r : Req) (s : State) : Res := .next (runCmd specModelLoad r s)

/-- CMD_MODEL_SWITCH (R220). -/
def specModelSwitch : CmdSpec where
  opcode := 0x0502
  length := fixedLen 4
  check _ p s :=
    firstRefusal [solLock s, badParam [(0, decide ((s.solver.loaded.map fun m => m.crc.toNat) ≠ some (getLE p 0 4)))]]
  run r _ s := holdCmd 0x0502 r { s with solver := { s.solver with switch := some (r, effectTime s (startInstant s 1)) } }
  instant _ s := startInstant s 1

/-- CMD_MODEL_SWITCH -/
def execCmdModelSwitch (r : Req) (s : State) : Res := .next (runCmd specModelSwitch r s)

/-- MODEL_SWITCH_EFFECT (R213, R220, R244): the switch is due; a Main period start that comes first has made it before its
mark. -/
def execModelSwitchEffect (s : State) : Res := .next (modelDue (devNs s) s)

/-! ### Jobs (R214 to R217, R221 to R224) -/

/-- CMD_SOLVER_CONFIG (R221): the deadline of the Main job is that of R62, and its DEADLINE_US field is 0. -/
def specSolverConfig : CmdSpec where
  opcode := 0x0503
  length := fixedLen 64
  check _ p s :=
    firstRefusal [solLock s,
      badParam ((descFaults p [0, 1, 2] s.solveDeadline).take 12 ++ [(24, decide (getLE p 24 4 ≠ 0))] ++
        (descFaults p [0, 1, 2] s.solveDeadline).drop 12)]
  run r p s := finishOk 0x0503 r [] { s with solver := { s.solver with mainDesc := some (parseDesc p) } }

/-- CMD_SOLVER_CONFIG -/
def execCmdSolverConfig (r : Req) (s : State) : Res := .next (runCmd specSolverConfig r s)

/-- CMD_SOLVER_RUN (R222). -/
def specSolverRun : CmdSpec where
  opcode := 0x0510
  length := fixedLen 64
  check _ p s :=
    firstRefusal [badParam (descFaults p [0, 1, 2] (getLE p 24 4)), refuseIf s.solver.model.isNone stNotActive 0,
      refuseIf s.solver.hostJob.isSome stBusy 0]
  run r p s :=
    match s.solver.model with
    | none => s
    | some m =>
      let j := startJob s m (parseDesc p) (devNs s) (devNs s + getLE p 24 4 * 1000) (some r) (readRec s)
      holdCmd 0x0510 r (wakeHomes j.tileRows <| raiseIslands j { s with solver := { s.solver with hostJob := some j } })

/-- CMD_SOLVER_RUN -/
def execCmdSolverRun (r : Req) (s : State) : Res := .next (runCmd specSolverRun r s)

/-- Kept-factor state of CMD_SOLVER_STATUS (R223). -/
def keptCode (s : State) : Nat := b2n s.solver.keptHyd.isSome + 2 * b2n s.solver.keptTherm.isSome

/-- CMD_SOLVER_STATUS (R223). -/
def specSolverStatus : CmdSpec where
  opcode := 0x0511
  length := fixedLen 0
  check _ _ _ := none
  run r _ s := finishOk 0x0511 r (jobBytes s.solver.lastMain ++ putLE 4 (laneBits s) ++ putLE 4 (keptCode s)) s

/-- CMD_SOLVER_STATUS -/
def execCmdSolverStatus (r : Req) (s : State) : Res := .next (runCmd specSolverStatus r s)

/-- CMD_SOLVER_ABORT (R224). -/
def specSolverAbort : CmdSpec where
  opcode := 0x0512
  length := fixedLen 0
  check _ _ _ := none
  run r _ s := finishOk 0x0512 r [] (abortHost s)

/-- CMD_SOLVER_ABORT -/
def execCmdSolverAbort (r : Req) (s : State) : Res := .next (runCmd specSolverAbort r s)

end Sys2Proof.Machine
end

