-- ==== Sys2Proof/Machine/OptCmd.lean ====
section
/-! DEFINITION. OptCmd.lean: problems, plans, measurement tables and the jobs of the optimiser and the state estimator
(R237, R238, R244, R249 to R256). -/

namespace Sys2Proof.Machine

/-! ### Problems (R251) -/

/-- CMD_OPT_PROBLEM_LOAD (R231, R251); a failed signature raises no event. -/
def specOptProblemLoad : CmdSpec where
  opcode := 0x0520
  length := chunkLen
  check _ p s := firstRefusal [solLock s, chunkRefusal (lengthTo 0x04000000) s.opt.load p]
  run r p s :=
    let c := chunkNext s.opt.load p
    let s := if getLE p 0 4 = 0 then { s with opt := { s.opt with loaded := none } } else s
    if chunkDone c then
      let s := { s with opt := { s.opt with load := none } }
      let f := probFault s c.received
      let s := afterChecks (f.map (·.1)) c.received (getLE c.received 52 4) s
      match f with
      | some (n, st) =>
        finish 0x0520 r st (loadDetail n st) [] (if st = stDenied then s else raiseC 0x58 [n] n s)
      | none => finishOk 0x0520 r [] { s with opt := { s.opt with loaded := some (parseProblem c.received) } }
    else finishOk 0x0520 r [] { s with opt := { s.opt with load := some c } }

/-- CMD_OPT_PROBLEM_LOAD -/
def execCmdOptProblemLoad (r : Req) (s : State) : Res := .next (runCmd specOptProblemLoad r s)

/-- CMD_OPT_PROBLEM_SWITCH (R251). -/
def specOptProblemSwitch : CmdSpec where
  opcode := 0x0521
  length := fixedLen 4
  check _ p s :=
    firstRefusal [solLock s, badParam [(0, decide ((s.opt.loaded.map fun m => m.crc.toNat) ≠ some (getLE p 0 4)))]]
  run r _ s := holdCmd 0x0521 r { s with opt := { s.opt with switch := some (r, effectTime s (startInstant s 3)) } }
  instant _ s := startInstant s 3

/-- CMD_OPT_PROBLEM_SWITCH -/
def execCmdOptProblemSwitch (r : Req) (s : State) : Res := .next (runCmd specOptProblemSwitch r s)

/-- PROBLEM_SWITCH_EFFECT (R244, R251): the switch is due; an Optimise period start that comes first has made it. -/
def execProblemSwitchEffect (s : State) : Res := .next (problemDue (devNs s) s)

/-! ### Descriptors (R237, R238, R252) -/

/-- A field is not a scalar of R188: neither 0 nor normalised. -/
def notScalar (x : Int × Int) : Bool := x.1 ≠ 0 && !(decide (2 ^ 30 ≤ x.1.natAbs) && decide (x.1.natAbs < 2 ^ 31))

/-- Faulty fields of a descriptor of KIND 3 (R237). -/
def optDescFaults (p : Bytes) : List (Nat × Bool) :=
  let d := parseDesc p
  [(0, d.kind ≠ 3), (1, d.method ≠ 1), (2, decide (1 < d.precond)), (3, d.tprecond ≠ 0), (4, decide (d.cap < 1 ∨ 4096 < d.cap)),
   (6, d.tcap ≠ 0), (8, decide (d.newtonMax < 1 ∨ 100 < d.newtonMax)), (9, d.flags ≠ 0),
   (10, decide (d.keepMax < 1 ∨ 1000 < d.keepMax)), (12, d.tol = 0), (16, decide (d.accept < d.tol)), (20, d.ntol = 0),
   (28, d.reserveUs ≠ 0), (32, d.factorUs ≠ 0), (36, d.dpMax ≠ 0),
   (44, notScalar d.mu0), (50, notScalar d.reg), (56, notScalar d.thetaMax), (62, notZero p 62 2)]

/-- Faulty fields of a descriptor of KIND 4 (R237). -/
def estDescFaults (p : Bytes) : List (Nat × Bool) :=
  let d := parseDesc p
  [(0, d.kind ≠ 4), (1, d.method ≠ 3), (2, decide (1 < d.precond)), (3, d.tprecond ≠ 0), (4, decide (d.cap < 1 ∨ 4096 < d.cap)),
   (6, d.tcap ≠ 0), (8, decide (d.newtonMax < 1 ∨ 32 < d.newtonMax)), (9, !(d.flags = 0 || d.flags = 2)),
   (10, decide (d.keepMax < 1 ∨ 1000 < d.keepMax)), (12, d.tol = 0), (16, decide (d.accept < d.tol)), (20, d.ntol = 0),
   (28, d.reserveUs ≠ 0), (32, d.factorUs ≠ 0), (36, d.dpMax = 0), (40, notZero p 40 24)]

/-- CMD_OPT_CONFIG (R237, R238, R252). -/
def specOptConfig : CmdSpec where
  opcode := 0x0522
  length := fixedLen 64
  check _ p s :=
    firstRefusal [solLock s, badParam (optDescFaults p), conflictRefusal (row2 (acceptedPeriod s 3) (getLE p 24 4))]
  run r p s := finishOk 0x0522 r [] { s with opt := { s.opt with desc := some (parseDesc p) } }

/-- CMD_OPT_CONFIG -/
def execCmdOptConfig (r : Req) (s : State) : Res := .next (runCmd specOptConfig r s)

/-- CMD_EST_CONFIG (R237, R252). -/
def specEstConfig : CmdSpec where
  opcode := 0x0531
  length := fixedLen 64
  check _ p s := firstRefusal [solLock s, badParam (estDescFaults p)]
  run r p s := finishOk 0x0531 r [] { s with est := { s.est with desc := some (parseDesc p) } }

/-- CMD_EST_CONFIG -/
def execCmdEstConfig (r : Req) (s : State) : Res := .next (runCmd specEstConfig r s)

/-! ### The optimise job (R229, R238, R240, R244) -/

/-- OPT_JOB_ISSUE (R238): the job of the Optimise cycle is issued once the class is admitted. -/
def execOptJobIssue (s : State) : Res :=
  .next (match (cls s 3).cycle, s.opt.problem, s.opt.desc with
    | some y, some p, some d =>
      if s.opt.wanted && s.opt.job.isNone && admitted s 3 && !optMismatch s p then
        let r := startOpt s p d y.stamp (snapRead s y)
        wakeHomes r.tileRows { s with opt := { s.opt with wanted := false, job := some r } }
      else s
    | _, _, _ => s)

/-- An optimise job that is still not admitted at its deadline ends unissued: the Optimise commit waits for it no longer (R39,
R238). -/
def optExpiry (s : State) : State :=
  match (cls s 3).cycle, s.opt.desc with
  | some y, some d =>
    if s.opt.wanted && s.opt.job.isNone && reached s (y.stamp + d.deadlineUs * 1000) then
      jobReturned 3 { s with opt := { s.opt with wanted := false } }
    else s
  | _, _ => s

/-- OPT_JOB_RETURN (R240, R244). -/
def execOptJobReturn (t : JobTiming) (s : State) : Res :=
  .next (match s.opt.job with
    | some r =>
      if mayReturn s 3 then
        let (v, mu0) := runOpt (arrayEnv s r.issued (stopsFor s [3])) r t
        jobReturned 3 (returnOpt r v mu0 (sendStops [3] v.acc.stops (dropStops [3] s)))
      else s
    | none => s)

/-! ### Plans (R253, R254) -/

/-- CMD_OPT_STATUS (R253). -/
def specOptStatus : CmdSpec where
  opcode := 0x0523
  length := fixedLen 0
  check _ _ _ := none
  run r _ s :=
    finishOk 0x0523 r (jobBytes s.opt.last ++ putLE 8 ((s.opt.plan.map (·.t0)).getD 0) ++
      putLE 8 ((s.opt.problem.map fun p => p.problemId.toNat).getD 0) ++ putLE 4 s.opt.rejected) s

/-- CMD_OPT_STATUS -/
def execCmdOptStatus (r : Req) (s : State) : Res := .next (runCmd specOptStatus r s)

/-- CMD_PLAN_READ (R254). -/
def specPlanRead : CmdSpec where
  opcode := 0x0524
  length := fixedLen 4
  check _ p s :=
    let count := getLE p 3 1
    match s.opt.plan with
    | none => firstRefusal [badParam [(3, decide (count < 1 ∨ 96 < count))], some (stNotActive, 0)]
    | some q => badParam [(0, decide (q.values.length ≤ getLE p 0 2)),
        (3, decide (count < 1 ∨ 96 < count) || decide (q.horizon < getLE p 2 1 + count))]
  run r p s :=
    match s.opt.plan with
    | none => s
    | some q =>
      let l := lget q.values (getLE p 0 2) []
      finishOk 0x0524 r (putLE 8 q.t0 ++ putLE 4 q.stepS ++ zeros 4 ++
        (upto (getLE p 3 1)).flatMap fun k => putSLE 8 (lget l (getLE p 2 1 + k) 0)) s

/-- CMD_PLAN_READ -/
def execCmdPlanRead (r : Req) (s : State) : Res := .next (runCmd specPlanRead r s)

/-! ### The estimator (R247, R249, R250, R255, R256) -/

/-- CMD_EST_LOAD (R247, R255). -/
def specEstLoad : CmdSpec where
  opcode := 0x0530
  length := chunkLen
  check _ p s := chunkRefusal (lengthTo 0x00800000) s.est.load p
  run r p s :=
    let c := chunkNext s.est.load p
    if chunkDone c then
      let s := { s with est := { s.est with load := none } }
      let f := tableFault s c.received
      let s := afterChecks (f.map (·.1)) c.received (getLE c.received 40 4) s
      match f with
      | some (n, st) => finish 0x0530 r st (loadDetail n st) [] (raiseC 0x5D [n] n s)
      | none => finishOk 0x0530 r [] { s with est := { s.est with table := some (parseTable c.received) } }
    else finishOk 0x0530 r [] { s with est := { s.est with load := some c } }

/-- CMD_EST_LOAD -/
def execCmdEstLoad (r : Req) (s : State) : Res := .next (runCmd specEstLoad r s)

/-- A CMD_EST_RUN runs or waits (R256). -/
def estBusy (s : State) : Bool :=
  ((s.est.run.bind (·.req)).isSome) || ((s.est.pending.bind (·.2)).isSome) || s.est.testReq.isSome

/-- CMD_EST_RUN (R249, R256). -/
def specEstRun : CmdSpec where
  opcode := 0x0532
  length := fixedLen 4
  check _ p s :=
    firstRefusal [badParam [(0, !(getLE p 0 4 = 1 || getLE p 0 4 = 2))], refuseIf (!estReady s) stNotActive 0,
      refuseIf (estBusy s) stBusy 0]
  run r p s := holdCmd 0x0532 r (estTrigger (if getLE p 0 4 = 1 then .demand else .test) (some r) s)

/-- CMD_EST_RUN -/
def execCmdEstRun (r : Req) (s : State) : Res := .next (runCmd specEstRun r s)

/-- Runs that wait for a table or model that has gone are refused (R256). -/
def dropWaiting (s : State) : State :=
  let p := s.est.pending.bind (·.2)
  let q := s.est.testReq
  let s := { s with est := { s.est with pending := none, testReq := none }, power := { s.power with startHold := false } }
  finishOpt 0x0532 q stNotActive 0 [] (finishOpt 0x0532 p stNotActive 0 [] s)

/-- EST_RUN_START (R249): the pending run starts, or the waiting test when there is none. -/
def execEstRunStart (s : State) : Res :=
  .next (if s.est.run.isSome then s
    else if !estReady s then dropWaiting s
    else match s.est.pending with
      | some (t, r) => startEst t r { s with est := { s.est with pending := none } }
      | none => match s.est.testReq with
        | some r => startEst .test (some r) { s with est := { s.est with testReq := none } }
        | none => s)

/-- EST_RUN_RETURN (R240, R249, R250). A test runs on the receiving module only. -/
def execEstRunReturn (t : JobTiming) (s : State) : Res :=
  .next (match s.est.run with
    | none => s
    | some r =>
      if r.trig = .test then returnEst r (runEst s none r t) s
      else if mayReturn s 4 then
        let y := runEst s (stopsFor s [4]) r t
        releaseStart r.trig (returnEst r y (sendStops [4] y.acc.stops (dropStops [4] s)))
      else s)

/-- Code of a trigger (R256). -/
def triggerCode : EstTrigger → Nat
  | .coldStart => 0
  | .switchover => 1
  | .structureChange => 2
  | .demand => 3
  | .test => 4

/-- CMD_EST_STATUS (R256). -/
def specEstStatus : CmdSpec where
  opcode := 0x0533
  length := fixedLen 0
  check _ _ _ := none
  run r _ s :=
    finishOk 0x0533 r (jobBytes s.est.last ++ putLE 4 s.est.rejected ++ putLE 4 (triggerCode s.est.lastTrig)) s

/-- CMD_EST_STATUS -/
def execCmdEstStatus (r : Req) (s : State) : Res := .next (runCmd specEstStatus r s)

end Sys2Proof.Machine
end

