-- ==== Sys2Proof/Machine/Pairing.lean ====
section
/-! DEFINITION. Pairing.lean: the pair link and its heartbeat, the role decision, the loss of the partner and the takeover
(R434 to R442, R451, R452). -/

namespace Sys2Proof.Machine

/-- PL takes part in the pair: the main side runs and PL is in service. -/
def plOn (s : State) : Bool := s.power.mainUp && s.power.released && inService s idPL

/-! ### Role decision (R412, R436) -/

/-- Take a role that drives: ACTIVE_N, the CAN controllers in their configured mode and the trip pins (R317, R357, R436). -/
def claimRole (r : Role) (s : State) : State := settlePins (refreshModes (setPair (fun p => { p with role := r }) s))

/-- The partner reports the own SLOT_ID (R436). -/
def slotConflict (s : State) : Bool := s.pair.lastHb.any fun h => h.slot == s.pair.slotId

/-- MODE of the pair configuration at a role decision: the last one accepted (R463). -/
def pairMode (s : State) : Nat := (s.pair.nextCfg.getD s.pair.cfg).mode

/-- ACTIVE_N has stayed high for 10 s after READY (R436). -/
def highTenSeconds (s : State) : Bool :=
  decide (10000000000 ≤ since s s.pair.readyAt) && decide (10000000000 ≤ since s s.pair.lineAt)

/-- ROLE_DECISION (R412, R436, R520): a module whose role is undecided takes one, or waits. -/
def decideRole (s : State) : State :=
  if !s.power.ready || decide (s.pair.role ≠ .undecided) then s
  else if s.pair.fault || decide (s.keys.lc = .retired) then restRole .fenced s
  else if pairMode s = 1 then claimRole .solo s
  else if s.pair.lineLow then
    (if inService s idPL then restRole .standby (setPair (fun p => { p with synced := false }) s) else restRole .fenced s)
  else if slotConflict s then s
  else if !s.pair.slotId || !s.pair.present || highTenSeconds s then claimRole .active s
  else s

/-- SLOT1_CLAIM_TIMEOUT (R436): ACTIVE_N has stayed high for 10 s after the own READY. -/
def execSlot1ClaimTimeout (s : State) : Res :=
  .next (if s.power.mainUp && s.pair.slotId && highTenSeconds s then decideRole s else s)

/-- ACTIVE_N_CHANGE (R435, R436): the partner's level on the shared line has changed and been read for 20 µs. -/
def execActiveNChange (low : Bool) (s : State) : Res :=
  let s := setPair (fun p => { p with lineLow := low, lineAt := if p.lineLow = low then p.lineAt else s.refNs }) s
  .next (if s.power.mainUp then decideRole s else s)

/-- PARTNER_PRESENT_CHANGE (R434, R436, R437, R459): the partner is inserted or withdrawn. -/
def execPartnerPresentChange (present : Bool) (s : State) : Res :=
  let was := s.pair.present
  let s := setPair (fun p => { p with present := present }) s
  .next (if !s.power.mainUp || was == present then s
    else if present then s
    else
      let s := raise 0xA4 [] s
      if s.pair.role = .active then endExchange stAborted (dropPartner s) else decideRole s)

/-! ### Link (R438) -/

/-- PAIR_LINK_UP (R438): a lane gains block lock. -/
def execPairLinkUp (lane : Fin 2) (s : State) : Res :=
  .next (if plOn s then
      let s := setPair (fun p => if lane.val = 0 then { p with lane0 := true } else { p with lane1 := true }) s
      raise 0xA0 [] (setPair (fun p => { p with linkUp := true }) s)
    else s)

/-- PAIR_LANE_LOSS (R438): a lane loses block lock and is dropped. -/
def execPairLaneLoss (lane : Fin 2) (s : State) : Res :=
  .next (if plOn s && (if lane.val = 0 then s.pair.lane0 else s.pair.lane1) then
      rcAdd 0x1420 1 (setPair (fun p =>
        { p with lane0 := p.lane0 && decide (lane.val ≠ 0), lane1 := p.lane1 && decide (lane.val ≠ 1), laneAt := s.refNs }) s)
    else s)

/-- PAIR_LINK_DOWN (R399, R437, R438, R458): both lanes have been out of block lock for 20 µs. -/
def execPairLinkDown (s : State) : Res :=
  .next (if plOn s && s.pair.linkUp && !s.pair.lane0 && !s.pair.lane1 && decide (20000 ≤ since s s.pair.laneAt) then
      let s := raise 0xA1 [] (setPair (fun p => { p with linkUp := false }) s)
      if s.pair.role = .active then countFault 15 (endExchange stAborted (dropPartner s)) else s
    else s)

/-! ### Heartbeat (R439 to R441) -/

/-- SV keeps PL's liveness register refreshed: it is in service and has booted (R440). -/
def svAlive (s : State) : Bool := s.power.booted && inService s idSV

/-- The heartbeat that leaves now (R439). -/
def heartbeatNow (s : State) : Heartbeat :=
  let p := s.pair
  { seq := p.hbSeq, role := roleCode p.role, synced := p.synced, selfCheck := p.selfCheck
    handover := p.exchange.any (·.handed), drill := p.exchange.any (·.drill), slot := p.slotId, proto := ownProto s
    feature := ownFeature s, serial := s.keys.serial, lc := lcCode s.keys.lc, mainCnt := (cls s 1).cycleCount
    mirrorAck := if p.role = .standby then p.mirrorSeq % 2 ^ 32 else 0 }

/-- HEARTBEAT_SEND (R439, R440): every 10 µs, while SV's refresh is no older than 1 ms and the module is not FENCED. -/
def execHeartbeatSend (s : State) : Res :=
  .next (if plOn s && decide (10000 ≤ since s s.pair.hbSentAt) then
      let s := if svAlive s then setPair (fun p => { p with liveAt := s.refNs }) s else s
      if s.power.booted && decide (since s s.pair.liveAt ≤ 1000000) && decide (s.pair.role ≠ .fenced) && s.pair.linkUp then
        emit (.heartbeat (heartbeatNow s)) (setPair (fun p => { p with hbSentAt := s.refNs, hbSeq := p.hbSeq + 1 }) s)
      else s
    else s)

/-- Intervals of 10 µs missed since the last valid heartbeat, beyond those counted already (R439, R461). -/
def missedNow (s : State) : Nat :=
  match s.pair.hbAt with
  | none => 0
  | some t => since s t / 10000 - 1 - s.pair.missed

/-- The refusal of a join by a heartbeat's checks (R442); cause 3 is checked once the settings are there. -/
def joinRefusal (h : Heartbeat) (s : State) : Option Nat :=
  if h.slot == s.pair.slotId then some 1
  else if h.proto ≠ ownProto s ∨ 1 < ((h.feature : Int) - (ownFeature s : Int)).natAbs then some 2
  else if h.lc ≠ lcCode s.keys.lc then some 4
  else none

/-- A join is refused: the module stays undecided (R442). -/
def refuseJoin (cause : Nat) (s : State) : State :=
  raiseC 0xB2 [cause] cause (restRole .undecided (setPair (fun p => { p with joined := false, joining := false, synced := false }) s))

/-- A join is accepted: PARTNER_JOINED, and VERSION_MIXED with cause 0 when the feature levels differ (R442, R443). -/
def acceptJoin (h : Heartbeat) (s : State) : State :=
  let s := raise 0xA2 [] (setPair (fun p => { p with joined := true, partner := h.serial }) s)
  if h.feature = ownFeature s then s else raise 0xB2 [0] s

/-- A resync that this module has waited for is done (R443, R465). -/
def resyncDone (s : State) : State :=
  if !s.pair.resync then s
  else
    let req := s.pair.resyncReq
    let s := raise 0xAD [] (setPair (fun p => { p with resync := false, resyncReq := none }) s)
    finishOpt 0x0905 (req.map (·.1)) stOk 0 [] s

/-- The ACTIVE takes the standby's SYNCED flag: set, PARTNER_SYNCED; during a resync only its rising edge counts. -/
def followSynced (old : Option Heartbeat) (h : Heartbeat) (s : State) : State :=
  if !h.synced then setPair (fun p => { p with synced := false }) s
  else if s.pair.synced then s
  else if s.pair.resync && (old.any (·.synced)) then s
  else resyncDone (raise 0xA3 [] (setPair (fun p => { p with synced := true }) s))

/-- A heartbeat of a STANDBY at the ACTIVE. -/
def activeHears (old : Option Heartbeat) (h : Heartbeat) (s : State) : State :=
  if h.role ≠ 2 then s
  else
    let s := if s.pair.joined then s else match joinRefusal h s with
      | none => acceptJoin h s
      | some _ => s
    if s.pair.joined then followSynced old h (ackMirrored h.mirrorAck s) else s

/-- A heartbeat of the ACTIVE at a STANDBY: the join of one that has not joined, and the resync of one whose partner has
cleared SYNCED (R442, R465). -/
def standbyHears (old : Option Heartbeat) (h : Heartbeat) (s : State) : State :=
  if h.role ≠ 1 then s
  else if !s.pair.joined then
    match joinRefusal h s with
    | some c => refuseJoin c s
    | none => setPair (fun p => { p with joining := true, joinFails := 0 }) (acceptJoin h s)
  else if s.pair.synced && old.any (·.synced) && !h.synced then startResync s
  else s

/-- HEARTBEAT_RECEIVE (R439, R441, R442): a valid heartbeat of the partner. -/
def execHeartbeatReceive (h : Heartbeat) (s : State) : Res :=
  .next (if plOn s && s.pair.linkUp then
      let old := s.pair.lastHb
      let s := rcAdd 0x140C (missedNow s) s
      let s := setPair (fun p => { p with lastHb := some h, hbAt := some s.refNs, lostAt := none, lostEp := false, missed := 0 }) s
      let s := if old.isNone && slotConflict s then raise 0xB8 [] s else s
      match s.pair.role with
      | .active => activeHears old h s
      | .standby => standbyHears old h s
      | _ => s
    else s)

/-- HEARTBEAT_LOST (R437, R441): five consecutive intervals without a valid heartbeat. -/
def execHeartbeatLost (s : State) : Res :=
  .next (match s.pair.hbAt with
    | none => s
    | some t =>
      if plOn s && s.pair.lostAt.isNone && decide (50000 ≤ since s t) then
        let s := rcAdd 0x140C (5 - s.pair.missed) s
        let s := raise 0xA5 [] (setPair (fun p => { p with lostAt := some s.refNs, missed := 5 }) s)
        if s.pair.role = .active then raise 0xA4 [] (endExchange stAborted (dropPartner s)) else s
      else s)

/-! ### Takeover (R452) -/

/-- The last accepted Main solution is missing or older than 10 Main periods (R249). -/
def staleSolution (s : State) : Bool :=
  match s.solver.solution with
  | none => true
  | some x => decide (10 * (cls s 1).periodUs * 1000 < devSince s x.stamp)

/-- The output datasets of the last OUTPUT record of each class are sent again; without a record, those of the last own
commit (R452 step 5). -/
def republishSets : List Nat → State → State
  | [], s => s
  | c :: r, s => republishSets r (sendSet (devNs s) (fgetD s.pair.outSets c (fgetD s.rings.lastOut c [])) s)

/-- Steps 4 and 5 of R452: the standby drives ACTIVE_N and becomes ACTIVE, and republishes its outputs. `exchange` tells a
role exchange from a takeover (R451, R453). -/
def takeUp (exchange : Bool) (s : State) : State :=
  let unsynced := !s.pair.synced
  let s := endExchange stAborted (abortLoopback s)
  let s := setPair (fun p => { p with
    role := .active, takingUp := true, lostAt := none, lostEp := false
    synced := exchange && p.synced, joined := exchange && p.joined, joining := false, resync := false
    takeovers := if exchange then p.takeovers else p.takeovers + 1
    exchanges := if exchange then p.exchanges + 1 else p.exchanges }) s
  let s := raise 0xA6 [(b2n unsynced : Int)] s
  let s := if exchange then s else countFault 17 s
  let s := { s with meter := { s.meter with takeover := true } }
  let s := settlePins (resendLoops s.rings.lastLoop (republishSets [0, 1, 2, 3] s))
  if staleSolution s then estTrigger .switchover none s else s

/-- ACTIVE_N_CHECK (R441, R452): after a loss the standby reads ACTIVE_N. Released within 200 µs, it takes over when it is
synchronised or PAIR_CTRL.UNSYNC_TAKEOVER allows; low after 200 µs, it goes on alone. -/
def execActiveNCheck (s : State) : Res :=
  .next (match s.pair.lostAt with
    | none => s
    | some t =>
      if !(plOn s && decide (s.pair.role = .standby)) || s.pair.lostEp || s.test.test then s
      else if !s.pair.lineLow && decide (s.pair.lineAt ≤ t + 200000) then
        (if s.pair.synced || cfgBit s 0x1404 1 then takeUp false s else setPair (fun p => { p with lostEp := true }) s)
      else if 200000 ≤ since s t then
        countFault 15 (raise 0xA1 [] (setPair (fun p => { p with
          lostEp := true, synced := false, joined := false, joining := false, resync := false }) s))
      else s)

/-- TAKE_UP_CONTROL (R357, R452 step 6): at the next Fast period start the CAN controllers go to their configured mode, the
class buffers are requested, and loop routes are enabled. -/
def execTakeUpControl (s : State) : Res :=
  let p := Nat.max (cls s 0).periodUs 1 * 1000
  .next (if s.pair.takingUp && decide (s.pair.role = .active) && decide (devNs s % p ≤ 2000) then
      let s := refreshModes (setPair (fun p => { p with takingUp := false }) s)
      canRepeat 3 (canRepeat 2 (canRepeat 1 (canRepeat 0 s)))
    else s)

end Sys2Proof.Machine
end

