-- ==== Sys2Proof/Machine/PairCmd.lean ====
section
/-! DEFINITION. PairCmd.lean: the pair's commands, role exchanges, drills and the mismatch self-check (R450, R453 to R457,
R462 to R466). -/

namespace Sys2Proof.Machine

/-! ### CMD_PAIR_STATUS, CMD_PAIR_CONFIG, CMD_FAULT_STATUS -/

/-- Partner's fields of CMD_PAIR_STATUS. -/
def partnerByte (s : State) (f : Heartbeat → Nat) : Nat := (s.pair.lastHb.map f).getD 0

/-- Hours of drill age at which a drill falls due (R456). -/
def dueAge (s : State) : Nat := (s.pair.cfg.interval * 90 + 99) / 100

/-- CMD_PAIR_STATUS (R462). -/
def specPairStatus : CmdSpec where
  opcode := 0x0901
  length := fixedLen 0
  check _ _ _ := none
  run r _ s :=
    let p := s.pair
    let partner := if p.linkUp then (p.lastHb.map (·.role)).getD 0xFF else 0xFF
    let age := p.drillAge.getD 0xFFFF
    finishOk 0x0901 r ([byte (roleCode p.role), byte partner] ++ putLE 2 (bits (pairStatus s).toNat 4 9) ++ putLE 8 p.partner.toNat ++
      [byte (ownProto s), byte (ownFeature s), byte (partnerByte s (·.proto)), byte (partnerByte s (·.feature))] ++
      putLE 4 (satBits 24 p.lagUs) ++ putLE 4 age ++ putLE 4 (if drillDue s then 0 else dueAge s - age) ++
      putLE 4 p.takeovers ++ putLE 4 p.exchanges ++ putLE 4 p.mismatches ++ putLE 4 p.resyncs ++ putLE 4 p.syncMs) s

/-- CMD_PAIR_STATUS -/
def execCmdPairStatus (r : Req) (s : State) : Res := .next (runCmd specPairStatus r s)

/-- CMD_PAIR_CONFIG (R463). -/
def specPairConfig : CmdSpec where
  opcode := 0x0902
  length := fixedLen 8
  check _ p s :=
    firstRefusal
      [lockRefusal s 0x1408,
       badParam [(0, decide (1 < getLE p 0 1)), (1, decide (1 < getLE p 1 1)), (2, decide (23 < getLE p 2 1)),
         (3, decide (getLE p 3 1 < 1 ∨ 24 < getLE p 3 1)), (4, decide (getLE p 4 2 < 1 ∨ 720 < getLE p 4 2)), (6, notZero p 6 2)]]
  run r p s :=
    let c : PairCfg := { mode := getLE p 0 1, drillAuto := bit (getLE p 1 1) 0, winStart := getLE p 2 1, winLen := getLE p 3 1
                         interval := getLE p 4 2 }
    finishOk 0x0902 r [] (setPair (fun x => { x with nextCfg := some c }) s)

/-- CMD_PAIR_CONFIG -/
def execCmdPairConfig (r : Req) (s : State) : Res := .next (runCmd specPairConfig r s)

/-- COVER of CMD_FAULT_STATUS: SCRUB_EN, SIG_EN, synchronised standby, drill on time; whether the module is within its
ratings is open, one free bit (R458, R466; log entry 2). -/
def coverWord (within : Bool) (s : State) : Nat :=
  let scrub := cfgBit s 0x1404 0
  let sig := cfgBit s 0x014 0
  let all := within && scrub && sig && s.pair.synced && !drillOver s
  b2n all + 2 * b2n within + 4 * b2n scrub + 8 * b2n sig + 16 * b2n s.pair.synced + 32 * b2n (!drillOver s)

/-- CMD_FAULT_STATUS (R466). -/
def specFaultStatus : CmdSpec where
  opcode := 0x0906
  length := fixedLen 0
  check _ _ _ := none
  run r _ s :=
    let (w, s) := takeFree s
    finishOk 0x0906 r (putLE 4 (coverWord (w.getLsbD 0) s) ++ [byte s.pair.faultRow, 0, 0, 0] ++ putLE 8 s.pair.faultTime ++
      (upto 17).flatMap fun i => putLE 4 (fgetD s.pair.rowCount (i + 1) 0)) s

/-- CMD_FAULT_STATUS -/
def execCmdFaultStatus (r : Req) (s : State) : Res := .next (runCmd specFaultStatus r s)

/-! ### Role exchange (R453, R464) -/

/-- A program, model or problem switch is pending (R453). -/
def switchPending (s : State) : Bool := s.switch.isSome || s.solver.switch.isSome || s.opt.switch.isSome

/-- A role exchange is refused (R453, R455). -/
def exchangeRefused (s : State) : Bool :=
  !s.pair.synced || s.pair.selfCheck || s.pair.resync || s.pair.joining || switchPending s || s.pair.takingUp ||
    (upto 4).any fun c => decide ((cls s c).st ≠ .run)

/-- Checks of CMD_SWITCHOVER and CMD_DRILL (R464). -/
def exchangeCheck (s : State) : Option (Nat × Nat) :=
  firstRefusal [refuseIf (!activeJoined s) stNotActive 0, refuseIf (s.pair.exchange.isSome || exchangeRefused s) stBusy 0]

/-- An exchange waits for its Main commit. -/
def askExchange (drill : Bool) (r : Option Req) (s : State) : State :=
  setPair (fun p => { p with exchange := some { drill := drill, req := r, since' := s.refNs, handed := false, gapUs := 0 } }) s

/-- CMD_SWITCHOVER (R464). -/
def specSwitchover : CmdSpec where
  opcode := 0x0903
  length := fixedLen 0
  check _ _ s := exchangeCheck s
  run r _ s := holdCmd 0x0903 r (askExchange false (some r) s)

/-- CMD_SWITCHOVER -/
def execCmdSwitchover (r : Req) (s : State) : Res := .next (runCmd specSwitchover r s)

/-- CMD_DRILL (R464). -/
def specDrill : CmdSpec where
  opcode := 0x0904
  length := fixedLen 0
  check _ _ s := exchangeCheck s
  run r _ s := holdCmd 0x0904 r (askExchange true (some r) s)

/-- CMD_DRILL -/
def execCmdDrill (r : Req) (s : State) : Res := .next (runCmd specDrill r s)

/-- The digest of a Main commit after the acceptance has matched (R453). -/
def commitMatched (s : State) (x : Exchange) : Bool := s.pair.matched.any fun m => decide (x.since' ≤ m.2)

/-- The active hands over: HANDOVER, output paths stopped, STANDBY with SYNCED kept (R453). What the partner has been passed
is applied there, so mirrored commands complete (R399). -/
def handOver (x : Exchange) (gapUs : Nat) (s : State) : State :=
  let s := sendMirror .handover s
  let s := raise 0xA7 [] (restRole .standby (setPair (fun p => { p with
    exchanges := p.exchanges + 1, takingUp := false, marks := [], stops := [], jobEnds := [], mirrorScale := none, matched := none }) s))
  let s := ackMirrored s.pair.mirrorSeq s
  if x.drill then setPair (fun p => { p with exchange := some { x with handed := true, gapUs := gapUs } }) s
  else finishOpt 0x0903 x.req stOk 0 (putLE 4 gapUs) (setPair (fun p => { p with exchange := none }) s)

/-- The output datasets of the commit have left NB: no Knama frame waits at a port that sends (R40, R453). -/
def outputsLeft (s : State) : Bool :=
  s.ringTx.all fun e => loopHolds s 0 e.1 || e.2.queue.all fun f => match f.what with
    | .knama .. => false
    | _ => true

/-- ROLE_EXCHANGE (R453, R464): once the output datasets have left, at the first matched Main commit after the acceptance the active hands over. `gapUs` is the
longest gap, which the partner reports with step 7 of R452. -/
def execRoleExchange (gapUs : Nat) (s : State) : Res :=
  .next (match s.pair.exchange with
    | none => s
    | some x =>
      if plOn s && activeJoined s && !x.handed && commitMatched s x && outputsLeft s then
        (if exchangeRefused s then endExchange stBusy s else handOver x gapUs s)
      else s)

/-! ### Drill (R456, R457) -/

/-- The calendar's hour lies in the daily UTC window (R456). -/
def inWindow (s : State) : Bool := decide ((s.rtc.cal.hour + 24 - s.pair.cfg.winStart) % 24 < s.pair.cfg.winLen)

/-- DRILL_START (R456): at a Main commit after the drill falls due, inside the window, the active starts a drill by itself;
one that R453 refuses waits for a later commit. -/
def execDrillStart (s : State) : Res :=
  .next (if plOn s && activeJoined s && s.pair.cfg.drillAuto && drillDue s && inWindow s && s.pair.exchange.isNone && !exchangeRefused s then
      askExchange true none s
    else s)

/-- Hours of device time since the last drill that passed begin (R456). -/
def passDrill (s : State) : State :=
  setPair (fun p => { p with drillAge := some 0, drillHour := devNs s, overdue := false, exchange := none }) s

/-- Result of CMD_DRILL (R464). -/
def drillResult (res : PathCheck) (gapUs checkMs : Nat) : Bytes :=
  (match res with
   | .passed => [0, 0, 0, 0]
   | .failed p i => [1, byte p] ++ putLE 2 i) ++ putLE 4 gapUs ++ putLE 4 checkMs

/-- DRILL_CHECK_DONE (R457, R464): the check of the new active's output paths ends. The new active reports it and, when a
path has failed, fences itself; the old active completes CMD_DRILL. -/
def execDrillCheckDone (res : PathCheck) (checkMs : Nat) (s : State) : Res :=
  .next (match s.pair.exchange with
    | none => s
    | some x =>
      if !(plOn s && x.drill && x.handed) then s
      else
        let active := decide (s.pair.role = .active)
        let s := match res with
          | .passed => passDrill (if active then raise 0xA8 [0] s else s)
          | .failed p i =>
            let s := setPair (fun p => { p with exchange := none }) s
            if active then fenceSelf (countFault 16 (raise 0xA8 [1, (p : Int), (i : Int)] s)) else s
        finishOpt 0x0904 x.req stOk 0 (drillResult res x.gapUs checkMs) s)

/-- DRILL_AGE_HOUR (R456): another whole hour of device time since the last drill that passed. -/
def execDrillAgeHour (s : State) : Res :=
  .next (match s.pair.drillAge with
    | none => s
    | some a =>
      if plOn s && decide (s.pair.role = .active) && reached s (s.pair.drillHour + 3600000000000) then
        let s := setPair (fun p => { p with drillAge := some (satBits 16 (a + 1)), drillHour := (p.drillHour + 3600000000000) % 2 ^ 64 }) s
        if s.pair.cfg.interval ≤ a + 1 && !s.pair.overdue then raise 0xA9 [] (setPair (fun p => { p with overdue := true }) s) else s
      else s)

/-! ### Resync and self-check (R450, R465, R474) -/

/-- CMD_PAIR_RESYNC (R465). -/
def specPairResync : CmdSpec where
  opcode := 0x0905
  length := fixedLen 0
  check _ _ s :=
    firstRefusal [refuseIf (!(s.pair.joined && (decide (s.pair.role = .active) || decide (s.pair.role = .standby)))) stNotActive 0,
      refuseIf s.pair.resyncReq.isSome stBusy 0]
  run r _ s :=
    let s := if s.pair.resync || s.pair.joining then setPair (fun p => { p with synced := false }) s else startResync s
    holdCmd 0x0905 r (setPair (fun p => { p with resyncReq := some (r, s.refNs) }) s)

/-- CMD_PAIR_RESYNC -/
def execCmdPairResync (r : Req) (s : State) : Res := .next (runCmd specPairResync r s)

/-- Result of CMD_BIST_RUN: TST_BIST_RESULT and TST_BIST_TIME (R477). -/
def bistBytes (s : State) : Bytes := putLE 4 s.test.result.toNat ++ putLE 4 s.test.timeMs

/-- A CMD_BIST_RUN with SET 0 completes with the self-check. -/
def endBistReq (s : State) : State :=
  let req := s.pair.bistReq
  let s := { setPair (fun p => { p with bistReq := none }) s with test := { s.test with bist := false } }
  finishOpt 0x0E11 req stOk 0 (bistBytes s) s

/-- SELF_CHECK_DONE (R450): a faulty module fences itself; a standby without a fault resyncs. -/
def execSelfCheckDone (res : SelfCheck) (s : State) : Res :=
  .next (if s.power.mainUp && s.pair.selfCheck then
      let s := endBistReq (setPair (fun p => { p with selfCheck := false }) s)
      match res with
      | .fault k => fenceSelf (raise 0xAE [(k : Int)] s)
      | .clean => if s.pair.role = .standby && s.pair.joined && !s.pair.resync && !s.pair.joining then startResync s else s
    else s)

end Sys2Proof.Machine
end

