-- ==== Sys2Proof/Machine/Replay.lean ====
section
/-! DEFINITION. Replay.lean: commands by opcode, for mirror records and settings records, and the settings replay (R399,
R409, R426, R443). -/

namespace Sys2Proof.Machine

/-- The commands of the groups 0x01 to 0x04 that are mirrored or kept in the settings. -/
def specLow : Nat → Option CmdSpec
  | 0x0101 => some (specSettingsStore true)
  | 0x0103 => some specRestartPolicy
  | 0x0201 => some specClassConfig
  | 0x0203 => some specClassRestart
  | 0x0204 => some specClassHalt
  | 0x0210 => some specProgLoad
  | 0x0211 => some specProgSwitch
  | 0x0230 => some specBudgetConfig
  | 0x0310 => some specForceSet
  | 0x0311 => some specForceClear
  | 0x0320 => some specHistConfig
  | 0x0401 => some specLoopConfig
  | 0x0403 => some specLoopEnable
  | 0x0404 => some specLoopAck
  | _ => none

/-- Those of the groups 0x05 and 0x06. -/
def specMid : Nat → Option CmdSpec
  | 0x0501 => some specModelLoad
  | 0x0502 => some specModelSwitch
  | 0x0503 => some specSolverConfig
  | 0x0520 => some specOptProblemLoad
  | 0x0521 => some specOptProblemSwitch
  | 0x0522 => some specOptConfig
  | 0x0530 => some specEstLoad
  | 0x0531 => some specEstConfig
  | 0x0532 => some specEstRun
  | 0x0601 => some specMtrParamLoad
  | 0x0602 => some specMtrParamSwitch
  | 0x0603 => some specMtrParamRead
  | 0x0620 => some specMtrEnable
  | 0x0630 => some specMtrAdopt
  | _ => none

/-- Those of the groups 0x07 to 0x0B. -/
def specHigh : Nat → Option CmdSpec
  | 0x0701 => some specRingConfig
  | 0x0702 => some specStationConfig
  | 0x0703 => some specDatasetConfig
  | 0x0704 => some specLoopRoute
  | 0x0705 => some specTripConfig
  | 0x0706 => some specTripReset
  | 0x0720 => some specTimeConfig
  | 0x0721 => some specTimePort
  | 0x0722 => some specTimeSelect
  | 0x0724 => some specTimeSet
  | 0x0801 => some specCanConfig
  | 0x0802 => some specCanBuffer
  | 0x0902 => some specPairConfig
  | 0x0B01 => some specPnlConfig
  | _ => none

/-- The command of an opcode that is mirrored (R398) or kept in the settings (R423). -/
def specOf (op : Nat) : Option CmdSpec :=
  match specLow op with
  | some c => some c
  | none => match specMid op with
    | some c => some c
    | none => specHigh op

/-- A command applied from a record: nobody is answered (R399, R426). -/
def recordReq (body : Bytes) : Req := { origin := .mirror, tag := 0, signed := false, payload := body }

/-! ### Replay (R426) -/

/-- A class's configuration takes effect. -/
def settleClass (c : Nat) (s : State) : State :=
  match (cls s c).nextCfg with
  | none => s
  | some (p, d) =>
    let s := setCls c (fun k => { k with periodUs := p, nextCfg := none }) s
    if c = 1 then { s with solveDeadline := d } else s

/-- One entry of a settings record: dropped when a field check fails; the relations of R409 are left for the end. No class
runs yet: a period takes effect at once, and the entries after it are checked against it. -/
def replayEntry (e : Nat × Bytes) (s : State) : State :=
  match specOf e.1 with
  | none => s
  | some c =>
    let r := recordReq e.2
    let s' := match c.length e.2, c.check r e.2 s with
      | none, none => c.run r e.2 s
      | none, some (st, _) => if st = stConflict then c.run r e.2 s else s
      | some _, _ => s
    if e.1 = 0x0201 then settleClass (getLE e.2 0 1) s' else s'

/-- Entries in stored order. -/
def replayEntries : List (Nat × Bytes) → State → State
  | [], s => s
  | e :: r, s => replayEntries r (replayEntry e s)

/-- What the replayed commands leave for a boundary takes effect: no class runs yet. -/
def settleReplay (s : State) : State :=
  let s := applyBoundaries s.boundary { s with boundary := [] }
  let s := setPair (fun p => { p with cfg := p.nextCfg.getD p.cfg, nextCfg := none }) s
  settleClass 3 (settleClass 2 (settleClass 1 (settleClass 0 s)))

/-- The first failing relation of R409 over the whole configuration. -/
def anyConflict (s : State) : Conflict :=
  firstConflict
    ([(match tailInForce s with
       | some t => row1 (acceptedPeriod s 1) s.solveDeadline t
       | none => none),
      (match s.opt.desc with
       | some x => row2 (acceptedPeriod s 3) x.deadlineUs
       | none => none),
      row3All s (fun _ => true)] ++
     s.rings.stations.map (fun e => row4All s e.1) ++ (upto 4).map (fun c => row5Class s c (acceptedPeriod s c)) ++
     s.loops.map (fun e => match acceptedDesc s e.1 with
       | some d => row5Chan s d
       | none => none) ++ (upto 4).map (row6All s))

/-- Replay of a list of entries; none when a relation fails over the complete result. -/
def replaySettings (l : List (Nat × Bytes)) (s : State) : Option State :=
  let s := settleReplay (replayEntries l s)
  if (anyConflict s).isNone then some s else none

/-- The copies in turn: the first that can be replayed, or none. -/
def replayCopies : List SetRecord → State → Option State
  | [], _ => none
  | c :: r, s => match replaySettings c.entries s with
    | some s => some s
    | none => replayCopies r s

/-- SETTINGS_REPLAY at step 8 of R412: the valid copies of this module's serial, newer first; without one the defaults stand
(R426). -/
def replayAtBoot (s : State) : State :=
  let l := (validCopies s).filter fun c => c.serial = s.keys.serial
  match replayCopies l s with
  | some s => s
  | none => { s with power := { s.power with noSettings := true } }

end Sys2Proof.Machine
end

