-- ==== Sys2Proof/Machine/Shadow.lean ====
section
/-! DEFINITION. Shadow.lean: the standby's shadow and the join: mirror records, snapshot fills, and what a join copies
(R290, R399, R442 to R449, R452, R453, R460). -/

namespace Sys2Proof.Machine

/-! ### Snapshot fills (R445) -/

/-- Entries of a dataset as a fill carries them. -/
def fillPoints (d : InDataset) : List MirrorPoint :=
  d.entries.map fun e => { id := e.idx, value := e.value, stime := shortOf d.time, quality := e.quality, scale := e.scale }

/-- SNAPSHOT_FILL_REQUEST (R445): the active answers with the entries of the dataset, when NB still keeps it. -/
def execSnapshotFillRequest (st : BitVec 12) (seq : Nat) (s : State) : Res :=
  .next (if plOn s && activeJoined s && s.pair.linkUp then
      match (station s st.toNat).datasets.find? fun d => d.seq = seq with
      | some d => emit (.mirror 0 (.fill st.toNat seq (fillPoints d))) s
      | none => s
    else s)

/-- The dataset of a fill. -/
def fillDataset (seq : Nat) (l : List MirrorPoint) : InDataset :=
  { seq := seq, time := ((l.head?.map fun p => p.stime.toNat).getD 0) * 1000000
    entries := l.map fun p => { idx := p.id, quality := p.quality, scale := p.scale, value := p.value } }

/-- The snapshot of a class closes once no fill is outstanding. -/
def closeFilled (c : Nat) (s : State) : State := if s.pair.fills.any fun f => f.1 = c then s else closeSnapshot c s

/-- A fill enters the snapshots that wait for it. -/
def takeFill (st seq : Nat) (l : List MirrorPoint) : List Nat → State → State
  | [], s => s
  | c :: r, s =>
    let s := if s.pair.fills.contains (c, st, seq) then
        let s := setCycle c (fun y => { y with snap := snapDataset s st (fillDataset seq l) y.snap }) s
        closeFilled c (setPair (fun p => { p with fills := p.fills.filter fun f => !(f.1 = c && f.2.1 = st && f.2.2 = seq) }) s)
      else s
    takeFill st seq l r s

/-- The newest datasets of stations enter a snapshot. -/
def snapNewest (s : State) : List (Nat × Nat × Nat) → FMap PointRec → FMap PointRec
  | [], m => m
  | (_, st, _) :: r, m =>
    snapNewest s r (match (station s st).datasets.head? with
      | some d => snapDataset s st d m
      | none => m)

/-- SNAPSHOT_FILL_TIMEOUT (R445): 2 ms after the mark the standby uses its newest datasets; the cycle is NOT_COMPARED. -/
def execSnapshotFillTimeout (c' : PClass) (s : State) : Res :=
  let c := c'.val
  let mine := s.pair.fills.filter fun f => f.1 = c
  .next (match (cls s c).cycle with
    | none => s
    | some y =>
      if !mine.isEmpty && decide (2000000 ≤ since s y.markAt) then
        let s := setCycle c (fun y => { y with snap := snapNewest s mine y.snap, notCompared := true }) s
        closeSnapshot c (setPair (fun p => { p with fills := p.fills.filter fun f => decide (f.1 ≠ c) }) s)
      else s)

/-! ### Mirror records (R444) -/

/-- The standby takes the HANDOVER record (R453): steps 4 to 7 of R452 without waiting for a heartbeat loss. -/
def takeHandover (s : State) : State :=
  let drill := s.pair.lastHb.any (·.drill)
  let s := takeUp true s
  if drill then setPair (fun p => { p with
    exchange := some { drill := true, req := none, since' := s.refNs, handed := true, gapUs := 0 } }) s
  else s

/-- A record of the active's is applied (R242, R289, R399, R444, R448, R449). -/
def applyRecord (b : MirrorBody) (s : State) : State :=
  match b with
  | .mark c n stamp vec pts =>
    let h : HeldMark := { cls := c.val, cycle := n, stamp := stamp, vector := vec, points := pts }
    startHeld c.val (setPair (fun p => { p with marks := p.marks ++ [h] }) s)
  | .command op r t =>
    match specOf op with
    | some c => setPair (fun p => { p with mirrorAt := none })
        (c.run { r with origin := .mirror } (bodyOf r) (setPair (fun p => { p with mirrorAt := some t }) s))
    | none => s
  | .scale v => setPair (fun p => { p with mirrorScale := some v }) s
  | .stop kind step n cause factor retry =>
    setPair (fun p => { p with stops := p.stops ++ [{
      kind := kind, step := step, scale := p.mirrorScale.getD 256, iterations := n, cause := cause, factor := factor, retry := retry }] }) s
  | .jobEnd kinds => setPair (fun p => { p with jobEnds := p.jobEnds ++ [kinds] }) s
  | .output c n d sets => theirDigest c.val n d (setPair (fun p => { p with outSets := fset p.outSets c.val sets }) s)
  | .loop d l => takeLoops d l s
  | .retain d crc => compareRetain (setPair (fun p => { p with retTheirs := some (d, crc) }) s)
  | .plan t0 => if (s.opt.nextPlan.map (·.t0)) = some t0 then installPlan s else s
  | .totals sets heat => totalsArrive sets heat s
  | .handover => if s.test.test then s else takeHandover s
  | .fill _ _ _ => s

/-- What the standby returns to the active: its own digests (R446, R447, R449). -/
def takeReturn (b : MirrorBody) (s : State) : State :=
  match b with
  | .output c n d _ => theirDigest c.val n d s
  | .retain d crc => compareRetain (setPair (fun p => { p with retTheirs := some (d, crc) }) s)
  | _ => s

/-- MIRROR_RECORD (R444): the standby applies the record that follows the last one; the active takes the standby's digests;
a fill answers a request. Number 0 marks what has no place in the sequence. -/
def execMirrorRecord (seq : Nat) (b : MirrorBody) (s : State) : Res :=
  .next (if !(plOn s && s.pair.linkUp && s.pair.joined) || pausing s then s
    else match s.pair.role with
      | .active => if seq = 0 then takeReturn b s else s
      | .standby =>
        if s.pair.joining then s
        else if seq = 0 then
          (match b with
           | .fill st q l => takeFill st q l [0, 1, 2, 3] s
           | _ => s)
        else if seq = s.pair.mirrorSeq + 1 then
          applyRecord b (setPair (fun p => { p with mirrorSeq := seq, mirrorCnt := (p.mirrorCnt + 1) % 2 ^ 64 }) s)
        else s
      | _ => s)

/-! ### Join (R442, R443) -/

/-- A copied load: none when a load check fails. -/
def joinLoad (b : Option Bytes) (bad : Bytes → State → Bool) (take : Bytes → State → State) (s : State) : Option State :=
  match b with
  | none => some s
  | some b => if bad b s then none else some (take b s)

/-- A class runs a program from its start. -/
def startClass (im : Image) (c : Nat) (s : State) : State :=
  setCls c (fun k => { k with prog := some im, readBuf := [], fresh := (classInsts im c).map (·.id) }) s

/-- The active's program image. -/
def joinImage (b : Bytes) (s : State) : State :=
  let s := sectionUsed b (getLE b 36 4) s
  let im := parseImage b
  let s := startPoints im im.points { s with defs := imageDefs im, program := some im, progNext := none, points := [] }
  let s := { s with power := { s.power with unstarted := false } }
  startClass im 4 (startClass im 3 (startClass im 2 (startClass im 1 (startClass im 0 s))))

/-- The active's network model. -/
def joinModel (b : Bytes) (s : State) : State :=
  let s := sectionUsed b (getLE b 44 4) s
  { s with solver := { s.solver with model := some (parseModel b), loaded := none, switch := none, keptHyd := none, keptTherm := none } }

/-- The active's measurement table. -/
def joinTable (b : Bytes) (s : State) : State :=
  let s := sectionUsed b (getLE b 40 4) s
  { s with est := { s.est with table := some (parseTable b) } }

/-- The active's problem. -/
def joinProblem (b : Bytes) (s : State) : State := adoptProblem (parseProblem b) (sectionUsed b (getLE b 52 4) s)

/-- A metering block fails its load checks, or asks for a newer MB (R286, R293). -/
def badParams (b : Bytes) (s : State) : Bool :=
  !meterValid b || !sectionVerify s destUv b 20544 || decide (s.meter.version.toNat < (parseMeter b).meterLevel)

/-- The active's metering parameters. -/
def joinParams (b : Bytes) (s : State) : State :=
  let s := sectionUsed b 20544 s
  { s with meter := { s.meter with params := some (parseMeter b) } }

/-- Step 3 of R443: the loads with their checks, then the settings under R426. -/
def joinLoads (x : JoinCopy) (s : State) : Option State :=
  match joinLoad x.image (fun b s => (imageRefusal s b).isSome) joinImage s with
  | none => none
  | some s => match joinLoad x.model (fun b s => (modelFault s b).isSome) joinModel s with
    | none => none
    | some s => match joinLoad x.table (fun b s => (tableFault s b).isSome) joinTable s with
      | none => none
      | some s => match joinLoad x.problem (fun b s => (probFault s b).isSome) joinProblem s with
        | none => none
        | some s => match joinLoad x.params badParams joinParams s with
          | none => none
          | some s => replaySettings x.settings s

/-- A ring configuration of the active's names a slot in which this module has no valid key for NB (R442 cause 3). -/
def keyLacks (x : JoinCopy) (s : State) : Bool :=
  x.settings.any fun e => e.1 = 0x0701 &&
    (((getLE e.2 2 1 = 1 || getLE e.2 4 2 ≠ 0) && !namesNb s (getLE e.2 4 2)) || (getLE e.2 6 2 ≠ 0 && !namesNb s (getLE e.2 6 2)))

/-- Instance states of the active's classes, with their FRESH marks (R135, R443). -/
def joinStates (im : Image) : List (Nat × List W64 × Bool) → State → State
  | [], s => s
  | (id, words, fresh) :: r, s =>
    joinStates im r (match instClass im id with
      | some c => putInst c id words fresh s
      | none => s)

/-- Point records written by programs. -/
def joinPoints : List MirrorPoint → State → State
  | [], s => s
  | p :: r, s =>
    joinPoints r (match defOf s p.id with
      | some d => putRec p.id { value := p.value, stime := p.stime, quality := p.quality, scale := p.scale, typeflags := d.typeflags } s
      | none => s)

/-- Step 4 of R443: the state of the active at a Main commit. -/
def joinState (x : JoinCopy) (s : State) : State :=
  let s := match s.program with
    | some im => joinStates im x.states s
    | none => s
  let s := joinPoints x.points s
  let s := { s with
    forces := x.forces.foldr (fun e m => fset m e.1 { value := e.2.2, stime := e.2.1 }) []
    rings := { s.rings with latched := x.trips }
    opt := { s.opt with plan := x.plan, nextPlan := none, lastX := x.lastX }
    solver := { s.solver with solution := x.solution, thermSol := x.thermSol, linSol := x.linSol, keptHyd := x.keptHyd, keptTherm := x.keptTherm } }
  let s := adoptTotals x.totSets x.totHeat (some (x.resSets, x.resHeat)) (adoptMirrors x.channels s)
  let s := raise 0x6E [(totalsCrc s : Int)] (writeBlock 8 s)
  setPair (fun p => { p with
    mirrorSeq := x.seq, marks := [], fills := [], stops := [], jobEnds := [], mirrorScale := none
    digests := [], theirs := [], retDigest := none, retTheirs := none }) s

/-- A failed join starts again from step 3, at most three times (R443). -/
def failJoin (s : State) : State :=
  let n := s.pair.joinFails + 1
  let s := setPair (fun p => { p with joinFails := n, joining := true, synced := false }) s
  if 4 ≤ n then fenceSelf s else s

/-- Step 6 of R443: the digests matched, and the standby is synchronised. -/
def joinDone (first : Bool) (syncMs : Nat) (s : State) : State :=
  let s := setPair (fun p => { p with
    joining := false, joinFails := 0, syncMs := syncMs, synced := true, resync := true
    drillAge := if first then none else p.drillAge, overdue := first || p.overdue }) s
  raise 0xA3 [] (resyncDone s)

/-- JOIN (R442, R443, R460): a join from step 3, or a resync from step 4, comes to its end; none does in a service pause (R551). -/
def execJoin (x : JoinCopy) (s : State) : Res :=
  .next (if pausing s || !(plOn s && s.pair.linkUp && s.pair.joined && decide (s.pair.role = .standby) && (s.pair.joining || s.pair.resync)) then s
    else if s.pair.joining then
      (if keyLacks x s then refuseJoin 3 s
       else match joinLoads x s with
         | none => failJoin s
         | some s' =>
           let s' := joinState x (raise 0xAC [] s')
           if x.digestsOk then joinDone true x.syncMs s' else failJoin s')
    else
      let s := joinState x s
      if x.digestsOk then joinDone false x.syncMs s else failJoin s)

end Sys2Proof.Machine
end

