-- ==== Sys2Proof/Machine/Boot.lean ====
section
/-! DEFINITION. Boot.lean: from the release of the main-side reset to READY, restart and main power, and PFW_N (R306, R410 to
R413, R426, R428 to R431, R436, R473, R555, R572). -/

namespace Sys2Proof.Machine

/-! ### Steps of the start -/

/-- The loader at step 7 of R412: a slot that fails its checks is not booted; none when neither slot passes (R555). -/
def loadSlot (x : BootObs) (s : State) : Option State :=
  if x.runningOk then some s
  else
    let s := raise 0xE8 [0] s
    if !x.otherOk then none
    else if s.fwu.trial then some (bootRevert 3 s)
    else some (swapSlots .rejected s)

/-- Bricks that the self-test names are fenced (R19, R473). -/
def fenceBricks : List BrickId → State → State
  | [], s => s
  | b :: r, s => fenceBricks r (fenceBrick b.val none s)

/-- A group that is not marked *brick* has failed (R473). -/
def moduleGroups (w : BitVec 12) : Bool := decide (16 ≤ w.toNat)

/-- SELF_TEST (R473): the result word, its event, and the consequences of the failures. -/
def selfTest (x : BistObs) (s : State) : State :=
  let bad := decide (x.failed ≠ 0)
  let s := { s with test := { s.test with
    result := x.failed, timeMs := satBits 12 x.ms, runs := s.test.runs + 1, fails := s.test.fails + b2n bad } }
  if bad then
    let s := fenceBricks x.bricks (raise 0xF3 [(x.failed.toNat : Int)] s)
    if moduleGroups x.failed then moduleFault 0 s else s
  else raise 0xF2 [] s

/-- VERSION of the metering component of the running slot. -/
def meterVersion (s : State) : W32 := ((component (runSlot s) 8).map (·.version)).getD 0

/-- The metering parameters of the settings store, and MB's start (R279, R283 to R285). -/
def bootMeter (s : State) : State :=
  let raw := match fget s.stores.meterRec 0 with
    | some b => some b
    | none => fget s.stores.meterRec 1
  let s := { s with meter := { s.meter with params := raw.map parseMeter } }
  startMeter (meterVersion s) s

/-- The send epochs increase at every start (R306). -/
def bootEpochs (s : State) : State := advanceEpoch 3 (advanceEpoch 2 (advanceEpoch 1 (advanceEpoch 0 s)))

/-- PN takes the waveform tables of the running slot and reads its ledger (R503, R513). -/
def bootPanel (s : State) : State := pnlRepair { s with panel := { s.panel with tables := (runSlot s).tables } }

/-- CMD_MAIN_POWER with ACTION 1 completes at READY (R431). -/
def readyReq (s : State) : State :=
  let req := s.power.onReq
  finishOpt 0x0031 (req.map (·.1)) stOk 0 [] { s with power := { s.power with onReq := none } }

/-- Steps 7 to 9 of R412 for a slot that passes. -/
def bootWith (x : BootObs) (s : State) : State :=
  let s := startTime { s with power := { s.power with booted := true, svBeat := s.refNs }, evt := { s.evt with seq := s.recorder.topSeq } }
  let s := bootEpochs (recoverJournal (selfTest x.bist s))
  let s := bootPanel (bootMeter (replayAtBoot s))
  let s := fillPool { s with power := { s.power with ready := true }, pair := { s.pair with readyAt := s.refNs } }
  readyReq (decideRole s)

/-- BOOT_COMPLETE (R412): SV has booted, and the module is READY; without a slot that passes, MG holds the main side off. -/
def execBootComplete (x : BootObs) (s : State) : Res :=
  .next (if s.power.mainUp && s.power.released && !s.power.rstLow && !s.power.booted then
      match loadSlot x s with
      | some s => bootWith x s
      | none =>
        let s := railsOff (raise 0xE8 [0] s)
        { s with power := { s.power with heldOff := true } }
    else s)

/-! ### Restart and main power (R428, R430, R431) -/

/-- FORCE of a restart or power command. -/
def forced (p : Bytes) : Bool := bit (getLE p 1 1) 0

/-- With FORCE, an ACTIVE module whose partner is joined fences itself first (R430). -/
def fenceForced (s : State) : State := if activeJoined s then fenceSelf s else s

/-- CMD_RESTART (R430). -/
def specRestart : CmdSpec where
  opcode := 0x0030
  length := fixedLen 4
  check _ p s :=
    firstRefusal
      [badParam [(0, decide (2 < getLE p 0 1)), (1, decide (1 < getLE p 1 1)), (2, notZero p 2 2)],
       refuseIf (activeJoined s && !forced p) stDenied 7]
  run r p s :=
    let s := fenceForced s
    finishOk 0x0030 r [] { s with power := { s.power with resetDue := some (s.refNs + 10000000), restartKind := getLE p 0 1 } }

/-- CMD_RESTART -/
def execCmdRestart (r : Req) (s : State) : Res := .next (runCmd specRestart r s)

/-- ACTION 0: the orderly shutdown of R428; with the main side down, MG only holds it off. -/
def orderlyOff (r : Req) (s : State) : State :=
  if s.power.mainUp then
    let s := haltAll (fenceForced s)
    shutdownStopped (holdCmd 0x0031 r { s with power := { s.power with shutdown := some r } })
  else finishOk 0x0031 r [] { s with power := { s.power with heldOff := true } }

/-- ACTION 1: MG releases its hold, and the rail sequence may start (R411, R413, R431). -/
def powerOn (r : Req) (s : State) : State :=
  if s.power.mainUp then finishOk 0x0031 r [] s
  else holdCmd 0x0031 r { s with power := { s.power with heldOff := false, railFails := 0, wdAt := [], onReq := some (r, s.refNs) } }

/-- ACTION 2: the rails off at once. -/
def immediateOff (r : Req) (s : State) : State :=
  let s := railsOff (finishOk 0x0031 r [] (fenceForced s))
  { s with power := { s.power with heldOff := true } }

/-- CMD_MAIN_POWER (R431). -/
def specMainPower : CmdSpec where
  opcode := 0x0031
  length := fixedLen 4
  check _ p s :=
    let a := getLE p 0 1
    firstRefusal
      [badParam [(0, decide (2 < a)), (1, decide (1 < getLE p 1 1)), (2, notZero p 2 2)],
       refuseIf (decide (a ≠ 1) && activeJoined s && !forced p) stDenied 7,
       refuseIf ((decide (a = 0) && s.power.shutdown.isSome) || (decide (a = 1) && s.power.onReq.isSome)) stBusy 0]
  run r p s :=
    match getLE p 0 1 with
    | 0 => orderlyOff r s
    | 1 => powerOn r s
    | _ => immediateOff r s

/-- CMD_MAIN_POWER -/
def execCmdMainPower (r : Req) (s : State) : Res := .next (runCmd specMainPower r s)

/-! ### PFW_N (R282, R429, R512, R572) -/

/-- PFW_FALL (R429): metering flushes and the panel stops; before READY the power-up stops (R572). -/
def execPfwFall (s : State) : Res :=
  .next (if s.power.vstby && s.power.pfw then
      let s := raise 0xC4 [] { s with power := { s.power with pfw := false } }
      if !s.power.mainUp then s
      else if !s.power.ready then railsOff s
      else
        let s := interruptUpdates (flushMeter s)
        { s with panel := { s.panel with stopped := true } }
    else s)

/-- PFW_RISE (R429): with the rails still within their limits, metering resumes and saving goes on; the panel repairs what
was interrupted. -/
def execPfwRise (s : State) : Res :=
  .next (if s.power.vstby && !s.power.pfw then
      let s := { s with power := { s.power with pfw := true } }
      if s.power.mainUp then
        let s := resumeMeter (raise 0xC5 [] s)
        pnlRepair { s with panel := { s.panel with stopped := false } }
      else s
    else s)

end Sys2Proof.Machine
end

