-- ==== Sys2Proof/Machine/FaultRows.lean ====
section
/-! DEFINITION. FaultRows.lean: the mortar and its watchdogs, the die temperature, controller checks, memory errors, the
lockstep comparison and the configuration signature (R11, R16 to R20, R105, R106, R358, R375, R458). -/

namespace Sys2Proof.Machine

/-! ### The mortar (R11, R14, R18, R19) -/

/-- Corrected flit errors are counted at the crossing (R18). -/
def countCorrected (p : MortarPacket) (s : State) : State :=
  let h := p.header.toNat
  if p.singleErrors = 0 then s
  else countFault 5 (setCrossing (mortarDest h) (portOf h) (fun x => { x with corrected := x.corrected + p.singleErrors }) s)

/-- The receiver discards a packet with an uncorrectable flit: it asks for the retransmission, and the packets of its stream
wait until then; the third failure is a stall of the brick (R13, R18). -/
def discardPacket (p : MortarPacket) (s : State) : State :=
  let h := p.header.toNat
  let b := mortarDest h
  let n := fgetD (brick s b).retries h 0 + 1
  let s := setBrick b (fun x => { x with retries := fset x.retries h n }) (countFault 5 s)
  let s := setCrossing b (portOf h) (fun x => { x with waiting := ⟨p, true⟩ :: x.waiting }) s
  if 3 ≤ n then fenceBrick b (some 0x22) s
  else mortarRespond (retransmitRequest h) (emit (.mortarRetry b) s)

/-- A packet crosses with its flit errors (R18). What follows the closing of the boundary is answered with an error
response (R19). -/
def packetCrosses (p : MortarPacket) (s : State) : State :=
  let h := p.header.toNat
  if !inService s (mortarDest h) then mortarRespond (errorResponse h) s
  else
    let s := countCorrected p s
    if p.uncorrectable then discardPacket p s
    else mortarDeliver p (setBrick (mortarDest h) (fun x => { x with retries := ferase x.retries h }) s)

/-- Packets that cross one after the other; a packet waits again behind one of its stream that is to be retransmitted
(R13). -/
def packetsCross : List MortarPacket → State → State
  | [], s => s
  | p :: r, s =>
    let h := p.header.toNat
    let x := crossingOf (brick s (mortarDest h)) (portOf h)
    if x.waiting.any (fun w => w.retry && sameStream w.pkt.header.toNat h) then
      packetsCross r (setCrossing (mortarDest h) (portOf h) (fun y => { y with waiting := y.waiting ++ [⟨p, false⟩] }) s)
    else packetsCross r (packetCrosses p s)

/-- A running brick acknowledges the requests at a crossing: what waits there crosses in the order of R12. -/
def servePort (b n : Nat) (s : State) : State :=
  if atPoint (brick s b) then
    let y := serveCrossing (crossingOf (brick s b) n)
    packetsCross y.2 (setBrick b (fun x => { x with edgeAt := s.refNs }) (setCrossing b n (fun _ => y.1) s))
  else s

/-- Every crossing of a brick is served. -/
def servePorts (b : Nat) : List Nat → State → State
  | [], s => s
  | n :: r, s => servePorts b r (servePort b n s)

/-- The mortar raises a request towards a running brick that does not acknowledge it: the watchdog of the crossing starts
(R16). -/
def startWatchdog (b n : Nat) (s : State) : State :=
  if atPoint (brick s b) then
    setCrossing b n (fun x => { x with raisedAt := if x.waiting.isEmpty then none else some (x.raisedAt.getD s.refNs) }) s
  else s

/-- The watchdogs of a brick's crossings start (R17). -/
def startWatchdogs (b : Nat) : List Nat → State → State
  | [], s => s
  | n :: r, s => startWatchdogs b r (startWatchdog b n s)

/-- The packets at a crossing when another one comes: a retransmission takes the place of the packet it repeats, with the
flits of the source's retention buffer (R18). -/
def joinWaiting (p : MortarPacket) : List WaitingPacket → List WaitingPacket
  | [] => [⟨p, false⟩]
  | w :: r =>
    if w.retry && decide (w.pkt.header = p.header) then ⟨{ p with payload := w.pkt.payload }, false⟩ :: r
    else w :: joinWaiting p r

/-- A packet reaches the last router of its way and joins those that wait; then the crossing is served, where the brick
runs and acknowledges (R12, R16, R17). -/
def mortarArrive (p : MortarPacket) (s : State) : State :=
  let h := p.header.toNat
  let b := mortarDest h
  let s := setCrossing b (portOf h) (fun x => { x with waiting := joinWaiting p x.waiting }) (wakeBrick b s)
  if p.answered then servePort b (portOf h) s else startWatchdog b (portOf h) s

/-- What a source notes of a packet it sends: a write is incomplete until its acknowledge (R14). -/
def noteSent (p : MortarPacket) (s : State) : State :=
  let h := p.header.toNat
  if mortarKind h = 1 then
    setBrick (mortarSrc h) (fun x =>
      { x with issued := if x.issued.contains (.write p.header) then x.issued else x.issued ++ [.write p.header] }) s
  else s

/-- A barrier arrival behind an incomplete write of its source (R14). -/
def heldBack (p : MortarPacket) (s : State) : Bool :=
  let h := p.header.toNat
  decide (mortarKind h = 7) && !(brick s (mortarSrc h)).issued.isEmpty

/-- MORTAR_PACKET (R6, R10 to R14, R18, R19). What a closed brick offers is discarded. -/
def execMortarPacket (p : MortarPacket) (s : State) : Res :=
  let h := p.header.toNat
  .next (if !s.power.mainUp then s
    else if !inService s (mortarSrc h) then s
    else if mortarBad p then
      let s := raise 0x20 [mortarSrc h, mortarDest h] s
      if mortarClass h = 3 then mortarRespond (errorResponse h) s else s
    else if heldBack p s then
      setBrick (mortarSrc h) (fun x => { x with issued := x.issued ++ [.barrier p] }) s
    else if 35 ≤ mortarDest h then mortarRespond (errorResponse h) (raise 0x20 [mortarSrc h, mortarDest h] s)
    else if !inService s (mortarDest h) then mortarRespond (errorResponse h) s
    else mortarArrive p (noteSent p s))

/-! ### Watchdogs (R16, R17, R20) -/

/-- The crossing of a brick is timed: it runs at an operating point, neither banked nor in TRANSITION. -/
def timedBrick (s : State) (b : Nat) : Bool := s.power.mainUp && atPoint (brick s b)

/-- A request raised towards a brick has waited for 32 µs (R16). -/
def handshakeLate (s : State) (b : Nat) : Bool :=
  (brick s b).ports.any fun c => match c.2.raisedAt with
    | some t => decide (32000 ≤ since s t)
    | none => false

/-- HANDSHAKE_WATCHDOG (R16, R19, R20): the brick is fenced as stalled, or for clock loss where the expiry of its
clock-presence detector is reported too. -/
def execHandshakeWatchdog (b : BrickId) (s : State) : Res :=
  .next (if timedBrick s b.val && handshakeLate s b.val then
      fenceBrick b.val (some (if s.pending.contains (.clockPresenceExpiry b) then 0x21 else 0x22)) s
    else s)

/-- CLOCK_PRESENCE_EXPIRY (R16, R17, R19): the brick is fenced for clock loss; no edge for 5.6 µs at the least. -/
def execClockPresenceExpiry (b : BrickId) (s : State) : Res :=
  .next (if timedBrick s b.val && decide (5600 ≤ since s (brick s b.val).edgeAt) then fenceBrick b.val (some 0x21) s else s)

/-- TRANSITION_TIMER_EXPIRY (R17): 20 µs after the brick went into TRANSITION; treated as clock loss. -/
def execTransitionTimerExpiry (b : BrickId) (s : State) : Res :=
  let x := brick s b.val
  .next (if s.power.mainUp && decide (x.st = .transition) && decide (20000 ≤ since s x.transAt) then fenceBrick b.val (some 0x21) s
    else s)

/-! ### The end of a transition (R17, R101, R102) -/

/-- Clocks, in fifths, of a change of operating point: at the old point until the clock switches, then at the new one but
for the stall (R101). -/
def switchClocks (x : Brick) (t : SwitchTiming) (now : Nat) : Nat :=
  let all := now - x.transAt
  let before := Nat.min t.switched all
  clockRate x.pt * before + clockRate x.ordered * (all - before - Nat.min t.stall (all - before))

/-- A brick runs at a point from now on. -/
def intoPoint (now clk : Nat) (p : Fin 5) (x : Brick) : Brick :=
  { x with st := .point p, pt := p, edgeAt := now, clk := clk, clkAt := now, toBanked := false, waking := false }

/-- A brick after its transition (R101, R102): a quiet one on its way to BANKED has its clock stopped; a woken one, 0.5 µs
after the packet at the least (R15), runs at the point it had, and changes to the point ordered since; otherwise the
ordered point is reported. -/
def afterTransition (quiet : Bool) (t : SwitchTiming) (now : Nat) (x : Brick) : Brick :=
  if x.toBanked then
    (if quiet then { x with st := .banked, toBanked := false }
     else
      let y := intoPoint now (clocksAt x now) x.pt x
      if x.ordered = x.pt then y else intoTransition now y)
  else if x.waking then
    (if now - x.transAt < 500 then x
     else
      let y := intoPoint now x.clk x.pt x
      if x.ordered = x.pt then y else intoTransition now y)
  else intoPoint now (x.clk + switchClocks x t now) x.ordered x

/-- TRANSITION_COMPLETE (R17, R101, R102): the handshakes held towards the brick go on. -/
def execTransitionComplete (t : SwitchTiming) (s : State) : Res :=
  let x := brick s t.brick.val
  .next (if x.st = .transition then
      let s := setBrick t.brick.val (afterTransition (brickQuiet s t.brick.val) t s.refNs) s
      let ports := upto (portCount t.brick.val)
      if t.answered then servePorts t.brick.val ports s else startWatchdogs t.brick.val ports s
    else s)

/-! ### Temperature (R105, R106) -/

/-- THERMAL_LIMIT as the sample arms it or raises it. -/
def thermalLimit (t4 : Int) (s : State) : State :=
  let b := s.budget
  if b.limitArmed && decide (380 ≤ t4) then raise 0x38 [t4] { s with budget := { b with limitArmed := false } }
  else if t4 < 372 then { s with budget := { b with limitArmed := true } }
  else s

/-- TEMP_SAMPLE (R105, R106): the highest die temperature in quarters of a degree Celsius. -/
def execTempSample (t4 : Int) (s : State) : Res :=
  .next (if s.power.mainUp then
      let b := s.budget
      let n := if 440 ≤ t4 then b.hotSamples + 1 else 0
      let s := thermalLimit t4 { s with budget := { b with t4 := t4, t4Max := if b.t4Max < t4 then t4 else b.t4Max, hotSamples := n } }
      if n = 3 then rowFault 17 (raise 0x39 [t4] s) else s
    else s)

/-! ### CAN_CHECK (R358) -/

/-- A buffer of a controller holds a frame. -/
def canPending (c : CanCtl) : Bool := c.bufs.any fun e => e.2.pend.isSome

/-- CAN_CHECK (R358): the internal loop check of a controller in NORMAL mode, with the frames that the check has lost. -/
def execCanCheck (n : Fin 4) (ok : Bool) (missed : Nat) (s : State) : Res :=
  let c := canCtl s n.val
  let gone := since s c.checkAt
  .next (if pbOn s && decide (c.mode = 2) && !c.integrating && c.sending.isNone && decide (500000000 ≤ gone) &&
      (!canPending c || decide (1000000000 ≤ gone)) then
      let s := setCan n.val (fun x => { x with checkAt := x.checkAt + 500000000 }) s
      let s := if missed = 0 then s else rcAdd (canBase n.val + 0x3C) missed s
      if ok then s else rowFault 14 (raise 0x99 [n.val] (setCan n.val (fun x => { x with checkFail := true }) s))
    else s)

/-! ### Memories and lockstep (R458) -/

/-- DRAM_ERROR (R458 rows 1 and 2). -/
def execDramError (k : MemErr) (s : State) : Res :=
  .next (if !s.power.mainUp then s
    else match k with
      | .corrected => raise 0xB3 [] (countFault 1 s)
      | .uncorrectable => rowFault 2 (raise 0xB4 [] s))

/-- A copy or location of MRAM is invalid from now on. -/
def loseMram (p : MramPlace) (s : State) : State :=
  match p with
  | .half n => { s with stores := { s.stores with halves := ferase s.stores.halves n.val } }
  | .settings n => { s with stores := { s.stores with copies := ferase s.stores.copies n.val, meterRec := ferase s.stores.meterRec n.val } }
  | .record k => { s with recorder := { s.recorder with slots := ferase s.recorder.slots k } }
  | .totals k => { s with meter := { s.meter with blocks := ferase s.meter.blocks k } }
  | .ledger => { s with panel := { s.panel with ledgerBad := true } }
  | .other => s

/-- MRAM_ERROR (R458 rows 3 and 4): an uncorrectable one invalidates its copy or location, and the other one serves. -/
def execMramError (k : MemErr) (p : MramPlace) (s : State) : Res :=
  .next (if !s.power.mainUp then s
    else match k with
      | .corrected => raise 0xB5 [] (countFault 3 s)
      | .uncorrectable => loseMram p (raise 0xB6 [] (countFault 4 s)))

/-- LOCKSTEP_DISAGREEMENT (R458 row 9). -/
def execLockstepDisagreement (s : State) : Res := .next (if s.power.mainUp then rowFault 9 s else s)

/-! ### The configuration signature (R373 to R375) -/

/-- Registers whose contents have changed by no legitimate path (R458 row 12). -/
def upsetRegs : List (W16 × W32) → State → State
  | [], s => s
  | (o, v) :: r, s => upsetRegs r (cfgPoke o.toNat v s)

/-- Compare the blocks in turn; each mismatch is recorded and reported (R375). -/
def sweepBlocks : List Nat → State → State
  | [], s => s
  | b :: r, s =>
    if blockSig s b = expectedSig s b then sweepBlocks r s
    else
      let info := if s.regs.sigFail then s.regs.sigInfo else BitVec.ofNat 32 (b / 256 % 256 + 2147483648)
      let s := { s with regs := { s.regs with sigFail := true, sigInfo := info } }
      sweepBlocks r (rowFault 12 (raise 0x02 [b] s))

/-- HIF_CTRL.SIG_EN. -/
def sigEnabled (s : State) : Bool := cfgBit s 0x014 0

/-- SIGNATURE_SWEEP (R375): every 4 ms while SIG_EN is 1. `upsets` are the register contents that have changed on their own
since the last sweep. -/
def execSignatureSweep (upsets : List (W16 × W32)) (s : State) : Res :=
  let s := if s.power.mainUp then upsetRegs upsets s else s
  .next (if s.power.mainUp && sigEnabled s && decide (4000000 ≤ since s s.regs.sweepAt) then
      let s := { s with regs := { s.regs with sweeps := s.regs.sweeps + 1, sweepAt := s.regs.sweepAt + 4000000 } }
      sweepBlocks (blocks.map (·.base)) s
    else s)

end Sys2Proof.Machine
end

