-- ==== Sys2Proof/Machine/Firmware.lean ====
section
/-! DEFINITION. Firmware.lean: the update session, package checks, build, activation, trial, confirmation and revert
(R503, R504, R539 to R558). -/

namespace Sys2Proof.Machine

/-- Change the firmware update's state. -/
def setFwu (f : Fwu → Fwu) (s : State) : State := { s with fwu := f s.fwu }

/-! ### Manifest (R540) -/

/-- Entry of component `i` + 1. -/
def compBytes (m : Bytes) (i : Nat) : Bytes := slice m (32 + 64 * i) 64

/-- A component entry. -/
def parseComponent (e : Bytes) : Component :=
  { svn := getLE e 2 2, version := BitVec.ofNat 32 (getLE e 4 4), offset := getLE e 8 4, length := getLE e 12 4, digest := slice e 16 48 }

/-- A manifest. -/
def parseManifest (m : Bytes) : Manifest :=
  { release := BitVec.ofNat 32 (getLE m 8 4), feature := getLE m 12 1, proto := getLE m 13 1, length := getLE m 16 4
    crc := BitVec.ofNat 32 (getLE m 28 4), comps := (upto 8).map fun i => parseComponent (compBytes m i) }

/-- Components do not overlap. -/
def disjoint : List Component → Bool
  | [] => true
  | c :: r => r.all (fun d => decide (c.offset + c.length ≤ d.offset) || decide (d.offset + d.length ≤ c.offset)) && disjoint r

/-- One entry by the rules of R540. -/
def compOk (m : Bytes) (i : Nat) : Bool :=
  let e := compBytes m i
  let c := parseComponent e
  getLE e 0 1 = i + 1 && getLE e 1 1 = (if i = 7 then 1 else 0) && c.offset % 4096 = 0 && decide (4096 ≤ c.offset) &&
    decide (c.offset + c.length ≤ getLE m 16 4)

/-- The manifest rules of R540. -/
def manifestOk (m : Bytes) : Bool :=
  getLE m 0 4 = 0x4D464756 && getLE m 4 2 = 1 && getLE m 6 1 = 8 && allZero (slice m 7 1) && allZero (slice m 14 2) &&
    allZero (slice m 20 8) && decide (4096 ≤ getLE m 16 4) && decide (getLE m 16 4 ≤ 0x04000000) &&
    getLE m 28 4 = crc32c (slice m 0 28 ++ slice m 32 512) && (upto 8).all (compOk m) && disjoint (parseManifest m).comps

/-! ### Package (R541) -/

/-- SIG_OFFSET. -/
def pkgSig (b : Bytes) : Nat := getLE b 36 4

/-- Manifest of a package. -/
def pkgManifest (b : Bytes) : Bytes := slice b 64 544

/-- Check 1 of R546. -/
def pkgLayout (x : Session) : Bool :=
  let b := x.received
  let so := pkgSig b
  b.length = x.total && getLE b 0 4 = 0x55464756 && getLE b 4 2 = 1 && getLE b 6 1 = x.kind && allZero (slice b 7 1) &&
    getLE b 8 4 = x.total && x.total = so + 112 && getLE b 16 4 = getLE b 72 4 && (x.kind = 1 || getLE b 20 4 = 0) &&
    getLE b 24 4 = 64 && getLE b 28 4 = 640 && so = (640 + getLE b 32 4 + 7) / 8 * 8 && allZero (slice b 40 24) &&
    allZero (slice b 608 32)

/-- A component's SVN is below its minimum. -/
def svnLow (s : State) (m : Manifest) : Bool := (indexed 0 m.comps).any fun (i, c) => decide (c.svn < lget s.fwu.minSvn i 0)

/-- Check 6 of R546: a delta applies to the running release. -/
def baseOk (s : State) (x : Session) : Bool :=
  x.kind = 0 || decide ((runManifestCrc s).map (·.toNat) = some (getLE x.received 20 4))

/-- The first of checks 1 to 6 that fails (R546). -/
def packageFault (s : State) (x : Session) : Option Nat :=
  let b := x.received
  if !pkgLayout x then some 1
  else if getLE b 12 4 ≠ crc32c (slice b 16 (pkgSig b - 16)) then some 2
  else if !sectionVerify s destUv b (pkgSig b) then some 3
  else if !manifestOk (pkgManifest b) then some 4
  else if svnLow s (parseManifest (pkgManifest b)) then some 5
  else if !baseOk s x then some 6
  else none

/-! ### Build (R542, R547) -/

/-- Output of the delta records of a payload, newest first; none when a source lies outside the installed slot. -/
def deltaOutput (inst : Bytes) : Nat → Bytes → List Bytes → Option (List Bytes)
  | 0, _, acc => some acc
  | fuel + 1, p, acc =>
    if p.isEmpty then some acc
    else
      let op := getLE p 0 1
      let n := getLE p 4 4
      let src := getLE p 8 4
      let data := slice p 16 n
      let rest := p.drop (16 + (if op = 1 then 0 else (n + 7) / 8 * 8))
      let inside := decide (src + n ≤ inst.length)
      if n = 0 || p.length < 16 || !allZero (slice p 1 3) || !allZero (slice p 12 4) then none
      else if op = 1 then (if inside then deltaOutput inst fuel rest (slice inst src n :: acc) else none)
      else if op = 2 then
        (if inside && data.length = n then
          deltaOutput inst fuel rest ((List.zipWith (· + ·) (slice inst src n) data) :: acc) else none)
      else if op = 3 then (if src = 0 && data.length = n then deltaOutput inst fuel rest (data :: acc) else none)
      else none

/-- The slot image that a package builds, when it ends exactly at IMAGE_LENGTH (check 7). -/
def builtImage (s : State) (x : Session) : Option Bytes :=
  let b := x.received
  let payload := slice b 640 (getLE b 32 4)
  let img := if x.kind = 0 then some payload
    else (deltaOutput (runSlot s).image payload.length payload []).map fun l => l.reverse.flatten
  match img with
  | some i => if i.length = (parseManifest (pkgManifest b)).length then some i else none
  | none => none

/-! ### Panel tables (R503, R504) -/

/-- Code of frame `f` of a waveform. -/
def waveCode (e : Bytes) (f : Nat) : Nat := bits (getLE e (4 + f / 2) 1) (4 * (f % 2)) 4

/-- A waveform. -/
def parseWave (e : Bytes) : Wave := (upto (getLE e 0 1)).map (waveCode e)

/-- An entry that R504 admits. -/
def waveOk (e : Bytes) (lo hi : Nat) : Bool :=
  let n := getLE e 0 1
  let w := parseWave e
  decide (lo ≤ n) && decide (n ≤ hi) && allZero (slice e 1 3) && w.all (fun c => decide (c < 8) && decide (c ≠ 4)) &&
    ((upto 128).drop n).all (fun f => waveCode e f = 0) && wavePrefix w n = 0 &&
    (upto (n + 1)).all fun k => decide ((wavePrefix w k).natAbs ≤ 64)

/-- A band table. -/
def parseBand (t : Bytes) : BandTab :=
  { maxLen := getLE t 0 1, trans := (upto 16).map fun i => parseWave (slice t (4 + 68 * i) 68), clear := parseWave (slice t 1092 68) }

/-- A band table that R503 and R504 allow: only an entry with equal levels may have LENGTH 0. -/
def bandOk (t : Bytes) : Bool :=
  let m := getLE t 0 1
  decide (1 ≤ m) && decide (m ≤ 128) && allZero (slice t 1 3) &&
    ((upto 16).all fun i => waveOk (slice t (4 + 68 * i) 68) (if i / 4 = i % 4 then 0 else 1) m) && waveOk (slice t 1092 68) 1 128

/-- Bytes of a component of an image. -/
def compData (img : Bytes) (c : Component) : Bytes := slice img c.offset c.length

/-- Check 9 of R546 for component `i` + 1. -/
def headerOk (img : Bytes) (i : Nat) (c : Component) : Bool :=
  let d := compData img c
  if i = 6 then d.length = 9280 && (upto 8).all fun b => bandOk (slice d (1160 * b) 1160) else Config.componentOk (i + 1) d

/-- The first of checks 8 and 9 that fails (R546). -/
def imageFault (x : Session) (img : Bytes) : Option Nat :=
  let m := pkgManifest x.received
  let cs := indexed 0 (parseManifest m).comps
  if img.take 544 ≠ m || cs.any (fun (_, c) => Config.sha384 (compData img c) ≠ c.digest) then some 8
  else if cs.any (fun (i, c) => !headerOk img i c) then some 9
  else none

/-- A verified slot. -/
def slotFrom (x : Session) (img : Bytes) : FwSlot :=
  let m := parseManifest (pkgManifest x.received)
  let d := match m.comps[6]? with
    | some c => compData img c
    | none => []
  { image := img, manifest := some m, tables := (upto 8).map fun b => parseBand (slice d (1160 * b) 1160) }

/-! ### The session (R543, R544) -/

/-- DETAIL of ST_BUSY_OWNED (R406). -/
def ownerWord (x : Session) : Nat := portCode x.port + 256 * x.slot + 65536 * x.tag.toNat

/-- Refusal of a session command (R543). -/
def sessionRefusal (r : Req) (s : State) : Option (Nat × Nat) :=
  match s.fwu.session with
  | none => some (stNotActive, 0)
  | some x => if x.port = originPort r.origin then none else some (stBusyOwned, ownerWord x)

/-- Change the session. -/
def setSession (f : Session → Session) (s : State) : State := setFwu (fun w => { w with session := w.session.map f }) s

/-- The inactive slot. -/
def putIdle (x : FwSlot) (st : SlotState) (s : State) : State :=
  setFwu (fun w => if w.running then { w with slotA := x, inactive := st, bootGen := w.bootGen + 1 }
    else { w with slotB := x, inactive := st, bootGen := w.bootGen + 1 }) s

/-- A build stops at its block boundary and leaves the slot INCOMPLETE; its command ends (R544, R558). -/
def stopBuild (s : State) : State :=
  match s.fwu.build with
  | none => s
  | some b => finishOpt 0x0D03 b.req stAborted 0 [] (setFwu (fun w => { w with build := none }) s)

/-- A forced open is admitted (R544). -/
def mayBreak (s : State) : Bool := (s.fwu.session.any fun x => decide (x.port = .pcie)) && decide (60 < hostIdle s)

/-- Refusals of CMD_FWU_OPEN beside its fields (R543, R544). -/
def openRefusal (r : Req) (force : Bool) (s : State) : Option (Nat × Nat) :=
  let port := originPort r.origin
  if force then
    (if port = .pcie then some (stBadParam, 1)
     else if !mayBreak s || !cfgBit s 0x1304 0 then some (stDenied, 7) else none)
  else match s.fwu.session with
    | some x => if x.port = port then some (stBusy, 0) else some (stBusyOwned, ownerWord x)
    | none => if s.fwu.trial then some (stBusy, 0) else if cfgBit s 0x1304 0 then none else some (stDenied, 7)

/-- The lock of an open session is broken (R544). -/
def breakSession (s : State) : State :=
  match s.fwu.session with
  | none => s
  | some x => raise 0xE7 [(ownerWord x : Int)] (stopBuild s)

/-- CMD_FWU_OPEN (R543, R544, R558). -/
def specFwuOpen : CmdSpec where
  opcode := 0x0D01
  length := fixedLen 8
  check r p s :=
    firstRefusal
      [badParam [(0, decide (1 < getLE p 0 1)), (1, decide (1 < getLE p 1 1)), (2, notZero p 2 2), (4, decide (0x04000000 < getLE p 4 4))],
       openRefusal r (bit (getLE p 1 1) 0) s]
  run r p s :=
    let port := originPort r.origin
    let x : Session := { st := .downloading, port := port, slot := originSlot r.origin, tag := r.tag, kind := getLE p 0 1
                         total := getLE p 4 4, received := [] }
    let s := raise 0xE6 [(portCode port : Int), (getLE p 0 1 : Int)] (setFwu (fun w => { w with session := some x }) (breakSession s))
    finishOk 0x0D01 r [] s

/-- CMD_FWU_OPEN -/
def execCmdFwuOpen (r : Req) (s : State) : Res := .next (runCmd specFwuOpen r s)

/-- CMD_FWU_DATA: 1 to 4 064 bytes of data. -/
def fwuDataLen (p : Bytes) : Option Nat := if 9 ≤ p.length ∧ p.length ≤ 4072 then none else some 0xFFFFFFFF

/-- The chunk does not follow what has been received, or passes PKG_LENGTH. -/
def badChunk (p : Bytes) (s : State) : Bool :=
  match s.fwu.session with
  | none => true
  | some x => decide (getLE p 0 4 ≠ x.received.length) || decide (x.total < getLE p 0 4 + (p.length - 8))

/-- CMD_FWU_DATA (R545). -/
def specFwuData : CmdSpec where
  opcode := 0x0D02
  length := fwuDataLen
  check r p s := firstRefusal [sessionRefusal r s, badParam [(0, badChunk p s), (4, notZero p 4 4)]]
  run r p s :=
    let s := setSession (fun x => { x with received := x.received ++ p.drop 8 }) s
    finishOk 0x0D02 r (putLE 4 ((s.fwu.session.map fun x => x.received.length).getD 0)) s

/-- CMD_FWU_DATA -/
def execCmdFwuData (r : Req) (s : State) : Res := .next (runCmd specFwuData r s)

/-! ### Verification (R546, R547) -/

/-- A check fails: the session goes back to DOWNLOADING. -/
def failVerify (check : Nat) (req : Option Req) (s : State) : State :=
  let s := setSession (fun x => { x with st := .downloading, received := [], failed := check }) s
  let s := raise 0xE8 [(check : Int)] (setFwu (fun w => { w with build := none }) s)
  if check = 3 ∨ check = 5 then finishOpt 0x0D03 req stDenied 7 [] s else finishOpt 0x0D03 req stBadCrc check [] s

/-- Blocks of a release. -/
def blocksOf (m : Manifest) : Nat := (m.length + 65535) / 65536

/-- Result of CMD_FWU_VERIFY. -/
def verifyBytes (m : Manifest) : Bytes := putLE 4 m.release.toNat ++ putLE 2 (blocksOf m) ++ zeros 2

/-- The last block is written: checks 7 to 9, and the slot is VERIFIED (R546). -/
def finishBuild (b : Build) (x : Session) (s : State) : State :=
  match builtImage s x with
  | none => failVerify 7 b.req s
  | some img => match imageFault x img with
    | some k => failVerify k b.req s
    | none =>
      let slot := slotFrom x img
      let s := putIdle slot .verified s
      let s := setSession (fun x => { x with st := .verified, failed := 0 }) (setFwu (fun w => { w with build := none }) s)
      finishOpt 0x0D03 b.req stOk 0 (verifyBytes (parseManifest (pkgManifest x.received))) s

/-- A moment of a running build: a block is completed and journalled once its time has passed (R547; log entry 2). -/
def buildTick (s : State) : State :=
  match s.fwu.build, s.fwu.session with
  | some b, some x =>
    if b.active && s.power.mainUp && decide (Config.blockNs b.blocks ≤ since s b.from') then
      let n := b.blocks + 1
      let s := setFwu (fun w => { w with build := some { b with blocks := n, from' := s.refNs }, progress := (n, b.total) }) s
      if b.total ≤ n then finishBuild b x s else s
    else s
  | _, _ => s

/-- CMD_FWU_VERIFY (R546, R547): the build begins, or the command waits behind one that has been resumed. -/
def specFwuVerify : CmdSpec where
  opcode := 0x0D03
  length := fixedLen 0
  check r _ s := sessionRefusal r s
  run r _ s :=
    match s.fwu.session, s.fwu.build with
    | some _, some b => holdCmd 0x0D03 r (setFwu (fun w => { w with build := some { b with req := some r } }) s)
    | some x, none =>
      let f := packageFault s x
      let s := afterChecks f x.received (pkgSig x.received) s
      match f with
      | some k => failVerify k (some r) s
      | none =>
        let n := blocksOf (parseManifest (pkgManifest x.received))
        let s := setSession (fun x => { x with st := .building }) (putIdle {} .incomplete s)
        holdCmd 0x0D03 r (setFwu (fun w => { w with
          build := some { blocks := 0, total := n, active := true, from' := s.refNs, req := some r }, progress := (0, n) }) s)
    | none, _ => s

/-- CMD_FWU_VERIFY -/
def execCmdFwuVerify (r : Req) (s : State) : Res := .next (runCmd specFwuVerify r s)

/-- FWU_BUILD_RESUME (R547): after READY an interrupted build goes on with the block after the last one completed. -/
def execFwuBuildResume (s : State) : Res :=
  .next (match s.fwu.build with
    | none => s
    | some b =>
      if s.power.ready && !b.active then
        raise 0xEC [(b.blocks : Int)] (setFwu (fun w => { w with
          build := some { b with active := true, from' := s.refNs }, progress := (b.blocks, b.total) }) s)
      else s)

/-! ### Activation (R548 to R551) -/

/-- Levels that a partner would not be joined with (R442, R548). -/
def levelsApart (m : Manifest) (s : State) : Bool :=
  s.pair.joined && s.pair.lastHb.any fun h => decide (h.proto ≠ m.proto) || decide (1 < ((h.feature : Int) - (m.feature : Int)).natAbs)

/-- Version of a component of a manifest. -/
def compVersion (m : Manifest) (id : Nat) : Nat := ((m.comps[id - 1]?).map fun c => c.version.toNat).getD 0

/-- The engine runtime is below the RUNTIME_LEVEL of the running or loaded image. -/
def runtimeLow (m : Manifest) (s : State) : Bool :=
  [s.program, s.progNext].any fun o => o.any fun im => decide (compVersion m 4 < im.runtimeLevel)

/-- The metering component is below the METER_LEVEL in force. -/
def meterLow (m : Manifest) (s : State) : Bool := s.meter.params.any fun p => decide (compVersion m 8 < p.meterLevel)

/-- Refusal of an activation of a release (R548). -/
def activateRefusal (m : Manifest) (force : Bool) (s : State) : Option (Nat × Nat) :=
  if !inService s idKB || permFree s = 0 || meterLow m s || runtimeLow m s then some (stDenied, 7)
  else if switchPending s then some (stBusy, 0)
  else if levelsApart m s && !force then some (stDenied, 7)
  else if activeJoined s && !s.pair.synced && !force then some (stDenied, 7)
  else if activeSynced s && (s.pair.exchange.isSome || exchangeRefused s) then some (stBusy, 0)
  else none

/-- Manifest of the inactive slot. -/
def idleManifest (s : State) : Option Manifest := (idleSlot s).manifest

/-- An activation is accepted: after a role exchange for an ACTIVE module with a synchronised standby, else in place. -/
def askActivation (req : Option Req) (s : State) : State :=
  let exchange := activeSynced s
  let s := setFwu (fun w => { w with activate := some { req := req, inPlace := !exchange } }) s
  if exchange then askExchange false none s else s

/-- The session is VERIFIED. -/
def sessionVerified (s : State) : Bool := s.fwu.session.any fun x => decide (x.st = .verified)

/-- CMD_FWU_ACTIVATE (R548, R549). -/
def specFwuActivate : CmdSpec where
  opcode := 0x0D04
  length := fixedLen 4
  check r p s :=
    firstRefusal
      [badParam [(0, decide (1 < getLE p 0 4))], sessionRefusal r s, refuseIf (!sessionVerified s) stNotActive 0,
       refuseIf s.fwu.activate.isSome stBusy 0,
       (match idleManifest s with
        | some m => activateRefusal m (bit (getLE p 0 4) 0) s
        | none => some (stNotActive, 0))]
  run r _ s := holdCmd 0x0D04 r (askActivation (some r) s)

/-- CMD_FWU_ACTIVATE -/
def execCmdFwuActivate (r : Req) (s : State) : Res := .next (runCmd specFwuActivate r s)

/-- A class's units stop, and its last outputs are held and repeated until its first commit (R96, R550). -/
def pauseClass (c : Nat) (s : State) : State :=
  let k := cls s c
  let s := if k.cycle.isSome then stopClass c s else s
  setCls c (fun k => { k with republish := k.prog.isSome && (decide (k.st = .run) || decide (k.st = .init)) }) s

/-- Step 3 of R549: the classes stop and the jobs in flight are aborted (R217). -/
def beginPause (s : State) : State :=
  stopEst (abortHost (pauseClass 3 (pauseClass 2 (pauseClass 1 (pauseClass 0 s)))))

/-- The boot record names the new slot, on trial, and the event is sealed (R549 step 4). -/
def commitActivation (old new' : W32) (s : State) : State :=
  let s := swapSlots .previous s
  let s := setFwu (fun w => { w with trial := true, trialBoots := 1, trialFrom := s.refNs, session := none, reverted := false }) s
  writeNewest 0xE9 (raise 0xE9 [(old.toNat : Int), (new'.toNat : Int)] s)

/-- The boot record goes back to the PREVIOUS slot after a trial without confirmation (R553 cause 2). -/
def commitRevert (s : State) : State :=
  let s := setFwu (fun w => { w with reverted := true }) (swapSlots .rejected s)
  writeNewest 0xEB (raiseC 0xEB [2] 2 s)

/-- Panel updates in flight finish on the old tables (R539). -/
def takePanelTables (s : State) : State :=
  let old := s.panel.tables
  { s with panel := { s.panel with
      tables := (runSlot s).tables
      inflight := s.panel.inflight.map fun u => if u.tabs.isEmpty then { u with tabs := old } else u } }

/-- MB runs the new component, and a changed version is recorded (R285, R539). -/
def takeMeter (old : W32) (s : State) : State :=
  let v := meterVersion s
  let s := { s with meter := { s.meter with version := v } }
  if v = old then s else writeNewest 0x6B (raise 0x6B [(old.toNat : Int), (v.toNat : Int)] s)

/-- Steps 5 and 6 of R549: the components are taken up, the stores migrated and the manifest recorded. -/
def takeComponents (oldMeter : W32) (s : State) : State :=
  let s := takeMeter oldMeter (takePanelTables s)
  migrateStores { s with stores := { s.stores with lastManifest := runManifestCrc s } }

/-- The pair after an activation (R442, R548, R551): with levels apart the module stays undecided; a standby joins again. -/
def pairAfter (apart : Bool) (s : State) : State :=
  if !s.pair.joined then s
  else if apart then raiseC 0xB2 [2] 2 (restRole .undecided (dropPartner s))
  else if s.pair.role = .standby then
    let s := startResync s
    if s.pair.lastHb.any fun h => decide (h.feature ≠ ownFeature s) then raise 0xB2 [0] s else s
  else s

/-- The Main class will commit again by itself. -/
def mainCommits (s : State) : Bool :=
  let k := cls s 1
  k.prog.isSome && !k.halted && (decide (k.st = .run) || decide (k.st = .init))

/-- A live activation (R549 steps 3 to 8) with its service pause. -/
def liveActivation (a : Activation) (m : Manifest) (pauseUs : Nat) (s : State) : State :=
  let old := ((runSlot s).manifest.map (·.release)).getD 0
  let oldMeter := meterVersion s
  let apart := levelsApart m s
  let s := beginPause (setFwu (fun w => { w with activate := none }) s)
  let s := if a.req.isSome then commitActivation old m.release s else commitRevert s
  let s := pairAfter apart (takeComponents oldMeter s)
  let mode := if a.inPlace then 0 else 1
  if mainCommits s then
    setFwu (fun w => { w with activating := some { req := a.req, mode := mode, pauseUs := pauseUs, until' := s.refNs + 1000 * pauseUs } }) s
  else finishOpt 0x0D04 a.req stOk 0 (putLE 4 pauseUs ++ [byte mode, 0, 0, 0]) s

/-- The role exchange of an activation has not come about: the activation ends with ST_BUSY. -/
def dropActivation (a : Activation) (s : State) : State :=
  finishOpt 0x0D04 a.req stBusy 0 [] (setFwu (fun w => { w with activate := none }) s)

/-- FWU_LIVE_ACTIVATION (R549): at the first Main period start after the checks and any role exchange. -/
def execFwuLiveActivation (pauseUs : Nat) (s : State) : Res :=
  let p := Nat.max (cls s 1).periodUs 1 * 1000
  .next (match s.fwu.activate, idleManifest s with
    | some a, some m =>
      if !s.power.ready || s.pair.exchange.isSome || decide (2000 < devNs s % p) then s
      else if !a.inPlace && decide (s.pair.role = .active) then dropActivation a s
      else liveActivation a m pauseUs s
    | some a, none => dropActivation a s
    | none, _ => s)

/-! ### Trial, confirmation and revert (R553, R554) -/

/-- FWU_TRIAL_TIMEOUT (R553): after 86 400 s of trial the previous slot is activated live; a refused revert is tried again at a
later Main boundary. -/
def execFwuTrialTimeout (s : State) : Res :=
  .next (if s.power.ready && s.fwu.trial && decide (86400 ≤ trialSeconds s) && s.fwu.activate.isNone && s.fwu.activating.isNone then
      match idleManifest s with
      | some m => if (activateRefusal m false s).isNone then askActivation none s else s
      | none => s
    else s)

/-- TRIAL_SECONDS_WRITE (R553): every hour of main-side power during a trial MG writes the count to the boot record. -/
def execTrialSecondsWrite (s : State) : Res :=
  .next (if s.power.mainUp && s.fwu.trial && decide (s.fwu.trialSecs + 3600 ≤ trialSeconds s) then
      setFwu (fun w => { w with trialSecs := trialSeconds s, bootGen := w.bootGen + 1 }) s
    else s)

/-- Components whose SVN exceeds its minimum: id, minimum, SVN. -/
def raisedSvns (s : State) : List (Nat × Nat × Nat) :=
  match (runSlot s).manifest with
  | none => []
  | some m => (indexed 1 m.comps).filterMap fun (i, c) =>
    let lo := lget s.fwu.minSvn (i - 1) 0
    if lo < c.svn then some (i, lo, c.svn) else none

/-- SVN_RAISED for each raised component, sealed (R554). -/
def sealRaised : List (Nat × Nat × Nat) → State → State
  | [], s => s
  | (i, a, b) :: r, s => sealRaised r (writeNewest 0xED (raise 0xED [(i : Int), (a : Int), (b : Int)] s))

/-- Minimum SVNs after a confirmation: the release's, none of which lies below its minimum once it has booted; a minimum
never falls (R554, R555). -/
def confirmedSvns (s : State) : List Nat :=
  match (runSlot s).manifest with
  | none => s.fwu.minSvn
  | some m => (indexed 0 s.fwu.minSvn).map fun (i, lo) => Nat.max lo (lget (m.comps.map (·.svn)) i 0)

/-- CMD_FWU_CONFIRM (R554). -/
def specFwuConfirm : CmdSpec where
  opcode := 0x0D05
  length := fixedLen 0
  check _ _ s :=
    firstRefusal [refuseIf (!s.fwu.trial) stNotActive 0, refuseIf (decide (permFree s < 1 + (raisedSvns s).length)) stDenied 7]
  run r _ s :=
    let up := raisedSvns s
    let rel : Nat := ((runSlot s).manifest.map fun m => m.release.toNat).getD 0
    let s := setFwu (fun w => { w with
      trial := false, trialBoots := 0, trialSecs := 0, trialCount := 0, minSvn := confirmedSvns s, bootGen := w.bootGen + 1 }) s
    let s := sealRaised up (writeNewest 0xEA (raise 0xEA [(rel : Int)] s))
    finishOk 0x0D05 r (putLE 4 rel ++ [byte up.length, 0, 0, 0]) s

/-- CMD_FWU_CONFIRM -/
def execCmdFwuConfirm (r : Req) (s : State) : Res := .next (runCmd specFwuConfirm r s)

/-- CMD_FWU_CLOSE (R558). -/
def specFwuClose : CmdSpec where
  opcode := 0x0D06
  length := fixedLen 0
  check r _ s := sessionRefusal r s
  run r _ s := finishOk 0x0D06 r [] (setFwu (fun w => { w with session := none }) (stopBuild s))

/-- CMD_FWU_CLOSE -/
def execCmdFwuClose (r : Req) (s : State) : Res := .next (runCmd specFwuClose r s)

/-- RELEASE of a slot, 0 without one. -/
def slotRelease (x : FwSlot) : Nat := (x.manifest.map fun m => m.release.toNat).getD 0

/-- CMD_FWU_STATUS (R558). -/
def specFwuStatus : CmdSpec where
  opcode := 0x0D07
  length := fixedLen 0
  check _ _ _ := none
  run r _ s :=
    let f := s.fwu
    let head : Bytes := match f.session with
      | some x => [byte (sessCode x.st), byte (portCode x.port), byte x.slot, byte x.kind] ++ putLE 2 x.tag.toNat ++ [byte x.failed]
      | none => zeros 7
    let lens : Bytes := match f.session with
      | some x => putLE 4 x.received.length ++ putLE 4 x.total
      | none => zeros 8
    finishOk 0x0D07 r (head ++ [byte (b2n f.trial + 2 * b2n f.reverted)] ++ lens ++ putLE 2 f.progress.1 ++ putLE 2 f.progress.2 ++
      putLE 4 (slotRelease (runSlot s)) ++ putLE 4 (slotRelease (idleSlot s)) ++ [byte (slotCode f.inactive), byte f.trialBoots] ++
      putLE 2 (satBits 16 (trialSeconds s / 3600))) s

/-- CMD_FWU_STATUS -/
def execCmdFwuStatus (r : Req) (s : State) : Res := .next (runCmd specFwuStatus r s)

end Sys2Proof.Machine
end

