-- ==== Sys2Proof/Machine/Transport.lean ====
section
/-! DEFINITION. Transport.lean: command packets, slots and doorbells, the side-band transport and the PCIe link (R383,
R384, R386 to R394, R400 to R404, R562). -/

namespace Sys2Proof.Machine

/-! ### The packet (R386, R387) -/

/-- FLAGS.SIGNED of a packet. -/
def packetSigned (b : Bytes) : Bool := bit (getLE b 2 2) 0

/-- Header check of R387: the offset of the first bad field. -/
def headerFault (b : Bytes) : Option (Nat × Nat) :=
  badParam [(2, decide (1 < getLE b 2 2)), (8, decide (getLE b 8 2 ≠ 0)), (10, decide (getLE b 10 1 ≠ 0)),
    (11, decide (getLE b 11 1 ≠ 0)), (12, decide (getLE b 12 4 ≠ 0))]

/-- The transport's checks of a request, first failure first: status and DETAIL (R387). -/
def packetRefusal (b : Bytes) : Option (Nat × Nat) :=
  let n := getLE b 4 2
  let op := getLE b 0 2
  firstRefusal
    [refuseIf (decide (4072 < n)) stBadLength n,
     refuseIf (decide (getLE b (20 + n) 4 ≠ 0x4B504756) || decide (getLE b (16 + n) 4 ≠ crc32c (b.take (16 + n)))) stBadCrc 0,
     headerFault b, refuseIf (!knownOpcode op) stBadOpcode 0, signFlagRefusal op (packetSigned b)]

/-- The request of a packet. -/
def packetReq (o : Origin) (b : Bytes) : Waiting :=
  { opcode := getLE b 0 2
    req := { origin := o, tag := BitVec.ofNat 16 (getLE b 6 2), signed := packetSigned b, payload := slice b 16 (getLE b 4 2) } }

/-- A request is accepted: it joins the one order of acceptance (R387, R393). -/
def acceptReq (w : Waiting) (s : State) : State :=
  { s with host := { s.host with accepted := s.host.accepted ++ [w] } }

/-- CMD_REJECTED (R387, R391). -/
def rejectEvent (slot port status : Nat) (s : State) : State := raise 0x09 [(slot : Int), (port : Int), (status : Int)] s

/-! ### Doorbells (R390, R391) -/

/-- The packet in a slot is checked: the slot is ACCEPTED, or it holds the refusal and is DONE (R391 step 2). -/
def checkSlot (n : Fin 64) (s : State) : State :=
  let b := memReadBytes s.host.mem (0x1000 * n.val) 0x1000
  let w := packetReq (.slot n) b
  match packetRefusal b with
  | some (st, d) =>
    slotRespond n.val w.opcode w.req.tag st d [] (emit (.response (.slot n) w.opcode w.req.tag st d [])
      (rejectEvent n.val 0 st s))
  | none => acceptReq w (setSlot n.val { st := .accepted, status := 1 } s)

/-- A doorbell (R391): SLOT is bits [5:0]. -/
def ringDoorbell (v : W32) (s : State) : State :=
  let n : Fin 64 := Fin.ofNat 64 v.toNat
  let x := slotOf s n.val
  if s.power.ready && (decide (x.st = .idle) || decide (x.st = .done)) then
    checkSlot n { s with host := { s.host with
      cmpl := s.host.cmpl &&& ~~~(BitVec.twoPow 64 n.val), idleFrom := s.refNs } }
  else rejectEvent n.val 0 stBusy s

/-- HIF_DOORBELL (R391). -/
def execHifDoorbell (v : W32) (s : State) : Res := .next (ownWrite .pcie 0x030 (ringDoorbell v) s)

/-! ### BAR2 (R389, R390) -/

/-- A dropped access to BAR2: HIF_ERR_INFO is unchanged (R389). -/
def dropBar2 (off cause : Nat) (write : Bool) (s : State) : State :=
  raiseAccess 0 [(off : Int), (cause : Int), (b2n write : Int), (0 : Int)] cause (rcAdd 0x020 1 s)

/-- Slot state word (R390). -/
def slotWord (s : State) (n : Nat) : W32 :=
  let x := slotOf s n
  let st : Nat := match x.st with
    | .idle => 0
    | .pending => 1
    | .accepted => 2
    | .done => 3
  BitVec.ofNat 32 (st + 65536 * x.status.toNat)

/-- Write the enabled bytes of a doubleword into slot memory. -/
def slotWrite (off : Nat) (be : BitVec 4) (v : W32) : Nat → List Host.Cell → List Host.Cell
  | 0, m => m
  | i + 1, m =>
    let m := slotWrite off be v i m
    if be.getLsbD i then memWrite m (off + i) (byte (v.toNat / 2 ^ (8 * i))) else m

/-- A write to BAR2. The cause of a write into a slot whose command runs is not given: a free value (log entry 2). -/
def bar2Write (off : Nat) (be : BitVec 4) (v : W32) (s : State) : State :=
  if be = 0 then s
  else if off < 0x40000 then
    let x := slotOf s (off / 0x1000)
    if x.st = .pending ∨ x.st = .accepted then
      let (f, s) := takeFree s
      dropBar2 off (f.toNat % 16) true s
    else { s with host := { s.host with mem := slotWrite off be v 4 s.host.mem } }
  else if off < 0x40100 then s
  else dropBar2 off 3 true s

/-- A read of BAR2. -/
def bar2Read (off : Nat) (be : BitVec 4) (s : State) : State :=
  if be = 0 then emit (.bar2Read off 0) s
  else if off < 0x40000 then
    emit (.bar2Read off (BitVec.ofNat 32 (getLE (memReadBytes s.host.mem off 4) 0 4) &&& beMask be)) s
  else if off < 0x40100 then emit (.bar2Read off (slotWord s ((off - 0x40000) / 4) &&& beMask be)) s
  else emit (.bar2Read off 0xFFFFFFFF) (dropBar2 off 3 false s)

/-- BAR2_ACCESS (R389): one doubleword. -/
def execBar2Access (write : Bool) (offset : Nat) (be : BitVec 4) (v : W32) (s : State) : Res :=
  let off := offset / 4 * 4
  .next (if portAlive s .pcie then
      (if write then bar2Write off be v s else bar2Read off be s)
    else s)

/-! ### The PCIe link (R384, R394, R562) -/

/-- The request came through a slot. -/
def fromSlot (w : Waiting) : Bool := match w.req.origin with
  | .slot _ => true
  | _ => false

/-- Accepted requests of slots that are not complete. -/
def slotRequests (s : State) : List Waiting :=
  (s.host.accepted ++ s.host.waiting ++ s.host.mirrored.map (·.cmd)).filter fromSlot

/-- Every slot becomes IDLE and the completion bits clear; the commands already accepted run on, and their responses are
discarded (R394). -/
def idleSlots (s : State) : State :=
  { s with host := { s.host with slots := [], cmpl := 0, orphans := slotRequests s } }

/-- HOST_LINK_DOWN (R394, R562): a function-level reset keeps the link and raises no event. -/
def execHostLinkDown (kind : LinkDownKind) (s : State) : Res :=
  .next (if portAlive s .pcie then
      (match kind with
       | .functionReset => idleSlots s
       | .linkDown | .perst =>
         let s := idleSlots s
         raise 0x07 [] { s with host := { s.host with linkUp := false } })
    else s)

/-- HOST_LINK_UP (R384). -/
def execHostLinkUp (s : State) : Res :=
  .next (if s.power.mainUp && inService s idPX && !s.host.linkUp then
      raise 0x06 [] { s with host := { s.host with linkUp := true } }
    else s)

/-! ### The side-band transport (R383, R400 to R404) -/

/-- MG answers its address (R400, R405). -/
def sbAlive (s : State) : Bool := s.power.vstby && inService s idMG && sbEnabled s

/-- SBM_FRAGMENT_ERROR with its cause (R402). -/
def fragError (cause : Nat) (s : State) : State := raise 0x0D [(cause : Int)] (rcAdd 0x1610 1 s)

/-- The reassembly is abandoned. -/
def abandon (cause : Nat) (s : State) : State := fragError cause { s with sb := { s.sb with st := .idle, buf := [] } }

/-- The LAST fragment completes a packet (R387, R402). -/
def sbComplete (s : State) : State :=
  let b := s.sb.buf
  if b.length ≠ 24 + getLE b 4 2 ∨ b.length < 24 then abandon 6 s
  else
    let w := packetReq .sideBand b
    match packetRefusal b with
    | some (st, d) =>
      sbRespond w.opcode w.req.tag st d [] (emit (.response .sideBand w.opcode w.req.tag st d []) (rejectEvent 0xFF 1 st s))
    | none =>
      acceptReq w { s with sb := { s.sb with
        st := .accepted, buf := [], tag := w.req.tag, status := 0, pkts := (s.sb.pkts + 1) % 2 ^ 64 } }

/-- A fragment's bytes are in the reassembly from an offset on. -/
def takeFragment (last : Bool) (offset : Nat) (data : Bytes) (s : State) : State :=
  let buf := s.sb.buf.take offset ++ data
  if 4096 < buf.length then abandon 4 s
  else
    let s := { s with sb := { s.sb with st := .receiving, buf := buf, fragFrom := offset, fragAt := s.refNs } }
    if last then sbComplete s else s

/-- A fragment with a valid PEC (R402). -/
def fragment (flags : Byte) (offset : Nat) (data : Bytes) (s : State) : State :=
  let last := flags.getLsbD 1
  if flags.getLsbD 2 then
    (if s.sb.st = .receiving then { s with sb := { s.sb with st := .idle, buf := [] } } else s)
  else if flags.getLsbD 0 then
    (if s.sb.st = .accepted then fragError 2 s
     else if offset ≠ 0 then fragError 3 s
     else
       let s := if s.sb.st = .receiving then fragError 1 s else s
       takeFragment last 0 data { s with sb := { s.sb with buf := [], resp := [], status := 0 } })
  else if s.sb.st ≠ .receiving then fragError 3 s
  else if offset = s.sb.buf.length ∨ offset = s.sb.fragFrom then takeFragment last offset data s
  else abandon 3 s

/-- FRAG_WRITE (R401, R402). -/
def execFragWrite (flags : Byte) (offset : W16) (data : Bytes) (pecOk : Bool) (s : State) : Res :=
  .next (if sbAlive s then
      (if pecOk then fragment flags offset.toNat data s
       else emit .sbNack (raise 0x0C [] (rcAdd 0x160C 1 s)))
    else s)

/-- Bytes of a FRAG_READ (R400, R402): a header, and up to 251 bytes of the response. -/
def fragBytes (s : State) (offset : Nat) : Bytes :=
  if s.sb.st = .done ∧ offset < s.sb.resp.length then
    let d := slice s.sb.resp offset (Nat.min 251 (s.sb.resp.length - offset))
    let first := b2n (decide (offset = 0))
    let last := b2n (decide (offset + d.length = s.sb.resp.length))
    [byte (first + 2 * last), 0] ++ putLE 2 offset ++ d
  else [8, 0] ++ putLE 2 offset

/-- FRAG_READ (R401): no side effect; the controller checks the PEC. -/
def execFragRead (offset : W16) (_pecOk : Bool) (s : State) : Res :=
  .next (if sbAlive s then emit (.sbRead (fragBytes s offset.toNat)) s else s)

/-- Bytes of SB_STATUS (R403). -/
def sbStatusBytes (s : State) : Bytes :=
  [byte (sbCode s.sb.st), byte (b2n s.power.mainUp + 2 * b2n (decide (s.evt.pendSb ≠ 0)) + 4 * b2n (cfgBit s 0x1604 1))] ++
    putLE 2 s.sb.buf.length ++ putLE 2 s.sb.tag.toNat ++ putLE 2 (if s.sb.st = .done then s.sb.status.toNat else 0)

/-- SB_STATUS (R403). -/
def execSbStatus (s : State) : Res := .next (if sbAlive s then emit (.sbRead (sbStatusBytes s)) s else s)

/-- SBM_REASSEMBLY_TIMEOUT (R402): 100 ms without a valid fragment. -/
def execSbmReassemblyTimeout (s : State) : Res :=
  .next (if s.power.vstby && inService s idMG && decide (s.sb.st = .receiving) && decide (100000000 ≤ since s s.sb.fragAt) then
      abandon 5 s
    else s)

/-- ALERT_RESPONSE_READ (R383): MG answers with its own address and releases ALERT_N. -/
def execAlertResponseRead (s : State) : Res :=
  .next (if sbAlive s && s.evt.alert then
      emit (.alertAddress (0x58 + s.sb.sba.toNat)) { s with evt := { s.evt with alert := false } }
    else s)

end Sys2Proof.Machine
end

