-- ==== Sys2Proof/Machine/RegWrite.lean ====
section
/-! DEFINITION. RegWrite.lean: what an accepted write does to each register, posted writes, the rows of single
registers, and the device commands (R364 to R367, R372, R374, R376, R381 to R383, R391, R405, R408, R461). -/

namespace Sys2Proof.Machine

/-! ### HIF and EVT (R372, R376, R381 to R383) -/

/-- Recompute the expected signature of every block (R376). -/
def resignAll : List Block → State → State
  | [], s => s
  | b :: r, s => resignAll r (resign b.base s)

/-- Vectors with a pending source routed to them with MSIX_EN 1 (R382). -/
def pendingVectors (s : State) : List Nat :=
  (upto 32).filter fun v => (upto 256).any fun src => s.evt.pend.getLsbD src && routeMsix s src && routeVector s src = v

/-- Send one message on each of several vectors. -/
def sendVectors : List Nat → State → State
  | [], s => s
  | v :: r, s => sendVectors r (sendVector v s)

/-- Records on their way to the recorder owe no message on the vectors just served (R382). -/
def coverQueued (l : List EventRec) : List EventRec := l.map fun e => { e with vec := none }

/-- EVT_MSG_EN has changed from 0 to 1 (R382). -/
def openMessages (s : State) : State :=
  let s := sendVectors (pendingVectors s) s
  { s with recorder := { s.recorder with queue := coverQueued s.recorder.queue, held := coverQueued s.recorder.held } }

/-- Sweeps are off (R376). -/
def sigOff (s : State) : State := raise 0x03 [] s

/-- Sweeps resume: every expected signature is that of the current contents (R376). -/
def sigOn (s : State) : State :=
  let s := resignAll blocks s
  raise 0x04 [] { s with regs := { s.regs with sweepAt := s.refNs } }

/-- A write of HIF_CTRL: SIG_LOCK keeps SIG_EN, and a write that would change it then raises BAD_ACCESS with cause 4
(R364, R376, R382). -/
def applyHifCtrl (p : Port) (v : W32) (s : State) : State :=
  let old := cfgGet s 0x014
  let kept := cfgBit s 0x018 0 && decide (old.getLsbD 0 ≠ v.getLsbD 0)
  let s := if kept then dropAccess p 0x014 4 true s else s
  let w := if kept then (v &&& 2) ||| (old &&& 1) else v &&& 3
  let s := cfgSet 0x014 w s
  let s := if old.getLsbD 0 && !w.getLsbD 0 then sigOff s else if !old.getLsbD 0 && w.getLsbD 0 then sigOn s else s
  if !old.getLsbD 1 && w.getLsbD 1 then openMessages s else s

/-- A write of a lock register: bits written 1 are set, and LOCK_SET is raised when one was clear (R372). -/
def applyLock (off : Nat) (v : W32) (s : State) : State :=
  let old := cfgGet s off
  let new' := old ||| (v &&& ((regInfo off).map (·.mask)).getD 0)
  if new' = old then s else raise 0x05 [(off : Int)] (cfgSet off new' s)

/-- EVT_PENDn: bits written 1 clear (R380). -/
def applyEvtPend (n : Nat) (v : W32) (s : State) : State :=
  { s with evt := { s.evt with pend := s.evt.pend &&& ~~~((v.zeroExtend 256) <<< (32 * n)) } }

/-- EVT_ROUTEn (R381, R383): a cleared ALERT_EN may release ALERT_N. -/
def applyRoute (off : Nat) (v : W32) (s : State) : State := alertSettle (cfgSet off v s)

/-- HIF_CMPL_LO and HIF_CMPL_HI: bits written 1 clear (R391). -/
def applyCmpl (hi : Bool) (v : W32) (s : State) : State :=
  { s with host := { s.host with cmpl := s.host.cmpl &&& ~~~((v.zeroExtend 64) <<< (32 * b2n hi)) } }

/-- A write of an MSI-X table entry: unmasking a vector sends a message noted as pending (log entry 10). -/
def applyMsix (off : Nat) (v : W32) (s : State) : State :=
  let s := cfgSet off v s
  let k := (off - 0xF000) / 16
  if off % 16 = 12 && !v.getLsbD 0 && s.regs.pba.getLsbD k then
    msixSend k { s with regs := { s.regs with pba := s.regs.pba &&& ~~~(BitVec.twoPow 64 k) } }
  else s

/-- A write of SBM_CTRL: ENABLE 0 releases ALERT_N, and a change to 1 asserts it when a bit wants it (R383, R405). -/
def applySbmCtrl (v : W32) (s : State) : State :=
  let was := sbEnabled s
  let s := cfgSet 0x1604 v s
  if !was && sbEnabled s && alertWanted s && inService s idMG then { s with evt := { s.evt with alert := true } }
  else alertSettle s

/-- A write of PAIR_CTRL: a change of SCRUB_EN to 0 raises SCRUB_OFF (R461). -/
def applyPairCtrl (v : W32) (s : State) : State :=
  let was := cfgBit s 0x1404 0
  let s := cfgSet 0x1404 v s
  if was && !cfgBit s 0x1404 0 then raise 0xB7 [] s else s

/-- A write of a budget register (R115). -/
def applyBgt (off : Nat) (v : W32) (s : State) : State := settleCfgErr (cfgSet off v s)

/-- A write inside a CAN block (R346, R349, R352, R359). -/
def applyCan (n k : Nat) (off : Nat) (v : W32) (s : State) : State :=
  if 0x100 ≤ k then applyCanWindow n off v s
  else match k with
  | 0x04 => applyCanCtrl n v s
  | 0x08 | 0x0C | 0x10 => applyCanTiming n off v s
  | 0x1C => clearNd n (maskBufs 0 v.toNat) s
  | 0x20 => clearNd n (maskBufs 32 v.toNat) s
  | 0x24 => requestHost n (maskBufs 0 v.toNat) s
  | 0x28 => requestHost n (maskBufs 32 v.toNat) s
  | 0x2C => cancelBufs n (maskBufs 0 v.toNat) s
  | 0x30 => cancelBufs n (maskBufs 32 v.toNat) s
  | _ => s

/-! ### Any register -/

/-- A write of a register of block `base` that is no lock register. -/
def applyIn (p : Port) (base off : Nat) (v : W32) (s : State) : State :=
  match base with
  | 0x0000 =>
    (match off with
     | 0x14 => applyHifCtrl p v s
     | 0x30 => ringDoorbell v s
     | 0x34 => applyCmpl false v s
     | _ => applyCmpl true v s)
  | 0x0100 => if 0x120 ≤ off then applyEvtPend ((off - 0x120) / 4) v s else cfgSet off v s
  | 0x0400 => applyRoute off v s
  | 0x0900 => applyBgt off v s
  | 0x0B00 => solCtrl v s
  | 0x0E00 => applyPtpCtrl v s
  | 0x0F00 =>
    (match off with
     | 0xF0C => applyRtcFlags v s
     | 0xF20 => applyRtc v s
     | _ => cfgSet off v s)
  | 0x1000 => if off = 0x1008 then applyRecSeek p v s else cfgSet off v s
  | 0x1400 => applyPairCtrl v s
  | 0x1600 => applySbmCtrl v s
  | 0x2000 => applyCan 0 (off - base) off v s
  | 0x4000 => applyCan 1 (off - base) off v s
  | 0x6000 => applyCan 2 (off - base) off v s
  | 0x8000 => applyCan 3 (off - base) off v s
  | 0xF000 => applyMsix off v s
  | _ => cfgSet off v s

/-- What an accepted write of a whole register does (R5, R374, R385). -/
def applyReg (p : Port) (off : Nat) (v : W32) (s : State) : State :=
  match regInfo off, blockAt off with
  | some i, some b => if i.acc = .rwl then applyLock off v s else applyIn p b.base off v s
  | _, _ => s

/-- Apply the doublewords of a posted write. -/
def applyDws (p : Port) : List (Nat × W32) → State → State
  | [], s => s
  | (off, v) :: r, s => applyDws p r (applyReg p off v s)

/-! ### Write requests (R364, R366, R367) -/

/-- Judge doublewords of one posted write, reporting the drops; what passes. -/
def judgeDws (p : Port) (busy : Bool) : List (Nat × BitVec 4 × W32) → State → List (Nat × W32) × State
  | [], s => ([], s)
  | (off, be, v) :: r, s =>
    match judgeWrite s off be busy with
    | .nothing => judgeDws p busy r s
    | .drop c => judgeDws p busy r (dropAccess p off c true s)
    | .pass => let x := judgeDws p busy r s; ((off, v) :: x.1, x.2)

/-- The block of an offset, when its writes are posted. -/
def postedBlock (off : Nat) : Option Block := (blockAt off).filter (·.posted)

/-- The doublewords that pass travel as one posted write: BUSY is set and a banked brick wakes (R366). -/
def postWrite (p : Port) (b : Block) (l : List (Nat × W32)) (s : State) : State :=
  if l.isEmpty then s
  else
    let ran := atPoint (brick s b.brick)
    let s := reachBrick b.brick s
    { s with regs := { s.regs with posted := s.regs.posted ++ [{ base := b.base, port := p, dws := l, setAt := s.refNs, ran := ran }] } }

/-- Doublewords of one posted write. -/
def postDws (p : Port) (b : Block) (l : List (Nat × BitVec 4 × W32)) (s : State) : State :=
  let x := judgeDws p (blockBusy s b.base) l s
  postWrite p b x.1 x.2

/-- One doubleword of a request. -/
def writeDw (p : Port) (off : Nat) (be : BitVec 4) (v : W32) (s : State) : State :=
  match postedBlock off with
  | some b => postDws p b [(off, be, v)] s
  | none =>
    match judgeWrite s off be false with
    | .nothing => s
    | .drop c => dropAccess p off c true s
    | .pass => applyReg p off v s

/-- The doublewords of a request, low word first (R364). -/
def writeDws (p : Port) : Nat → List (BitVec 4 × W32) → State → State
  | _, [], s => s
  | off, (be, v) :: r, s => writeDws p (off + 4) r (writeDw p off be v s)

/-- A write request: two doublewords of one posted block travel together (R366). -/
def writeRequest (p : Port) (off : Nat) (dws : List (BitVec 4 × W32)) (s : State) : State :=
  match dws, postedBlock off with
  | [a, b], some blk =>
    if (postedBlock (off + 4)) = some blk then postDws p blk [(off, a.1, a.2), (off + 4, b.1, b.2)] s
    else writeDws p off dws s
  | _, _ => writeDws p off dws s

/-- REGISTER_WRITE (R366). -/
def execRegisterWrite (p : Port) (offset : W16) (dws : List (BitVec 4 × W32)) (s : State) : Res :=
  .next (if portAlive s p then writeRequest p (offset.toNat / 4 * 4) dws s else s)

/-- The posted write of a block, with the others. -/
def takePosted (base : Nat) : List Posted → Option (Posted × List Posted)
  | [] => none
  | x :: r => if x.base = base then some (x, r) else (takePosted base r).map fun y => (y.1, x :: y.2)

/-- The owning brick applies a posted write, and BUSY clears; a brick out of service applies nothing (R366, R368). -/
def settlePosted (base : Nat) (s : State) : State :=
  match takePosted base s.regs.posted with
  | none => s
  | some (x, rest) =>
    let s := { s with regs := { s.regs with posted := rest } }
    if inService s (((blockAt base).map (·.brick)).getD 0) then applyDws x.port x.dws s else s

/-- BUSY of a block may clear: at a brick that ran when BUSY was set, 0.2 µs have passed since (R369, R577). -/
def busyMayClear (base : Nat) (s : State) : Bool :=
  (takePosted base s.regs.posted).any fun y => !y.1.ran || decide (200 ≤ since s y.1.setAt)

/-- POSTED_WRITE_APPLIED (R366, R369). -/
def execPostedWriteApplied (base : W16) (s : State) : Res :=
  .next (if busyMayClear base.toNat s then settlePosted base.toNat s else s)

/-! ### Rows of single registers -/

/-- SIG_EN_CLEAR (R376). -/
def execSigEnClear (p : Port) (v : W32) (s : State) : Res := .next (ownWrite p 0x014 (applyHifCtrl p v) s)

/-- SIG_EN_SET (R376). -/
def execSigEnSet (p : Port) (v : W32) (s : State) : Res := .next (ownWrite p 0x014 (applyHifCtrl p v) s)

/-- EVT_MSG_EN_SET (R382). -/
def execEvtMsgEnSet (p : Port) (v : W32) (s : State) : Res := .next (ownWrite p 0x014 (applyHifCtrl p v) s)

/-- LOCK_BIT_SET (R372). -/
def execLockBitSet (p : Port) (offset : W16) (v : W32) (s : State) : Res :=
  .next (match regInfo offset.toNat with
    | some i => if i.acc = .rwl then ownWrite p offset.toNat (applyLock offset.toNat v) s else s
    | none => s)

/-- EVT_PEND_CLEAR (R380, R382). -/
def execEvtPendClear (p : Port) (n : Fin 8) (v : W32) (s : State) : Res :=
  .next (ownWrite p (0x120 + 4 * n.val) (applyEvtPend n.val v) s)

/-- HIF_CMPL_CLEAR (R391). -/
def execHifCmplClear (p : Port) (hi : Bool) (v : W32) (s : State) : Res :=
  .next (ownWrite p (0x034 + 4 * b2n hi) (applyCmpl hi v) s)

/-- EVT_ROUTE_WRITE (R381, R382). -/
def execEvtRouteWrite (p : Port) (n : Fin 256) (v : W32) (s : State) : Res :=
  .next (ownWrite p (0x400 + 4 * n.val) (applyRoute (0x400 + 4 * n.val) v) s)

/-- LOOP_CTRL_RUN (R168): the samples that follow read RUN. -/
def execLoopCtrlRun (p : Port) (v : W32) (s : State) : Res := .next (ownWrite p 0xA04 (cfgSet 0xA04 v) s)

/-- PAIR_CTRL_WRITE (R461). -/
def execPairCtrlWrite (p : Port) (v : W32) (s : State) : Res := .next (ownWrite p 0x1404 (applyPairCtrl v) s)

/-! ### Device commands (R408) -/

/-- CMD_ECHO. -/
def specEcho : CmdSpec where
  opcode := 0x0000
  length _ := none
  check _ _ _ := none
  run r p s := finishOk 0x0000 r p s

/-- CMD_ECHO -/
def execCmdEcho (r : Req) (s : State) : Res := .next (runCmd specEcho r s)

/-- CMD_DEVICE_INFO. -/
def specDeviceInfo : CmdSpec where
  opcode := 0x0001
  length := fixedLen 0
  check _ _ _ := none
  run r _ s :=
    let up := s.power.mainUp
    finishOk 0x0001 r (putLE 4 0x01017420 ++ putLE 4 (if up then (hifVersion s).toNat else 0) ++ putLE 8 s.keys.serial.toNat ++
      idHash s ++ putLE 4 s.keys.privCnt.toNat ++ [byte (lcCode s.keys.lc), byte (if up then roleCode s.pair.role else 0),
      byte (b2n up + 2 * b2n s.pair.slotId + 4 * b2n s.pair.present), 0]) s

/-- CMD_DEVICE_INFO -/
def execCmdDeviceInfo (r : Req) (s : State) : Res := .next (runCmd specDeviceInfo r s)

/-- Field faults that CMD_REG_READ and CMD_REG_WRITE share. -/
def regFaults (p : Bytes) (max : Nat) : Option (Nat × Nat) :=
  let n := getLE p 4 2
  badParam [(0, decide (getLE p 0 4 % 4 ≠ 0)), (4, decide (n < 1 ∨ max < n) || decide (0x10000 < getLE p 0 4 + 4 * n)),
    (6, notZero p 6 2)]

/-- Read consecutive registers, in ascending order. -/
def readRegs (p : Port) : Nat → Nat → State → Bytes × State
  | _, 0, s => ([], s)
  | off, n + 1, s =>
    let x := readDw p off 15 s
    let y := readRegs p (off + 4) n x.2
    (putLE 4 x.1.toNat ++ y.1, y.2)

/-- CMD_REG_READ. -/
def specRegRead : CmdSpec where
  opcode := 0x0010
  length := fixedLen 8
  check _ p _ := regFaults p 64
  run r p s :=
    let x := readRegs (originPort r.origin) (getLE p 0 4) (getLE p 4 2) s
    finishOk 0x0010 r x.1 x.2

/-- CMD_REG_READ -/
def execCmdRegRead (r : Req) (s : State) : Res := .next (runCmd specRegRead r s)

/-- One doubleword of CMD_REG_WRITE: BUSY of its block has cleared within 100 µs while its brick is in service, and its
own posted write is applied before the next doubleword. The status that stops the command, if any. -/
def writeOne (p : Port) (off : Nat) (v : W32) (s : State) : Option Nat × State :=
  let base := ((blockAt off).map (·.base)).getD 0
  let s := if blockBusy s base && inService s (((blockAt off).map (·.brick)).getD 0) then settlePosted base s else s
  if blockBusy s base then (some stBusy, s)
  else match judgeWrite s off 15 false with
    | .nothing => (none, s)
    | .drop c => (some (if c = 4 then stLocked else stBadParam), dropAccess p off c true s)
    | .pass =>
      let s := match postedBlock off with
        | some b => reachBrick b.brick s
        | none => s
      (none, applyReg p off v s)

/-- CMD_REG_WRITE's doublewords: how many were written, and the status and offset at which it stopped. -/
def writeMany (p : Port) : Nat → Nat → List Nat → State → Nat × Option (Nat × Nat) × State
  | _, k, [], s => (k, none, s)
  | off, k, v :: r, s =>
    match writeOne p off (BitVec.ofNat 32 v) s with
    | (none, s) => writeMany p (off + 4) (k + 1) r s
    | (some st, s) => (k, some (st, off), s)

/-- CMD_REG_WRITE; a stopped command returns WRITTEN too. -/
def specRegWrite : CmdSpec where
  opcode := 0x0011
  length p :=
    let n := getLE p 4 2
    if p.length < 8 then some 8
    else if n < 1 ∨ 16 < n then some 0xFFFFFFFF
    else fixedLen (8 + 4 * n) p
  check r p s :=
    firstRefusal [refuseIf (decide (r.origin = .sideBand) && !cfgBit s 0x1604 1) stDenied 7, regFaults p 16]
  run r p s :=
    let n := getLE p 4 2
    match writeMany (originPort r.origin) (getLE p 0 4) 0 ((upto n).map fun i => getLE p (8 + 4 * i) 4) s with
    | (k, none, s) => finishOk 0x0011 r (putLE 2 k ++ zeros 2) s
    | (k, some (st, d), s) => finish 0x0011 r st d (putLE 2 k ++ zeros 2) s

/-- CMD_REG_WRITE -/
def execCmdRegWrite (r : Req) (s : State) : Res := .next (runCmd specRegWrite r s)

/-- The pending set of an origin (R408). -/
def pendingOf (s : State) (p : Port) : BitVec 256 :=
  match p with
  | .pcie => s.evt.pend
  | .sideBand => s.evt.pendSb

/-- CMD_EVENT_READ. -/
def specEventRead : CmdSpec where
  opcode := 0x0020
  length := fixedLen 0
  check _ _ _ := none
  run r _ s :=
    let x := (pendingOf s (originPort r.origin)).toNat
    finishOk 0x0020 r (putLE 32 x ++ putLE 8 s.recorder.topSeq.toNat ++ putLE 2 (popCount x 256) ++ [byte (b2n s.evt.alert)] ++
      zeros 5) s

/-- CMD_EVENT_READ -/
def execCmdEventRead (r : Req) (s : State) : Res := .next (runCmd specEventRead r s)

/-- Clear bits of the pending set of an origin (R383, R408). -/
def clearPending (p : Port) (mask : BitVec 256) (s : State) : State :=
  match p with
  | .pcie => { s with evt := { s.evt with pend := s.evt.pend &&& ~~~mask } }
  | .sideBand => alertSettle { s with evt := { s.evt with pendSb := s.evt.pendSb &&& ~~~mask } }

/-- CMD_EVENT_CLEAR. -/
def specEventClear : CmdSpec where
  opcode := 0x0021
  length := fixedLen 32
  check _ _ _ := none
  run r p s := finishOk 0x0021 r [] (clearPending (originPort r.origin) (BitVec.ofNat 256 (getLE p 0 32)) s)

/-- CMD_EVENT_CLEAR -/
def execCmdEventClear (r : Req) (s : State) : Res := .next (runCmd specEventClear r s)

end Sys2Proof.Machine
end

