-- ==== Sys2Proof/Machine/Starts.lean ====
section
/-! DEFINITION. Starts.lean: what falls at a period start: the changes that are due, the Main boundary, and the marks of the
classes in their order (R32 to R34, R48, R59, R62, R220, R242 to R244). -/

namespace Sys2Proof.Machine

/-- Last period start of a class, device time. -/
def lastStartOf (s : State) (c : Nat) : Nat :=
  let p := Nat.max (cls s c).periodUs 1 * 1000
  devNs s / p * p

/-- Every class whose period start falls at an instant changes programs (R59). -/
def changesAt (t : Nat) : List Nat → State → State
  | [], s => s
  | c :: r, s => changesAt t r (if lastStartOf s c = t then changeProgram c s else s)

/-- The MARK records held for the classes may start their cycles after a change. -/
def startHelds : List Nat → State → State
  | [], s => s
  | c :: r, s => startHelds r (startHeld c s)

/-- SV will broadcast a Main mark at this period start. -/
def mainMarks (s : State) : Bool :=
  let k := cls s 1
  mayStartCycle k && !pausing s && !s.power.startHold && !followsMarks s && !(s.pair.marks.any fun h => h.cls = 1)

/-- What every Main period start does before the marks of its instant: the model that is due and the plan that waits come
into force, the channel state is mirrored, and the trajectory points are written (R220, R242 to R244, R444). -/
def mainBoundary (t : Nat) (s : State) : State :=
  let s := setCls 1 (fun k => { k with prepared := some t }) (modelDue t s)
  let s := sendLoops (if followsMarks s then s else installPlan s)
  if mainMarks s then trajectoryWrite t s else s

/-- What takes effect at an instant before its marks (R48, R59, R220, R242, R251). -/
def beforeMarks (t : Nat) (s : State) : State :=
  let s := changesAt t [0, 1, 2, 3] (forcesDue t s)
  let s := if lastStartOf s 3 = t then problemDue t s else s
  if lastStartOf s 1 = t && decide ((cls s 1).prepared ≠ some t) then mainBoundary t s else s

/-- Main's cycle counter at the switch instant is fixed (R66). -/
def noteSwitchCount (c t : Nat) (s : State) : State :=
  if c = 1 then
    { s with switch := s.switch.map fun w =>
        if w.counted.isNone && decide (0 ≤ wrapDiff 64 w.at' t) then { w with counted := some (cls s 1).cycleCount, cycle := (cls s 1).cycleCount }
        else w }
  else s

/-- Period starts of a class from its last one up to an instant; the first start of all counts by itself (R33, R34). -/
def startsPassed (k : ClassSt) (t : Nat) : Nat :=
  if k.zero then 1 else Nat.max 1 ((wrapDiff 64 k.lastStart t).toNat / (Nat.max k.periodUs 1 * 1000))

/-- SV counts the period starts of a class up to one that has come; it runs a cycle when its mark comes within 2 µs, the
others were skipped by a step of device time (R33, R34). -/
def countStart (c t : Nat) (onTime : Bool) (s : State) : State :=
  let k := cls s c
  if !later 64 k.lastStart t && !k.zero then s
  else
    let n := startsPassed k t
    let skipped := if k.zero then 0 else if onTime then n - 1 else n
    let s := setCls c (fun k => { k with
      lastStart := t, zero := false
      cycleCount := if k.zero then 0 else k.cycleCount + BitVec.ofNat 32 n, overruns := sat32 (k.overruns + skipped) }) s
    let s := noteSwitchCount c t s
    if onTime then periodStart c t s else s

/-- The classes up to a code whose period start falls at an instant, in the order of their marks (R32). -/
def marksAt (t : Nat) : List Nat → State → State
  | [], s => s
  | c :: r, s => marksAt t r (if lastStartOf s c = t then countStart c t true s else s)

/-- Configurations that wait for a period start (R62). -/
def adoptCfgs (now : Nat) : List Nat → State → State
  | [], s => s
  | c :: r, s => adoptCfgs now r (adoptClassCfg c now s)

/-- CLASS_PERIOD_START (R32 to R34): what is due takes effect, and the marks of the instant follow in the order Fast, Main,
Slow, Optimise up to this class's. -/
def execClassPeriodStart (c' : PClass) (s : State) : Res :=
  let c := c'.val
  .next (if s.power.ready && inService s idSV then
      let now := devNs s
      let cs := upto (c + 1)
      let s := adoptCfgs now cs s
      let t := lastStartOf s c
      if now - t ≤ 2000 then marksAt t cs (startHelds [0, 1, 2, 3] (beforeMarks t s)) else countStart c t false s
    else s)

end Sys2Proof.Machine
end

