-- ==== Sys2Proof/Machine/Test.lean ====
section
/-! DEFINITION. Test.lean: test mode, loopbacks and self-tests (R467 to R477). -/

namespace Sys2Proof.Machine

/-! ### Test mode (R475) -/

/-- TST_LOCK.TEST_LOCK (R476). -/
def testLocked (s : State) : Bool := cfgBit s 0x1508 1

/-- Test mode is refused to this role (R475). -/
def testRefused (force : Bool) (s : State) : Bool :=
  decide (s.pair.role = .active) || (decide (s.pair.role = .solo) && !force)

/-- Entry to test mode: classes halted, output paths suppressed, SYNCED cleared (R475). -/
def enterTest (s : State) : State :=
  let s := haltAll s
  let s := setPair (fun p => { p with synced := false }) { s with test := { s.test with test := true } }
  raise 0xF0 [] (dropPaths s)

/-- CMD_TEST_ENTER (R475, R477). -/
def specTestEnter : CmdSpec where
  opcode := 0x0E01
  length := fixedLen 4
  check _ p s :=
    firstRefusal [refuseIf (testLocked s) stLocked 0x1508, badParam [(0, decide (1 < getLE p 0 4))],
      refuseIf (testRefused (bit (getLE p 0 4) 0) s) stDenied 7]
  run r _ s := finishOk 0x0E01 r [] (if s.test.test then s else enterTest s)

/-- CMD_TEST_ENTER -/
def execCmdTestEnter (r : Req) (s : State) : Res := .next (runCmd specTestEnter r s)

/-- CMD_TEST_EXIT (R472, R475): the loop that runs is aborted, and a main-side cold reset follows 10 ms later. -/
def specTestExit : CmdSpec where
  opcode := 0x0E02
  length := fixedLen 0
  check _ _ s := refuseIf (!s.test.test) stNotActive 0
  run r _ s :=
    let s := raise 0xF1 [] (abortLoopback s)
    finishOk 0x0E02 r [] { s with power := { s.power with resetDue := some (s.refNs + 10000000), restartKind := 0 } }

/-- CMD_TEST_EXIT -/
def execCmdTestExit (r : Req) (s : State) : Res := .next (runCmd specTestExit r s)

/-! ### Loopbacks (R467 to R472) -/

/-- Who may run a loop of a cell (R468). -/
inductive Cell where
  /-- — : the loop does not exist -/
  | none
  /-- A: every role -/
  | all
  /-- S: only a module that is not ACTIVE or SOLO -/
  | spare
  /-- T: test mode only -/
  | test
deriving DecidableEq, Repr

/-- The cells of an interface, L1 to L5 (R468). -/
def cells : Nat → List Cell
  | 0 => [.all, .spare, .spare, .spare, .all]
  | 1 => [.all, .test, .test, .none, .all]
  | 2 => [.all, .all, .spare, .spare, .none]
  | 3 => [.all, .spare, .none, .all, .none]
  | 4 => [.all, .all, .all, .all, .none]
  | 5 => [.all, .none, .none, .none, .none]
  | 6 => [.all, .none, .none, .none, .none]
  | 7 => [.all, .none, .none, .none, .none]
  | 8 => [.all, .none, .test, .none, .none]
  | 9 => [.all, .none, .spare, .none, .none]
  | _ => []

/-- Number of interfaces of a kind (R468). -/
def ifaceCount : Nat → Nat
  | 0 => 8
  | 1 => 2
  | 2 => 4
  | 3 => 4
  | 4 => 8
  | 5 => 16
  | 9 => 16
  | _ => 1

/-- The cell of an interface and a depth. -/
def cellOf (iface depth : Nat) : Cell := lget (cells iface) (depth - 1) .none

/-- The loop a CMD_LOOPBACK asks for. -/
def askedLoop (r : Req) (p : Bytes) (s : State) : LoopRun :=
  { req := r, iface := getLE p 0 1, index := getLE p 1 1, depth := getLE p 2 1, count := getLE p 4 4, startAt := s.refNs }

/-- A loop that R469 refuses. -/
def loopRefused (l : LoopRun) (s : State) : Bool :=
  let c := cellOf l.iface l.depth
  (c = .spare && (decide (s.pair.role = .active) || decide (s.pair.role = .solo))) || (c = .test && !s.test.test) ||
    (l.iface = 0 && decide (2 ≤ l.depth) && decide (l.depth ≤ 4) && portState s (otherPort l.index) ≠ 1) ||
    (l.iface = 1 && (l.depth = 2 || l.depth = 3) && s.pair.joined)

/-- Parameters of the loopback events. -/
def loopParams (l : LoopRun) : List Int := [(l.iface : Int), (l.index : Int), (l.depth : Int)]

/-- CMD_LOOPBACK (R469, R471, R476, R477). -/
def specLoopback : CmdSpec where
  opcode := 0x0E10
  length := fixedLen 8
  check _ p s :=
    let i := getLE p 0 1
    let d := getLE p 2 1
    firstRefusal
      [badParam [(0, decide (9 < i)), (1, decide (ifaceCount i ≤ getLE p 1 1)), (2, decide (d < 1 ∨ 5 < d) || decide (cellOf i d = .none)),
         (3, notZero p 3 1), (4, decide (getLE p 4 4 < 1 ∨ 65536 < getLE p 4 4))],
       refuseIf (!cfgBit s 0x1504 0) stDenied 7, refuseIf s.test.loop.isSome stBusy 0]
  run r p s :=
    let l := askedLoop r p s
    if loopRefused l s then finish 0x0E10 r stDenied 7 [] (raise 0xF6 (loopParams l) s)
    else holdCmd 0x0E10 r { s with test := { s.test with loop := some l } }

/-- CMD_LOOPBACK -/
def execCmdLoopback (r : Req) (s : State) : Res := .next (runCmd specLoopback r s)

/-- RESULT of a loopback (R477). -/
def loopResult (x : LoopResult) : Nat := if x.noReturn then 2 else if x.errors ≠ 0 then 1 else 0

/-- A loop ends after COUNT frames, after 1 s, or at a frame that has not returned within 10 ms (R471). -/
def loopOver (s : State) (l : LoopRun) (x : LoopResult) : Bool :=
  decide (x.sent ≤ l.count) && (decide (x.sent = l.count) || x.noReturn || decide (1000000000 ≤ since s l.startAt))

/-- LOOPBACK_END (R471, R477): the interface is restored, and the command completes with its counts. -/
def execLoopbackEnd (x : LoopResult) (s : State) : Res :=
  .next (match s.test.loop with
    | none => s
    | some l =>
      let res := loopResult x
      if !loopOver s l x then s else
      let s := rcAdd 0x1514 1 { s with test := { s.test with loop := none } }
      let s := if l.iface = 2 then startNext (l.index % 4) s else s
      let s := if res = 0 then raise 0xF4 [] s else raise 0xF5 (loopParams l ++ [(x.errors : Int)]) (rcAdd 0x1518 1 s)
      finishOk 0x0E10 l.req (putLE 4 x.sent ++ putLE 4 x.received ++ putLE 4 x.errors ++ putLE 4 x.maxLatency ++ [byte res, 0, 0, 0]) s)

/-! ### Self-tests (R473, R474) -/

/-- CMD_BIST_RUN (R450, R474, R477): SET 0 runs the mismatch self-check, SET 1 every group of R473. -/
def specBistRun (obs : BistObs) : CmdSpec where
  opcode := 0x0E11
  length := fixedLen 4
  check _ p s :=
    firstRefusal
      [badParam [(0, decide (1 < getLE p 0 1)), (1, notZero p 1 3)],
       refuseIf (decide (getLE p 0 1 = 1) && !s.test.test) stDenied 7, refuseIf s.pair.bistReq.isSome stBusy 0]
  run r p s :=
    if getLE p 0 1 = 0 then
      let s := setPair (fun x => { x with selfCheck := true, bistReq := some r }) s
      holdCmd 0x0E11 r { s with test := { s.test with bist := true } }
    else
      let s := selfTest obs s
      finishOk 0x0E11 r (bistBytes s) { s with test := { s.test with dramGone := true } }

/-- CMD_BIST_RUN -/
def execCmdBistRun (r : Req) (obs : BistObs) (s : State) : Res := .next (runCmd (specBistRun obs) r s)

/-- CMD_BIST_STATUS (R477). -/
def specBistStatus : CmdSpec where
  opcode := 0x0E12
  length := fixedLen 0
  check _ _ _ := none
  run r _ s := finishOk 0x0E12 r (bistBytes s ++ putLE 4 s.test.runs ++ putLE 4 s.test.fails) s

/-- CMD_BIST_STATUS -/
def execCmdBistStatus (r : Req) (s : State) : Res := .next (runCmd specBistStatus r s)

end Sys2Proof.Machine
end

