-- ==== Sys2Proof/Machine/Dispatch.lean ====
section
/-! DEFINITION. Dispatch.lean: the meaning of every step of spec/opcode_table.json, one arm per constructor. -/

namespace Sys2Proof.Machine

/-- The effect of one command on everything but the queue of waiting commands. -/
def exec (i : Instr) (s : State) : Host.Outcome State Fault Refusal :=
  match i with
  | .cmdEcho r => Sys2Proof.Machine.execCmdEcho r s
  | .cmdDeviceInfo r => Sys2Proof.Machine.execCmdDeviceInfo r s
  | .cmdRegRead r => Sys2Proof.Machine.execCmdRegRead r s
  | .cmdRegWrite r => Sys2Proof.Machine.execCmdRegWrite r s
  | .cmdEventRead r => Sys2Proof.Machine.execCmdEventRead r s
  | .cmdEventClear r => Sys2Proof.Machine.execCmdEventClear r s
  | .cmdRestart r => Sys2Proof.Machine.execCmdRestart r s
  | .cmdMainPower r => Sys2Proof.Machine.execCmdMainPower r s
  | .cmdSettingsStore r readBackOk => Sys2Proof.Machine.execCmdSettingsStore r readBackOk s
  | .cmdSettingsRead r => Sys2Proof.Machine.execCmdSettingsRead r s
  | .cmdRestartPolicy r => Sys2Proof.Machine.execCmdRestartPolicy r s
  | .cmdClassConfig r => Sys2Proof.Machine.execCmdClassConfig r s
  | .cmdClassStatus r => Sys2Proof.Machine.execCmdClassStatus r s
  | .cmdClassRestart r => Sys2Proof.Machine.execCmdClassRestart r s
  | .cmdClassHalt r => Sys2Proof.Machine.execCmdClassHalt r s
  | .cmdProgLoad r => Sys2Proof.Machine.execCmdProgLoad r s
  | .cmdProgSwitch r => Sys2Proof.Machine.execCmdProgSwitch r s
  | .progSwitchInstant cls => Sys2Proof.Machine.execProgSwitchInstant cls s
  | .cmdEngineStatus r => Sys2Proof.Machine.execCmdEngineStatus r s
  | .cmdBudgetConfig r => Sys2Proof.Machine.execCmdBudgetConfig r s
  | .cmdBudgetStatus r => Sys2Proof.Machine.execCmdBudgetStatus r s
  | .cmdPointRead r => Sys2Proof.Machine.execCmdPointRead r s
  | .cmdForceSet r => Sys2Proof.Machine.execCmdForceSet r s
  | .cmdForceClear r => Sys2Proof.Machine.execCmdForceClear r s
  | .forceEffect => Sys2Proof.Machine.execForceEffect s
  | .cmdForceList r => Sys2Proof.Machine.execCmdForceList r s
  | .cmdHistConfig r => Sys2Proof.Machine.execCmdHistConfig r s
  | .cmdHistRead r => Sys2Proof.Machine.execCmdHistRead r s
  | .cmdHistStatus r => Sys2Proof.Machine.execCmdHistStatus r s
  | .cmdLoopConfig r => Sys2Proof.Machine.execCmdLoopConfig r s
  | .cmdLoopRead r => Sys2Proof.Machine.execCmdLoopRead r s
  | .cmdLoopEnable r => Sys2Proof.Machine.execCmdLoopEnable r s
  | .cmdLoopAck r => Sys2Proof.Machine.execCmdLoopAck r s
  | .cmdLoopStatus r => Sys2Proof.Machine.execCmdLoopStatus r s
  | .cmdModelLoad r => Sys2Proof.Machine.execCmdModelLoad r s
  | .cmdModelSwitch r => Sys2Proof.Machine.execCmdModelSwitch r s
  | .modelSwitchEffect => Sys2Proof.Machine.execModelSwitchEffect s
  | .cmdSolverConfig r => Sys2Proof.Machine.execCmdSolverConfig r s
  | .cmdSolverRun r => Sys2Proof.Machine.execCmdSolverRun r s
  | .cmdSolverStatus r => Sys2Proof.Machine.execCmdSolverStatus r s
  | .cmdSolverAbort r => Sys2Proof.Machine.execCmdSolverAbort r s
  | .cmdOptProblemLoad r => Sys2Proof.Machine.execCmdOptProblemLoad r s
  | .cmdOptProblemSwitch r => Sys2Proof.Machine.execCmdOptProblemSwitch r s
  | .problemSwitchEffect => Sys2Proof.Machine.execProblemSwitchEffect s
  | .cmdOptConfig r => Sys2Proof.Machine.execCmdOptConfig r s
  | .cmdOptStatus r => Sys2Proof.Machine.execCmdOptStatus r s
  | .cmdPlanRead r => Sys2Proof.Machine.execCmdPlanRead r s
  | .cmdEstLoad r => Sys2Proof.Machine.execCmdEstLoad r s
  | .cmdEstConfig r => Sys2Proof.Machine.execCmdEstConfig r s
  | .cmdEstRun r => Sys2Proof.Machine.execCmdEstRun r s
  | .cmdEstStatus r => Sys2Proof.Machine.execCmdEstStatus r s
  | .cmdMtrParamLoad r => Sys2Proof.Machine.execCmdMtrParamLoad r s
  | .cmdMtrParamSwitch r => Sys2Proof.Machine.execCmdMtrParamSwitch r s
  | .mtrParamEffect => Sys2Proof.Machine.execMtrParamEffect s
  | .cmdMtrParamRead r => Sys2Proof.Machine.execCmdMtrParamRead r s
  | .cmdMtrTotals r => Sys2Proof.Machine.execCmdMtrTotals r s
  | .cmdMtrIntervals r => Sys2Proof.Machine.execCmdMtrIntervals r s
  | .cmdMtrEnable r => Sys2Proof.Machine.execCmdMtrEnable r s
  | .cmdMtrAdopt r => Sys2Proof.Machine.execCmdMtrAdopt r s
  | .cmdRingConfig r => Sys2Proof.Machine.execCmdRingConfig r s
  | .cmdStationConfig r => Sys2Proof.Machine.execCmdStationConfig r s
  | .cmdDatasetConfig r => Sys2Proof.Machine.execCmdDatasetConfig r s
  | .cmdLoopRoute r => Sys2Proof.Machine.execCmdLoopRoute r s
  | .cmdTripConfig r => Sys2Proof.Machine.execCmdTripConfig r s
  | .cmdTripReset r => Sys2Proof.Machine.execCmdTripReset r s
  | .cmdRingStatus r => Sys2Proof.Machine.execCmdRingStatus r s
  | .cmdStationStatus r => Sys2Proof.Machine.execCmdStationStatus r s
  | .mainBoundaryConfigApply => Sys2Proof.Machine.execMainBoundaryConfigApply s
  | .cmdTimeConfig r => Sys2Proof.Machine.execCmdTimeConfig r s
  | .cmdTimePort r => Sys2Proof.Machine.execCmdTimePort r s
  | .cmdTimeSelect r => Sys2Proof.Machine.execCmdTimeSelect r s
  | .cmdTimeStatus r => Sys2Proof.Machine.execCmdTimeStatus r s
  | .cmdTimeSet r => Sys2Proof.Machine.execCmdTimeSet r s
  | .cmdCanConfig r => Sys2Proof.Machine.execCmdCanConfig r s
  | .cmdCanBuffer r => Sys2Proof.Machine.execCmdCanBuffer r s
  | .cmdCanCancel r => Sys2Proof.Machine.execCmdCanCancel r s
  | .cmdCanRecover r => Sys2Proof.Machine.execCmdCanRecover r s
  | .cmdCanStatus r => Sys2Proof.Machine.execCmdCanStatus r s
  | .cmdPairStatus r => Sys2Proof.Machine.execCmdPairStatus r s
  | .cmdPairConfig r => Sys2Proof.Machine.execCmdPairConfig r s
  | .cmdSwitchover r => Sys2Proof.Machine.execCmdSwitchover r s
  | .cmdDrill r => Sys2Proof.Machine.execCmdDrill r s
  | .cmdPairResync r => Sys2Proof.Machine.execCmdPairResync r s
  | .cmdFaultStatus r => Sys2Proof.Machine.execCmdFaultStatus r s
  | .cmdRecRead r => Sys2Proof.Machine.execCmdRecRead r s
  | .cmdRecCursor r => Sys2Proof.Machine.execCmdRecCursor r s
  | .cmdRecClear r => Sys2Proof.Machine.execCmdRecClear r s
  | .recClearDone => Sys2Proof.Machine.execRecClearDone s
  | .cmdRtcRead r => Sys2Proof.Machine.execCmdRtcRead r s
  | .cmdRtcSet r => Sys2Proof.Machine.execCmdRtcSet r s
  | .cmdRtcAdjust r => Sys2Proof.Machine.execCmdRtcAdjust r s
  | .cmdRtcAlarm r => Sys2Proof.Machine.execCmdRtcAlarm r s
  | .cmdPnlConfig r => Sys2Proof.Machine.execCmdPnlConfig r s
  | .cmdPnlWrite r => Sys2Proof.Machine.execCmdPnlWrite r s
  | .cmdPnlUpdate r => Sys2Proof.Machine.execCmdPnlUpdate r s
  | .cmdPnlStatus r => Sys2Proof.Machine.execCmdPnlStatus r s
  | .cmdKeyUpdate r => Sys2Proof.Machine.execCmdKeyUpdate r s
  | .cmdKeyStatus r => Sys2Proof.Machine.execCmdKeyStatus r s
  | .cmdIdentity r => Sys2Proof.Machine.execCmdIdentity r s
  | .cmdLcChange r => Sys2Proof.Machine.execCmdLcChange r s
  | .cmdFwuOpen r => Sys2Proof.Machine.execCmdFwuOpen r s
  | .cmdFwuData r => Sys2Proof.Machine.execCmdFwuData r s
  | .cmdFwuVerify r => Sys2Proof.Machine.execCmdFwuVerify r s
  | .cmdFwuActivate r => Sys2Proof.Machine.execCmdFwuActivate r s
  | .fwuLiveActivation pauseUs => Sys2Proof.Machine.execFwuLiveActivation pauseUs s
  | .cmdFwuConfirm r => Sys2Proof.Machine.execCmdFwuConfirm r s
  | .cmdFwuClose r => Sys2Proof.Machine.execCmdFwuClose r s
  | .cmdFwuStatus r => Sys2Proof.Machine.execCmdFwuStatus r s
  | .fwuBuildResume => Sys2Proof.Machine.execFwuBuildResume s
  | .fwuTrialTimeout => Sys2Proof.Machine.execFwuTrialTimeout s
  | .cmdTestEnter r => Sys2Proof.Machine.execCmdTestEnter r s
  | .cmdTestExit r => Sys2Proof.Machine.execCmdTestExit r s
  | .cmdLoopback r => Sys2Proof.Machine.execCmdLoopback r s
  | .loopbackEnd res => Sys2Proof.Machine.execLoopbackEnd res s
  | .cmdBistRun r obs => Sys2Proof.Machine.execCmdBistRun r obs s
  | .cmdBistStatus r => Sys2Proof.Machine.execCmdBistStatus r s
  | .hifDoorbell val => Sys2Proof.Machine.execHifDoorbell val s
  | .fragWrite flags offset data pecOk => Sys2Proof.Machine.execFragWrite flags offset data pecOk s
  | .fragRead offset pecOk => Sys2Proof.Machine.execFragRead offset pecOk s
  | .sbStatus => Sys2Proof.Machine.execSbStatus s
  | .sbmReassemblyTimeout => Sys2Proof.Machine.execSbmReassemblyTimeout s
  | .alertResponseRead => Sys2Proof.Machine.execAlertResponseRead s
  | .hostLinkDown kind => Sys2Proof.Machine.execHostLinkDown kind s
  | .hostLinkUp => Sys2Proof.Machine.execHostLinkUp s
  | .bar2Access write offset be val => Sys2Proof.Machine.execBar2Access write offset be val s
  | .registerWrite port offset dws => Sys2Proof.Machine.execRegisterWrite port offset dws s
  | .postedWriteApplied base => Sys2Proof.Machine.execPostedWriteApplied base s
  | .readClearRegister port offset be => Sys2Proof.Machine.execReadClearRegister port offset be s
  | .latchingLoRead port offset be => Sys2Proof.Machine.execLatchingLoRead port offset be s
  | .ptpTimeLoRead port => Sys2Proof.Machine.execPtpTimeLoRead port s
  | .rtcT0Read port => Sys2Proof.Machine.execRtcT0Read port s
  | .rtcT1Read port => Sys2Proof.Machine.execRtcT1Read port s
  | .rtcFreezeTimeout port => Sys2Proof.Machine.execRtcFreezeTimeout port s
  | .rtcApplySet port val => Sys2Proof.Machine.execRtcApplySet port val s
  | .rtcFlagsClear port val => Sys2Proof.Machine.execRtcFlagsClear port val s
  | .recSeek port val => Sys2Proof.Machine.execRecSeek port val s
  | .recData0Read port => Sys2Proof.Machine.execRecData0Read port s
  | .recData15Read port => Sys2Proof.Machine.execRecData15Read port s
  | .sigEnClear port val => Sys2Proof.Machine.execSigEnClear port val s
  | .sigEnSet port val => Sys2Proof.Machine.execSigEnSet port val s
  | .evtMsgEnSet port val => Sys2Proof.Machine.execEvtMsgEnSet port val s
  | .lockBitSet port offset val => Sys2Proof.Machine.execLockBitSet port offset val s
  | .evtPendClear port n val => Sys2Proof.Machine.execEvtPendClear port n val s
  | .hifCmplClear port hi val => Sys2Proof.Machine.execHifCmplClear port hi val s
  | .evtRouteWrite port n val => Sys2Proof.Machine.execEvtRouteWrite port n val s
  | .loopCtrlRun port val => Sys2Proof.Machine.execLoopCtrlRun port val s
  | .solCtrlEnable port val => Sys2Proof.Machine.execSolCtrlEnable port val s
  | .ringCtrlEnable port val => Sys2Proof.Machine.execRingCtrlEnable port val s
  | .ringEtypeWrite port val => Sys2Proof.Machine.execRingEtypeWrite port val s
  | .ptpCtrlWrite port val => Sys2Proof.Machine.execPtpCtrlWrite port val s
  | .canModeWrite port n val => Sys2Proof.Machine.execCanModeWrite port n val s
  | .canBitTimingWrite port n data val => Sys2Proof.Machine.execCanBitTimingWrite port n data val s
  | .canTxreq port n hi val => Sys2Proof.Machine.execCanTxreq port n hi val s
  | .canCancel port n hi val => Sys2Proof.Machine.execCanCancel port n hi val s
  | .canNdClear port n hi val => Sys2Proof.Machine.execCanNdClear port n hi val s
  | .pairCtrlWrite port val => Sys2Proof.Machine.execPairCtrlWrite port val s
  | .pnlCtrlEnable port val => Sys2Proof.Machine.execPnlCtrlEnable port val s
  | .bgtConfigWrite port offset val => Sys2Proof.Machine.execBgtConfigWrite port offset val s
  | .evtHoldoffExpiry vector => Sys2Proof.Machine.execEvtHoldoffExpiry vector s
  | .recWrite => Sys2Proof.Machine.execRecWrite s
  | .signatureSweep upsets => Sys2Proof.Machine.execSignatureSweep upsets s
  | .mortarPacket pkt => Sys2Proof.Machine.execMortarPacket pkt s
  | .handshakeWatchdog b => Sys2Proof.Machine.execHandshakeWatchdog b s
  | .clockPresenceExpiry b => Sys2Proof.Machine.execClockPresenceExpiry b s
  | .transitionTimerExpiry b => Sys2Proof.Machine.execTransitionTimerExpiry b s
  | .brickBank b => Sys2Proof.Machine.execBrickBank b s
  | .brickWake b => Sys2Proof.Machine.execBrickWake b s
  | .transitionComplete t => Sys2Proof.Machine.execTransitionComplete t s
  | .classPeriodStart cls => Sys2Proof.Machine.execClassPeriodStart cls s
  | .markAck cls b => Sys2Proof.Machine.execMarkAck cls b s
  | .snapshotTimeout cls => Sys2Proof.Machine.execSnapshotTimeout cls s
  | .feederPush => Sys2Proof.Machine.execFeederPush s
  | .engineWake e => Sys2Proof.Machine.execEngineWake e s
  | .stealRequest thief victim cls => Sys2Proof.Machine.execStealRequest thief victim cls s
  | .stealGrant thief => Sys2Proof.Machine.execStealGrant thief s
  | .unitComplete e obs => Sys2Proof.Machine.execUnitComplete e obs s
  | .resultHash e => Sys2Proof.Machine.execResultHash e s
  | .stagingCopyDone cls unit => Sys2Proof.Machine.execStagingCopyDone cls unit s
  | .engineHung e => Sys2Proof.Machine.execEngineHung e s
  | .engineCheck e => Sys2Proof.Machine.execEngineCheck e s
  | .cycleDeadline cls => Sys2Proof.Machine.execCycleDeadline cls s
  | .cycleAbandon cls => Sys2Proof.Machine.execCycleAbandon cls s
  | .classUnitsStopped cls => Sys2Proof.Machine.execClassUnitsStopped cls s
  | .governorTick baseCharge => Sys2Proof.Machine.execGovernorTick baseCharge s
  | .tempSample t4 => Sys2Proof.Machine.execTempSample t4 s
  | .slowForced => Sys2Proof.Machine.execSlowForced s
  | .solverJobReturn host res => Sys2Proof.Machine.execSolverJobReturn host res s
  | .factorLimit => Sys2Proof.Machine.execFactorLimit s
  | .optJobIssue => Sys2Proof.Machine.execOptJobIssue s
  | .optJobReturn res => Sys2Proof.Machine.execOptJobReturn res s
  | .estRunStart => Sys2Proof.Machine.execEstRunStart s
  | .estRunReturn res => Sys2Proof.Machine.execEstRunReturn res s
  | .retainWriteDone => Sys2Proof.Machine.execRetainWriteDone s
  | .loopMsTick evalUs left => Sys2Proof.Machine.execLoopMsTick evalUs left s
  | .loopFeExpiry ch => Sys2Proof.Machine.execLoopFeExpiry ch s
  | .mspFrame n slots => Sys2Proof.Machine.execMspFrame n slots s
  | .meterPortLoss n => Sys2Proof.Machine.execMeterPortLoss n s
  | .zcTimeout n => Sys2Proof.Machine.execZcTimeout n s
  | .pulseEdge n levels => Sys2Proof.Machine.execPulseEdge n levels s
  | .tbusRead reads => Sys2Proof.Machine.execTbusRead reads s
  | .heatStep => Sys2Proof.Machine.execHeatStep s
  | .totalsSave => Sys2Proof.Machine.execTotalsSave s
  | .intervalClose => Sys2Proof.Machine.execIntervalClose s
  | .inputDataset ring knama => Sys2Proof.Machine.execInputDataset ring knama s
  | .tripReq ring knama => Sys2Proof.Machine.execTripReq ring knama s
  | .hsrFrameForward port frame => Sys2Proof.Machine.execHsrFrameForward port frame s
  | .linkCheckSend port => Sys2Proof.Machine.execLinkCheckSend port s
  | .linkCheckReceive port => Sys2Proof.Machine.execLinkCheckReceive port s
  | .linkEcho port => Sys2Proof.Machine.execLinkEcho port s
  | .portLinkLoss port => Sys2Proof.Machine.execPortLinkLoss port s
  | .supervisionFrameSend port => Sys2Proof.Machine.execSupervisionFrameSend port s
  | .nodeForgotten ring src => Sys2Proof.Machine.execNodeForgotten ring src s
  | .duplicateEntryExpiry ring src => Sys2Proof.Machine.execDuplicateEntryExpiry ring src s
  | .stationAbsent station => Sys2Proof.Machine.execStationAbsent station s
  | .ptpMessage port msg => Sys2Proof.Machine.execPtpMessage port msg s
  | .syncSend d port => Sys2Proof.Machine.execSyncSend d port s
  | .announceSend d port => Sys2Proof.Machine.execAnnounceSend d port s
  | .ppsEdge => Sys2Proof.Machine.execPpsEdge s
  | .todMessage msg => Sys2Proof.Machine.execTodMessage msg s
  | .domainHoldover d => Sys2Proof.Machine.execDomainHoldover d s
  | .deviceTimeUpdate => Sys2Proof.Machine.execDeviceTimeUpdate s
  | .domainRevert => Sys2Proof.Machine.execDomainRevert s
  | .canFrameReceive n frame => Sys2Proof.Machine.execCanFrameReceive n frame s
  | .canTxComplete n => Sys2Proof.Machine.execCanTxComplete n s
  | .canTxError n kind => Sys2Proof.Machine.execCanTxError n kind s
  | .canBusOn n => Sys2Proof.Machine.execCanBusOn n s
  | .canIntegrate n => Sys2Proof.Machine.execCanIntegrate n s
  | .canRxTimeout n buf => Sys2Proof.Machine.execCanRxTimeout n buf s
  | .canCheck n ok missed => Sys2Proof.Machine.execCanCheck n ok missed s
  | .heartbeatSend => Sys2Proof.Machine.execHeartbeatSend s
  | .heartbeatReceive hb => Sys2Proof.Machine.execHeartbeatReceive hb s
  | .heartbeatLost => Sys2Proof.Machine.execHeartbeatLost s
  | .activeNCheck => Sys2Proof.Machine.execActiveNCheck s
  | .takeUpControl => Sys2Proof.Machine.execTakeUpControl s
  | .pairLinkDown => Sys2Proof.Machine.execPairLinkDown s
  | .pairLaneLoss lane => Sys2Proof.Machine.execPairLaneLoss lane s
  | .mirrorRecord seq body => Sys2Proof.Machine.execMirrorRecord seq body s
  | .snapshotFillRequest station seq => Sys2Proof.Machine.execSnapshotFillRequest station seq s
  | .snapshotFillTimeout cls => Sys2Proof.Machine.execSnapshotFillTimeout cls s
  | .selfCheckDone res => Sys2Proof.Machine.execSelfCheckDone res s
  | .slot1ClaimTimeout => Sys2Proof.Machine.execSlot1ClaimTimeout s
  | .partnerPresentChange present => Sys2Proof.Machine.execPartnerPresentChange present s
  | .join copy => Sys2Proof.Machine.execJoin copy s
  | .roleExchange gapUs => Sys2Proof.Machine.execRoleExchange gapUs s
  | .drillStart => Sys2Proof.Machine.execDrillStart s
  | .drillCheckDone res checkMs => Sys2Proof.Machine.execDrillCheckDone res checkMs s
  | .drillAgeHour => Sys2Proof.Machine.execDrillAgeHour s
  | .dramError kind => Sys2Proof.Machine.execDramError kind s
  | .mramError kind place => Sys2Proof.Machine.execMramError kind place s
  | .lockstepDisagreement => Sys2Proof.Machine.execLockstepDisagreement s
  | .vstbyApplied slotId sba => Sys2Proof.Machine.execVstbyApplied slotId sba s
  | .backupPowerUp => Sys2Proof.Machine.execBackupPowerUp s
  | .railSequence => Sys2Proof.Machine.execRailSequence s
  | .railFault rail => Sys2Proof.Machine.execRailFault rail s
  | .railRetry => Sys2Proof.Machine.execRailRetry s
  | .vinOvervoltage => Sys2Proof.Machine.execVinOvervoltage s
  | .bootComplete obs => Sys2Proof.Machine.execBootComplete obs s
  | .mainWatchdog => Sys2Proof.Machine.execMainWatchdog s
  | .rstNAssert lowNs => Sys2Proof.Machine.execRstNAssert lowNs s
  | .rstNRelease => Sys2Proof.Machine.execRstNRelease s
  | .pfwFall => Sys2Proof.Machine.execPfwFall s
  | .pfwRise => Sys2Proof.Machine.execPfwRise s
  | .vbatSwitch => Sys2Proof.Machine.execVbatSwitch s
  | .vbatMeasure millivolt => Sys2Proof.Machine.execVbatMeasure millivolt s
  | .oscStopDetect => Sys2Proof.Machine.execOscStopDetect s
  | .rtcSecond => Sys2Proof.Machine.execRtcSecond s
  | .rtcAlarm n => Sys2Proof.Machine.execRtcAlarm n s
  | .pnlFrame => Sys2Proof.Machine.execPnlFrame s
  | .pnlBiasCheck outOfLimits => Sys2Proof.Machine.execPnlBiasCheck outOfLimits s
  | .pnlBiasRetry ok => Sys2Proof.Machine.execPnlBiasRetry ok s
  | .pnlBiasOff => Sys2Proof.Machine.execPnlBiasOff s
  | .pnlCrcCheck upsets => Sys2Proof.Machine.execPnlCrcCheck upsets s
  | .pairLinkUp lane => Sys2Proof.Machine.execPairLinkUp lane s
  | .activeNChange low => Sys2Proof.Machine.execActiveNChange low s
  | .delayReqSend d port => Sys2Proof.Machine.execDelayReqSend d port s
  | .canRxBusError n => Sys2Proof.Machine.execCanRxBusError n s
  | .oscRestart => Sys2Proof.Machine.execOscRestart s
  | .trialSecondsWrite => Sys2Proof.Machine.execTrialSecondsWrite s
  | .mainSideColdReset => Sys2Proof.Machine.execMainSideColdReset s

end Sys2Proof.Machine
end

