-- ==== Sys2Proof/Machine/Tick.lean ====
section
/-! DEFINITION. Tick.lean: what passes while no command waits: one nanosecond of the 25 MHz reference (R322, R481). -/

namespace Sys2Proof.Machine

/-- A clock of R322 advances by 1 + y × 2^-32 ns, in units of 2^-32 ns, modulo 2^96. -/
def clockAdvance (clock : Nat) (y : Int) : Nat := ((clock : Int) + 2 ^ 32 + y).toNat % 2 ^ 96

/-- A CMD_PAIR_RESYNC completes with ST_TIMEOUT after 30 s (R465). -/
def resyncTimeout (s : State) : State :=
  match s.pair.resyncReq with
  | some (r, t) =>
    if 30000000000 ≤ since s t then finish 0x0905 r stTimeout 0 [] { s with pair := { s.pair with resyncReq := none } } else s
  | none => s

/-- A CMD_MAIN_POWER with ACTION 1 completes with ST_TIMEOUT after 10 s (R431). -/
def powerTimeout (s : State) : State :=
  match s.power.onReq with
  | some (r, t) =>
    if 10000000000 ≤ since s t then finish 0x0031 r stTimeout 0 [] { s with power := { s.power with onReq := none } } else s
  | none => s

/-- One nanosecond of reference time passes: device time and the domain clocks advance, and the crystal drives the
calendar (R322, R479; log entry 15); a key update or transition and a firmware build go on, the commands whose limit has passed time out, the ring
ports start what waits for them (R298), and the historian's sampling and an optimise job that is not admitted come to
their end (R53, R238). -/
def passNano (s : State) : State :=
  let s := { s with refNs := s.refNs + 1
                    time := { s.time with dev := clockAdvance s.time.dev s.time.yDev
                                          d0 := clockAdvance s.time.d0 s.time.dom0.y
                                          d1 := clockAdvance s.time.d1 s.time.dom1.y } }
  optExpiry (portsTick (samplingTick (powerTimeout (resyncTimeout (buildTick (keyTick (calNano s)))))))

end Sys2Proof.Machine
end

