-- ==== Sys2Proof/Safety.lean ====
section
/-! DEFINITION. Safety.lean: what counts as a safe step, and the words in which the statements speak of a step. -/

namespace Sys2Proof.Safety

open Sys2Proof.Machine

/-- The step goes on: it answers a next state, and neither a fault nor a refusal. -/
def StepsOn (s : Machine.State) : Prop := ∃ t, Machine.step s = .next t

/-- A command goes on in a state. -/
def GoesOn (c : Instr) (s : Machine.State) : Prop := ∃ t, Machine.exec c s = .next t

/-- The register block changed at most in what reporting an event writes: RC counters, the pending-bit array, HIF_ERR_INFO and
the two times of R365. -/
def RegsReported (a b : Regs) : Prop :=
  b = { a with rc := b.rc, pba := b.pba, errInfo := b.errInfo, badAt := b.badAt, dropAt := b.dropAt }

/-- Nothing changed but what reporting events changes (R377, R379, R382, R493). -/
structure Reported (s t : State) : Prop where
  /-- of the state, only the events, the recorder, the register values and what has been sent -/
  rest : t = { s with evt := t.evt, recorder := t.recorder, regs := t.regs, emitted := t.emitted }
  /-- of the register values, only those above -/
  regs : RegsReported s.regs t.regs

/-- Nothing changed but what answering a request changes (R391, R402): the slots, their memory and completion bits, the side-band
transport, what has been sent, and the pending bit of a masked vector. -/
structure Answered (s t : State) : Prop where
  /-- of the state, only the transports, the register values and what has been sent -/
  rest : t = { s with host := t.host, sb := t.sb, emitted := t.emitted, regs := t.regs }
  /-- of the register values, only the pending-bit array -/
  regs : t.regs = { s.regs with pba := t.regs.pba }

/-- Nothing changed but what answering a request of PN or KB changes: besides the answer, the brick has been asked or not (R100,
R102). -/
structure AnsweredByBrick (op : Nat) (s t : Machine.State) : Prop where
  /-- of the state, only the bricks, the transports, the register values and what has been sent -/
  rest : t = { s with bricks := t.bricks, host := t.host, sb := t.sb, emitted := t.emitted, regs := t.regs }
  /-- of the register values, only the pending-bit array -/
  regs : t.regs = { s.regs with pba := t.regs.pba }
  /-- of the bricks, only that the request has reached its own -/
  asked : t.bricks = s.bricks ∨ t.bricks = (askGroup op s).bricks

/-- The second life-cycle state is the first, or transitions of R521 lead to it from there. -/
def lcReach (a b : LcState) : Prop := a = b ∨ (b ≠ .blank ∧ a ≠ .retired ∧ (b = .factory → a = .blank))

/-- A transition in progress, or left in the journal by a reset, leads along R521 from the state in force (R522, R524). -/
def transitionOk (op : Option KeyOp) (lc : LcState) : Prop :=
  ∀ o t root, op = some o → o.work = .transition t root → lcReach lc t

/-- The state in which an accepted request is judged: the request has been taken from its slot (R387). -/
def entered (c : CmdSpec) (r : Req) (s : Machine.State) : Machine.State := takeAccepted c.opcode r s

/-- The request passes every check of R387, R388, R398 and R407: it may start, its SIGNED flag fits, no gate holds it, its
length and signature pass and no field refuses it. -/
def accepted (c : CmdSpec) (r : Req) (s : Machine.State) : Bool :=
  mayStart c.opcode r s && (signFlagRefusal c.opcode r.signed).isNone && !gated c.opcode (bodyOf r) (entered c r s) &&
  (lengthRefusal c r).isNone && (signatureRefusal c.opcode r (entered c r s)).isNone &&
  (c.check r (bodyOf r) (afterSignature r (entered c r s))).isNone

/-- The state an accepted command acts on: the request is taken, its signature's nonce is used, PN or KB has been asked where
the command is theirs (R102), and a mirrored command has gone to the partner with the instant of its effect (R399). -/
def begun (c : CmdSpec) (r : Req) (s : Machine.State) : Machine.State :=
  let t := afterSignature r (entered c r s)
  passToPartner c.opcode r (bodyOf r) (c.instant (bodyOf r) t) (askGroup c.opcode t)

/-- A write of a whole doubleword that is neither dropped nor ignored (R366, R367). -/
def writePasses (p : Port) (off : Nat) (s : Machine.State) : Prop :=
  portAlive s p = true ∧ judgeWrite s off 15 (blockBusy s (((blockAt off).map (·.base)).getD 0)) = .pass

end Sys2Proof.Safety
end

