-- ==== Sys2Proof/Certificates/Slice0/Obligations.lean ====
section
/-! DEFINITION. Certificates/Slice0/Obligations.lean: the statements for the provers. Each says what exec or step answers; a
command is spoken of where every check of R387 has passed (Safety.accepted), and its next state is given whole. -/

open Sys2Proof Sys2Proof.Machine Sys2Proof.Safety

/-- Accepted with every check of R387 passed, CMD_ECHO answers its payload, CMD_DEVICE_INFO the identification of the module, CMD_REG_READ the
registers it names read in ascending order by the reader of its port, CMD_REG_WRITE how many doublewords were written (with ST_OK when none stopped
it, else with the status and offset of the one that did), CMD_EVENT_READ the pending set of the origin with the newest SEQ, and CMD_EVENT_CLEAR clears
the bits it names in the pending set of the origin. Each next state is given whole. (R387, R391, R408) -/
def Obligations.DeviceCommandsComplete : Prop :=
  (∀ r s, accepted specEcho r s = true → exec (.cmdEcho r) s = .next (finishOk 0x0000 r (bodyOf r) (begun specEcho r s))) ∧
  (∀ r s, accepted specDeviceInfo r s = true → let t := begun specDeviceInfo r s
    exec (.cmdDeviceInfo r) s = .next (finishOk 0x0001 r
      (putLE 4 0x01017420 ++ putLE 4 (if t.power.mainUp then (hifVersion t).toNat else 0) ++ putLE 8 t.keys.serial.toNat ++ idHash t ++
        putLE 4 t.keys.privCnt.toNat ++ [byte (lcCode t.keys.lc), byte (if t.power.mainUp then roleCode t.pair.role else 0),
        byte (b2n t.power.mainUp + 2 * b2n t.pair.slotId + 4 * b2n t.pair.present), 0]) t)) ∧
  (∀ r s, accepted specRegRead r s = true → let p := bodyOf r
    let x := readRegs (originPort r.origin) (getLE p 0 4) (getLE p 4 2) (begun specRegRead r s)
    exec (.cmdRegRead r) s = .next (finishOk 0x0010 r x.1 x.2)) ∧
  (∀ r s, accepted specRegWrite r s = true → let p := bodyOf r
    exec (.cmdRegWrite r) s = .next (match writeMany (originPort r.origin) (getLE p 0 4) 0
        ((upto (getLE p 4 2)).map fun i => getLE p (8 + 4 * i) 4) (begun specRegWrite r s) with
      | (k, none, u) => finishOk 0x0011 r (putLE 2 k ++ zeros 2) u
      | (k, some (st, off), u) => finish 0x0011 r st off (putLE 2 k ++ zeros 2) u)) ∧
  (∀ r s, accepted specEventRead r s = true → let t := begun specEventRead r s
    let x := (pendingOf t (originPort r.origin)).toNat
    exec (.cmdEventRead r) s = .next (finishOk 0x0020 r (putLE 32 x ++ putLE 8 t.recorder.topSeq.toNat ++ putLE 2 (popCount x 256) ++
      [byte (b2n t.evt.alert)] ++ zeros 5) t)) ∧
  (∀ r s, accepted specEventClear r s = true → r.origin ≠ .sideBand → let t := begun specEventClear r s
    exec (.cmdEventClear r) s = .next (finishOk 0x0021 r []
      { t with evt := { t.evt with pend := t.evt.pend &&& ~~~(BitVec.ofNat 256 (getLE (bodyOf r) 0 32)) } })) ∧
  (∀ r s, accepted specEventClear r s = true → r.origin = .sideBand → let t := begun specEventClear r s
    exec (.cmdEventClear r) s = .next (finishOk 0x0021 r [] (alertSettle
      { t with evt := { t.evt with pendSb := t.evt.pendSb &&& ~~~(BitVec.ofNat 256 (getLE (bodyOf r) 0 32)) } })))

/-- CMD_RESTART fences a forced ACTIVE module first and puts the restart 10 ms ahead with its KIND; CMD_MAIN_POWER with ACTION 0 starts the orderly
shutdown (or, main side down, only holds it off), with ACTION 1 releases the hold and waits for READY (or answers at once while the main side is up),
with ACTION 2 answers and switches the rails off; CMD_SETTINGS_STORE writes the older copy with the next generation and raises SETTINGS_STORED;
CMD_SETTINGS_READ answers a record from an offset on; CMD_RESTART_POLICY sets the policy. (R424, R425, R428, R430, R431, R432, R433) -/
def Obligations.RestartPowerSettingsCommandsComplete : Prop :=
  (∀ r s, accepted specRestart r s = true → let t := fenceForced (begun specRestart r s)
    exec (.cmdRestart r) s = .next (finishOk 0x0030 r []
      { t with power := { t.power with resetDue := some (t.refNs + 10000000), restartKind := getLE (bodyOf r) 0 1 } })) ∧
  (∀ r s, accepted specMainPower r s = true → getLE (bodyOf r) 0 1 = 0 → let t := begun specMainPower r s
    let u := haltAll (fenceForced t)
    exec (.cmdMainPower r) s = .next (if t.power.mainUp then
        shutdownStopped (holdCmd 0x0031 r { u with power := { u.power with shutdown := some r } })
      else finishOk 0x0031 r [] { t with power := { t.power with heldOff := true } })) ∧
  (∀ r s, accepted specMainPower r s = true → getLE (bodyOf r) 0 1 = 1 → let t := begun specMainPower r s
    exec (.cmdMainPower r) s = .next (if t.power.mainUp then finishOk 0x0031 r [] t else holdCmd 0x0031 r
      { t with power := { t.power with heldOff := false, railFails := 0, wdAt := [], onReq := some (r, t.refNs) } })) ∧
  (∀ r s, accepted specMainPower r s = true → getLE (bodyOf r) 0 1 = 2 →
    let t := railsOff (finishOk 0x0031 r [] (fenceForced (begun specMainPower r s)))
    exec (.cmdMainPower r) s = .next { t with power := { t.power with heldOff := true } }) ∧
  (∀ r s, accepted (specSettingsStore true) r s = true → let t := begun (specSettingsStore true) r s
    t.power.pfw = true → let n := olderCopy t
    let x := recordNow t (nextCopyGen t)
    exec (.cmdSettingsStore r true) s = .next (finishOk 0x0101 r (putLE 8 x.gen.toNat ++ [byte n, 0, 0, 0] ++ putLE 4 (settingsBytes x).length)
      (raise 0xCE [(x.gen.toNat : Int), (n : Int)] { t with stores := { t.stores with copies := fset t.stores.copies n x } }))) ∧
  (∀ r s x, accepted specSettingsRead r s = true → let t := begun specSettingsRead r s
    let p := bodyOf r
    readSource t (getLE p 0 1) = some x →
    exec (.cmdSettingsRead r) s = .next (finishOk 0x0102 r
      (putLE 4 (getLE p 4 4) ++ putLE 4 (settingsBytes x).length ++ slice (settingsBytes x) (getLE p 4 4) 4064) t)) ∧
  (∀ r s, accepted specRestartPolicy r s = true → let t := begun specRestartPolicy r s
    let p := bodyOf r
    exec (.cmdRestartPolicy r) s = .next (finishOk 0x0103 r [] { t with power := { t.power with
      policy := { powerup := getLE p 0 1, reset := getLE p 1 1, maxOutage := getLE p 4 4 } } }))

/-- CMD_CLASS_CONFIG keeps the new period and deadline for the class; CMD_CLASS_STATUS answers the class; CMD_CLASS_RESTART puts a class in HOLD or
SAFE into INIT, no longer halted, and waits for a cycle other than the one that runs; CMD_CLASS_HALT answers at once for a class in HOLD or SAFE and
otherwise waits and halts it, at once where its last mark is not before the mark at which the active halted it, else at that mark; CMD_ENGINE_STATUS
answers the engines; a class whose units have all stopped has its halt answered (CLASS_UNITS_STOPPED). (R62, R63, R64, R96, R97, R98) -/
def Obligations.ClassCommandsComplete : Prop :=
  (∀ r s, accepted specClassConfig r s = true → let p := bodyOf r
    exec (.cmdClassConfig r) s = .next (finishOk 0x0201 r []
      (setCls (getLE p 0 1) (fun k => { k with nextCfg := some (getLE p 4 4, getLE p 8 4) }) (begun specClassConfig r s)))) ∧
  (∀ r s, accepted specClassStatus r s = true → let t := begun specClassStatus r s
    exec (.cmdClassStatus r) s = .next (finishOk 0x0202 r (classStatus t (getLE (bodyOf r) 0 1)) t)) ∧
  (∀ r s, accepted specClassRestart r s = true →
    exec (.cmdClassRestart r) s = .next (holdCmd 0x0203 r (setCls (getLE (bodyOf r) 0 1)
      (fun k => { k with
      st := .init, halted := false, abandonRow := 0, restartReq := some r, restartSkip := k.cycle.map (·.stamp) })
      (begun specClassRestart r s)))) ∧
  (∀ r s, accepted specClassHalt r s = true → let c := getLE (bodyOf r) 0 1
    let t := begun specClassHalt r s
    let m := effectTime t (cls t c).started
    let u := holdCmd 0x0204 r (setCls c (fun k => { k with haltReq := some r }) t)
    exec (.cmdClassHalt r) s = .next (if (cls t c).st = .hold ∨ (cls t c).st = .safe then finishOk 0x0204 r [] t
      else if 0 ≤ wrapDiff 64 m (cls u c).started then haltClass c u else setCls c (fun k => { k with haltAt := some m }) u)) ∧
  (∀ r s, accepted specEngineStatus r s = true → let t := begun specEngineStatus r s
    let on := enginesInService t
    exec (.cmdEngineStatus r) s = .next (finishOk 0x0220 r ([byte on.length,
      byte ((upto 16).filter fun b => on.any fun e => e / 4 = b).length, 0, 0] ++ putLE 4 t.work.mismatches ++ putLE 4 t.work.votesFailed ++
      putLE 4 t.work.reissues ++ (upto 64).flatMap (engineEntry t)) t)) ∧
  (∀ (c : PClass) s, (cls s c.val).stopping = true → unitsRunning s c.val = false →
    exec (.classUnitsStopped c) s = .next (shutdownStopped (finishOpt 0x0204 (cls s c.val).haltReq stOk 0 []
      (setCls c.val (fun k => { k with stopping := false, haltReq := none }) s))))

/-- CMD_PROG_LOAD keeps a chunk until the last one; a complete image that passes the checks of R131 waits for its switch, one that fails is answered
with the check and raises PROG_REJECTED. CMD_PROG_SWITCH waits for the first Main period start at least 10 ms ahead. PROG_SWITCH_INSTANT begins the
switch, changes the class, and once every periodic class has changed, Background follows (the model's choice, log entry 49) and the switch ends; a
mark that waited for the change starts its cycle. (R59, R65, R66, R131) -/
def Obligations.ProgramCommandsComplete : Prop :=
  (∀ r s, accepted specProgLoad r s = true → let p := bodyOf r
    let b := begun specProgLoad r s
    let t := if getLE p 0 4 = 0 then { b with progNext := none } else b
    let c := chunkNext b.progLoad p
    let u := { t with progLoad := none }
    let v := afterChecks ((imageRefusal u c.received).map (·.1)) c.received (getLE c.received 36 4) u
    exec (.cmdProgLoad r) s = .next (if chunkDone c then
        (match imageRefusal u c.received with
        | none => finishOk 0x0210 r [] { v with progNext := some (parseImage c.received) }
        | some (n, st, d) => finish 0x0210 r st d [] (raiseC 0x2B [n] n v))
      else finishOk 0x0210 r [] { t with progLoad := some c })) ∧
  (∀ r s, accepted specProgSwitch r s = true → let t := begun specProgSwitch r s
    let p := Nat.max (cls t 1).periodUs 1 * 1000
    exec (.cmdProgSwitch r) s = .next (holdCmd 0x0211 r { t with switch := some { req := r, allowInit := bit (getLE (bodyOf r) 4 4) 0, at' := effectTime t ((devNs t + 10000000 + p - 1) / p * p) } })) ∧
  (∀ (c : PClass) s w im, s.switch = some w → switchImage s w = some im → mayChange s w c.val = true →
    let t := if w.begun then s else beginSwitch im w s
    exec (.progSwitchInstant c) s = .next (startHeld c.val (match t.switch with
      | none => t
      | some x => let u := changeClass c.val im x t
        match u.switch with
        | some y => if 4 ≤ y.changed.length then closeSwitch im y u else u
        | none => u)))

/-- CMD_BUDGET_CONFIG writes the seven BGT registers, signs the block again and settles CFG_ERR; CMD_BUDGET_STATUS answers the budget;
BGT_CONFIG_WRITE applies an accepted register write and settles CFG_ERR; GOVERNOR_TICK adopts the registers, takes the pool arithmetic of R107 and
orders the operating points; SLOW_FORCED forces a waiting Slow course once, as R111 says. (R104, R107, R108, R109, R110, R111, R115, R116, R117) -/
def Obligations.BudgetCommandsComplete : Prop :=
  (∀ r s, accepted specBudgetConfig r s = true → let p := bodyOf r
    let w (o : Nat) : W32 := BitVec.ofNat 32 (getLE p o 4)
    exec (.cmdBudgetConfig r) s = .next (finishOk 0x0230 r [] (settleCfgErr (resign 0x900 (cfgPoke 0x904 (w 0) (cfgPoke 0x908 (w 4)
      (cfgPoke 0x90C (w 8) (cfgPoke 0x910 (w 12) (cfgPoke 0x914 (w 16) (cfgPoke 0x918 (w 20)
      (cfgPoke 0x91C (BitVec.ofNat 32 (getLE p 24 2)) (begun specBudgetConfig r s)))))))))))) ∧
  (∀ r s, accepted specBudgetStatus r s = true → let t := begun specBudgetStatus r s
    let b := t.budget
    exec (.cmdBudgetStatus r) s = .next (finishOk 0x0231 r ([byte b.state, byte b.admitBits.toNat] ++ putLE 2 b.scale ++ putSLE 4 b.capEff ++
      putSLE 4 b.pool ++ putSLE 2 b.t4 ++ putSLE 2 b.t4Max ++ putLE 4 b.breaches ++ putLE 4 b.slowForced ++ putLE 8 b.spent ++
      (upto 35).map (fun i => byte (brickCode (brick t i).st)) ++ [0]) t)) ∧
  (∀ p (off : W16) v s, 0x904 ≤ off.toNat → off.toNat ≤ 0x91C → writePasses p off.toNat s →
    exec (.bgtConfigWrite p off v) s = .next (settleCfgErr (cfgSet off.toNat v s))) ∧
  (∀ (n : Nat) s, s.power.booted = true → inService s idSV = true → s.budget.tickAt ≠ devNs s / 1000000 →
    let a := adoptBudget s
    let x := tickSum a.budget n a.work.settlement
    let b := tickBudget a.budget x
    exec (.governorTick n) s = .next (orderPoints (upto 24) (settleAdmit (tickEvents s.budget.state (unpaid a.budget x)
      { a with budget := { b with tickAt := devNs s / 1000000, spent := (b.spent + n) % 2 ^ 64 }
               work := { a.work with settlement := 0 }
               solver := { a.solver with
                 scales := noteScale a.refNs b.scale (if jobRuns a then a.solver.scales else a.solver.scales.take 1) } })))) ∧
  (∀ s y n, (cls s 2).cycle = some y → y.phase = .course n → y.forced = false → admitted s 2 = false →
    reached s (y.releasedAt + (cls s 2).periodUs * 250) = true →
    (waitingEntries s).any (fun x => decide (x.cls = 2) && decide (x.course = n) && decide (x.role = 0)) = true →
    let t := setCls 2 (fun k => { k with cycle := some { y with forced := true } }) s
    exec .slowForced s = .next (raise 0x3C [(n : Int)] { t with budget := { t.budget with slowForced := sat32 (t.budget.slowForced + 1) } }))

/-- CMD_POINT_READ answers the records it names with forces applied or live as asked, a record of TYPE 15 for a point outside the database;
CMD_FORCE_SET and CMD_FORCE_CLEAR wait for the first Fast period start at least 1 ms after acceptance; FORCE_EFFECT applies the changes whose instant
has come, oldest first, and answers them; CMD_FORCE_LIST answers the table. (R48, R67, R68, R69) -/
def Obligations.PointAndForceCommandsComplete : Prop :=
  (∀ r s, accepted specPointRead r s = true → let p := bodyOf r
    let t := begun specPointRead r s
    exec (.cmdPointRead r) s = .next (finishOk 0x0301 r (putLE 4 (getLE p 0 4) ++ putLE 2 (getLE p 4 2) ++ zeros 2 ++
      (upto (getLE p 4 2)).flatMap fun i => if defined t (getLE p 0 4 + i) then
        recBytes (if getLE p 6 1 = 0 then readRec t (getLE p 0 4 + i) else liveRec t (getLE p 0 4 + i)) else noneRec) t)) ∧
  (∀ r s, accepted specForceSet r s = true → let t := begun specForceSet r s
    exec (.cmdForceSet r) s = .next (holdCmd 0x0310 r { t with forceQ := t.forceQ ++ [{ req := r, opcode := 0x0310, point := some (getLE (bodyOf r) 0 4), value := some (getSLE (bodyOf r) 8 8), due := effectTime t (effectInstant (devNs t) (cls t 0).periodUs) }] })) ∧
  (∀ r s, accepted specForceClear r s = true → let t := begun specForceClear r s
    exec (.cmdForceClear r) s = .next (holdCmd 0x0311 r { t with forceQ := t.forceQ ++ [{ req := r, opcode := 0x0311, point := if getLE (bodyOf r) 0 4 = noPoint then none else some (getLE (bodyOf r) 0 4), value := none, due := effectTime t (effectInstant (devNs t) (cls t 0).periodUs) }] })) ∧
  (∀ s, exec .forceEffect s = .next (applyForces (s.forceQ.filter fun c => decide (0 ≤ wrapDiff 64 c.due (devNs s)))
    { s with forceQ := s.forceQ.filter fun c => !decide (0 ≤ wrapDiff 64 c.due (devNs s)) })) ∧
  (∀ r s, accepted specForceList r s = true → let t := begun specForceList r s
    let l := (t.forces.drop (getLE (bodyOf r) 0 4)).take 254
    exec (.cmdForceList r) s = .next (finishOk 0x0312 r (putLE 4 t.forces.length ++ putLE 2 l.length ++ zeros 2 ++
      l.flatMap fun e => putLE 4 e.1 ++ putLE 4 e.2.stime.toNat ++ putSLE 8 e.2.value) t))

/-- CMD_HIST_CONFIG replaces the subscriptions it lists, one with POINT *no point* being removed; CMD_HIST_READ answers records from a SEQ on, from
the oldest when the SEQ is older; CMD_HIST_STATUS answers the counts. (R54, R56, R57, R58) -/
def Obligations.HistorianCommandsComplete : Prop :=
  (∀ r s, accepted specHistConfig r s = true → exec (.cmdHistConfig r) s = .next (finishOk 0x0320 r []
    (putSubs (bodyOf r) (upto (getLE (bodyOf r) 4 2)) (getLE (bodyOf r) 0 4) (begun specHistConfig r s)))) ∧
  (∀ r s, accepted specHistRead r s = true → let p := bodyOf r
    let t := begun specHistRead r s
    let next := t.hist.nextSeq.toNat
    let none' := decide (getLE p 0 4 = next) || later 32 next (getLE p 0 4)
    let older := !none' && later 32 (getLE p 0 4) (histOldest t)
    let l := if none' then [] else histFrom t (getLE p 4 2) (if older then histOldest t else getLE p 0 4)
    exec (.cmdHistRead r) s = .next (finishOk 0x0321 r (putLE 4 next ++ putLE 4 (histOldest t) ++ putLE 2 l.length ++ putLE 2 (b2n older) ++
      zeros 4 ++ l.flatMap histBytes) t)) ∧
  (∀ r s, accepted specHistStatus r s = true → let t := begun specHistStatus r s
    exec (.cmdHistStatus r) s = .next (finishOk 0x0322 r (putLE 4 t.hist.subs.length ++ putLE 4 t.hist.nextSeq.toNat ++
      putLE 4 (histOldest t) ++ putLE 4 t.hist.lost ++ putLE 8 t.hist.lastStamp ++ putLE 4 t.hist.lastUs ++ zeros 4) t))

/-- CMD_LOOP_CONFIG keeps the descriptor for the channel's next sample; CMD_LOOP_READ answers it; CMD_LOOP_ENABLE disables or enables one channel or
all; CMD_LOOP_ACK clears FALLBACK and TRIP with fe_ms; CMD_LOOP_STATUS answers the channels; LOOP_MS_TICK evaluates first what the last millisecond
left unevaluated (raising LOOP_LATE and counting), then the channels due in ascending number, but for those it leaves to the next millisecond;
LOOP_FE_EXPIRY takes the fault action. (R150, R151, R162, R164, R169, R170, R171, R172, R173) -/
def Obligations.LoopCommandsComplete : Prop :=
  (∀ r s, accepted specLoopConfig r s = true → exec (.cmdLoopConfig r) s = .next (finishOk 0x0401 r []
    (let t := begun specLoopConfig r s
     setChan (getLE (bodyOf r) 0 2) (fun c => { c with
       next := some (parseLoop ((bodyOf r).drop 4)), nextFrom := effectTime t (loopInstant t) }) t))) ∧
  (∀ r s, accepted specLoopRead r s = true → let t := begun specLoopRead r s
    exec (.cmdLoopRead r) s = .next (finishOk 0x0402 r (((chan t (getLE (bodyOf r) 0 2)).desc.map (·.raw)).getD (zeros 384)) t)) ∧
  (∀ r s, accepted specLoopEnable r s = true → let t := begun specLoopEnable r s
    let off := decide (getLE (bodyOf r) 2 1 = 0)
    exec (.cmdLoopEnable r) s = .next (finishOk 0x0403 r [] (if getLE (bodyOf r) 0 2 = 0xFFFF then
        { t with loops := (upto 2048).map fun i => (i, { chan t i with disabled := off }) }
      else setChan (getLE (bodyOf r) 0 2) (fun c => { c with disabled := off }) t))) ∧
  (∀ r s, accepted specLoopAck r s = true → let t := begun specLoopAck r s
    let n := getLE (bodyOf r) 0 2
    exec (.cmdLoopAck r) s = .next (finishOk 0x0404 r [] (if (chan t n).fault = .fallback ∨ (chan t n).fault = .trip then
      setChan n (fun c => { c with fault := .none, feMs := 0 }) t else t))) ∧
  (∀ r s, accepted specLoopStatus r s = true → let t := begun specLoopStatus r s
    exec (.cmdLoopStatus r) s = .next (finishOk 0x0405 r ((upto (getLE (bodyOf r) 2 2)).flatMap fun i =>
      chanEntry (getLE (bodyOf r) 0 2 + i) (chan t (getLE (bodyOf r) 0 2 + i))) t)) ∧
  (∀ us left s, s.power.ready = true → inService s idLB = true → s.loopMs ≠ devNs s / 1000000 → s.loopLeft = [] →
    let ms := devNs s / 1000000
    let t := { s with loops := s.loops.map (adoptOff (ms * 1000000) s) }
    let due := (t.loops.map (·.1)).filter (channelDue t ms)
    let now := due.take (due.length - left)
    let u := evalChannels ms now t
    exec (.loopMsTick us left) s = .next { u with
      loopMs := ms, loopLeft := due.drop now.length, loopEvals := (u.loopEvals + now.length) % 2 ^ 64
      loopMaxLoad := Nat.max u.loopMaxLoad us }) ∧
  (∀ us left s, s.power.ready = true → inService s idLB = true → s.loopMs ≠ devNs s / 1000000 → s.loopLeft ≠ [] →
    let ms := devNs s / 1000000
    let l := evalChannels s.loopMs s.loopLeft (raise 0x40 [(s.loopMs : Int)] (rcAdd 0xA10 1 s))
    let t := { l with loops := l.loops.map (adoptOff (ms * 1000000) l) }
    let due := (t.loops.map (·.1)).filter (channelDue t ms)
    let now := due.take (due.length - left)
    let u := evalChannels ms now t
    exec (.loopMsTick us left) s = .next { u with
      loopMs := ms, loopLeft := due.drop now.length, loopEvals := (u.loopEvals + s.loopLeft.length + now.length) % 2 ^ 64
      loopMaxLoad := Nat.max u.loopMaxLoad us }) ∧
  (∀ (ch : Fin 2048) s d, (chan s ch.val).desc = some d → d.mode ≠ 0 → d.feTimeMs ≠ 0 → d.feTimeMs ≤ (chan s ch.val).feMs →
    (chan s ch.val).fault = .none → (chan s ch.val).held = false → let x := takeAction ch.val d (chan s ch.val) s
    exec (.loopFeExpiry ch) s = .next (loopOutput d (loopQuality (readRec x.2 d.pvPoint).quality x.1.latchedQ x.1) (devNs x.2) x.1
      (setChan ch.val (fun _ => x.1) x.2)))

/-- CMD_MODEL_LOAD keeps chunks, checks the complete model and keeps it for its switch or raises MODEL_REJECTED; CMD_MODEL_SWITCH waits for a Main
period start; MODEL_SWITCH_EFFECT puts the model into force, drops the kept factors and raises MODEL_SWITCHED; CMD_SOLVER_CONFIG keeps the descriptor
of the Main job; CMD_SOLVER_RUN starts the host job; status and abort answer; SOLVER_JOB_RETURN and FACTOR_LIMIT act on the job they name;
SOL_CTRL_ENABLE applies an accepted write. (R187, R202, R209, R213, R217, R219, R220, R221, R222, R223, R224) -/
def Obligations.SolverCommandsComplete : Prop :=
  (∀ r s, accepted specModelLoad r s = true → let p := bodyOf r
    let b := begun specModelLoad r s
    let t := if getLE p 0 4 = 0 then { b with solver := { b.solver with loaded := none } } else b
    let c := chunkNext b.solver.load p
    let u := { t with solver := { t.solver with load := none } }
    let v := afterChecks ((modelFault u c.received).map (·.1)) c.received (getLE c.received 44 4) u
    exec (.cmdModelLoad r) s = .next (if chunkDone c then
        (match modelFault u c.received with
        | none => finishOk 0x0501 r [] { v with solver := { v.solver with loaded := some (parseModel c.received) } }
        | some (n, st) => finish 0x0501 r st (loadDetail n st) [] (raiseC 0x56 [(n : Int)] n v))
      else finishOk 0x0501 r [] { t with solver := { t.solver with load := some c } })) ∧
  (∀ r s, accepted specModelSwitch r s = true → let t := begun specModelSwitch r s
    exec (.cmdModelSwitch r) s = .next (holdCmd 0x0502 r { t with solver := { t.solver with switch := some (r, effectTime t (startInstant t 1)) } })) ∧
  (∀ s r n m, s.solver.switch = some (r, n) → s.solver.loaded = some m → reached s n = true →
    exec .modelSwitchEffect s = .next (finishOk 0x0502 r [] (noteMismatch (raise 0x57 [(m.crc.toNat : Int)] { s with solver := { s.solver with
      model := some m, loaded := none, switch := none, switched := true, keptHyd := none, keptTherm := none } })))) ∧
  (∀ r s, accepted specSolverConfig r s = true → let t := begun specSolverConfig r s
    exec (.cmdSolverConfig r) s = .next (finishOk 0x0503 r [] { t with solver := { t.solver with mainDesc := some (parseDesc (bodyOf r)) } })) ∧
  (∀ r s m, accepted specSolverRun r s = true → let t := begun specSolverRun r s
    let j := startJob t m (parseDesc (bodyOf r)) (devNs t) (devNs t + getLE (bodyOf r) 24 4 * 1000) (some r) (readRec t)
    t.solver.model = some m → exec (.cmdSolverRun r) s = .next (holdCmd 0x0510 r
      (wakeHomes j.tileRows (raiseIslands j { t with solver := { t.solver with hostJob := some j } })))) ∧
  (∀ r s, accepted specSolverStatus r s = true → let t := begun specSolverStatus r s
    exec (.cmdSolverStatus r) s = .next (finishOk 0x0511 r (jobBytes t.solver.lastMain ++ putLE 4 (laneBits t) ++ putLE 4 (keptCode t)) t)) ∧
  (∀ r s, accepted specSolverAbort r s = true →
    exec (.cmdSolverAbort r) s = .next (finishOk 0x0512 r [] (abortHost (begun specSolverAbort r s)))) ∧
  (∀ v s j, s.solver.hostJob = some j → exec (.solverJobReturn true v) s = .next (returnHost j v s)) ∧
  (∀ v s j, s.solver.mainJob = some j → mayReturn s 1 = true → let e := endJob s (stopsFor s [1, 2]) j v
    exec (.solverJobReturn false v) s =
      .next (jobReturned 1 (returnMain j e (sendStops [1, 2] e.acc.stops (dropStops [1, 2] s))))) ∧
  (∀ s j i, s.solver.mainJob = some j → noteLimit s j = some i →
    exec .factorLimit s = .next { s with solver := { s.solver with mainJob := some i } }) ∧
  (∀ s j i, s.solver.mainJob = none → s.solver.hostJob = some j → noteLimit s j = some i →
    exec .factorLimit s = .next { s with solver := { s.solver with hostJob := some i } }) ∧
  (∀ p v s, writePasses p 0xB04 s → exec (.solCtrlEnable p v) s = .next (if v.getLsbD 0 then cfgSet 0xB04 v s
    else stopEst (stopOpt (abortHost (stopMain (cfgSet 0xB04 v s))))))

/-- Problems and measurement tables are loaded in chunks and checked; a problem waits for its switch, whose effect installs it; the descriptors are
kept; the optimise job is issued to an admitted class with its problem and descriptor and returns its plan; CMD_EST_RUN, EST_RUN_START and
EST_RUN_RETURN run the estimator; the status and plan reads answer. (R229, R238, R240, R244, R249, R250, R251, R252, R253, R254, R255, R256) -/
def Obligations.OptimiserAndEstimatorCommandsComplete : Prop :=
  (∀ r s, accepted specOptProblemLoad r s = true → let p := bodyOf r
    let b := begun specOptProblemLoad r s
    let t := if getLE p 0 4 = 0 then { b with opt := { b.opt with loaded := none } } else b
    let c := chunkNext b.opt.load p
    let u := { t with opt := { t.opt with load := none } }
    let v := afterChecks ((probFault u c.received).map (·.1)) c.received (getLE c.received 52 4) u
    exec (.cmdOptProblemLoad r) s = .next (if chunkDone c then
        (match probFault u c.received with
        | none => finishOk 0x0520 r [] { v with opt := { v.opt with loaded := some (parseProblem c.received) } }
        | some (n, st) => finish 0x0520 r st (loadDetail n st) [] (if st = stDenied then v else raiseC 0x58 [(n : Int)] n v))
      else finishOk 0x0520 r [] { t with opt := { t.opt with load := some c } })) ∧
  (∀ r s, accepted specOptProblemSwitch r s = true → let t := begun specOptProblemSwitch r s
    exec (.cmdOptProblemSwitch r) s = .next (holdCmd 0x0521 r { t with opt := { t.opt with switch := some (r, effectTime t (startInstant t 3)) } })) ∧
  (∀ s r n p, s.opt.switch = some (r, n) → s.opt.loaded = some p → reached s n = true →
    exec .problemSwitchEffect s = .next (finishOk 0x0521 r [] (noteMismatch (adoptProblem p s)))) ∧
  (∀ r s, accepted specOptConfig r s = true → let t := begun specOptConfig r s
    exec (.cmdOptConfig r) s = .next (finishOk 0x0522 r [] { t with opt := { t.opt with desc := some (parseDesc (bodyOf r)) } })) ∧
  (∀ r s, accepted specOptStatus r s = true → let t := begun specOptStatus r s
    exec (.cmdOptStatus r) s = .next (finishOk 0x0523 r (jobBytes t.opt.last ++ putLE 8 ((t.opt.plan.map (·.t0)).getD 0) ++
      putLE 8 ((t.opt.problem.map fun p => p.problemId.toNat).getD 0) ++ putLE 4 t.opt.rejected) t)) ∧
  (∀ r s q, accepted specPlanRead r s = true → let t := begun specPlanRead r s
    let p := bodyOf r
    t.opt.plan = some q → exec (.cmdPlanRead r) s = .next (finishOk 0x0524 r (putLE 8 q.t0 ++ putLE 4 q.stepS ++ zeros 4 ++
      (upto (getLE p 3 1)).flatMap fun k => putSLE 8 (lget (lget q.values (getLE p 0 2) []) (getLE p 2 1 + k) 0)) t)) ∧
  (∀ r s, accepted specEstLoad r s = true → let p := bodyOf r
    let t := begun specEstLoad r s
    let c := chunkNext t.est.load p
    let u := { t with est := { t.est with load := none } }
    let v := afterChecks ((tableFault u c.received).map (·.1)) c.received (getLE c.received 40 4) u
    exec (.cmdEstLoad r) s = .next (if chunkDone c then
        (match tableFault u c.received with
        | none => finishOk 0x0530 r [] { v with est := { v.est with table := some (parseTable c.received) } }
        | some (n, st) => finish 0x0530 r st (loadDetail n st) [] (raiseC 0x5D [(n : Int)] n v))
      else finishOk 0x0530 r [] { t with est := { t.est with load := some c } })) ∧
  (∀ r s, accepted specEstConfig r s = true → let t := begun specEstConfig r s
    exec (.cmdEstConfig r) s = .next (finishOk 0x0531 r [] { t with est := { t.est with desc := some (parseDesc (bodyOf r)) } })) ∧
  (∀ r s, accepted specEstRun r s = true → exec (.cmdEstRun r) s = .next (holdCmd 0x0532 r
    (estTrigger (if getLE (bodyOf r) 0 4 = 1 then .demand else .test) (some r) (begun specEstRun r s)))) ∧
  (∀ r s, accepted specEstStatus r s = true → let t := begun specEstStatus r s
    exec (.cmdEstStatus r) s = .next (finishOk 0x0533 r (jobBytes t.est.last ++ putLE 4 t.est.rejected ++
      putLE 4 (triggerCode t.est.lastTrig)) t)) ∧
  (∀ s y p d, (cls s 3).cycle = some y → s.opt.problem = some p → s.opt.desc = some d → s.opt.wanted = true → s.opt.job = none →
    admitted s 3 = true → optMismatch s p = false → let j := startOpt s p d y.stamp (snapRead s y)
    exec .optJobIssue s = .next (wakeHomes j.tileRows { s with opt := { s.opt with wanted := false, job := some j } })) ∧
  (∀ v s j, s.opt.job = some j → mayReturn s 3 = true → let w := runOpt (arrayEnv s j.issued (stopsFor s [3])) j v
    exec (.optJobReturn v) s =
      .next (jobReturned 3 (returnOpt j w.1 w.2 (sendStops [3] w.1.acc.stops (dropStops [3] s))))) ∧
  (∀ s n r, s.est.run = none → estReady s = true → s.est.pending = some (n, r) →
    exec .estRunStart s = .next (startEst n r { s with est := { s.est with pending := none } })) ∧
  (∀ s r, s.est.run = none → estReady s = true → s.est.pending = none → s.est.testReq = some r →
    exec .estRunStart s = .next (startEst .test (some r) { s with est := { s.est with testReq := none } })) ∧
  (∀ v s x, s.est.run = some x → x.trig = .test → exec (.estRunReturn v) s = .next (returnEst x (runEst s none x v) s)) ∧
  (∀ v s x, s.est.run = some x → x.trig ≠ .test → mayReturn s 4 = true → let w := runEst s (stopsFor s [4]) x v
    exec (.estRunReturn v) s = .next (releaseStart x.trig (returnEst x w (sendStops [4] w.acc.stops (dropStops [4] s)))))

/-- CMD_MTR_PARAM_LOAD keeps chunks, checks the complete block and its signature and keeps it for a switch; CMD_MTR_PARAM_SWITCH records the change,
writes both settings copies and waits for the next whole second of device time, at which MTR_PARAM_EFFECT closes the open intervals short and puts the
parameters into force; the reads answer parameters, totals and interval records; CMD_MTR_ENABLE records and applies the enables; CMD_MTR_ADOPT waits
for the standby's next save and is answered at once by another role. (R279, R281, R284, R286, R290, R293) -/
def Obligations.MeteringCommandsComplete : Prop :=
  (∀ r s, accepted specMtrParamLoad r s = true → let t := begun specMtrParamLoad r s
    let c := chunkNext t.meter.load (bodyOf r)
    let u := { t with meter := { t.meter with load := none } }
    exec (.cmdMtrParamLoad r) s = .next (if chunkDone c then
        (if meterValid c.received then
          (if sectionVerify u destUv c.received 20544 then
            let v := sectionUsed c.received 20544 u
            finishOk 0x0601 r [] { v with meter := { v.meter with loaded := some (parseMeter c.received, c.received) } }
          else finish 0x0601 r stDenied 7 [] u)
        else finish 0x0601 r stBadCrc 0 [] u)
      else finishOk 0x0601 r [] { t with meter := { t.meter with load := some c } })) ∧
  (∀ r s b, accepted specMtrParamSwitch r s = true → let t := begun specMtrParamSwitch r s
    switchBlock t (bodyOf r) = some b →
    let u := writeNewest 0x6A (raise 0x6A [(((t.meter.params.map MeterParams.crc).getD 0).toNat : Int), (b.1.crc.toNat : Int),
      (((t.meter.params.map MeterParams.paramId).getD 0).toNat : Int), (b.1.paramId.toNat : Int)] t)
    exec (.cmdMtrParamSwitch r) s = .next (holdCmd 0x0602 r { u with
      stores := { u.stores with meterRec := fset (fset u.stores.meterRec 0 b.2) 1 b.2 }
      meter := { u.meter with switch := some { req := r, params := b.1, raw := b.2, due := (devNs u / 1000000000 + 1) * 1000000000 } } })) ∧
  (∀ s w, s.meter.switch = some w → reached s w.due = true → let t := closeAll ivShort w.due s
    exec .mtrParamEffect s = .next (finishOk 0x0602 w.req [] (openAll 0 w.due
      { t with meter := { t.meter with params := some w.params, switch := none } }))) ∧
  (∀ r s, accepted specMtrParamRead r s = true → let t := begun specMtrParamRead r s
    exec (.cmdMtrParamRead r) s = .next (finishOk 0x0603 r ((t.meter.params.map (·.header)).getD (zeros 64) ++ putLE 4 t.meter.version.toNat) t)) ∧
  (∀ r s, accepted specMtrTotals r s = true → let t := begun specMtrTotals r s
    exec (.cmdMtrTotals r) s = .next (finishOk 0x0610 r (match lastBlock t.meter.blocks with
      | some b => blockHead b ++ totalBytes b.sets b.heats
      | none => zeros 32 ++ totalBytes (setTotals t) (heatTotals t)) t)) ∧
  (∀ r s, accepted specMtrIntervals r s = true → let t := begun specMtrIntervals r s
    let p := bodyOf r
    let x := intervalsFrom (intervalOf t (getLE p 0 1)) (BitVec.ofNat 32 (getLE p 4 4)) (getLE p 1 1)
    exec (.cmdMtrIntervals r) s = .next (finishOk 0x0611 r ([byte x.1.length, byte (b2n x.2)] ++ zeros 6 ++ x.1.flatMap intervalBytes) t)) ∧
  (∀ r s, accepted specMtrEnable r s = true → let mask := getLE (bodyOf r) 0 4
    let en := getLE (bodyOf r) 4 4
    exec (.cmdMtrEnable r) s = .next (finishOk 0x0620 r []
      (forEach (fun h => enableHeat h (bit en (16 + h))) ((upto 16).filter fun h => bit mask (16 + h))
        (forEach (fun n => enableSet n (bit en n)) ((upto 4).filter fun n => bit mask n)
          (writeNewest 0x6C (raise 0x6C [(mask : Int), (en : Int)] (begun specMtrEnable r s))))))) ∧
  (∀ r s, accepted specMtrAdopt r s = true → let t := begun specMtrAdopt r s
    exec (.cmdMtrAdopt r) s = .next (if t.pair.role = .standby then
      holdCmd 0x0630 r { t with meter := { t.meter with adopt := some (some r) } } else finishOk 0x0630 r [] t))

/-- With MB in service: a good sample frame is accepted and a bad one discarded; a port with no frame for 1 ms is lost, and its enabled set loses its
signal; a set without a zero crossing for its ZC_TIMEOUT loses its signal; a pulse edge is noted with its stamp and levels; HEAT_STEP and TBUS_READ
act once per 100 ms boundary; TOTALS_SAVE once per whole second; INTERVAL_CLOSE turns the intervals of the sets and then of the heat channels. (R259,
R260, R261, R262, R263, R272, R273, R277, R278, R280) -/
def Obligations.MeteringEventsComplete : Prop :=
  (∀ (n : Fin 4) l s, meterOn s = true → portFed s n.val = false → frameGood l = true →
    exec (.mspFrame n l) s = .next (acceptFrame n.val l s)) ∧
  (∀ (n : Fin 4) l s, meterOn s = true → portFed s n.val = false → frameGood l = false → exec (.mspFrame n l) s =
    .next (missFrames n.val 1 (rcAdd 0xC10 1 (setMset n.val (fun m => { m with lastSeq := m.lastSeq.map (· + 1), okRun := 0 }) s)))) ∧
  (∀ (n : Fin 4) s, meterOn s = true → (mset s n.val).portLost = false →
    1000000 ≤ since s (mset s n.val).lastFrame → let t := setMset n.val (fun m => { m with portLost := true, okRun := 0 }) s
    exec (.meterPortLoss n) s =
      .next (stopIfDisabling n.val (raise 0x60 [(n.val : Int)]
        (if (mset s n.val).los || !(mset s n.val).enabled then t else loseSignal n.val t)))) ∧
  (∀ (n : Fin 4) s c, setCfg s n.val = some c → meterOn s = true → (mset s n.val).enabled = true → (mset s n.val).los = false →
    c.zcTimeout * 1000000 ≤ since s (mset s n.val).lastZc →
    exec (.zcTimeout n) s = .next (stopIfDisabling n.val (raise 0x62 [(n.val : Int)] (loseSignal n.val s)))) ∧
  (∀ (n : Fin 16) l s, meterOn s = true → exec (.pulseEdge n l) s = .next { s with meter := { s.meter with
    edges := s.meter.edges ++ [{ input := n.val, stamp := devNs s, levels := l }] } }) ∧
  (∀ s, meterOn s = true → later 64 s.meter.stepAt (boundary100 s) = true → let t := boundary100 s
    exec .heatStep s = .next (forEach (heatPoints t) (upto 16) (forEach (setPoints t) (upto 4) (heatStepAt (t - 100000000) t 100 s)))) ∧
  (∀ l s, meterOn s = true → let t := heatStepDue s
    later 64 t.meter.readAt (boundary100 t) = true → let u := forEach (readTemps l) (upto 16) t
    exec (.tbusRead l) s = .next { u with meter := { u.meter with readAt := boundary100 t } }) ∧
  (∀ s, meterOn s = true → later 64 s.meter.savedAt (devNs s / 1000000000 * 1000000000) = true → exec .totalsSave s =
    .next (saveTotals 0 { s with meter := { s.meter with savedAt := devNs s / 1000000000 * 1000000000 } })) ∧
  (∀ s p, s.meter.params = some p → meterOn s = true → let b := ivBoundary s p.intervalS
    exec .intervalClose s = .next (turnHeats b (upto 16) (turnSets b (upto 4) s)))

/-- The ring, station, dataset, loop route and trip group configurations answer at once and wait for the Main boundary; CMD_TRIP_RESET waits for it;
MAIN_BOUNDARY_CONFIG_APPLY puts the pair configuration and then what waits into force in acceptance order; the status commands answer; an accepted
write of RING_CTRL or RING_ETYPE takes effect. (R306, R309, R316, R317, R320, R321, R355, R357) -/
def Obligations.RingCommandsComplete : Prop :=
  (∀ r s, accepted specRingConfig r s = true →
    exec (.cmdRingConfig r) s = .next (finishOk 0x0701 r [] (stage 0x0701 (bodyOf r) (begun specRingConfig r s)))) ∧
  (∀ r s, accepted specStationConfig r s = true →
    exec (.cmdStationConfig r) s = .next (finishOk 0x0702 r [] (stage 0x0702 (bodyOf r) (begun specStationConfig r s)))) ∧
  (∀ r s, accepted specDatasetConfig r s = true →
    exec (.cmdDatasetConfig r) s = .next (finishOk 0x0703 r [] (stage 0x0703 (bodyOf r) (begun specDatasetConfig r s)))) ∧
  (∀ r s, accepted specLoopRoute r s = true →
    exec (.cmdLoopRoute r) s = .next (finishOk 0x0704 r [] (stage 0x0704 (bodyOf r) (begun specLoopRoute r s)))) ∧
  (∀ r s, accepted specTripConfig r s = true →
    exec (.cmdTripConfig r) s = .next (finishOk 0x0705 r [] (stage 0x0705 (bodyOf r) (begun specTripConfig r s)))) ∧
  (∀ r s, accepted specTripReset r s = true →
    exec (.cmdTripReset r) s = .next (holdCmd 0x0706 r (stage 0x0706 (bodyOf r) (begun specTripReset r s)))) ∧
  (∀ r s, accepted specRingStatus r s = true → let t := begun specRingStatus r s
    exec (.cmdRingStatus r) s = .next (finishOk 0x0710 r (putLE 4 (ringStatus t).toNat ++ putLE 4 (ringPortst t).toNat ++
      (upto 4).flatMap fun n => putLE 2 (enabledOn t n).length ++ putLE 2 ((enabledOn t n).filter fun e => e.2.absent).length ++
        putLE 4 (ringOf t n).dups ++ putLE 8 (ringOf t n).forwarded) t)) ∧
  (∀ r s, accepted specStationStatus r s = true → let t := begun specStationStatus r s
    let p := bodyOf r
    exec (.cmdStationStatus r) s = .next (finishOk 0x0711 r ((upto (getLE p 2 2)).flatMap fun i => let x := station t (getLE p 0 2 + i)
      putLE 2 (getLE p 0 2 + i) ++ [byte (stationState t x), byte (((x.cfg).map (·.ring)).getD 0)] ++ putLE 4 (stationAge t x) ++
        putLE 4 x.rejects ++ putLE 4 x.discards) t)) ∧
  (∀ s, s.pair.nextCfg = none → exec .mainBoundaryConfigApply s = .next (clearConflict 3 (clearConflict 2 (clearConflict 1 (clearConflict 0
    (applyBoundaries s.boundary { s with boundary := [] })))))) ∧
  (∀ s c, s.pair.nextCfg = some c → exec .mainBoundaryConfigApply s = .next (clearConflict 3 (clearConflict 2 (clearConflict 1 (clearConflict 0
    (applyBoundaries s.boundary { s with pair := { s.pair with cfg := c, nextCfg := none }, boundary := [] })))))) ∧
  (∀ p v s, writePasses p 0xD04 s → exec (.ringCtrlEnable p v) s = .next (cfgSet 0xD04 v s)) ∧
  (∀ p v s, writePasses p 0xD08 s → exec (.ringEtypeWrite p v) s = .next (cfgSet 0xD08 v s))

/-- With NB in service and the ring enabled: a dataset that passes the frame, tag and sequence checks is accepted; a TRIP_REQ that passes them fires
its group where permitted and is answered; an enabled station silent for its supervision time becomes ABSENT and its points HELD; a frame that is no
duplicate is noted, counted and forwarded with its correction (a frame is sent at once by an idle port and queued by precedence at a busy one); link
checks, echoes, supervision frames, losses and forgotten entries act as R296 to R300 say. (R296, R297, R299, R300, R304, R309, R314, R315, R326) -/
def Obligations.RingEventsComplete : Prop :=
  (∀ (n : Fin 4) b s, nbOn s = true → ringOn s n.val = true → let k := parseKnama b
    frameOk s n.val k = true → k.kind = 1 → tagOk s n.val k = true → seqOk s k false = true →
    exec (.inputDataset n b) s = .next (acceptDataset k s)) ∧
  (∀ (n : Fin 4) b s, nbOn s = true → ringOn s n.val = true → let k := parseKnama b
    let g := getLE k.body 0 1
    frameOk s n.val k = true → k.kind = 4 → g ≠ 0 → g ≤ 16 → tagOk s n.val k = true → seqOk s k true = true →
    let t := noteAccepted k s
    let res := tripAnswer s k g
    let u := if res = 0 then fireGroup k.station g (getLE k.body 1 1) t else t
    let v := if driving u then sendKnama 5 k.station 0 (devNs u) 0 0 (tripBody g (getLE k.body 1 1) res) u else u
    exec (.tripReq n b) s = .next (if res = 2 ∨ res = 3 then raise 0x78 [(k.station : Int), (g : Int), (res : Int)] v else v)) ∧
  (∀ (n : BitVec 12) s, nbOn s = true → supervisionOver s (station s n.toNat) = true → (station s n.toNat).absent = false →
    exec (.stationAbsent n) s = .next (raise 0x73 [(n.toNat : Int)] (holdPoints (inputPoints s n.toNat)
      (setStation n.toNat (fun y => { y with absent := true }) s)))) ∧
  (∀ (q : Fin 8) f s, nbOn s = true → ringOn s (q.val / 2) = true → loopHolds s 0 q.val = false → f.src ≠ portMac s q.val →
    f.src ≠ portMac s (otherPort q.val) → isDuplicate s (q.val / 2) f = false →
    let t := setRing (q.val / 2) (fun r => { r with forwarded := (r.forwarded + 1) % 2 ^ 64 })
      (if f.fcsOk then noteSource (q.val / 2) f s else s)
    exec (.hsrFrameForward q f) s = .next (if loopHolds t 0 (otherPort q.val) then t else
      portSend (otherPort q.val) 0 (.hsrForward (otherPort q.val) f.src f.seq (forwardCorrection t q.val f) f.fcsOk) t)) ∧
  (∀ (q : Fin 8) f s, nbOn s = true → ringOn s (q.val / 2) = true → loopHolds s 0 q.val = false → f.src ≠ portMac s q.val →
    f.src ≠ portMac s (otherPort q.val) → isDuplicate s (q.val / 2) f = true →
    exec (.hsrFrameForward q f) s = .next (setRing (q.val / 2) (fun r => { r with dups := sat32 (r.dups + 1) }) s)) ∧
  (∀ (n : Fin 4) a s x, ringNode s n.val a = some x → exec (.duplicateEntryExpiry n a) s =
    .next (setNode n.val a { x with seqs := x.seqs.filter fun e => decide (since s e.2 < 400000000) } s)) ∧
  (∀ (n : Fin 4) a s x, ringNode s n.val a = some x → 60000000000 ≤ since s x.seenAt → exec (.nodeForgotten n a) s =
    .next (setRing n.val (fun r => { r with nodes := ferase r.nodes a.toNat, tableFull := false }) s)) ∧
  (∀ (q : Fin 8) s, nbOn s = true → ringOn s (q.val / 2) = true → loopHolds s 0 q.val = false →
    2000000000 ≤ since s (ringPort s q.val).superAt →
    exec (.supervisionFrameSend q) s = .next (portSend q.val 5 (.supervision q.val (ringOf s (q.val / 2)).hsrSeq) (takeHsrSeq (q.val / 2)
      (setPort q.val (fun p => { p with superAt := s.refNs }) s)))) ∧
  (∀ (q : Fin 8) s t, nbOn s = true → ringOn s (q.val / 2) = true → loopHolds s 0 q.val = false →
    (ringPort s q.val).checkAt = some t → 250000 ≤ since s t → let u := judgeCheck q.val s
    exec (.linkCheckSend q) s = .next (portSend q.val 2 (.linkCheck q.val)
      (setPort q.val (fun y => { y with checkAt := some u.refNs, echoed := false }) u))) ∧
  (∀ (q : Fin 8) s, nbOn s = true → ringOn s (q.val / 2) = true → loopHolds s 0 q.val = false →
    exec (.linkCheckReceive q) s = .next (portSend q.val 2 (.linkEcho q.val) s)) ∧
  (∀ (q : Fin 8) s t, nbOn s = true → ringOn s (q.val / 2) = true → let x := ringPort s q.val
    x.checkAt = some t → since s t ≤ 50000 → x.echoed = false →
    (x.failed = false → exec (.linkEcho q) s =
      .next (setPort q.val (fun y => { y with echoed := true, misses := 0, echoes := 0 }) s)) ∧
    (x.failed = true → x.echoes < 7 → exec (.linkEcho q) s =
      .next (setPort q.val (fun y => { y with echoed := true, misses := 0, echoes := x.echoes + 1 }) s)) ∧
    (x.failed = true → 7 ≤ x.echoes → exec (.linkEcho q) s = .next (raise 0x71 [(q.val : Int)]
      (setPort q.val (fun y => { y with failed := false, linkUp := true, echoes := 0 })
        (setPort q.val (fun y => { y with echoed := true, misses := 0, echoes := x.echoes + 1 }) s))))) ∧
  (∀ (q : Fin 8) s, nbOn s = true → ringOn s (q.val / 2) = true →
    exec (.portLinkLoss q) s = .next (failPort q.val (setPort q.val (fun y => { y with linkUp := false }) s)))

/-- CMD_TIME_CONFIG configures its domain, a change of source starting it from FREE; CMD_TIME_PORT keeps the corrections of a port; CMD_TIME_SELECT
writes MODE and REVERT of PTP_CTRL and STEP_NS; CMD_TIME_STATUS answers; CMD_TIME_SET steps device time and sets the UTC offset; an accepted write of
PTP_CTRL re-evaluates the selection. (R332, R335, R340) -/
def Obligations.TimeCommandsComplete : Prop :=
  (∀ r s, accepted specTimeConfig r s = true → exec (.cmdTimeConfig r) s = .next (finishOk 0x0720 r []
    (configDomain (domIdx (getLE (bodyOf r) 0 1)) (parseDomain (bodyOf r)) (begun specTimeConfig r s)))) ∧
  (∀ r s, accepted specTimePort r s = true → let t := begun specTimePort r s
    let p := bodyOf r
    exec (.cmdTimePort r) s = .next (finishOk 0x0721 r [] { t with time := { t.time with corr := fset t.time.corr (getLE p 0 1) { ingress := getSLE p 4 4, egress := getSLE p 8 4, asym := getSLE p 12 4 } } })) ∧
  (∀ r s, accepted specTimeSelect r s = true → let t := begun specTimeSelect r s
    let p := bodyOf r
    exec (.cmdTimeSelect r) s = .next (finishOk 0x0722 r [] (evalSelection (cfgSet 0xE04 (BitVec.ofNat 32 (getLE p 0 1 + 4 * getLE p 1 1))
      { t with time := { t.time with stepNs := getLE p 4 4 } })))) ∧
  (∀ r s, accepted specTimeStatus r s = true → let t := begun specTimeStatus r s
    exec (.cmdTimeStatus r) s = .next (finishOk 0x0723 r (putLE 8 (devNs t) ++ putLE 4 (ptpStatus t).toNat ++ putSLE 2 t.time.utc ++
      zeros 2 ++ putSLE 8 t.time.delta ++ domBytes t.time.dom0 ++ domBytes t.time.dom1) t)) ∧
  (∀ r s, accepted specTimeSet r s = true → exec (.cmdTimeSet r) s = .next (finishOk 0x0724 r []
    (setUtc (getSLE (bodyOf r) 8 2) (stepTime (getLE (bodyOf r) 0 8) (begun specTimeSet r s))))) ∧
  (∀ p v s, writePasses p 0xE04 s → exec (.ptpCtrlWrite p v) s = .next (evalSelection (cfgSet 0xE04 v s)))

/-- With NB in service: a PTP message is taken by the domains it belongs to (an event message without its stamp is counted only); the port that is
MASTER sends Sync and Announce at their intervals, the SLAVE or PASSIVE port measures its path delay; a PPS edge is stamped or, early, ignored and
counted; a time-of-day message ends its edge's sample; a domain without samples goes into HOLDOVER; device time follows every 1 ms once a domain has
locked; the selection goes back to domain 0 as R332 says. (R323, R324, R325, R327, R328, R329, R331, R332, R333) -/
def Obligations.TimeEventsComplete : Prop :=
  (∀ (q : Fin 8) m s, nbOn s = true → m.stampLost = true → eventMessage m.kind = true →
    exec (.ptpMessage q m) s = .next (rcAdd 0xE30 1 s)) ∧
  (∀ (q : Fin 8) m s, nbOn s = true → m.stampLost = false ∨ eventMessage m.kind = false →
    let t := if ptpTakes s 0 q.val m then ptpReceive 0 q.val m s else s
    exec (.ptpMessage q m) s = .next (if ptpTakes t 1 q.val m then ptpReceive 1 q.val m t else t)) ∧
  (∀ (i : Fin 2) (q : Fin 8) s, isMaster s i q.val = true → let x := ptpPort (dom s i) q.val
    sampleInterval (dom s i).cfg ≤ since s x.syncAt → exec (.syncSend i q) s =
      .next (portSend q.val 3 (.ptp q.val i.val (.sync false) x.syncOut (ofSigned 64 (egressStamp s i q.val false)) 0)
        (setPtp i q.val (fun x => { x with syncAt := s.refNs, syncOut := x.syncOut + 1 }) s))) ∧
  (∀ (i : Fin 2) (q : Fin 8) s, isMaster s i q.val = true → let x := ptpPort (dom s i) q.val
    1000000000 ≤ since s x.annAt → exec (.announceSend i q) s = .next (portSend q.val 3 (.ptp q.val i.val .announce x.annOut 0 0)
      (setPtp i q.val (fun x => { x with annAt := s.refNs, annOut := x.annOut + 1 }) s))) ∧
  (∀ (i : Fin 2) (q : Fin 8) s, nbOn s = true → (dom s i).cfg.source = 1 → (domPorts s (dom s i)).contains q.val = true →
    let x := ptpPort (dom s i) q.val
    x.st = .slave ∨ x.st = .passive → let t := ofSigned 64 (egressStamp s i q.val true)
    exec (.delayReqSend i q) s = .next (portSend q.val 3 (.ptp q.val i.val (if (dom s i).cfg.mech = 1 then .pdelayReq else .delayReq) x.reqSeq t 0)
      (setPtp i q.val (fun x => { x with reqOut := some (x.reqSeq, t), reqSeq := x.reqSeq + 1 }) s))) ∧
  (∀ s a, nbOn s = true → s.time.ppsLast = some a → since s a < 900000000 → exec .ppsEdge s =
    .next { s with time := { s.time with ppsEarly := s.time.ppsEarly + 1 } }) ∧
  (∀ s, nbOn s = true → (∀ a, s.time.ppsLast = some a → 900000000 ≤ since s a) → exec .ppsEdge s =
    .next { s with time := { s.time with ppsLast := some s.refNs, ppsEdge := some (devNs s, domNs s 0, domNs s 1, s.refNs) } }) ∧
  (∀ m s d e0 e1 a, s.time.ppsEdge = some (d, e0, e1, a) → nbOn s = true → todOk m = true → since s a ≤ 900000000 →
    exec (.todMessage m) s = .next (ppsSample 1 e1 m (ppsSample 0 e0 m
      { s with time := { s.time with ppsEdge := none, ppsUsed := some a } }))) ∧
  (∀ (i : Fin 2) s, nbOn s = true → (dom s i).st = .locked ∨ (dom s i).st = .acquiring →
    (dom s i).cfg.lossN * sampleInterval (dom s i).cfg ≤ since s (dom s i).sampleAt →
    let t := raise 0x82 [(i.val : Int)] (setDom i (fun d => { d with st := .holdover, y := d.acc, goodRun := 0, badRun := 0 }) s)
    exec (.domainHoldover i) s = .next (evalSelection (if (dom s i).cfg.source = 2 then raise 0x86 [(i.val : Int)] t else t))) ∧
  (∀ s, nbOn s = true → 1000000 ≤ since s s.time.followAt → let t := ageDomain 1 (ageDomain 0 { s with time := { s.time with followAt := s.refNs } })
    exec .deviceTimeUpdate s = .next (passLeap (if t.time.neverLocked then t else follow (firstLock t)))) ∧
  (∀ s, nbOn s = true → ptpMode s = 0 → cfgBit s 0xE04 2 = true → s.time.sel = 1 → s.time.dom0.st = .locked →
    60000000000 ≤ since s s.time.dom0.lockedAt → exec .domainRevert s = .next (selectDom 0 s))

/-- CMD_CAN_CONFIG and CMD_CAN_BUFFER answer at once and wait for the Main boundary; CMD_CAN_CANCEL answers the buffers whose frame it dropped and
those whose cancel came late; CMD_CAN_RECOVER puts a bus-off controller into recovery; CMD_CAN_STATUS answers; the accepted writes of CTRL, bit
timing, TXREQ, CANCEL and ND take effect. (R346, R349, R352, R353, R355, R357, R359, R362) -/
def Obligations.CanCommandsAndWritesComplete : Prop :=
  (∀ r s, accepted specCanConfig r s = true →
    exec (.cmdCanConfig r) s = .next (finishOk 0x0801 r [] (stage 0x0801 (bodyOf r) (begun specCanConfig r s)))) ∧
  (∀ r s, accepted specCanBuffer r s = true →
    exec (.cmdCanBuffer r) s = .next (finishOk 0x0802 r [] (stage 0x0802 (bodyOf r) (begun specCanBuffer r s)))) ∧
  (∀ r s, accepted specCanCancel r s = true → let t := begun specCanCancel r s
    let p := bodyOf r
    let c := canCtl t (getLE p 0 1)
    let l := maskBufs 0 (getLE p 4 4) ++ maskBufs 32 (getLE p 8 4)
    exec (.cmdCanCancel r) s = .next (finishOk 0x0803 r
      (putLE 8 (bufMask (l.filter fun b => (canBuf c b).pend.isSome || ((canBuf c b).onBus.isSome && decide (c.sending ≠ some b)))) ++
        putLE 8 (bufMask (l.filter fun b => (canBuf c b).cancelLate))) (cancelBufs (getLE p 0 1) l t))) ∧
  (∀ r s, accepted specCanRecover r s = true → exec (.cmdCanRecover r) s =
    .next (finishOk 0x0804 r [] (setCan (getLE (bodyOf r) 0 1) (fun c => { c with conf := .recovering }) (begun specCanRecover r s)))) ∧
  (∀ r s, accepted specCanStatus r s = true → let t := begun specCanStatus r s
    let n := getLE (bodyOf r) 0 1
    let b := canBuf (canCtl t n) (getLE (bodyOf r) 1 1)
    exec (.cmdCanStatus r) s = .next (finishOk 0x0810 r (putLE 4 (canStatus t n).toNat ++ putLE 4 (canErr (canCtl t n)).toNat ++
      putLE 4 (sat32 (tRetx t n / 80)) ++ zeros 4 ++ putLE 4 (canCtrlWord b).toNat ++ putLE 4 b.idWord.toNat ++
      putLE 4 b.dlcWord.toNat ++ putLE 4 b.stamp.toNat ++ (padTo 64 b.data).take 64) t)) ∧
  (∀ p (n : Fin 4) v s, writePasses p (canBase n.val + 4) s → exec (.canModeWrite p n v) s =
    .next (startNext n.val (refreshMode n.val (cfgSet (canBase n.val + 4) v s)))) ∧
  (∀ p (n : Fin 4) v s, writePasses p (canBase n.val + 8) s → exec (.canBitTimingWrite p n false v) s =
    .next (applyCanTiming n.val (canBase n.val + 8) v s)) ∧
  (∀ p (n : Fin 4) v s, writePasses p (canBase n.val + 12) s → exec (.canBitTimingWrite p n true v) s =
    .next (applyCanTiming n.val (canBase n.val + 12) v s)) ∧
  (∀ p (n : Fin 4) hi v s, writePasses p (canBase n.val + 0x24 + 4 * b2n hi) s → exec (.canTxreq p n hi v) s =
    .next (requestHost n.val (maskBufs (32 * b2n hi) v.toNat) s)) ∧
  (∀ p (n : Fin 4) hi v s, writePasses p (canBase n.val + 0x2C + 4 * b2n hi) s → exec (.canCancel p n hi v) s =
    .next (cancelBufs n.val (maskBufs (32 * b2n hi) v.toNat) s)) ∧
  (∀ p (n : Fin 4) hi v s, writePasses p (canBase n.val + 0x1C + 4 * b2n hi) s → exec (.canNdClear p n hi v) s =
    .next (clearNd n.val (maskBufs (32 * b2n hi) v.toNat) s))

/-- With PB in service: a received data frame that a buffer takes is stored, an RTR frame and one that no buffer takes are counted; a sent frame
leaves the bus and notes a late cancel; a bus error retries or drops, a lost arbitration does not count; recovery and integration end; a receive
buffer silent for its TIMEOUT_MS raises CAN_RX_TIMEOUT with its points STALE and HELD; the loop check of a controller in NORMAL mode, due every 500
ms, counts the frames it lost and on failure raises CAN_CHECK_FAIL and takes row 14. (R341, R343, R344, R345, R350, R352, R353, R355, R358) -/
def Obligations.CanEventsComplete : Prop :=
  (∀ (n : Fin 4) f s, pbOn s = true → onBusMode (canCtl s n.val) = true → (canCtl s n.val).conf ≠ .busOff →
    (canCtl s n.val).conf ≠ .recovering → loopHolds s 2 n.val = false → let t := rxGoodCount n.val s
    (∀ b, f.rtr = false → takingBuffer (canCtl s n.val) f = some b → exec (.canFrameReceive n f) s = .next (storeFrame n.val b f t)) ∧
    (f.rtr = true ∨ takingBuffer (canCtl s n.val) f = none →
      exec (.canFrameReceive n f) s = .next (rcAdd (canBase n.val + 0x34) 1 t))) ∧
  (∀ (n : Fin 4) s b, (canCtl s n.val).sending = some b → let late := (canBuf (canCtl s n.val) b).cancelled
    exec (.canTxComplete n) s = .next (startNext n.val (confine n.val (dropOnBus n.val b
      (setCan n.val (fun c => { c with sending := none, tec := c.tec - 1 })
        (setBuf n.val b (fun x => { x with cancelLate := x.cancelLate || late }) s)))))) ∧
  (∀ (n : Fin 4) s b, (canCtl s n.val).sending = some b →
    exec (.canTxError n .busError) s = .next (startNext n.val (busError n.val b s))) ∧
  (∀ (n : Fin 4) s b, (canCtl s n.val).sending = some b → let t := setCan n.val (fun c => { c with sending := none }) s
    exec (.canTxError n .arbitration) s =
      .next (startNext n.val (if (canBuf (canCtl t n.val) b).cancelled then dropOnBus n.val b t else t))) ∧
  (∀ (n : Fin 4) s, (canCtl s n.val).conf = .recovering → exec (.canBusOn n) s = .next (startNext n.val (raise 0x93 [(n.val : Int)]
    (setCan n.val (fun c => { c with conf := .active, tec := 0, recCnt := 0 }) s)))) ∧
  (∀ (n : Fin 4) s, (canCtl s n.val).integrating = true → exec (.canIntegrate n) s =
    .next (startNext n.val (setCan n.val (fun c => { c with integrating := false }) s))) ∧
  (∀ (n : Fin 4) s, pbOn s = true → onBusMode (canCtl s n.val) = true →
    exec (.canRxBusError n) s = .next (rxErrorCount n.val s)) ∧
  (∀ (n : Fin 4) (b : Fin 65) s, pbOn s = true → let x := canBuf (canCtl s n.val) b.val
    x.desc.dir = 1 → x.timedOut = false → x.desc.timeoutMs * 1000000 ≤ since s x.rxAt → exec (.canRxTimeout n b) s =
      .next (raise 0x96 [(n.val : Int), (b.val : Int)] (stalePoints x.desc.signals (setBuf n.val b.val (fun y => { y with timedOut := true }) s)))) ∧
  (∀ (n : Fin 4) ok k s, pbOn s = true → (canCtl s n.val).mode = 2 → (canCtl s n.val).integrating = false →
    (canCtl s n.val).sending = none → canPending (canCtl s n.val) = false → 500000000 ≤ since s (canCtl s n.val).checkAt →
    let t := setCan n.val (fun x => { x with checkAt := x.checkAt + 500000000 }) s
    let u := if k = 0 then t else rcAdd (canBase n.val + 0x3C) k t
    exec (.canCheck n ok k) s = .next (if ok then u else
      rowFault 14 (raise 0x99 [(n.val : Int)] (setCan n.val (fun x => { x with checkFail := true }) u))))

/-- With the main side powered: a discarded mortar packet raises MORTAR_ERROR and is answered when it is a request of class 3; a packet to an unused
identifier raises it and is answered; a packet to a brick out of service is answered with the error response; a barrier arrival waits behind the
incomplete writes of its source; any other joins those that wait at its destination, which is woken, and is served or starts the watchdog; a request
raised for 32 µs fences its brick as stalled (for clock loss where the queue holds the expiry of its clock-presence detector too, log entry 172), 5.6
µs without an edge and 20 µs in TRANSITION for clock loss; corrected and uncorrectable memory errors take their rows of R458; a lockstep disagreement
takes row 9; a sweep that is due compares every block; a temperature sample below 110 °C updates the temperatures. (R6, R11, R16, R17, R18, R19, R105,
R106, R375, R458) -/
def Obligations.FaultDetectionCompletes : Prop :=
  (∀ p s, s.power.mainUp = true → let h := p.header.toNat
    mortarBad p = true → inService s (mortarSrc h) = true → mortarClass h ≠ 3 →
    exec (.mortarPacket p) s = .next (raise 0x20 [(mortarSrc h : Int), (mortarDest h : Int)] s)) ∧
  (∀ p s, s.power.mainUp = true → let h := p.header.toNat
    mortarBad p = true → inService s (mortarSrc h) = true → mortarClass h = 3 →
    exec (.mortarPacket p) s = .next (mortarRespond (errorResponse h) (raise 0x20 [(mortarSrc h : Int), (mortarDest h : Int)] s))) ∧
  (∀ p s, s.power.mainUp = true → let h := p.header.toNat
    mortarBad p = false → heldBack p s = true → inService s (mortarSrc h) = true → exec (.mortarPacket p) s =
      .next (setBrick (mortarSrc h) (fun x => { x with issued := x.issued ++ [.barrier p] }) s)) ∧
  (∀ p s, s.power.mainUp = true → let h := p.header.toNat
    mortarBad p = false → heldBack p s = false → 35 ≤ mortarDest h → inService s (mortarSrc h) = true →
    exec (.mortarPacket p) s = .next (mortarRespond (errorResponse h) (raise 0x20 [(mortarSrc h : Int), (mortarDest h : Int)] s))) ∧
  (∀ p s, s.power.mainUp = true → let h := p.header.toNat
    mortarBad p = false → heldBack p s = false → mortarDest h < 35 → inService s (mortarSrc h) = true →
    inService s (mortarDest h) = false → exec (.mortarPacket p) s = .next (mortarRespond (errorResponse h) s)) ∧
  (∀ p s, s.power.mainUp = true → let h := p.header.toNat
    mortarBad p = false → heldBack p s = false → mortarDest h < 35 → inService s (mortarSrc h) = true →
    inService s (mortarDest h) = true → 
    let t := setCrossing (mortarDest h) (portOf h) (fun x => { x with waiting := joinWaiting p x.waiting })
      (wakeBrick (mortarDest h) (noteSent p s))
    exec (.mortarPacket p) s =
      .next (if p.answered then servePort (mortarDest h) (portOf h) t else startWatchdog (mortarDest h) (portOf h) t)) ∧
  (∀ (b : BrickId) s, timedBrick s b.val = true → handshakeLate s b.val = true → s.pending.contains (.clockPresenceExpiry b) = false →
    exec (.handshakeWatchdog b) s = .next (fenceBrick b.val (some 0x22) s)) ∧
  (∀ (b : BrickId) s, timedBrick s b.val = true → handshakeLate s b.val = true → s.pending.contains (.clockPresenceExpiry b) = true →
    exec (.handshakeWatchdog b) s = .next (fenceBrick b.val (some 0x21) s)) ∧
  (∀ (b : BrickId) s, timedBrick s b.val = true → 5600 ≤ since s (brick s b.val).edgeAt → exec (.clockPresenceExpiry b) s = .next (fenceBrick b.val (some 0x21) s)) ∧
  (∀ (b : BrickId) s, s.power.mainUp = true → (brick s b.val).st = .transition → 20000 ≤ since s (brick s b.val).transAt →
    exec (.transitionTimerExpiry b) s = .next (fenceBrick b.val (some 0x21) s)) ∧
  (∀ s, s.power.mainUp = true → exec (.dramError .corrected) s = .next (raise 0xB3 [] (countFault 1 s))) ∧
  (∀ s, s.power.mainUp = true → exec (.dramError .uncorrectable) s = .next (rowFault 2 (raise 0xB4 [] s))) ∧
  (∀ p s, s.power.mainUp = true → exec (.mramError .corrected p) s = .next (raise 0xB5 [] (countFault 3 s))) ∧
  (∀ p s, s.power.mainUp = true → exec (.mramError .uncorrectable p) s = .next (loseMram p (raise 0xB6 [] (countFault 4 s)))) ∧
  (∀ s, s.power.mainUp = true → exec .lockstepDisagreement s = .next (rowFault 9 s)) ∧
  (∀ l s, s.power.mainUp = true → let t := upsetRegs l s
    sigEnabled t = true → 4000000 ≤ since t t.regs.sweepAt → exec (.signatureSweep l) s = .next (sweepBlocks (blocks.map (·.base))
      { t with regs := { t.regs with sweeps := t.regs.sweeps + 1, sweepAt := t.regs.sweepAt + 4000000 } })) ∧
  (∀ q s, s.power.mainUp = true → q < 440 → exec (.tempSample q) s = .next (thermalLimit q { s with budget := { s.budget with
    t4 := q, t4Max := if s.budget.t4Max < q then q else s.budget.t4Max, hotSamples := 0 } })) ∧
  (∀ q s, s.power.mainUp = true → 440 ≤ q → s.budget.hotSamples = 2 → exec (.tempSample q) s =
    .next (rowFault 17 (raise 0x39 [q] (thermalLimit q { s with budget := { s.budget with
      t4 := q, t4Max := if s.budget.t4Max < q then q else s.budget.t4Max, hotSamples := 3 } }))))

/-- CMD_PAIR_STATUS and CMD_FAULT_STATUS answer (whether the module is within its ratings is one free bit, log entry 2); CMD_PAIR_CONFIG waits for the
Main boundary; CMD_SWITCHOVER and CMD_DRILL ask for an exchange and wait; CMD_PAIR_RESYNC starts a resync and waits; PAIR_CTRL_WRITE applies an
accepted write. Each event of the link goes on where its conditions hold: the claim timeout of slot 1 takes ACTIVE, a change of ACTIVE_N is noted (a
low level makes an undecided module the standby), a change of presence is noted, a lane and the link are up or down, a heartbeat is kept as the last
one, five missed intervals are noted as a loss, a synchronised standby that finds ACTIVE_N released takes over, and a new active takes up control.
(R434, R436, R438, R441, R452, R453, R461, R462, R463, R464, R465, R466) -/
def Obligations.PairCommandsComplete : Prop :=
  (∀ r s, accepted specPairStatus r s = true → let t := begun specPairStatus r s
    let p := t.pair
    let age := p.drillAge.getD 0xFFFF
    exec (.cmdPairStatus r) s = .next (finishOk 0x0901 r
      ([byte (roleCode p.role), byte (if p.linkUp then (p.lastHb.map (·.role)).getD 0xFF else 0xFF)] ++
      putLE 2 (bits (pairStatus t).toNat 4 9) ++ putLE 8 p.partner.toNat ++
      [byte (ownProto t), byte (ownFeature t), byte (partnerByte t (·.proto)), byte (partnerByte t (·.feature))] ++
      putLE 4 (satBits 24 p.lagUs) ++ putLE 4 age ++ putLE 4 (if drillDue t then 0 else dueAge t - age) ++
      putLE 4 p.takeovers ++ putLE 4 p.exchanges ++ putLE 4 p.mismatches ++ putLE 4 p.resyncs ++ putLE 4 p.syncMs) t)) ∧
  (∀ r s, accepted specPairConfig r s = true → let p := bodyOf r
    exec (.cmdPairConfig r) s = .next (finishOk 0x0902 r [] (setPair (fun x => { x with nextCfg := some { mode := getLE p 0 1, drillAuto := bit (getLE p 1 1) 0, winStart := getLE p 2 1, winLen := getLE p 3 1, interval := getLE p 4 2 } })
      (begun specPairConfig r s)))) ∧
  (∀ r s, accepted specSwitchover r s = true → let t := begun specSwitchover r s
    exec (.cmdSwitchover r) s = .next (holdCmd 0x0903 r (setPair (fun p => { p with exchange := some { drill := false, req := some r, since' := t.refNs, handed := false, gapUs := 0 } }) t))) ∧
  (∀ r s, accepted specDrill r s = true → let t := begun specDrill r s
    exec (.cmdDrill r) s = .next (holdCmd 0x0904 r (setPair (fun p => { p with exchange := some { drill := true, req := some r, since' := t.refNs, handed := false, gapUs := 0 } }) t))) ∧
  (∀ r s, accepted specPairResync r s = true → let t := begun specPairResync r s
    let u := if t.pair.resync || t.pair.joining then setPair (fun p => { p with synced := false }) t else startResync t
    exec (.cmdPairResync r) s = .next (holdCmd 0x0905 r (setPair (fun p => { p with resyncReq := some (r, u.refNs) }) u))) ∧
  (∀ r s, accepted specFaultStatus r s = true → let x := takeFree (begun specFaultStatus r s)
    exec (.cmdFaultStatus r) s = .next (finishOk 0x0906 r (putLE 4 (coverWord (x.1.getLsbD 0) x.2) ++ [byte x.2.pair.faultRow, 0, 0, 0] ++
      putLE 8 x.2.pair.faultTime ++ (upto 17).flatMap fun i => putLE 4 (fgetD x.2.pair.rowCount (i + 1) 0)) x.2)) ∧
  (∀ p v s, writePasses p 0x1404 s → let t := cfgSet 0x1404 v s
    exec (.pairCtrlWrite p v) s = .next (if cfgBit s 0x1404 0 && !cfgBit t 0x1404 0 then raise 0xB7 [] t else t)) ∧
  (∀ s, s.power.mainUp = true → s.pair.slotId = true → highTenSeconds s = true → s.power.ready = true → s.pair.role = .undecided →
    s.pair.fault = false → s.keys.lc ≠ .retired → pairMode s ≠ 1 → s.pair.lineLow = false → slotConflict s = false →
    exec .slot1ClaimTimeout s = .next (claimRole .active s)) ∧
  (∀ low s, s.pair.role ≠ .undecided → exec (.activeNChange low) s = .next { s with pair := { s.pair with
    lineLow := low, lineAt := if s.pair.lineLow = low then s.pair.lineAt else s.refNs } }) ∧
  (∀ s, s.power.mainUp = true → s.power.ready = true → s.pair.role = .undecided → s.pair.fault = false → s.keys.lc ≠ .retired →
    pairMode s ≠ 1 → inService s idPL = true → ∃ t, exec (.activeNChange true) s = .next t ∧ t.pair.role = .standby) ∧
  (∀ p s, s.pair.role ≠ .undecided → s.pair.role ≠ .active → ∃ t, exec (.partnerPresentChange p) s = .next t ∧
    t.pair = { s.pair with present := p }) ∧
  (∀ (n : Fin 2) s, plOn s = true → ∃ t, exec (.pairLinkUp n) s = .next t ∧ t.pair =
    { s.pair with linkUp := true, lane0 := s.pair.lane0 || decide (n = 0), lane1 := s.pair.lane1 || decide (n = 1) }) ∧
  (∀ (n : Fin 2) s, plOn s = true → (if n = 0 then s.pair.lane0 else s.pair.lane1) = true → ∃ t, exec (.pairLaneLoss n) s = .next t ∧
    t.pair = { s.pair with lane0 := s.pair.lane0 && decide (n ≠ 0), lane1 := s.pair.lane1 && decide (n ≠ 1), laneAt := s.refNs }) ∧
  (∀ s, plOn s = true → s.pair.linkUp = true → s.pair.lane0 = false → s.pair.lane1 = false → 20000 ≤ since s s.pair.laneAt →
    s.pair.role ≠ .active → ∃ t, exec .pairLinkDown s = .next t ∧ t.pair = { s.pair with linkUp := false }) ∧
  (∀ h s, plOn s = true → s.pair.linkUp = true → s.pair.role ≠ .active → s.pair.role ≠ .standby → ∃ t,
    exec (.heartbeatReceive h) s = .next t ∧
    t.pair = { s.pair with lastHb := some h, hbAt := some s.refNs, lostAt := none, lostEp := false, missed := 0 }) ∧
  (∀ s a, s.pair.hbAt = some a → plOn s = true → s.pair.lostAt = none → 50000 ≤ since s a → s.pair.role ≠ .active → ∃ t,
    exec .heartbeatLost s = .next t ∧ t.pair = { s.pair with lostAt := some s.refNs, missed := 5 }) ∧
  (∀ s a, s.pair.lostAt = some a → plOn s = true → s.pair.role = .standby → s.pair.lostEp = false → s.test.test = false →
    s.pair.lineLow = false → s.pair.lineAt ≤ a + 200000 → s.pair.synced = true → exec .activeNCheck s = .next (takeUp false s)) ∧
  (∀ s, s.pair.takingUp = true → s.pair.role = .active → devNs s % (Nat.max (cls s 0).periodUs 1 * 1000) ≤ 2000 →
    exec .takeUpControl s = .next (canRepeat 3 (canRepeat 2 (canRepeat 1 (canRepeat 0
      (refreshModes { s with pair := { s.pair with takingUp := false } }))))))

/-- A change of the partner's presence or of ACTIVE_N is taken and decides an undecided role; lanes and the link come up and go down with PAIR_LINK_UP
and PAIR_LINK_DOWN; a heartbeat is sent every 10 µs while SV is alive and taken by the role that hears it; five missed intervals are HEARTBEAT_LOST,
and PARTNER_LOST at an active module; after a loss the standby takes over or goes on alone; the new active takes up control at a Fast period start.
(R434, R435, R436, R437, R438, R439, R440, R441, R442, R452) -/
def Obligations.PairLinkAndTakeoverEventsComplete : Prop :=
  (∀ s, s.power.mainUp = true → s.pair.slotId = true → highTenSeconds s = true → exec .slot1ClaimTimeout s = .next (decideRole s)) ∧
  (∀ low s, s.power.mainUp = true → exec (.activeNChange low) s = .next (decideRole (setPair (fun p => { p with
    lineLow := low, lineAt := if p.lineLow = low then p.lineAt else s.refNs }) s))) ∧
  (∀ s, s.power.mainUp = true → s.pair.present = false →
    exec (.partnerPresentChange true) s = .next (setPair (fun p => { p with present := true }) s)) ∧
  (∀ s, s.power.mainUp = true → s.pair.present = true → let t := raise 0xA4 [] (setPair (fun p => { p with present := false }) s)
    exec (.partnerPresentChange false) s = .next (if t.pair.role = .active then endExchange stAborted (dropPartner t) else decideRole t)) ∧
  (∀ s, plOn s = true → exec (.pairLinkUp 0) s = .next (raise 0xA0 [] (setPair (fun p => { p with linkUp := true })
    (setPair (fun p => { p with lane0 := true }) s)))) ∧
  (∀ s, plOn s = true → exec (.pairLinkUp 1) s = .next (raise 0xA0 [] (setPair (fun p => { p with linkUp := true })
    (setPair (fun p => { p with lane1 := true }) s)))) ∧
  (∀ s, plOn s = true → s.pair.lane0 = true → exec (.pairLaneLoss 0) s =
    .next (rcAdd 0x1420 1 (setPair (fun p => { p with lane0 := false, laneAt := s.refNs }) s))) ∧
  (∀ s, plOn s = true → s.pair.lane1 = true → exec (.pairLaneLoss 1) s =
    .next (rcAdd 0x1420 1 (setPair (fun p => { p with lane1 := false, laneAt := s.refNs }) s))) ∧
  (∀ s, plOn s = true → s.pair.linkUp = true → s.pair.lane0 = false → s.pair.lane1 = false → 20000 ≤ since s s.pair.laneAt →
    let t := raise 0xA1 [] (setPair (fun p => { p with linkUp := false }) s)
    exec .pairLinkDown s = .next (if t.pair.role = .active then countFault 15 (endExchange stAborted (dropPartner t)) else t)) ∧
  (∀ s, plOn s = true → 10000 ≤ since s s.pair.hbSentAt → svAlive s = true → s.pair.role ≠ .fenced → s.pair.linkUp = true →
    let t := setPair (fun p => { p with liveAt := s.refNs }) s
    exec .heartbeatSend s = .next (emit (.heartbeat (heartbeatNow t)) (setPair (fun p => { p with hbSentAt := t.refNs, hbSeq := p.hbSeq + 1 }) t))) ∧
  (∀ h s, plOn s = true → s.pair.linkUp = true → let t := setPair (fun p => { p with
      lastHb := some h, hbAt := some s.refNs, lostAt := none, lostEp := false, missed := 0 }) (rcAdd 0x140C (missedNow s) s)
    let u := if s.pair.lastHb.isNone && slotConflict t then raise 0xB8 [] t else t
    exec (.heartbeatReceive h) s = .next (match u.pair.role with
      | .active => activeHears s.pair.lastHb h u
      | .standby => standbyHears s.pair.lastHb h u
      | _ => u)) ∧
  (∀ s a, s.pair.hbAt = some a → plOn s = true → s.pair.lostAt = none → 50000 ≤ since s a →
    let t := rcAdd 0x140C (5 - s.pair.missed) s
    let u := raise 0xA5 [] (setPair (fun p => { p with lostAt := some t.refNs, missed := 5 }) t)
    exec .heartbeatLost s = .next (if u.pair.role = .active then raise 0xA4 [] (endExchange stAborted (dropPartner u)) else u)) ∧
  (∀ s a, s.pair.lostAt = some a → plOn s = true → s.pair.role = .standby → s.pair.lostEp = false → s.test.test = false →
    (s.pair.lineLow = false → s.pair.lineAt ≤ a + 200000 → s.pair.synced = true ∨ cfgBit s 0x1404 1 = true → exec .activeNCheck s = .next (takeUp false s)) ∧
    (s.pair.lineLow = false → s.pair.lineAt ≤ a + 200000 → s.pair.synced = false → cfgBit s 0x1404 1 = false →
      exec .activeNCheck s = .next (setPair (fun p => { p with lostEp := true }) s)) ∧
    (s.pair.lineLow = true ∨ a + 200000 < s.pair.lineAt → 200000 ≤ since s a → exec .activeNCheck s = .next (countFault 15 (raise 0xA1 [] (setPair (fun p => { p with
      lostEp := true, synced := false, joined := false, joining := false, resync := false }) s))))) ∧
  (∀ s, s.pair.takingUp = true → s.pair.role = .active → devNs s % (Nat.max (cls s 0).periodUs 1 * 1000) ≤ 2000 →
    exec .takeUpControl s = .next (canRepeat 3 (canRepeat 2 (canRepeat 1 (canRepeat 0
      (refreshModes (setPair (fun p => { p with takingUp := false }) s)))))))

/-- The standby applies the mirror record that follows the last one and the active takes the digests that come back; fills are requested, answered and
given up; a join copies the loads and the state of the active and ends in SYNCED when the digests match; a role exchange hands over at a matched
commit; drills start in their window, end and age; a self-check ends in service or FENCED. (R443, R444, R445, R450, R453, R456, R457, R464) -/
def Obligations.PairMirrorJoinAndDrillEventsComplete : Prop :=
  (∀ q b s, plOn s = true → s.pair.linkUp = true → s.pair.joined = true → pausing s = false → s.pair.role = .standby →
    s.pair.joining = false → q ≠ 0 → q = s.pair.mirrorSeq + 1 →
    exec (.mirrorRecord q b) s = .next (applyRecord b (setPair (fun p => { p with
      mirrorSeq := q, mirrorCnt := (p.mirrorCnt + 1) % 2 ^ 64 }) s))) ∧
  (∀ b s, plOn s = true → s.pair.linkUp = true → s.pair.joined = true → pausing s = false → s.pair.role = .active →
    exec (.mirrorRecord 0 b) s = .next (takeReturn b s)) ∧
  (∀ (n : BitVec 12) q s d, plOn s = true → activeJoined s = true → s.pair.linkUp = true →
    (station s n.toNat).datasets.find? (fun d => decide (d.seq = q)) = some d →
    exec (.snapshotFillRequest n q) s = .next (emit (.mirror 0 (.fill n.toNat q (fillPoints d))) s)) ∧
  (∀ (c : PClass) s y, (cls s c.val).cycle = some y → let mine := s.pair.fills.filter fun f => decide (f.1 = c.val)
    mine ≠ [] → 2000000 ≤ since s y.markAt →
    exec (.snapshotFillTimeout c) s = .next (closeSnapshot c.val (setPair (fun p => { p with
      fills := p.fills.filter fun f => decide (f.1 ≠ c.val) })
      (setCycle c.val (fun z => { z with snap := snapNewest s mine z.snap, notCompared := true }) s)))) ∧
  (∀ x s u, plOn s = true → s.pair.linkUp = true → s.pair.joined = true → s.pair.role = .standby → pausing s = false → s.pair.joining = true →
    keyLacks x s = false → joinLoads x s = some u → x.digestsOk = true →
    exec (.join x) s = .next (joinDone true x.syncMs (joinState x (raise 0xAC [] u)))) ∧
  (∀ x s, plOn s = true → s.pair.linkUp = true → s.pair.joined = true → s.pair.role = .standby → pausing s = false → s.pair.joining = true →
    keyLacks x s = true → exec (.join x) s = .next (refuseJoin 3 s)) ∧
  (∀ x s, plOn s = true → s.pair.linkUp = true → s.pair.joined = true → s.pair.role = .standby → pausing s = false → s.pair.joining = false →
    s.pair.resync = true → x.digestsOk = true → exec (.join x) s = .next (joinDone false x.syncMs (joinState x s))) ∧
  (∀ g s x, s.pair.exchange = some x → plOn s = true → activeJoined s = true → x.handed = false → commitMatched s x = true → outputsLeft s = true →
    exchangeRefused s = false → exec (.roleExchange g) s = .next (handOver x g s)) ∧
  (∀ s, plOn s = true → activeJoined s = true → s.pair.cfg.drillAuto = true → drillDue s = true → inWindow s = true →
    s.pair.exchange = none → exchangeRefused s = false → exec .drillStart s = .next (setPair (fun p => { p with exchange := some { drill := true, req := none, since' := s.refNs, handed := false, gapUs := 0 } }) s)) ∧
  (∀ ms s x, s.pair.exchange = some x → plOn s = true → x.drill = true → x.handed = true → s.pair.role = .active →
    exec (.drillCheckDone .passed ms) s = .next (finishOpt 0x0904 x.req stOk 0 (drillResult .passed x.gapUs ms) (passDrill (raise 0xA8 [0] s)))) ∧
  (∀ p i ms s x, s.pair.exchange = some x → plOn s = true → x.drill = true → x.handed = true → s.pair.role = .active →
    exec (.drillCheckDone (.failed p i) ms) s = .next (finishOpt 0x0904 x.req stOk 0 (drillResult (.failed p i) x.gapUs ms)
      (fenceSelf (countFault 16 (raise 0xA8 [1, (p : Int), (i : Int)] (setPair (fun p => { p with exchange := none }) s)))))) ∧
  (∀ s a, s.pair.drillAge = some a → plOn s = true → s.pair.role = .active → reached s (s.pair.drillHour + 3600000000000) = true →
    a + 1 < s.pair.cfg.interval → exec .drillAgeHour s = .next (setPair (fun p => { p with
      drillAge := some (satBits 16 (a + 1)), drillHour := (p.drillHour + 3600000000000) % 2 ^ 64 }) s)) ∧
  (∀ k s, s.power.mainUp = true → s.pair.selfCheck = true → exec (.selfCheckDone (.fault k)) s =
    .next (fenceSelf (raise 0xAE [(k : Int)] (endBistReq (setPair (fun p => { p with selfCheck := false }) s)))))

/-- CMD_REC_READ answers the records from a SEQ on, CMD_REC_CURSOR sets the cursor of its port, CMD_REC_CLEAR holds until REC_CLEAR_DONE empties the
circulating area and writes REC_CLEARED; REC_WRITE takes the next queued event and writes its record; an accepted REC_SEEK sets the cursor; a deferred
message leaves when its holdoff ends, or is withheld while EVT_MSG_EN is 0. (R382, R490, R491, R492, R494, R495, R496, R498) -/
def Obligations.RecorderCommandsAndEventsComplete : Prop :=
  (∀ r s, accepted specRecRead r s = true → let p := bodyOf r
    let t := begun specRecRead r s
    let l := ((bySeq t).filter fun e => getLE p 0 8 ≤ e.2.seq.toNat).take (getLE p 8 1)
    let older := match bySeq t with
      | [] => false
      | e :: _ => decide (getLE p 0 8 < e.2.seq.toNat)
    exec (.cmdRecRead r) s = .next (finishOk 0x0A01 r (putLE 2 l.length ++ putLE 2 (b2n older) ++ zeros 4 ++
      l.flatMap fun e => recordBytes e.2) t)) ∧
  (∀ r s, accepted specRecCursor r s = true → let p := bodyOf r
    let t := begun specRecCursor r s
    let slot := if getLE p 0 1 = 3 then 0 else 8192
    exec (.cmdRecCursor r) s = .next (match cursorTarget t (getLE p 0 1) (getLE p 4 8) with
      | some e => finishOk 0x0A02 r (putLE 4 e.1 ++ zeros 4 ++ putLE 8 e.2.seq.toNat) (setCursor (originPort r.origin) e.1 t)
      | none => finishOk 0x0A02 r (putLE 4 slot ++ zeros 12) (setCursor (originPort r.origin) slot t))) ∧
  (∀ r s, accepted specRecClear r s = true → let t := begun specRecClear r s
    exec (.cmdRecClear r) s = .next (holdCmd 0x0A03 r { t with recorder := { t.recorder with clear := some (r, circSpan t) } })) ∧
  (∀ s r (lo hi : Nat), s.recorder.clear = some (r, lo, hi) → exec .recClearDone s = .next (finishOk 0x0A03 r []
    (writeNewest 0xCC (raise 0xCC [(lo : Int), (hi : Int)] { s with recorder := { s.recorder with
      slots := s.recorder.slots.filter fun e => decide (e.1 < 8192) || decide (hi < e.2.seq.toNat), next := 8192, wrapped := false, clear := none } })))) ∧
  (∀ s e, inService s idMG = true → s.power.vstby = true → s.recorder.ready = true → nextRecord s = some e →
    exec .recWrite s = .next (writeRecord e (admitHeld { s with recorder := { s.recorder with
      queue := removeFirst e s.recorder.queue } }))) ∧
  (∀ p v s, writePasses p 0x1008 s → exec (.recSeek p v) s = .next (setCursor p (v.toNat % 131072) s)) ∧
  (∀ (v : Fin 32) s, s.evt.deferred.getLsbD v.val = true → inHoldoff s v.val = false →
    (msgEnabled s = true → exec (.evtHoldoffExpiry v) s = .next (sendVector v.val s)) ∧
    (msgEnabled s = false → exec (.evtHoldoffExpiry v) s = .next
      { s with evt := { s.evt with deferred := s.evt.deferred &&& ~~~(BitVec.twoPow 32 v.val) } }))

/-- CMD_RTC_READ answers the calendar with its alarms; CMD_RTC_SET sets the calendar, or on an impossible date sets BADWRITE and refuses;
CMD_RTC_ADJUST moves it by DELTA_MS; CMD_RTC_ALARM disarms an alarm or arms it for a later time; an accepted RTC_APPLY with SET sets the calendar from
RTC_SET0 and RTC_SET1, without SET it changes nothing; an accepted write to RTC_FLAGS clears the flags written 1. (R5, R480, R482, R485, R486, R489,
R498) -/
def Obligations.CalendarCommandsComplete : Prop :=
  (∀ r s, accepted specRtcRead r s = true → let t := begun specRtcRead r s
    let al := (upto 4).flatMap fun n => [byte (b2n (alarm t n).armed), byte (alarm t n).action, 0, 0] ++
      putLE 4 (calT0 (alarm t n).time).toNat ++ putLE 4 (calT1 (alarm t n).time).toNat ++ zeros 4
    exec (.cmdRtcRead r) s = .next (finishOk 0x0A10 r (putLE 4 (calT0 t.rtc.cal).toNat ++ putLE 4 (calT1 t.rtc.cal).toNat ++
      putLE 4 (rtcStatus t (originPort r.origin)).toNat ++ putLE 4 (rtcFlags t).toNat ++ putSLE 2 t.rtc.utcOfs ++ zeros 2 ++
      putLE 4 t.rtc.vbatTs0.toNat ++ putLE 4 t.rtc.vbatTs1.toNat ++ zeros 4 ++ al) t)) ∧
  (∀ r s, accepted specRtcSet r s = true → let t := begun specRtcSet r s
    let t0 := getLE (bodyOf r) 0 4
    let t1 := getLE (bodyOf r) 4 4
    exec (.cmdRtcSet r) s = .next (if possible (calOfWords t0 t1) then
        finishOk 0x0A11 r [] (adjust 0 (calTicks (calOfWords t0 t1) * 1000000000) t)
      else finish 0x0A11 r stBadParam (if badT0 t0 then 0 else 4) []
        (raise 0xCB [(t0 : Int), (t1 : Int)] { t with rtc := { t.rtc with badWrite := true } }))) ∧
  (∀ r s, accepted specRtcAdjust r s = true → let t := begun specRtcAdjust r s
    exec (.cmdRtcAdjust r) s = .next (finishOk 0x0A12 r []
      (adjust 1 (calFine t + getSLE (bodyOf r) 0 4 * 32768000000).toNat t))) ∧
  (∀ r s, accepted specRtcAlarm r s = true → let t := begun specRtcAlarm r s
    let p := bodyOf r
    let n := getLE p 0 1
    let c := calOfWords (getLE p 4 4) (getLE p 8 4)
    (getLE p 1 1 = 0 → exec (.cmdRtcAlarm r) s = .next (finishOk 0x0A13 r [] { t with rtc := { t.rtc with
      alarms := fset t.rtc.alarms n { alarm t n with armed := false } } })) ∧
    (getLE p 1 1 ≠ 0 → possible c = true → c.subsec = 0 → badT0 (getLE p 4 4) = false → badT1 (getLE p 8 4) = false →
      calTicks t.rtc.cal < calTicks c → exec (.cmdRtcAlarm r) s = .next (finishOk 0x0A13 r [] { t with rtc := { t.rtc with
        alarms := fset t.rtc.alarms n { armed := true, action := getLE p 2 1, time := c } } }))) ∧
  (∀ p v s, writePasses p 0xF20 s → exec (.rtcApplySet p v) s = .next (if v.getLsbD 0 then
    setCalendar (cfgGet s 0xF18).toNat (cfgGet s 0xF1C).toNat s else s)) ∧
  (∀ p v s, writePasses p 0xF0C s → exec (.rtcFlagsClear p v) s = .next { s with rtc := { s.rtc with
    badWrite := s.rtc.badWrite && !v.getLsbD 0, vbatSeen := s.rtc.vbatSeen && !v.getLsbD 1
    fired := s.rtc.fired &&& ~~~(v.extractLsb' 4 4), passed := s.rtc.passed &&& ~~~(v.extractLsb' 8 4) } })

/-- At the start of a second a disciplined calendar is compared with device time, and stepped when more than 50 ms apart; an alarm whose time is
reached fires; a stopped crystal sets OSC_STOP and the calendar holds; a restarted one counts on; a backup power-up gives the backup domain its reset
values; the battery is measured when due, and VBAT_SWITCH switches the rails off, leaves MG without its supply and stamps the first switch since the
flag was cleared; a freeze ends after 2 ms. (R478, R479, R480, R483, R486, R487) -/
def Obligations.CalendarEventsComplete : Prop :=
  (∀ s, s.rtc.cal.subsec = 0 → s.power.vstby = true → s.rtc.crystal = true →
    (disciplined s = false → exec .rtcSecond s = .next { s with rtc := { s.rtc with disc := false } }) ∧
    (disciplined s = true → let d := discDelta s
      let t := { s with rtc := { s.rtc with lastD := d, disc := withinTick d } }
      (50000000 < d.natAbs → inCalendar (utcFine s) = true → exec .rtcSecond s = .next (adjust 2 (utcFine s).toNat t)) ∧
      (d.natAbs ≤ 50000000 → exec .rtcSecond s = .next t))) ∧
  (∀ (n : Fin 4) s, (alarm s n.val).armed = true → calTicks (alarm s n.val).time ≤ calTicks s.rtc.cal →
    exec (.rtcAlarm n) s = .next (fireAlarm n.val 0 s)) ∧
  (∀ s, s.power.vstby = true → exec .oscStopDetect s = .next (raise 0xC8 []
    { s with rtc := { s.rtc with crystal := false, oscStop := true } })) ∧
  (∀ s, s.power.vstby = false → exec .oscStopDetect s = .next
    { s with rtc := { s.rtc with crystal := false, oscStop := true, oscEvent := true } }) ∧
  (∀ s, exec .oscRestart s = .next { s with rtc := { s.rtc with crystal := true } }) ∧
  (∀ s, exec .backupPowerUp s = .next (setOscStop { s with rtc := { s.rtc with
    cal := {}, phase := 0, trim := 0, oscStop := true, ended := false, utcOfs := 37, alarms := [], badWrite := false
    vbatSeen := false, fired := 0, passed := 0, vbatTs0 := 0, vbatTs1 := 0, onVbat := !s.power.vstby
    vbatEvent := false, leapHeld := false } })) ∧
  (∀ (mv : Nat) s, s.power.vstby = true → s.rtc.vbatAt = none → let t := { s with rtc := { s.rtc with
      vbatAt := some s.refNs, vbatLow := decide (mv < 2200) } }
    (mv < 2200 → exec (.vbatMeasure mv) s = .next (raise 0xC7 [] t)) ∧ (2200 ≤ mv → exec (.vbatMeasure mv) s = .next t)) ∧
  (∀ s, s.power.vstby = true → let t := railsOff s
    exec .vbatSwitch s = .next { t with
      power := { t.power with vstby := false, onReq := none }, host := {}, sb := { sba := t.sb.sba }, regs := {}
      evt := { t.evt with alert := false }, recorder := { slots := t.recorder.slots, topSeq := t.recorder.topSeq }
      rtc := { t.rtc with onVbat := true, vbatEvent := true, vbatSeen := true
                          vbatTs0 := if t.rtc.vbatSeen then t.rtc.vbatTs0 else calT0 t.rtc.cal
                          vbatTs1 := if t.rtc.vbatSeen then t.rtc.vbatTs1 else calT1 t.rtc.cal } }) ∧
  (∀ p s f, fget s.rtc.freeze (portCode p) = some f → 2000000 ≤ since s f.at' → exec (.rtcFreezeTimeout p) s = .next (endFreeze p s))

/-- CMD_PNL_CONFIG takes the configuration and clears a bias fault; CMD_PNL_WRITE writes pixels or reloads the shown image and takes the expected CRC;
CMD_PNL_UPDATE compares the frame memory and the band, then starts the update or refuses it with its cause; CMD_PNL_STATUS answers; an accepted
PNL_CTRL write applies; at a frame boundary every update takes its frame; the bias is checked, retried and switched off; the frame memory is compared
every 10 s. (R501, R502, R506, R507, R508, R509, R510, R511, R517) -/
def Obligations.PanelCommandsAndEventsComplete : Prop :=
  (∀ r s, accepted specPnlConfig r s = true → let t := begun specPnlConfig r s
    let p := bodyOf r
    let u := { t with panel := { t.panel with
      cfg := { width := getLE p 0 2, height := getLE p 2 2, frameHz := getLE p 4 1, tempPoint := getLE p 6 4,
               bands := (upto 7).map fun i => getSLE p (10 + 2 * i) 2, biasHold := getLE p 24 2 }
      biasFault := false
      biasRetry := if t.panel.biasFault && t.panel.inflight.any (·.interrupted) then some 0 else t.panel.biasRetry } }
    exec (.cmdPnlConfig r) s = .next (finishOk 0x0B01 r [] (if newGeometry p t then keepFrameCrc u else u))) ∧
  (∀ r s, accepted specPnlWrite r s = true → let t := begun specPnlWrite r s
    let p := bodyOf r
    let u := if isReload p then { t with panel := { t.panel with frameMem := t.panel.shown, frameBad := false } }
      else { t with panel := { t.panel with
        frameMem := writePixels (getLE p 0 2) (getLE p 2 2) (getLE p 4 2) (p.drop 12) t.panel.frameMem } }
    exec (.cmdPnlWrite r) s = .next (finishOk 0x0B02 r [] { u with panel := { u.panel with expCrc := some (frameCrc u) } })) ∧
  (∀ r s, accepted specPnlUpdate r s = true → let b := begun specPnlUpdate r s
    let p := bodyOf r
    let q : Rect := { x := getLE p 0 2, y := getLE p 2 2, w := getLE p 4 2, h := getLE p 6 2 }
    let t := updateBand (compareFrame (frameExpected b) b)
    let u : PnlUpd := { id := t.panel.nextId, rect := q, band := t.panel.band, repair := false, target := (rectPixels q).map (level t.panel.frameMem), frame := 0, interrupted := false }
    exec (.cmdPnlUpdate r) s = .next (match updateCause t q with
      | some c => finish 0x0B03 r stBusy 0 [] (raiseC 0xD1 [(c : Int)] c t)
      | none => finishOk 0x0B03 r (putLE 4 u.id ++ [byte u.band, 0] ++ putLE 2 (bandTab t u.band).maxLen)
        { t with panel := { t.panel with
          inflight := t.panel.inflight ++ [u], nextId := (t.panel.nextId + 1) % 2 ^ 32
          history := recentRects t ++ [(q, t.refNs)], biasOn := t.panel.biasRetry.isNone || t.panel.biasOn
          biasAt := if t.panel.biasOn then t.panel.biasAt else t.refNs } })) ∧
  (∀ r s, accepted specPnlStatus r s = true → let t := begun specPnlStatus r s
    exec (.cmdPnlStatus r) s = .next (finishOk 0x0B04 r (putLE 4 (pnlStatus t).toNat ++ putLE 4 (expectedCrc t).toNat ++
      [byte (nmax (t.panel.account.map fun e => e.2.natAbs))] ++ zeros 3 ++
      padTo 64 ((t.panel.inflight.take 4).flatMap flightEntry)) t)) ∧
  (∀ p v s, writePasses p 0x1104 s → exec (.pnlCtrlEnable p v) s = .next (cfgSet 0x1104 v s)) ∧
  (∀ s, inService s idPN = true → s.panel.biasOn = true → s.panel.biasBad = [] → s.panel.stopped = false →
    framePeriod s ≤ since s s.panel.frameAt →
    let t := updateBand s
    exec .pnlFrame s = .next (framesOf (flying t) { t with panel := { t.panel with frameAt := t.refNs } })) ∧
  (∀ (out : List (Fin 8)) s, s.panel.biasOn = true → 1000000 ≤ since s s.panel.biasAt → let rails := out.map (·.val)
    (rails.find? (fun k => s.panel.biasBad.contains k) = none → exec (.pnlBiasCheck out) s =
      .next { s with panel := { s.panel with biasBad := rails, biasAt := s.refNs } }) ∧
    (∀ k, rails.find? (fun k => s.panel.biasBad.contains k) = some k → let t := interruptUpdates s
      exec (.pnlBiasCheck out) s = .next (raise 0xD4 [(k : Int)] { t with panel := { t.panel with
        biasOn := false, biasBad := [], biasRetry := some 0, biasAt := t.refNs } }))) ∧
  (∀ s n, s.panel.biasRetry = some n → 1000000000 ≤ since s s.panel.biasAt →
    exec (.pnlBiasRetry true) s = .next (pnlRepair { s with panel := { s.panel with
      biasOn := true, biasBad := [], biasRetry := none, biasAt := s.refNs } }) ∧
    (n < 2 → exec (.pnlBiasRetry false) s = .next { s with panel := { s.panel with biasRetry := some (n + 1), biasAt := s.refNs } }) ∧
    (2 ≤ n → let t := interruptUpdates s
      exec (.pnlBiasRetry false) s =
        .next { t with panel := { t.panel with biasRetry := none, biasFault := true, biasAt := t.refNs } })) ∧
  (∀ s, s.panel.biasOn = true → flying s = [] → s.panel.cfg.biasHold * 1000000 ≤ since s s.panel.endedAt →
    exec .pnlBiasOff s = .next { s with panel := { s.panel with biasOn := false, biasBad := [] } }) ∧
  (∀ l s, inService s idPN = true → 10000000000 ≤ since s s.panel.crcAt → let w := s.panel.cfg.width
    exec (.pnlCrcCheck l) s = .next (updateBand (compareFrame (frameExpected s) { s with panel := { s.panel with crcAt := s.refNs, frameMem := upsetBytes w (l.filter fun u => u.1 < w * s.panel.cfg.height / 4) s.panel.frameMem } })))

/-- CMD_KEY_UPDATE starts on its way a message that no check of R532 refuses, with the key set, the slots and the revocations that its entries give; a
refused one raises KEY_UPDATE_REJECTED with its cause and changes no key. CMD_KEY_STATUS and CMD_IDENTITY answer. CMD_LC_CHANGE starts the transition
of R521 on its way. A stage that is due comes: a key update commits its new key set, and at its end stores the counter, seals KEY_UPDATED and the
revocations and completes; a transition at its commit enters its state with its root alone, and at its end completes and orders the main-side cold
reset 10 ms ahead. (R520, R521, R522, R532, R533, R535, R537, R538) -/
def Obligations.KeyCommandsComplete : Prop :=
  (∀ r s, accepted specKeyUpdate r s = true → let p := bodyOf r
    let t := begun specKeyUpdate r s
    exec (.cmdKeyUpdate r) s = .next (match updRefusal p t with
      | some (cause, st, d) => finish 0x0C01 r st d [] (raiseC 0xE1 [(cause : Int), (getLE p 64 4 : Int)] cause t)
      | none => match applyEntries t (getLE p 64 4) { slots := t.keys.slots, written := [], freed := [], revoked := [] }
            (indexed 0 ((upto (getLE p 7 1)).map (updEntry p))) with
        | none => t
        | some u => startKeyOp (.update (BitVec.ofNat 32 (getLE p 64 4)) (getLE p 7 1) u.slots u.written u.freed u.revoked) 0x0C01 r t)) ∧
  (∀ r s, accepted specKeyStatus r s = true → let p := bodyOf r
    let t := begun specKeyStatus r s
    exec (.cmdKeyStatus r) s = .next (finishOk 0x0C02 r ([byte (lcCode t.keys.lc)] ++ zeros 3 ++ putLE 4 t.keys.updCnt.toNat ++
      putLE 4 t.keys.privCnt.toNat ++ putLE 2 t.keys.slots.length ++ zeros 2 ++
      (upto (getLE p 1 1)).flatMap fun i => keyEntry t (getLE p 0 1 + i)) t)) ∧
  (∀ r s, accepted specIdentity r s = true → let t := begun specIdentity r s
    exec (.cmdIdentity r) s = .next (finishOk 0x0C03 r (putLE 8 t.keys.serial.toNat ++ [byte (lcCode t.keys.lc)] ++ zeros 7 ++
      padTo 96 (t.keys.identity.getD []) ++ padTo 48 (idHash t) ++ baseMac t ++ zeros 2) t)) ∧
  (∀ r s target root, accepted specLcChange r s = true → let p := bodyOf r
    let t := begun specLcChange r s
    transitionTo t.keys.lc (getLE p 0 1) = some (target, root) →
    exec (.cmdLcChange r) s = .next (startKeyOp (.transition target (slice p 4 96)) 0x0C10 r t)) ∧
  (∀ s o, s.keys.op = some o → s.power.mainUp = true → inService s idKB = true → o.req.isSome = true → o.due ≤ s.refNs → keyTick s = keyStep o s) ∧
  (∀ (o : KeyOp) (s : State) counter n slots written freed revoked, o.work = .update counter n slots written freed revoked →
    (o.stage = .begun → keyStep o s = enterStage o .committed (commitSlots slots written revoked s) ∧ (keyStep o s).keys.slots = slots) ∧
    (o.stage = .committed → keyStep o s = finishOpt 0x0C01 o.req stOk 0 (putLE 4 counter.toNat ++ putLE 2 written.length ++ putLE 2 freed.length)
      (restBrick idKB (sealUpdate counter n written freed revoked s)))) ∧
  (∀ (o : KeyOp) (s : State) target root, o.work = .transition target root → o.stage = .begun → target ≠ .retired →
    (keyStep o s).keys.lc = target ∧ (keyStep o s).keys.slots = rootSlots s target root ∧ (keyStep o s).keys.privCnt = 0 ∧
      (keyStep o s).keys.epochs = [0, 0, 0, 0] ∧ (keyStep o s).keys.debug = false) ∧
  (∀ (o : KeyOp) (s : State) target root, o.work = .transition target root → o.stage = .committed →
    let t := { s with keys := { s.keys with op := none }, power := { s.power with resetDue := some (s.refNs + 10000000), restartKind := 0 } }
    keyStep o s = openDebug (finishOpt 0x0C10 o.req stOk 0 [] (restBrick idKB t)))

/-- CMD_FWU_OPEN opens a session, breaking a lock when it is forced; CMD_FWU_DATA appends its data; CMD_FWU_VERIFY starts the build of a package that
passes checks 1 to 6, fails on the first check that does not pass, or joins a build that runs; CMD_FWU_ACTIVATE waits for the activation;
CMD_FWU_CONFIRM ends the trial and raises the minimum SVNs; CMD_FWU_CLOSE ends the session; CMD_FWU_STATUS answers and changes nothing else. (R543,
R544, R545, R546, R547, R548, R554, R558) -/
def Obligations.FirmwareCommandsComplete : Prop :=
  (∀ r s, accepted specFwuOpen r s = true → let p := bodyOf r
    let x : Session := { st := .downloading, port := originPort r.origin, slot := originSlot r.origin, tag := r.tag, kind := getLE p 0 1
                         total := getLE p 4 4, received := [] }
    exec (.cmdFwuOpen r) s = .next (finishOk 0x0D01 r [] (raise 0xE6 [(portCode (originPort r.origin) : Int), (getLE p 0 1 : Int)]
      (setFwu (fun w => { w with session := some x }) (breakSession (begun specFwuOpen r s)))))) ∧
  (∀ r s x, accepted specFwuData r s = true → let p := bodyOf r
    let t := begun specFwuData r s
    t.fwu.session = some x → exec (.cmdFwuData r) s = .next (finishOk 0x0D02 r (putLE 4 (x.received ++ p.drop 8).length)
      (setFwu (fun w => { w with session := some { x with received := x.received ++ p.drop 8 } }) t))) ∧
  (∀ r s x, accepted specFwuVerify r s = true → let t := begun specFwuVerify r s
    t.fwu.session = some x →
    let n := blocksOf (parseManifest (pkgManifest x.received))
    let v := afterChecks (packageFault t x) x.received (pkgSig x.received) t
    let u := setSession (fun x => { x with st := .building }) (putIdle {} .incomplete v)
    exec (.cmdFwuVerify r) s = .next (match t.fwu.build with
      | some b => holdCmd 0x0D03 r (setFwu (fun w => { w with build := some { b with req := some r } }) t)
      | none => match packageFault t x with
        | some k => failVerify k (some r) v
        | none => holdCmd 0x0D03 r (setFwu (fun w => { w with
            build := some { blocks := 0, total := n, active := true, from' := u.refNs, req := some r }, progress := (0, n) }) u))) ∧
  (∀ r s, accepted specFwuActivate r s = true →
    exec (.cmdFwuActivate r) s = .next (holdCmd 0x0D04 r (askActivation (some r) (begun specFwuActivate r s)))) ∧
  (∀ r s, accepted specFwuConfirm r s = true → let t := begun specFwuConfirm r s
    let up := raisedSvns t
    let rel : Nat := ((runSlot t).manifest.map fun m => m.release.toNat).getD 0
    let u := setFwu (fun w => { w with trial := false, trialBoots := 0, trialSecs := 0, trialCount := 0
                                       minSvn := confirmedSvns t, bootGen := w.bootGen + 1 }) t
    exec (.cmdFwuConfirm r) s = .next (finishOk 0x0D05 r (putLE 4 rel ++ [byte up.length, 0, 0, 0])
      (sealRaised up (writeNewest 0xEA (raise 0xEA [(rel : Int)] u))))) ∧
  (∀ r s, accepted specFwuClose r s = true → exec (.cmdFwuClose r) s =
    .next (finishOk 0x0D06 r [] (setFwu (fun w => { w with session := none }) (stopBuild (begun specFwuClose r s))))) ∧
  (∀ r s, accepted specFwuStatus r s = true → ∃ d, exec (.cmdFwuStatus r) s = .next (finishOk 0x0D07 r d (begun specFwuStatus r s)) ∧
    d.length = 32)

/-- Accepted, CMD_FWU_OPEN goes on to a state whose session is empty and DOWNLOADING, CMD_FWU_DATA to one whose session has its data at the end,
CMD_FWU_VERIFY of a package that passes its checks to one in which the build runs from block 0, CMD_FWU_ACTIVATE to one that holds the activation,
CMD_FWU_CONFIRM to one without a trial and with the minimum SVNs of the confirmed slot, CMD_FWU_CLOSE to one without a session. FWU_LIVE_ACTIVATION
does steps 3 to 8 of R549 at a Main boundary, or drops an activation whose role exchange did not come about; an interrupted build resumes; a trial of
86 400 s asks for the previous slot; the trial seconds are written every hour. (R543, R544, R545, R546, R547, R548, R549, R553, R554, R558) -/
def Obligations.FirmwareEventsComplete : Prop :=
  (∀ r s, accepted specFwuOpen r s = true → ∃ t x, exec (.cmdFwuOpen r) s = .next t ∧ t.fwu.session = some x ∧ x.st = .downloading ∧
    x.kind = getLE (bodyOf r) 0 1 ∧ x.total = getLE (bodyOf r) 4 4 ∧ x.received = []) ∧
  (∀ r s x, accepted specFwuData r s = true → (begun specFwuData r s).fwu.session = some x → ∃ t, exec (.cmdFwuData r) s = .next t ∧
    t.fwu.session = some { x with received := x.received ++ (bodyOf r).drop 8 }) ∧
  (∀ r s x, accepted specFwuVerify r s = true → (begun specFwuVerify r s).fwu.session = some x →
    (begun specFwuVerify r s).fwu.build = none → packageFault (begun specFwuVerify r s) x = none →
    ∃ t b, exec (.cmdFwuVerify r) s = .next t ∧ t.fwu.build = some b ∧ b.req = some r ∧ b.active = true ∧ b.blocks = 0 ∧
      b.total = blocksOf (parseManifest (pkgManifest x.received)) ∧ t.fwu.session = some { x with st := .building }) ∧
  (∀ r s, accepted specFwuActivate r s = true → ∃ t, exec (.cmdFwuActivate r) s = .next t ∧
    t.fwu.activate = some { req := some r, inPlace := !activeSynced (begun specFwuActivate r s) }) ∧
  (∀ r s, accepted specFwuConfirm r s = true → ∃ t, exec (.cmdFwuConfirm r) s = .next t ∧ t.fwu.trial = false ∧
    t.fwu.minSvn = confirmedSvns (begun specFwuConfirm r s)) ∧
  (∀ r s, accepted specFwuClose r s = true → ∃ t, exec (.cmdFwuClose r) s = .next t ∧ t.fwu.session = none ∧ t.fwu.build = none) ∧
  (∀ us s a m, s.fwu.activate = some a → idleManifest s = some m → s.power.ready = true → s.pair.exchange = none →
    devNs s % (Nat.max (cls s 1).periodUs 1 * 1000) ≤ 2000 →
    (a.inPlace = true ∨ s.pair.role ≠ .active → exec (.fwuLiveActivation us) s = .next (liveActivation a m us s)) ∧
    (a.inPlace = false → s.pair.role = .active → exec (.fwuLiveActivation us) s = .next (dropActivation a s))) ∧
  (∀ s b, s.fwu.build = some b → s.power.ready = true → b.active = false → exec .fwuBuildResume s =
    .next (raise 0xEC [(b.blocks : Int)] (setFwu (fun w => { w with
      build := some { b with active := true, from' := s.refNs }, progress := (b.blocks, b.total) }) s))) ∧
  (∀ s m, s.power.ready = true → s.fwu.trial = true → 86400 ≤ trialSeconds s → s.fwu.activate = none → s.fwu.activating = none →
    idleManifest s = some m → activateRefusal m false s = none → exec .fwuTrialTimeout s = .next (askActivation none s)) ∧
  (∀ s, s.power.mainUp = true → s.fwu.trial = true → s.fwu.trialSecs + 3600 ≤ trialSeconds s → exec .trialSecondsWrite s =
    .next (setFwu (fun w => { w with trialSecs := trialSeconds s, bootGen := w.bootGen + 1 }) s))

/-- CMD_TEST_ENTER enters test mode, or answers at once in it; CMD_TEST_EXIT aborts the loop and orders the cold reset 10 ms ahead; CMD_LOOPBACK
starts a loop, or refuses one that R469 denies; LOOPBACK_END completes it with its counts; CMD_BIST_RUN runs the self-check or every group;
CMD_BIST_STATUS answers. (R469, R471, R472, R473, R474, R475, R477) -/
def Obligations.TestCommandsComplete : Prop :=
  (∀ r s, accepted specTestEnter r s = true → let t := begun specTestEnter r s
    exec (.cmdTestEnter r) s = .next (finishOk 0x0E01 r [] (if t.test.test then t else enterTest t))) ∧
  (∀ r s, accepted specTestExit r s = true → let t := raise 0xF1 [] (abortLoopback (begun specTestExit r s))
    exec (.cmdTestExit r) s = .next (finishOk 0x0E02 r []
      { t with power := { t.power with resetDue := some (t.refNs + 10000000), restartKind := 0 } })) ∧
  (∀ r s, accepted specLoopback r s = true → let t := begun specLoopback r s
    let l := askedLoop r (bodyOf r) t
    exec (.cmdLoopback r) s = .next (if loopRefused l t then finish 0x0E10 r stDenied 7 [] (raise 0xF6 (loopParams l) t)
      else holdCmd 0x0E10 r { t with test := { t.test with loop := some l } })) ∧
  (∀ x s l, s.test.loop = some l → loopOver s l x = true → let t := rcAdd 0x1514 1 { s with test := { s.test with loop := none } }
    let u := if l.iface = 2 then startNext (l.index % 4) t else t
    let d := putLE 4 x.sent ++ putLE 4 x.received ++ putLE 4 x.errors ++ putLE 4 x.maxLatency ++ [byte (loopResult x), 0, 0, 0]
    (loopResult x = 0 → exec (.loopbackEnd x) s = .next (finishOk 0x0E10 l.req d (raise 0xF4 [] u))) ∧
    (loopResult x ≠ 0 → exec (.loopbackEnd x) s =
      .next (finishOk 0x0E10 l.req d (raise 0xF5 (loopParams l ++ [(x.errors : Int)]) (rcAdd 0x1518 1 u))))) ∧
  (∀ r o s, accepted (specBistRun o) r s = true → let t := begun (specBistRun o) r s
    let v := setPair (fun x => { x with selfCheck := true, bistReq := some r }) t
    let u := selfTest o t
    exec (.cmdBistRun r o) s = .next (if getLE (bodyOf r) 0 1 = 0 then holdCmd 0x0E11 r { v with test := { v.test with bist := true } }
      else finishOk 0x0E11 r (bistBytes u) { u with test := { u.test with dramGone := true } })) ∧
  (∀ r s, accepted specBistStatus r s = true → let t := begun specBistStatus r s
    exec (.cmdBistStatus r) s = .next (finishOk 0x0E12 r (bistBytes t ++ putLE 4 t.test.runs ++ putLE 4 t.test.fails) t))

/-- A passed doorbell rings its slot; a fragment with a valid PEC is taken, one with a bad PEC is answered with a NACK and counted; FRAG_READ and
SB_STATUS send their bytes and change nothing else; a reassembly idle for 100 ms is abandoned; an alert response releases ALERT_N; link down and up
set the link, the slots and their events; BAR2 writes and reads slot memory. (R383, R384, R389, R391, R394, R400, R402, R403, R562) -/
def Obligations.TransportEventsComplete : Prop :=
  (∀ v s, writePasses .pcie 0x030 s → exec (.hifDoorbell v) s = .next (ringDoorbell v s)) ∧
  (∀ (f : Byte) (o : W16) d s, sbAlive s = true → exec (.fragWrite f o d true) s = .next (fragment f o.toNat d s)) ∧
  (∀ (f : Byte) (o : W16) d s, sbAlive s = true →
    exec (.fragWrite f o d false) s = .next (emit .sbNack (raise 0x0C [] (rcAdd 0x160C 1 s)))) ∧
  (∀ (o : W16) pec s, sbAlive s = true → exec (.fragRead o pec) s = .next (emit (.sbRead (fragBytes s o.toNat)) s)) ∧
  (∀ s, sbAlive s = true → exec .sbStatus s = .next (emit (.sbRead (sbStatusBytes s)) s)) ∧
  (∀ s, s.power.vstby = true → inService s idMG = true → s.sb.st = .receiving → 100000000 ≤ since s s.sb.fragAt →
    exec .sbmReassemblyTimeout s = .next (abandon 5 s)) ∧
  (∀ s, sbAlive s = true → s.evt.alert = true → exec .alertResponseRead s =
    .next (emit (.alertAddress (0x58 + s.sb.sba.toNat)) { s with evt := { s.evt with alert := false } })) ∧
  (∀ s, portAlive s .pcie = true → exec (.hostLinkDown .functionReset) s = .next (idleSlots s)) ∧
  (∀ k s, portAlive s .pcie = true → k ≠ .functionReset → let t := idleSlots s
    exec (.hostLinkDown k) s = .next (raise 0x07 [] { t with host := { t.host with linkUp := false } })) ∧
  (∀ s, s.power.mainUp = true → inService s idPX = true → s.host.linkUp = false →
    exec .hostLinkUp s = .next (raise 0x06 [] { s with host := { s.host with linkUp := true } })) ∧
  (∀ o be v s, portAlive s .pcie = true → inService s idPX = true → let off := o / 4 * 4
    exec (.bar2Access true o be v) s = .next (bar2Write off be v s) ∧ exec (.bar2Access false o be v) s = .next (bar2Read off be s))

/-- A read of one doubleword through a live port sends the value the register reader answers and leaves the state it leaves: read-clear registers,
latching pairs, PTP_TIME_LO, RTC_T0, RTC_T1, REC_DATA0 and REC_DATA15. A port that is not alive reads nothing. (R5, R339, R364, R371, R488, R495) -/
def Obligations.RegisterReadsComplete : Prop :=
  (∀ p (o : W16) be s, portAlive s p = true → let x := readDw p o.toNat be s
    exec (.readClearRegister p o be) s = .next (emit (.regRead p o.toNat x.1) x.2) ∧
    exec (.latchingLoRead p o be) s = .next (emit (.regRead p o.toNat x.1) x.2)) ∧
  (∀ p s, portAlive s p = true → let x := readDw p 0xE10 15 s
    exec (.ptpTimeLoRead p) s = .next (emit (.regRead p 0xE10 x.1) x.2)) ∧
  (∀ p s, portAlive s p = true → let x := readDw p 0xF10 15 s
    exec (.rtcT0Read p) s = .next (emit (.regRead p 0xF10 x.1) x.2)) ∧
  (∀ p s, portAlive s p = true → let x := readDw p 0xF14 15 s
    exec (.rtcT1Read p) s = .next (emit (.regRead p 0xF14 x.1) x.2)) ∧
  (∀ p s, portAlive s p = true → let x := readDw p 0x1040 15 s
    exec (.recData0Read p) s = .next (emit (.regRead p 0x1040 x.1) x.2)) ∧
  (∀ p s, portAlive s p = true → let x := readDw p 0x107C 15 s
    exec (.recData15Read p) s = .next (emit (.regRead p 0x107C x.1) x.2)) ∧
  (∀ p (o : W16) be s, portAlive s p = false → exec (.readClearRegister p o be) s = .next s ∧ exec (.latchingLoRead p o be) s = .next s)

/-- A write request through a live port is judged doubleword by doubleword; a posted write of a brick in service is applied and BUSY clears, at a
brick that ran 0.2 µs after it at the least; accepted writes of HIF_CTRL, lock registers, EVT_PENDn, HIF_CMPL and EVT_ROUTEn have the effect of R372,
R376, R380 to R383 and R391; a write of LOOP_CTRL applies. (R5, R168, R366, R372, R376, R380, R381, R382, R383, R391) -/
def Obligations.RegisterWritesComplete : Prop :=
  (∀ p (o : W16) l s, portAlive s p = true → exec (.registerWrite p o l) s = .next (writeRequest p (o.toNat / 4 * 4) l s)) ∧
  (∀ (b : W16) s x rest, takePosted b.toNat s.regs.posted = some (x, rest) → x.ran = false ∨ 200 ≤ since s x.setAt →
    inService s (((blockAt b.toNat).map (·.brick)).getD 0) = true →
    exec (.postedWriteApplied b) s = .next (applyDws x.port x.dws { s with regs := { s.regs with posted := rest } })) ∧
  (∀ p v s, writePasses p 0x014 s → exec (.sigEnClear p v) s = .next (applyHifCtrl p v s) ∧
    exec (.sigEnSet p v) s = .next (applyHifCtrl p v s) ∧ exec (.evtMsgEnSet p v) s = .next (applyHifCtrl p v s)) ∧
  (∀ p (o : W16) v s i, regInfo o.toNat = some i → i.acc = .rwl → writePasses p o.toNat s →
    let new' := cfgGet s o.toNat ||| (v &&& i.mask)
    (new' = cfgGet s o.toNat → exec (.lockBitSet p o v) s = .next s) ∧
    (new' ≠ cfgGet s o.toNat → exec (.lockBitSet p o v) s = .next (raise 0x05 [(o.toNat : Int)] (cfgSet o.toNat new' s)))) ∧
  (∀ p (n : Fin 8) v s, writePasses p (0x120 + 4 * n.val) s → exec (.evtPendClear p n v) s =
    .next { s with evt := { s.evt with pend := s.evt.pend &&& ~~~((v.zeroExtend 256) <<< (32 * n.val)) } }) ∧
  (∀ p hi v s, writePasses p (0x034 + 4 * b2n hi) s → exec (.hifCmplClear p hi v) s =
    .next { s with host := { s.host with cmpl := s.host.cmpl &&& ~~~((v.zeroExtend 64) <<< (32 * b2n hi)) } }) ∧
  (∀ p (n : Fin 256) v s, writePasses p (0x400 + 4 * n.val) s →
    exec (.evtRouteWrite p n v) s = .next (alertSettle (cfgSet (0x400 + 4 * n.val) v s))) ∧
  (∀ p v s, writePasses p 0xA04 s → exec (.loopCtrlRun p v) s = .next (cfgSet 0xA04 v s))

/-- The feeder queue is pushed in issue order; an idle engine selects; a steal request wakes its victim, is held by one in TRANSITION and is otherwise
answered with an entry or none, and the thief takes it or goes on searching; a completed unit is settled and either enters its cycle, is staged for
its vote or, of Background, takes effect on the live records (the model's choice of instant, log entry 49); the oldest staged hash reaches SV; a
released staging area completes the unit; a hung engine and one that fails its checks are fenced with their events. (R71, R74, R77, R79, R80, R81,
R88, R89, R92) -/
def Obligations.EngineEventsComplete : Prop :=
  (∀ s, exec .feederPush s = .next (drainFeeder s.work.feeder { s with work := { s.work with feeder := [] } })) ∧
  (∀ (e : EngineId) s, (engine s e.val).idle = true → exec (.engineWake e) s = .next (selectWork e.val s)) ∧
  (∀ (e : EngineId) (v : Fin 16) (c : Fin 5) s q, (engine s e.val).search = some q → q.cls = c.val → Nat.xor (e.val / 4) q.dist = v.val →
    (engine s e.val).grant = none → engineUp s e.val = true →
    (inService s v.val = false → exec (.stealRequest e v c) s = .next (setEngine e.val (fun y => { y with grant := some none }) s)) ∧
    (inService s v.val = true → let t := wakeBrick v.val s
      let f := fullestEngine t v.val q.cls
      (atPoint (brick t v.val) = false → exec (.stealRequest e v c) s = .next t) ∧
      (∀ x, atPoint (brick t v.val) = true → topEntry (engine t f) q.cls (e.val / 4) (q.barred.contains q.cls) = some x →
        exec (.stealRequest e v c) s = .next (setEngine e.val (fun y => { y with grant := some (some x) }) (offDeque f x t))) ∧
      (atPoint (brick t v.val) = true → topEntry (engine t f) q.cls (e.val / 4) (q.barred.contains q.cls) = none →
        exec (.stealRequest e v c) s = .next (setEngine e.val (fun y => { y with grant := some none }) t)))) ∧
  (∀ (e : EngineId) s q, (engine s e.val).search = some q → engineUp s e.val = true →
    (∀ x, (engine s e.val).grant = some (some x) → exec (.stealGrant e) s = .next (takeEntry e.val x true s)) ∧
    ((engine s e.val).grant = some none → let t := setEngine e.val (fun y => { y with search := none, grant := none }) s
      (q.dist < 15 → exec (.stealGrant e) s =
        .next (selectFrom e.val q.barred (q.dist + 1) ((upto 5).filter fun k => decide (q.cls ≤ k)) t)) ∧
      (15 ≤ q.dist → exec (.stealGrant e) s =
        .next (selectFrom e.val q.barred 0 ((upto 5).filter fun k => decide (q.cls < k)) t)))) ∧
  (∀ (e : EngineId) o s x u, (engine s e.val).running = some x → engineUp s e.val = true → (engine s e.val).stopping = false →
    runEntry s x o.upset = some u →
    let t := unitEvents x.cls x.unit u (setLine x (fun l => { l with done := true }) (engineDone e.val x u.traps o.spent s))
    (x.cls ≠ 4 → x.role = 0 → exec (.unitComplete e o) s =
      .next (selectWork e.val (unitDone x.cls x.unit (setCycle x.cls (mergeResult u.writes u.states) t)))) ∧
    (x.cls ≠ 4 → x.role ≠ 0 → let g : Staged := { engine := e.val, hash := resultHash u, writes := u.writes, states := u.states }
      exec (.unitComplete e o) s = .next (selectWork e.val (setEngine e.val (fun y => { y with hashOut := y.hashOut ++ [(x, g)] }) t))) ∧
    (x.cls = 4 → exec (.unitComplete e o) s = .next (selectWork e.val (backDone x u t)))) ∧
  (∀ (e : EngineId) s x g r, (engine s e.val).hashOut = (x, g) :: r →
    exec (.resultHash e) s = .next (takeHash x g (setEngine e.val (fun y => { y with hashOut := r }) s))) ∧
  (∀ (c : PClass) u s v g, (s.work.votes.find? fun v => v.cls = c.val && v.unit = u && v.release.isSome && !v.discard) = some v →
    v.release = some g → exec (.stagingCopyDone c u) s =
    .next (unitDone c.val u (setCycle c.val (mergeResult g.writes g.states) (dropVote c.val u v.stamp s)))) ∧
  (∀ (e : EngineId) s x, (engine s e.val).running = some x → engineUp s e.val = true →
    (engine s e.val).startClk + 20 * ((entryUnit s x).map (·.worstClocks)).getD 0 ≤ brickClocks s (e.val / 4) →
    exec (.engineHung e) s = .next (fenceEngine e.val .hung (raise 0x30 [(e.val : Int), (x.unit : Int)] s))) ∧
  (∀ (e : EngineId) s, engineUp s e.val = true →
    exec (.engineCheck e) s = .next (fenceEngine e.val .check (raise 0x31 [(e.val : Int)] s)))

/-- At a period start what is due takes effect (forces, programs, a problem, a model, a plan), and the marks of that instant follow in the order Fast,
Main, Slow, Optimise up to the class's own, each class counting its starts and running what R34 says; a start whose mark would come later than 2 µs
only counts, as skipped; a producer's acknowledgement within 20 µs of the mark enters the snapshot, and the last one closes it; 20 µs after the mark
the snapshot closes without the missing producers; a cycle past its deadline is late; a cycle two periods old is abandoned, and the class goes to HOLD
or, the third time in a row, to SAFE; a retentive half becomes valid when its write is done. (R22, R32, R33, R34, R35, R41, R42, R43, R44, R422) -/
def Obligations.CycleEventsComplete : Prop :=
  (∀ (c : PClass) s, s.power.ready = true → inService s idSV = true → let a := adoptCfgs (devNs s) (upto (c.val + 1)) s
    let p := Nat.max (cls a c.val).periodUs 1 * 1000
    let t := devNs a / p * p
    let k := cls a c.val
    (devNs s - t ≤ 2000 → exec (.classPeriodStart c) s =
      .next (marksAt t (upto (c.val + 1)) (startHelds [0, 1, 2, 3] (beforeMarks t a)))) ∧
    (2000 < devNs s - t → later 64 k.lastStart t = false → k.zero = false → exec (.classPeriodStart c) s = .next a) ∧
    (2000 < devNs s - t → later 64 k.lastStart t = true ∨ k.zero = true → let n := startsPassed k t
      exec (.classPeriodStart c) s = .next (noteSwitchCount c.val t (setCls c.val (fun x => { x with
        lastStart := t, zero := false, cycleCount := if x.zero then 0 else x.cycleCount + BitVec.ofNat 32 n
        overruns := sat32 (x.overruns + if k.zero then 0 else n) }) a)))) ∧
  (∀ s, s.power.ready = true → inService s idSV = true → let a := adoptClassCfg 0 (devNs s) s
    let t := lastStartOf a 0
    let b := startHelds [0, 1, 2, 3] (beforeMarks t a)
    let k := cls b 0
    devNs s - t ≤ 2000 → lastStartOf b 0 = t → later 64 k.lastStart t = true ∨ k.zero = true → let n := startsPassed k t
    exec (.classPeriodStart 0) s = .next (periodStart 0 t (setCls 0 (fun x => { x with
      lastStart := t, zero := false, cycleCount := if x.zero then 0 else x.cycleCount + BitVec.ofNat 32 n
      overruns := sat32 (x.overruns + if k.zero then 0 else n - 1) }) b))) ∧
  (∀ (c : PClass) (b : BrickId) s y, (cls s c.val).cycle = some y → y.phase = .marking → y.awaiting.contains b.val = true →
    inService s b.val = true → since s y.markAt ≤ 20000 → let t := setCycle c.val (fun x => { x with
      awaiting := x.awaiting.filter (fun z => decide (z ≠ b.val)), vector := if b.val = idNB then liveVector s else y.vector
      snap := takePoints s (producerPoints s b.val) x.snap }) s
    (y.awaiting = [b.val] → exec (.markAck c b) s = .next (closeSnapshot c.val t)) ∧
    (y.awaiting ≠ [b.val] → exec (.markAck c b) s = .next t)) ∧
  (∀ (c : PClass) s y, (cls s c.val).cycle = some y → y.phase = .marking → y.awaiting ≠ [] → 20000 ≤ since s y.markAt →
    exec (.snapshotTimeout c) s = .next (closeSnapshot c.val (raisePartial c.val y.awaiting s))) ∧
  (∀ (c : PClass) s y, (cls s c.val).cycle = some y → reached s (cycleDeadline y.stamp (cls s c.val).periodUs + 1) = true →
    exec (.cycleDeadline c) s = .next (setCycle c.val (fun y => { y with late := true }) s)) ∧
  (∀ (c : PClass) s y, (cls s c.val).cycle = some y → reached s (y.stamp + 2 * (cls s c.val).periodUs * 1000) = true →
    let t := setCls c.val (fun k => { k with abandons := sat32 (k.abandons + 1), abandonRow := k.abandonRow + 1 }) s
    let w := canCancelClass c.val (stopClass c.val (raise 0x27 [(c.val : Int), (y.count.toNat : Int)] t))
    let u := if (cls w c.val).restartSkip = some y.stamp then setCls c.val (fun k => { k with restartSkip := none }) w
      else endRestart c.val stTimeout w
    ((cls u c.val).abandonRow < 3 → exec (.cycleAbandon c) s = .next (setCls c.val (fun k => { k with st := .hold }) u)) ∧
    (3 ≤ (cls u c.val).abandonRow → exec (.cycleAbandon c) s =
      .next (raise 0x29 [(c.val : Int)] (setCls c.val (fun k => { k with st := .safe }) u)))) ∧
  (∀ s n h, s.power.mainUp = true → s.stores.writing = some (n, h) →
    let t := { s with stores := { s.stores with halves := fset s.stores.halves n h, writing := none } }
    (s.power.shutdown = none → exec .retainWriteDone s = .next t) ∧
    (∀ r, s.power.shutdown = some r → h.final = true → exec .retainWriteDone s = .next (endShutdown r t)) ∧
    (∀ r, s.power.shutdown = some r → h.final = false → exec .retainWriteDone s = .next (shutdownStopped t)))

/-- A quiet brick at an operating point banks after its delay; a packet wakes a banked brick once the main-side reset is released; the end of a
transition stops the clock of a quiet brick that banks, wakes one at the point it had (0.5 µs after the packet at the least), and otherwise reports
the ordered point; the handshakes held towards it then go on. (R101, R102) -/
def Obligations.BrickEventsComplete : Prop :=
  (∀ (b : BrickId) s, s.power.booted = true → atPoint (brick s b.val) = true → brickQuiet s b.val = true →
    bankDelay s b.val ≤ since s (brick s b.val).quietFrom →
    exec (.brickBank b) s = .next (setBrick b.val (fun y => { y with
      st := .transition, transAt := s.refNs, clk := clocksAt y s.refNs, clkAt := s.refNs, toBanked := true }) s)) ∧
  (∀ (b : BrickId) s, s.power.released = true → exec (.brickWake b) s = .next (wakeBrick b.val s)) ∧
  (∀ (v : SwitchTiming) s, (brick s v.brick.val).st = .transition →
    let x := brick s v.brick.val
    let y := intoPoint s.refNs (clocksAt x s.refNs) x.pt x
    let z := intoPoint s.refNs x.clk x.pt x
    let a := if x.toBanked then (if brickQuiet s v.brick.val then { x with st := .banked, toBanked := false }
        else if x.ordered = x.pt then y else intoTransition s.refNs y)
      else if x.waking then (if s.refNs - x.transAt < 500 then x else if x.ordered = x.pt then z else intoTransition s.refNs z)
      else intoPoint s.refNs (x.clk + switchClocks x v s.refNs) x.ordered x
    exec (.transitionComplete v) s = .next (if v.answered then servePorts v.brick.val (upto (portCount v.brick.val)) (setBrick v.brick.val (fun _ => a) s)
      else startWatchdogs v.brick.val (upto (portCount v.brick.val)) (setBrick v.brick.val (fun _ => a) s)))

/-- VSTBY_APPLIED is a standby cold reset; the rail sequence and its retry bring the main side up when R411 lets them; a rail fault and an overvoltage
take it down; BOOT_COMPLETE boots the slot that passes, or holds the main side off; the main watchdog resets the main side, or after five expiries in
600 s holds it off; RST_N resets it and its release lets it go; the reset that was ordered comes when due; PFW_N falls and rises as R429 says. (R410,
R411, R412, R413, R429, R567, R571, R572) -/
def Obligations.PowerAndResetEventsComplete : Prop :=
  (∀ sl sba s, let t := railsOff { s with power := {}, pair := { s.pair with slotId := sl } }
    let u := raise 0xC0 [] { t with regs := {}, evt := {}, sb := { sba := sba }, host := { t.host with accepted := [] }
                                    rtc := { t.rtc with oscEvent := false, vbatEvent := false, onVbat := false, vbatLow := false
                                                        vbatAt := none, disc := false, lastD := 0, trim := 0, freeze := [] }
                                    recorder := { slots := t.recorder.slots, topSeq := t.recorder.topSeq }
                                    fwu := { t.fwu with trialCount := t.fwu.trialSecs } }
    let v := if s.rtc.oscEvent then raise 0xC8 [] u else u
    exec (.vstbyApplied sl sba) s = .next (recoverRecorder
      (if s.rtc.vbatEvent then raise 0xC6 [(v.rtc.vbatTs0.toNat : Int), (v.rtc.vbatTs1.toNat : Int)] v else v))) ∧
  (∀ s, railsMayStart s = true → s.power.railFails = 0 → exec .railSequence s = .next (railsUp s)) ∧
  (∀ s, railsMayStart s = true → s.power.railFails ≠ 0 → 1000000000 ≤ since s s.power.railAt → exec .railRetry s = .next (railsUp s)) ∧
  (∀ (k : Fin 8) s, s.power.vstby = true → k.val ≠ 0 → s.power.mainUp = true ∨ railsMayStart s = true →
    let t := railsOff (raise 0xC2 [(k.val : Int)] s)
    exec (.railFault k) s = .next { t with power := { t.power with railFails := s.power.railFails + 1, railAt := t.refNs, heldOff := t.power.heldOff || decide (4 ≤ s.power.railFails + 1) } }) ∧
  (∀ s, s.power.vstby = true → s.power.mainUp = true → exec .vinOvervoltage s = .next (railsOff (raise 0xC2 [0x10] s))) ∧
  (∀ x s, s.power.mainUp = true → s.power.released = true → s.power.rstLow = false → s.power.booted = false →
    (∀ t, loadSlot x s = some t → exec (.bootComplete x) s = .next (bootWith x t)) ∧
    (loadSlot x s = none → let t := railsOff (raise 0xE8 [0] s)
      exec (.bootComplete x) s = .next { t with power := { t.power with heldOff := true } })) ∧
  (∀ s, s.power.vstby = true → s.power.mainUp = true → s.power.released = true →
    beatLate s = true →
    let l := s.refNs :: s.power.wdAt.filter fun t => decide (since s t < 600000000000)
    let t := raise 0xC3 [] { s with power := { s.power with wdAt := l } }
    (l.length < 5 → exec .mainWatchdog s = .next (releaseReset (coldReset 0 false t))) ∧
    (5 ≤ l.length → let u := raise 0xC2 [0xFF] t
      exec .mainWatchdog s = .next (railsOff { u with power := { u.power with heldOff := true, wdAt := [] } }))) ∧
  (∀ ns s, s.power.vstby = true → s.power.rstLow = false → resetTaken ns = true → let t := { s with power := { s.power with rstLow := true } }
    (s.power.mainUp = true → exec (.rstNAssert ns) s = .next (coldReset 0 false t)) ∧
    (s.power.mainUp = false → exec (.rstNAssert ns) s = .next t)) ∧
  (∀ s, s.power.vstby = true → s.power.rstLow = true → let t := { s with power := { s.power with rstLow := false } }
    (s.power.mainUp = true → exec .rstNRelease s = .next (releaseReset t)) ∧ (s.power.mainUp = false → exec .rstNRelease s = .next t)) ∧
  (∀ s t, s.power.resetDue = some t → t ≤ s.refNs →
    exec .mainSideColdReset s = .next (releaseReset (coldReset s.power.restartKind false s))) ∧
  (∀ s, s.power.vstby = true → s.power.pfw = true → let t := raise 0xC4 [] { s with power := { s.power with pfw := false } }
    (t.power.mainUp = false → exec .pfwFall s = .next t) ∧
    (t.power.mainUp = true → t.power.ready = false → exec .pfwFall s = .next (railsOff t)) ∧
    (t.power.mainUp = true → t.power.ready = true → let u := interruptUpdates (flushMeter t)
      exec .pfwFall s = .next { u with panel := { u.panel with stopped := true } })) ∧
  (∀ s, s.power.vstby = true → s.power.pfw = false → let t := { s with power := { s.power with pfw := true } }
    (s.power.mainUp = true → let u := resumeMeter (raise 0xC5 [] t)
      exec .pfwRise s = .next (pnlRepair { u with panel := { u.panel with stopped := false } })) ∧
    (s.power.mainUp = false → exec .pfwRise s = .next t))

/-- For every command c and state whose queue begins with c, step is exec of c on that state with the queue's rest: commands start in the order in
which they stand in the queue. (R393) -/
def Obligations.StepRunsFrontCommand : Prop :=
  ∀ (c : Instr) (rest : List Instr) (s : State), s.pending = c :: rest → step s = exec c { s with pending := rest }

/-- On an empty queue a step goes on: the reference time and device time advance by one nanosecond as R322 has the clocks advance, the queue stays
empty. That the time-driven effects happen at a step on an empty queue is the model's choice (log entry 15). (R322) -/
def Obligations.EmptyQueuePassesOneNanosecond : Prop :=
  ∀ (s : State), s.pending = [] → ∃ t, step s = .next t ∧ t.refNs = s.refNs + 1 ∧
    t.time.dev = clockAdvance s.time.dev s.time.yDev

/-- After reset slot memory is canonical (no byte listed), no key update or transition is in progress, no command waits, and no minimum SVN is above 0
(the last is a value the model names, the spec giving none). (R389, R521, R554) -/
def Obligations.ResetMeetsTheInvariants : Prop :=
  Memory.wf State.reset.host.mem ∧ State.reset.keys.op = none ∧ transitionOk State.reset.keys.op State.reset.keys.lc ∧ State.reset.pending = [] ∧
    (∀ i, lget State.reset.fwu.minSvn i 0 = 0)

/-- For every state the step answers a next state, whatever command stands at the front of its queue and whatever the state holds: refused requests
are answered with a status, events without their conditions change nothing. (R387, R391, R406) -/
def Obligations.EveryStepGoesOn : Prop :=
  ∀ (s : State), StepsOn s

/-- If the slot memory of R389 is canonical (addresses strictly rising, no listed byte equal to what an unlisted address reads as) then it is so after
any step, whatever command runs. (R389, R391) -/
def Obligations.SlotMemoryStaysCanonical : Prop :=
  ∀ (s t : State), step s = .next t → Memory.wf s.host.mem → Memory.wf t.host.mem

/-- While a transition in progress leads along R521 from the state in force, no step leaves RETIRED, none goes back to BLANK and none reaches FACTORY
but from BLANK; and after any step a transition in progress still leads along R521. (The premise is an invariant, as this statement itself says, and
holds after reset.) (R521) -/
def Obligations.LifeCycleGoesOnlyForward : Prop :=
  ∀ (s t : State), step s = .next t → transitionOk s.keys.op s.keys.lc →
    transitionOk t.keys.op t.keys.lc ∧ (s.keys.lc = .retired → t.keys.lc = .retired) ∧ (t.keys.lc = .blank → s.keys.lc = .blank) ∧
    (t.keys.lc = .factory → s.keys.lc = .blank ∨ s.keys.lc = .factory)

/-- For every component, the minimum SVN after a step is not below the one before it, whatever command runs and in whatever state. (R554) -/
def Obligations.MinimumSvnsNeverFall : Prop :=
  ∀ (s t : State) (i : Nat), step s = .next t → lget s.fwu.minSvn i 0 ≤ lget t.fwu.minSvn i 0

/-- For every calendar time that R482 calls possible, the calendar time of its tick count since 2000-01-01 is that calendar time: with the month
lengths and leap years of R481 no day from 2000 to 2399 is lost, doubled or misread. (R481, R482) -/
def Obligations.CalendarDateRoundTrip : Prop :=
  ∀ (c : CalTime), possible c = true → calOfTicks (calTicks c) = c

/-- A calendar time is possible exactly when every field lies in its range and DAY does not exceed the length of MONTH in YEAR. RTC_APPLY with SET,
CMD_RTC_SET and CMD_RTC_ALARM with fields that are not possible set BADWRITE, raise RTC_BADWRITE (0xCB) with the rejected fields and change nothing
else of the backup domain; hour 24, 30 February and 29 February of a year that is no leap year are not possible. (R482; stated) -/
def Obligations.ImpossibleCalendarWriteRefusedWhole : Prop :=
  (∀ (c : CalTime), possible c = true ↔ (c.subsec ≤ 32767 ∧ c.sec ≤ 59 ∧ c.min ≤ 59 ∧ c.hour ≤ 23 ∧ 1 ≤ c.month ∧ c.month ≤ 12 ∧
    c.year ≤ 399 ∧ 1 ≤ c.day ∧ c.day ≤ monthLen c.year c.month)) ∧
  (∀ (c : CalTime), c.hour = 24 → possible c = false) ∧ (∀ (c : CalTime), c.month = 2 → c.day = 30 → possible c = false) ∧
  (∀ (c : CalTime), c.month = 2 → c.day = 29 → leapYear c.year = false → possible c = false) ∧
  (∀ (t0 t1 : Nat) (s : State), (badWrite t0 t1 s).rtc = { s.rtc with badWrite := true } ∧
    badWrite t0 t1 s = raise 0xCB [(t0 : Int), (t1 : Int)] { s with rtc := { s.rtc with badWrite := true } }) ∧
  (∀ p v (s : State), writePasses p 0xF20 s → v.getLsbD 0 = true → let t0 := (cfgGet s 0xF18).toNat
    let t1 := (cfgGet s 0xF1C).toNat
    possible (calOfWords t0 t1) = false → exec (.rtcApplySet p v) s = .next (badWrite t0 t1 s)) ∧
  (∀ r (s : State), accepted specRtcSet r s = true → let t0 := getLE (bodyOf r) 0 4
    let t1 := getLE (bodyOf r) 4 4
    possible (calOfWords t0 t1) = false → exec (.cmdRtcSet r) s = .next (finish 0x0A11 r stBadParam (if badT0 t0 then 0 else 4) []
      (badWrite t0 t1 (begun specRtcSet r s)))) ∧
  (∀ r (s : State), accepted specRtcAlarm r s = true → getLE (bodyOf r) 1 1 ≠ 0 → let t0 := getLE (bodyOf r) 4 4
    let t1 := getLE (bodyOf r) 8 4
    possible (calOfWords t0 t1) = false → exec (.cmdRtcAlarm r) s = .next (finish 0x0A13 r stBadParam (if badT0 t0 then 4 else 8) []
      (badWrite t0 t1 (begun specRtcAlarm r s))))

/-- While MG answers its address, SB_STATUS sends eight bytes and changes nothing else: STATE 0 IDLE, 1 RECEIVING, 2 ACCEPTED or 3 DONE; FLAGS with
bit 0 MAIN_UP, bit 1 the side-band pending set holds a bit, bit 2 SBM_CTRL.REG_WRITE_EN; RECEIVED and TAG in two bytes each; STATUS in two, the
response status while DONE and 0 otherwise. (R403; stated) -/
def Obligations.SideBandStatusBytes : Prop :=
  ∀ (s : State), sbAlive s = true → exec .sbStatus s = .next (emit (.sbRead (
    [(match s.sb.st with
      | .idle => 0
      | .receiving => 1
      | .accepted => 2
      | .done => 3),
     byte ((if s.power.mainUp then 1 else 0) + (if s.evt.pendSb = 0 then 0 else 2) + (if cfgBit s 0x1604 1 then 4 else 0))] ++
    putLE 2 s.sb.buf.length ++ putLE 2 s.sb.tag.toNat ++ (match s.sb.st with
      | .done => putLE 2 s.sb.status.toNat
      | _ => [0, 0]))) s)

/-- If HEARTBEAT_SEND sends anything, SV has refreshed PL's liveness register within the last 1 ms and the module is not FENCED; a FENCED module sends
nothing, and neither does one that SV last refreshed more than 1 ms ago and does not keep alive. (R440) -/
def Obligations.HeartbeatOnlyWhileAlive : Prop :=
  (∀ (s t : State), exec .heartbeatSend s = .next t → t.emitted ≠ s.emitted → s.pair.role ≠ .fenced ∧ since t t.pair.liveAt ≤ 1000000) ∧
  (∀ (s : State), s.pair.role = .fenced → ∃ t, exec .heartbeatSend s = .next t ∧ t.emitted = s.emitted) ∧
  (∀ (s : State), svAlive s = false → 1000000 < since s s.pair.liveAt → exec .heartbeatSend s = .next s)

/-- Codes 0 to 10 are always, Z, not Z, N, not N, neither N nor Z, N or Z, V, not V, S and not S; a word of the two operations that carry a code
(0x21, in its immediate; 0x22, in its RD field) with a code from 11 on is refused by verification. (R140; stated) -/
def Obligations.ConditionCodes : Prop :=
  (∀ (m : Vm), vmCond m 0 = true ∧ vmCond m 1 = m.z ∧ vmCond m 2 = !m.z ∧ vmCond m 3 = m.n ∧ vmCond m 4 = !m.n ∧
    vmCond m 5 = (!m.n && !m.z) ∧ vmCond m 6 = (m.n || m.z) ∧ vmCond m 7 = m.v ∧ vmCond m 8 = !m.v ∧ vmCond m 9 = m.sx ∧
    vmCond m 10 = !m.sx) ∧
  (∀ (i : InstEntry) (pc : Nat) (w : W32), wOpc w = 0x21 → 11 ≤ wImm w → wordOk i pc w = false) ∧
  (∀ (i : InstEntry) (pc : Nat) (w : W32), wOpc w = 0x22 → 11 ≤ wRd w → wordOk i pc w = false)

/-- CMD_SOLVER_ABORT has no payload. Accepted while a job of CMD_SOLVER_RUN runs, it ends that job (its CMD_SOLVER_RUN completes with ST_ABORTED and
the record so far, its lanes rest) and completes with ST_OK; with no such job it completes with ST_OK and has no other effect. (R224; stated) -/
def Obligations.SolverAbort : Prop :=
  (∀ (p : Bytes), specSolverAbort.length p = none ↔ p = []) ∧
  (∀ r (s : State) j, accepted specSolverAbort r s = true → let t := begun specSolverAbort r s
    t.solver.hostJob = some j → exec (.cmdSolverAbort r) s = .next (finishOk 0x0512 r [] (restLanes
      (finishOpt 0x0510 j.req stAborted 0 (jobBytes (abortedRecord t j))
        { t with solver := { t.solver with hostJob := none } })))) ∧
  (∀ r (s : State), accepted specSolverAbort r s = true → let t := begun specSolverAbort r s
    t.solver.hostJob = none → exec (.cmdSolverAbort r) s = .next (finishOk 0x0512 r [] t))

/-- Each of the 105 packet commands runs through one order of checks: a request that may not start yet changes nothing; then the SIGNED flag, the
gates of role, life cycle, power and brick (ST_NOT_ACTIVE), the length (ST_BAD_LENGTH with the expected length), the signature (ST_DENIED with its
cause, and CMD_SIG_FAIL) and the command's own field checks, the first refusal completing the command with its status and DETAIL and none of its
effect. That the gates come before the length is the model's reading (log entry 14). (R387, R388, R393, R398, R404, R406, R520) -/
def Obligations.EveryRequestIsJudgedByTheSameChecks : Prop :=
  (∀ (c : CmdSpec) r (s : State), mayStart c.opcode r s = false → runCmd c r s = s) ∧
  (∀ (c : CmdSpec) r (s : State) st d, mayStart c.opcode r s = true → signFlagRefusal c.opcode r.signed = some (st, d) →
    runCmd c r s = finish c.opcode r st d [] (entered c r s)) ∧
  (∀ (c : CmdSpec) r (s : State), mayStart c.opcode r s = true → signFlagRefusal c.opcode r.signed = none →
    gated c.opcode (bodyOf r) (entered c r s) = true → runCmd c r s = finish c.opcode r stNotActive 0 [] (entered c r s)) ∧
  (∀ (c : CmdSpec) r (s : State) n, mayStart c.opcode r s = true → signFlagRefusal c.opcode r.signed = none →
    gated c.opcode (bodyOf r) (entered c r s) = false → lengthRefusal c r = some n →
    runCmd c r s = finish c.opcode r stBadLength n [] (entered c r s)) ∧
  (∀ (c : CmdSpec) r (s : State) k, mayStart c.opcode r s = true → signFlagRefusal c.opcode r.signed = none →
    gated c.opcode (bodyOf r) (entered c r s) = false → lengthRefusal c r = none →
    signatureRefusal c.opcode r (entered c r s) = some k → runCmd c r s = finish c.opcode r stDenied k []
      (raiseC 0x0A [(originSlot r.origin : Int), (portCode (originPort r.origin) : Int), (k : Int)] k (askKeys r (entered c r s)))) ∧
  (∀ (c : CmdSpec) r (s : State) st d, mayStart c.opcode r s = true → signFlagRefusal c.opcode r.signed = none →
    gated c.opcode (bodyOf r) (entered c r s) = false → lengthRefusal c r = none →
    signatureRefusal c.opcode r (entered c r s) = none → c.check r (bodyOf r) (afterSignature r (entered c r s)) = some (st, d) →
    runCmd c r s = finish c.opcode r st d [] (afterSignature r (entered c r s))) ∧
  (∀ r (s : State), (∀ (x : BistObs), exec (.cmdBistRun r x) s = .next (runCmd (specBistRun x) r s)) ∧
    exec (.cmdBistStatus r) s = .next (runCmd specBistStatus r s) ∧
    exec (.cmdBudgetConfig r) s = .next (runCmd specBudgetConfig r s) ∧
    exec (.cmdBudgetStatus r) s = .next (runCmd specBudgetStatus r s) ∧
    exec (.cmdCanBuffer r) s = .next (runCmd specCanBuffer r s) ∧ exec (.cmdCanCancel r) s = .next (runCmd specCanCancel r s) ∧
    exec (.cmdCanConfig r) s = .next (runCmd specCanConfig r s) ∧ exec (.cmdCanRecover r) s = .next (runCmd specCanRecover r s) ∧
    exec (.cmdCanStatus r) s = .next (runCmd specCanStatus r s) ∧ exec (.cmdClassConfig r) s = .next (runCmd specClassConfig r s) ∧
    exec (.cmdClassHalt r) s = .next (runCmd specClassHalt r s) ∧
    exec (.cmdClassRestart r) s = .next (runCmd specClassRestart r s) ∧
    exec (.cmdClassStatus r) s = .next (runCmd specClassStatus r s) ∧
    exec (.cmdDatasetConfig r) s = .next (runCmd specDatasetConfig r s) ∧
    exec (.cmdDeviceInfo r) s = .next (runCmd specDeviceInfo r s) ∧ exec (.cmdDrill r) s = .next (runCmd specDrill r s) ∧
    exec (.cmdEcho r) s = .next (runCmd specEcho r s) ∧ exec (.cmdEngineStatus r) s = .next (runCmd specEngineStatus r s) ∧
    exec (.cmdEstConfig r) s = .next (runCmd specEstConfig r s) ∧ exec (.cmdEstLoad r) s = .next (runCmd specEstLoad r s) ∧
    exec (.cmdEstRun r) s = .next (runCmd specEstRun r s) ∧ exec (.cmdEstStatus r) s = .next (runCmd specEstStatus r s) ∧
    exec (.cmdEventClear r) s = .next (runCmd specEventClear r s) ∧ exec (.cmdEventRead r) s = .next (runCmd specEventRead r s) ∧
    exec (.cmdFaultStatus r) s = .next (runCmd specFaultStatus r s) ∧
    exec (.cmdForceClear r) s = .next (runCmd specForceClear r s) ∧ exec (.cmdForceList r) s = .next (runCmd specForceList r s) ∧
    exec (.cmdForceSet r) s = .next (runCmd specForceSet r s) ∧ exec (.cmdFwuActivate r) s = .next (runCmd specFwuActivate r s) ∧
    exec (.cmdFwuClose r) s = .next (runCmd specFwuClose r s) ∧ exec (.cmdFwuConfirm r) s = .next (runCmd specFwuConfirm r s) ∧
    exec (.cmdFwuData r) s = .next (runCmd specFwuData r s) ∧ exec (.cmdFwuOpen r) s = .next (runCmd specFwuOpen r s) ∧
    exec (.cmdFwuStatus r) s = .next (runCmd specFwuStatus r s) ∧ exec (.cmdFwuVerify r) s = .next (runCmd specFwuVerify r s) ∧
    exec (.cmdHistConfig r) s = .next (runCmd specHistConfig r s) ∧ exec (.cmdHistRead r) s = .next (runCmd specHistRead r s) ∧
    exec (.cmdHistStatus r) s = .next (runCmd specHistStatus r s) ∧ exec (.cmdIdentity r) s = .next (runCmd specIdentity r s) ∧
    exec (.cmdKeyStatus r) s = .next (runCmd specKeyStatus r s) ∧ exec (.cmdKeyUpdate r) s = .next (runCmd specKeyUpdate r s) ∧
    exec (.cmdLcChange r) s = .next (runCmd specLcChange r s) ∧ exec (.cmdLoopAck r) s = .next (runCmd specLoopAck r s) ∧
    exec (.cmdLoopConfig r) s = .next (runCmd specLoopConfig r s) ∧ exec (.cmdLoopEnable r) s = .next (runCmd specLoopEnable r s) ∧
    exec (.cmdLoopRead r) s = .next (runCmd specLoopRead r s) ∧ exec (.cmdLoopRoute r) s = .next (runCmd specLoopRoute r s) ∧
    exec (.cmdLoopStatus r) s = .next (runCmd specLoopStatus r s) ∧ exec (.cmdLoopback r) s = .next (runCmd specLoopback r s) ∧
    exec (.cmdMainPower r) s = .next (runCmd specMainPower r s) ∧ exec (.cmdModelLoad r) s = .next (runCmd specModelLoad r s) ∧
    exec (.cmdModelSwitch r) s = .next (runCmd specModelSwitch r s) ∧ exec (.cmdMtrAdopt r) s = .next (runCmd specMtrAdopt r s) ∧
    exec (.cmdMtrEnable r) s = .next (runCmd specMtrEnable r s) ∧
    exec (.cmdMtrIntervals r) s = .next (runCmd specMtrIntervals r s) ∧
    exec (.cmdMtrParamLoad r) s = .next (runCmd specMtrParamLoad r s) ∧
    exec (.cmdMtrParamRead r) s = .next (runCmd specMtrParamRead r s) ∧
    exec (.cmdMtrParamSwitch r) s = .next (runCmd specMtrParamSwitch r s) ∧
    exec (.cmdMtrTotals r) s = .next (runCmd specMtrTotals r s) ∧ exec (.cmdOptConfig r) s = .next (runCmd specOptConfig r s) ∧
    exec (.cmdOptProblemLoad r) s = .next (runCmd specOptProblemLoad r s) ∧
    exec (.cmdOptProblemSwitch r) s = .next (runCmd specOptProblemSwitch r s) ∧
    exec (.cmdOptStatus r) s = .next (runCmd specOptStatus r s) ∧ exec (.cmdPairConfig r) s = .next (runCmd specPairConfig r s) ∧
    exec (.cmdPairResync r) s = .next (runCmd specPairResync r s) ∧ exec (.cmdPairStatus r) s = .next (runCmd specPairStatus r s) ∧
    exec (.cmdPlanRead r) s = .next (runCmd specPlanRead r s) ∧ exec (.cmdPnlConfig r) s = .next (runCmd specPnlConfig r s) ∧
    exec (.cmdPnlStatus r) s = .next (runCmd specPnlStatus r s) ∧ exec (.cmdPnlUpdate r) s = .next (runCmd specPnlUpdate r s) ∧
    exec (.cmdPnlWrite r) s = .next (runCmd specPnlWrite r s) ∧ exec (.cmdPointRead r) s = .next (runCmd specPointRead r s) ∧
    exec (.cmdProgLoad r) s = .next (runCmd specProgLoad r s) ∧ exec (.cmdProgSwitch r) s = .next (runCmd specProgSwitch r s) ∧
    exec (.cmdRecClear r) s = .next (runCmd specRecClear r s) ∧ exec (.cmdRecCursor r) s = .next (runCmd specRecCursor r s) ∧
    exec (.cmdRecRead r) s = .next (runCmd specRecRead r s) ∧ exec (.cmdRegRead r) s = .next (runCmd specRegRead r s) ∧
    exec (.cmdRegWrite r) s = .next (runCmd specRegWrite r s) ∧ exec (.cmdRestart r) s = .next (runCmd specRestart r s) ∧
    exec (.cmdRestartPolicy r) s = .next (runCmd specRestartPolicy r s) ∧
    exec (.cmdRingConfig r) s = .next (runCmd specRingConfig r s) ∧ exec (.cmdRingStatus r) s = .next (runCmd specRingStatus r s) ∧
    exec (.cmdRtcAdjust r) s = .next (runCmd specRtcAdjust r s) ∧ exec (.cmdRtcAlarm r) s = .next (runCmd specRtcAlarm r s) ∧
    exec (.cmdRtcRead r) s = .next (runCmd specRtcRead r s) ∧ exec (.cmdRtcSet r) s = .next (runCmd specRtcSet r s) ∧
    exec (.cmdSettingsRead r) s = .next (runCmd specSettingsRead r s) ∧
    (∀ (x : Bool), exec (.cmdSettingsStore r x) s = .next (runCmd (specSettingsStore x) r s)) ∧
    exec (.cmdSolverAbort r) s = .next (runCmd specSolverAbort r s) ∧
    exec (.cmdSolverConfig r) s = .next (runCmd specSolverConfig r s) ∧
    exec (.cmdSolverRun r) s = .next (runCmd specSolverRun r s) ∧
    exec (.cmdSolverStatus r) s = .next (runCmd specSolverStatus r s) ∧
    exec (.cmdStationConfig r) s = .next (runCmd specStationConfig r s) ∧
    exec (.cmdStationStatus r) s = .next (runCmd specStationStatus r s) ∧
    exec (.cmdSwitchover r) s = .next (runCmd specSwitchover r s) ∧ exec (.cmdTestEnter r) s = .next (runCmd specTestEnter r s) ∧
    exec (.cmdTestExit r) s = .next (runCmd specTestExit r s) ∧ exec (.cmdTimeConfig r) s = .next (runCmd specTimeConfig r s) ∧
    exec (.cmdTimePort r) s = .next (runCmd specTimePort r s) ∧ exec (.cmdTimeSelect r) s = .next (runCmd specTimeSelect r s) ∧
    exec (.cmdTimeSet r) s = .next (runCmd specTimeSet r s) ∧ exec (.cmdTimeStatus r) s = .next (runCmd specTimeStatus r s) ∧
    exec (.cmdTripConfig r) s = .next (runCmd specTripConfig r s) ∧ exec (.cmdTripReset r) s = .next (runCmd specTripReset r s))

/-- With the slot ACCEPTED and no mirror record outstanding: after finish the slot is DONE with the status, its bit of HIF_CMPL is set and no other is
changed, reading slot memory from the slot's start gives exactly the response packet, every other slot is as it was and every byte of slot memory
outside the packet reads as before. The premise that slot memory is canonical rules out states no run reaches (SlotMemoryStaysCanonical). (R386, R391)
-/
def Obligations.CompletedCommandFillsItsSlot : Prop :=
  ∀ op r st d (data : Bytes) (n : Fin 64) (s : State), r.origin = .slot n → (slotOf s n.val).st = .accepted → s.host.mirrored = [] →
    Memory.wf s.host.mem → data.length ≤ 4072 → let t := finish op r st d data s
    let packet := responsePacket op r.tag 0 st d data
    slotOf t n.val = { st := .done, status := BitVec.ofNat 16 st } ∧ (∀ k, k ≠ n.val → slotOf t k = slotOf s k) ∧
    t.host.cmpl = (s.host.cmpl ||| BitVec.twoPow 64 n.val) ∧ packet.length = data.length + 24 ∧
    memReadBytes t.host.mem (0x1000 * n.val) packet.length = packet ∧
    (∀ a, a < 0x1000 * n.val ∨ 0x1000 * n.val + packet.length ≤ a → memRead t.host.mem a = memRead s.host.mem a)

/-- With CMD_ECHO from an ACCEPTED slot at the front of the queue, every check of R387 passed, the step goes on to a state in which the slot is DONE
with ST_OK and the response data in slot memory is the payload of the request. (R386, R391, R408) -/
def Obligations.EchoAnswersItsPayload : Prop :=
  ∀ r (n : Fin 64) (rest : List Instr) (s : State), s.pending = .cmdEcho r :: rest → r.origin = .slot n →
    accepted specEcho r { s with pending := rest } = true → (slotOf s n.val).st = .accepted → s.host.mirrored = [] →
    Memory.wf s.host.mem → r.signed = false → r.payload.length ≤ 4072 → ∃ t, step s = .next t ∧
      slotOf t n.val = { st := .done, status := BitVec.ofNat 16 stOk } ∧
      memReadBytes t.host.mem (0x1000 * n.val + 16) r.payload.length = r.payload

/-- With the PCIe link up, PX in service and the slot IDLE or DONE, a BAR2 write of a doubleword of slot memory changes exactly the enabled bytes of
that doubleword: each enabled byte reads as written, each other byte of slot memory as before, and nothing but slot memory changes; a read of the
whole doubleword then sends what it holds. (R389) -/
def Obligations.SlotWriteReadBack : Prop :=
  ∀ (o : Nat) (be : BitVec 4) (v : W32) (s : State), portAlive s .pcie = true → inService s idPX = true → o < 0x40000 →
    (slotOf s (o / 4 * 4 / 0x1000)).st = .idle ∨ (slotOf s (o / 4 * 4 / 0x1000)).st = .done → Memory.wf s.host.mem →
    ∃ t, exec (.bar2Access true o be v) s = .next t ∧ t = { s with host := { s.host with mem := t.host.mem } } ∧
      (∀ i, i < 4 → memRead t.host.mem (o / 4 * 4 + i) =
        if be.getLsbD i then byte (v.toNat / 2 ^ (8 * i)) else memRead s.host.mem (o / 4 * 4 + i)) ∧
      (∀ a, a < o / 4 * 4 ∨ o / 4 * 4 + 4 ≤ a → memRead t.host.mem a = memRead s.host.mem a) ∧
      (be = 15 → exec (.bar2Access false o 15 0) t = .next (emit (.bar2Read (o / 4 * 4) v) t))

/-- With the PCIe link up and PX in service, a BAR2 write that enables any byte of a slot in PENDING or ACCEPTED changes no byte of slot memory and no
slot, leaves HIF_ERR_INFO unchanged, and counts once in HIF_ERR_CNT; but for the free value taken for the cause (log entry 2) only reporting the event
changes anything else. (R389) -/
def Obligations.BusySlotWriteDropped : Prop :=
  ∀ (o : Nat) (be : BitVec 4) (v : W32) (s : State), portAlive s .pcie = true → inService s idPX = true → o < 0x40000 → be ≠ 0 →
    (slotOf s (o / 4 * 4 / 0x1000)).st = .pending ∨ (slotOf s (o / 4 * 4 / 0x1000)).st = .accepted →
    ∃ t, exec (.bar2Access true o be v) s = .next t ∧ t.host = s.host ∧ t.regs.errInfo = s.regs.errInfo ∧
      ((rcGet s 0x020).toNat < 2 ^ 32 - 1 → rcGet t 0x020 = rcGet s 0x020 + 1) ∧ Reported { s with free := s.free + 1 } t

/-- A passed HIF_DOORBELL write that names a slot in PENDING or ACCEPTED, or that comes while READY is 0, raises CMD_REJECTED (0x09) with the slot,
the port and ST_BUSY; nothing but what reporting an event changes is changed: no slot, no completion bit, no byte of slot memory, no accepted request.
(R391) -/
def Obligations.RefusedDoorbellChangesNothing : Prop :=
  ∀ (v : W32) (s : State), writePasses .pcie 0x030 s → let n := v.toNat % 64
    s.power.ready = false ∨ (slotOf s n).st = .pending ∨ (slotOf s n).st = .accepted →
    ∃ t, exec (.hifDoorbell v) s = .next t ∧ t = raise 0x09 [(n : Int), 0, (stBusy : Int)] s ∧ Reported s t

/-- For every register of access type RWL, every port, value and state: LOCK_BIT_SET goes on to a state in which every lock bit that was 1 is 1; where
the write passes, the bits written 1 are 1 and all others are unchanged, and LOCK_SET (0x05) with the register offset is raised just when a bit
changed. (R372) -/
def Obligations.LockBitsOnlySet : Prop :=
  ∀ p (o : W16) (v : W32) (s : State) (i : RegInfo), regInfo o.toNat = some i → i.acc = .rwl →
    (∃ t, exec (.lockBitSet p o v) s = .next t ∧ ∀ b, b < 32 → i.mask.getLsbD b = true → (cfgGet s o.toNat).getLsbD b = true →
      (cfgGet t o.toNat).getLsbD b = true) ∧
    (writePasses p o.toNat s → ∃ t, exec (.lockBitSet p o v) s = .next t ∧
      (∀ b, b < 32 → i.mask.getLsbD b = true → (cfgGet t o.toNat).getLsbD b = ((cfgGet s o.toNat).getLsbD b || v.getLsbD b)) ∧
      ((cfgGet s o.toNat ||| (v &&& i.mask)) = cfgGet s o.toNat → t = s) ∧
      ((cfgGet s o.toNat ||| (v &&& i.mask)) ≠ cfgGet s o.toNat →
        t = raise 0x05 [(o.toNat : Int)] (cfgSet o.toNat (cfgGet s o.toNat ||| (v &&& i.mask)) s)))

/-- While the main side is up, raising a source sets its bit of EVT_PEND and no other, and its count goes up by one up to 0xFFFF; with MG in service
its bit of the side-band set is set too. A passed write of EVT_PENDn clears exactly the bits written 1 among sources 32n to 32n + 31, and changes
nothing else of the state. (R379, R380) -/
def Obligations.EventPendsUntilCleared : Prop :=
  (∀ (k : Fin 256) ps code (s : State), s.power.mainUp = true → let t := raiseC k.val ps code s
    (∀ b, b < 256 → t.evt.pend.getLsbD b = (s.evt.pend.getLsbD b || decide (b = k.val))) ∧
    fgetD t.evt.cnt k.val 0 = min (fgetD s.evt.cnt k.val 0 + 1) 65535 ∧
    (inService s idMG = true → ∀ b, b < 256 → t.evt.pendSb.getLsbD b = (s.evt.pendSb.getLsbD b || decide (b = k.val)))) ∧
  (∀ p (n : Fin 8) (v : W32) (s : State), writePasses p (0x120 + 4 * n.val) s → ∃ t, exec (.evtPendClear p n v) s = .next t ∧
    t = { s with evt := { s.evt with pend := t.evt.pend } } ∧
    (∀ b, b < 256 → t.evt.pend.getLsbD b = (s.evt.pend.getLsbD b && !(decide (b / 32 = n.val) && v.getLsbD (b % 32)))))

/-- With MG in service: a read of RTC_T0 sends the calendar's low word; whatever the calendar, its phase and the time do after that, a read of RTC_T1
by the same port within 2 ms sends the high word of the captured instant and ends the freeze; more than 2 ms after the capture, or with no freeze in
force, it sends the calendar's high word of that instant. (R488, R497) -/
def Obligations.FreezeHoldsRtcWords : Prop :=
  ∀ p (s : State) (c : CalTime) (k ph : Nat), portAlive s p = true → inService s idMG = true → ∃ t,
    exec (.rtcT0Read p) s = .next t ∧ t.emitted = .regRead p 0xF10 (calT0 s.rtc.cal) :: s.emitted ∧
    (let u := { t with refNs := t.refNs + k, rtc := { t.rtc with cal := c, phase := ph } }
     ∃ w, exec (.rtcT1Read p) u = .next w ∧
       (k ≤ 2000000 → w.emitted = .regRead p 0xF14 (calT1 s.rtc.cal) :: t.emitted) ∧
       (2000000 < k → w.emitted = .regRead p 0xF14 (calT1 c) :: t.emitted) ∧ w.rtc.cal = c)

/-- Each of the 31 unmirrored commands that only answer (echo, identification, event set, settings, status, reads and lists), unsigned, goes on in
every state, accepted or refused, and leaves every register, point, class, loop, job, meter, ring, clock, controller, role, calendar, record, panel,
key and firmware value as it was: only the transports (slots, their memory, completion bits, side-band), what has been sent, and the pending bit of a
masked vector change. For the four that PN or KB answers, that brick may have been asked besides: woken, and its BANK_DELAY count started afresh
(R100, R102). (R100, R102, R387, R391, R402, R408) -/
def Obligations.QueryCommandsChangeOnlyTheirAnswer : Prop :=
  ∀ r (s : State), r.signed = false →
    (∃ t, exec (.cmdEcho r) s = .next t ∧ Answered s t) ∧ (∃ t, exec (.cmdDeviceInfo r) s = .next t ∧ Answered s t) ∧
    (∃ t, exec (.cmdEventRead r) s = .next t ∧ Answered s t) ∧ (∃ t, exec (.cmdSettingsRead r) s = .next t ∧ Answered s t) ∧
    (∃ t, exec (.cmdClassStatus r) s = .next t ∧ Answered s t) ∧ (∃ t, exec (.cmdEngineStatus r) s = .next t ∧ Answered s t) ∧
    (∃ t, exec (.cmdBudgetStatus r) s = .next t ∧ Answered s t) ∧ (∃ t, exec (.cmdPointRead r) s = .next t ∧ Answered s t) ∧
    (∃ t, exec (.cmdForceList r) s = .next t ∧ Answered s t) ∧ (∃ t, exec (.cmdHistRead r) s = .next t ∧ Answered s t) ∧
    (∃ t, exec (.cmdHistStatus r) s = .next t ∧ Answered s t) ∧ (∃ t, exec (.cmdLoopRead r) s = .next t ∧ Answered s t) ∧
    (∃ t, exec (.cmdLoopStatus r) s = .next t ∧ Answered s t) ∧ (∃ t, exec (.cmdSolverStatus r) s = .next t ∧ Answered s t) ∧
    (∃ t, exec (.cmdOptStatus r) s = .next t ∧ Answered s t) ∧ (∃ t, exec (.cmdPlanRead r) s = .next t ∧ Answered s t) ∧
    (∃ t, exec (.cmdEstStatus r) s = .next t ∧ Answered s t) ∧ (∃ t, exec (.cmdMtrTotals r) s = .next t ∧ Answered s t) ∧
    (∃ t, exec (.cmdMtrIntervals r) s = .next t ∧ Answered s t) ∧ (∃ t, exec (.cmdRingStatus r) s = .next t ∧ Answered s t) ∧
    (∃ t, exec (.cmdStationStatus r) s = .next t ∧ Answered s t) ∧ (∃ t, exec (.cmdTimeStatus r) s = .next t ∧ Answered s t) ∧
    (∃ t, exec (.cmdCanStatus r) s = .next t ∧ Answered s t) ∧ (∃ t, exec (.cmdPairStatus r) s = .next t ∧ Answered s t) ∧
    (∃ t, exec (.cmdRecRead r) s = .next t ∧ Answered s t) ∧ (∃ t, exec (.cmdRtcRead r) s = .next t ∧ Answered s t) ∧
    (∃ t, exec (.cmdPnlStatus r) s = .next t ∧ AnsweredByBrick 0x0B04 s t) ∧
    (∃ t, exec (.cmdKeyStatus r) s = .next t ∧ AnsweredByBrick 0x0C02 s t) ∧
    (∃ t, exec (.cmdIdentity r) s = .next t ∧ AnsweredByBrick 0x0C03 s t) ∧
    (∃ t, exec (.cmdFwuStatus r) s = .next t ∧ AnsweredByBrick 0x0D07 s t) ∧
    (∃ t, exec (.cmdBistStatus r) s = .next t ∧ Answered s t)
end

