-- ==== Sys2Proof/Laws/Commands.lean ====
section
/-! SUPPORT. Laws/Commands.lean: what running a command comes to, said once for every command (R387). -/

namespace Sys2Proof.Laws

open Sys2Proof.Machine Sys2Proof.Safety

/-- A command whose checks all pass has its own effect. -/
theorem runCmd_accepted {c : CmdSpec} {r : Req} {s : State} (h : accepted c r s = true) :
    runCmd c r s = c.run r (bodyOf r) (begun c r s) := by
  simp only [accepted, entered, Bool.and_eq_true, Bool.not_eq_true', Option.isNone_iff_eq_none] at h
  obtain ⟨⟨⟨⟨⟨h1, h2⟩, h3⟩, h4⟩, h5⟩, h6⟩ := h
  simp only [runCmd, runStarted, begun, entered, h1, h2, h3, h4, h5, h6, if_true, Bool.false_eq_true, if_false]

/-- A request that may not start changes nothing. -/
theorem runCmd_waits {c : CmdSpec} {r : Req} {s : State} (h : mayStart c.opcode r s = false) : runCmd c r s = s := by
  simp [runCmd, h]

/-- A write of a register with a row of its own that passes is applied. -/
theorem ownWrite_passes {p : Port} {off : Nat} {f : State → State} {s : State} (h : writePasses p off s) :
    ownWrite p off f s = f s := by
  simp only [ownWrite, h.1, h.2, if_true]

end Sys2Proof.Laws
end

