-- ==== Sys2Proof/Laws/Events.lean ====
section
/-! SUPPORT. Laws/Events.lean: what reporting an event can change, once for each shared operation on the way to the recorder. -/

namespace Sys2Proof.Laws

open Sys2Proof.Machine Sys2Proof.Safety

theorem regsReported_refl (a : Regs) : RegsReported a a := rfl

theorem regsReported_trans {a b c : Regs} (h : RegsReported a b) (k : RegsReported b c) : RegsReported a c := by
  unfold RegsReported at *; rw [k, h]

theorem reported_refl (s : State) : Reported s s := ⟨rfl, rfl⟩

theorem reported_trans {s t u : State} (h : Reported s t) (k : Reported t u) : Reported s u := by
  refine ⟨?_, regsReported_trans h.regs k.regs⟩
  have h1 := h.rest
  have k1 := k.rest
  rw [k1, h1]

theorem reported_emit (o : Out) (s : State) : Reported s (emit o s) := ⟨rfl, rfl⟩

theorem reported_rcAdd (o n : Nat) (s : State) : Reported s (rcAdd o n s) := ⟨rfl, rfl⟩

theorem reported_evt (s : State) (e : Evt) : Reported s { s with evt := e } := ⟨rfl, rfl⟩

theorem reported_recorder (s : State) (e : Recorder) : Reported s { s with recorder := e } := ⟨rfl, rfl⟩

theorem reported_msixSend (v : Nat) (s : State) : Reported s (msixSend v s) := by
  unfold msixSend
  split
  · exact ⟨rfl, rfl⟩
  · split
    · exact reported_emit _ _
    · exact reported_refl s

theorem reported_sendVector (v : Nat) (s : State) : Reported s (sendVector v s) :=
  reported_trans (reported_msixSend v s) (reported_evt _ _)

theorem reported_messageDue (v : Nat) (s : State) : Reported s (messageDue v s) := by
  unfold messageDue
  split
  · split
    · exact reported_evt _ _
    · exact reported_sendVector _ _
  · exact reported_refl s

theorem reported_dropRecord (e : EventRec) (s : State) : Reported s (dropRecord e s) :=
  reported_trans (reported_rcAdd _ _ s) (reported_recorder _ _)

theorem reported_queueRecord (e : EventRec) (s : State) : Reported s (queueRecord e s) := by
  unfold queueRecord
  split
  · split <;> exact reported_recorder _ _
  · split
    · exact reported_recorder _ _
    · have k := reported_trans (reported_dropRecord e s) (reported_evt _ { (dropRecord e s).evt with last := BitVec.ofNat 8 e.source })
      dsimp only
      split
      · exact reported_trans k (reported_messageDue _ _)
      · exact k

theorem reported_raiseC (src : Nat) (p : List Int) (c : Nat) (s : State) : Reported s (raiseC src p c s) := by
  unfold raiseC
  split
  · exact reported_refl s
  · dsimp only
    split
    · exact reported_trans (reported_evt s _) (reported_queueRecord _ _)
    · split
      · exact reported_trans (reported_evt s _) (reported_messageDue _ _)
      · exact reported_evt s _

theorem reported_raise (src : Nat) (p : List Int) (s : State) : Reported s (raise src p s) := reported_raiseC _ _ _ _

theorem reported_sealRecord (k : Nat) (f : Byte) (e : EventRec) (s : State) : Reported s (sealRecord k f e s) := by
  unfold sealRecord
  have h := reported_trans (reported_recorder s { s.recorder with
    slots := fset s.recorder.slots k { e with seq := s.recorder.topSeq + 1, flags := f, count := fgetD s.recorder.drops e.source 0, vec := none }
    topSeq := s.recorder.topSeq + 1, drops := ferase s.recorder.drops e.source })
    (reported_evt _ { s.evt with last := BitVec.ofNat 8 e.source, seq := s.recorder.topSeq + 1 })
  dsimp only
  split
  · exact reported_trans h (reported_messageDue _ _)
  · exact h

theorem reported_writeCirculating (f : Byte) (e : EventRec) (s : State) : Reported s (writeCirculating f e s) :=
  reported_trans (reported_recorder s _) (reported_sealRecord _ _ _ _)

theorem reported_writeRecord (e : EventRec) (s : State) : Reported s (writeRecord e s) := by
  unfold writeRecord
  split
  · split
    · dsimp only
      split
      · exact reported_trans (reported_sealRecord _ _ _ _) (reported_raise _ _ _)
      · exact reported_sealRecord _ _ _ _
    · exact reported_writeCirculating _ _ _
  · exact reported_writeCirculating _ _ _

theorem reported_writeNewest (src : Nat) (s : State) : Reported s (writeNewest src s) := by
  unfold writeNewest
  split
  · exact reported_trans (reported_recorder s _) (reported_writeRecord _ _)
  · split
    · exact reported_trans (reported_recorder s _) (reported_writeRecord _ _)
    · exact reported_refl s

end Sys2Proof.Laws
end

