-- ==== Sys2Proof/Laws/Answers.lean ====
section
/-! SUPPORT. Laws/Answers.lean: what taking, refusing and answering a request can change (R387, R391, R402), once for each shared
operation. -/

namespace Sys2Proof.Laws

open Sys2Proof.Machine Sys2Proof.Safety

theorem answered_refl (s : State) : Answered s s := ⟨rfl, rfl⟩

theorem answered_trans {s t u : State} (h : Answered s t) (k : Answered t u) : Answered s u := by
  have h1 := h.rest
  have h2 := h.regs
  have k1 := k.rest
  have k2 := k.regs
  refine ⟨?_, ?_⟩
  · rw [k1, h1]
  · rw [k2, h2]

theorem answered_emit (o : Out) (s : State) : Answered s (emit o s) := ⟨rfl, rfl⟩

theorem answered_host (s : State) (x : HostIf) : Answered s { s with host := x } := ⟨rfl, rfl⟩

theorem answered_takeAccepted (op : Nat) (r : Req) (s : State) : Answered s (takeAccepted op r s) := answered_host s _

theorem answered_msixSend (v : Nat) (s : State) : Answered s (msixSend v s) := by
  unfold msixSend
  split
  · exact ⟨rfl, rfl⟩
  · split
    · exact answered_emit _ _
    · exact answered_refl s

theorem answered_slotRespond (n op : Nat) (tag : W16) (st d : Nat) (data : Bytes) (s : State) :
    Answered s (slotRespond n op tag st d data s) := by
  unfold slotRespond
  exact answered_trans (answered_host s _) (answered_trans (answered_host _ _) (answered_trans (answered_host _ _) (answered_msixSend _ _)))

theorem answered_sbRespond (op : Nat) (tag : W16) (st d : Nat) (data : Bytes) (s : State) :
    Answered s (sbRespond op tag st d data s) := ⟨rfl, rfl⟩

theorem answered_respond (op : Nat) (r : Req) (st d : Nat) (data : Bytes) (s : State) : Answered s (respond op r st d data s) := by
  unfold respond
  split
  · exact answered_host s _
  split
  · split
    · exact answered_trans (answered_emit _ s) (answered_slotRespond _ _ _ _ _ _ _)
    · exact answered_refl s
  · split
    · exact answered_trans (answered_emit _ s) (answered_sbRespond _ _ _ _ _ _)
    · exact answered_refl s
  · exact answered_refl s

/-- Completing a command that is no settings command, with a status other than ST_TIMEOUT, only answers. -/
theorem answered_finish (op : Nat) (r : Req) (st d : Nat) (data : Bytes) (s : State) (h : st ≠ stTimeout)
    (k : settingsOps.contains op = false) : Answered s (finish op r st d data s) := by
  unfold finish
  simp only [h, k, if_false, Bool.and_false, Bool.false_eq_true]
  split
  · exact answered_trans (answered_host s _) (answered_host _ _)
  · exact answered_trans (answered_host s _) (answered_respond _ _ _ _ _ _)

/-! ### Refusals never say ST_TIMEOUT -/

/-- The refusal, if any, has a status other than ST_TIMEOUT. -/
def NoTimeout (x : Option (Nat × Nat)) : Prop := ∀ st d, x = some (st, d) → st ≠ stTimeout

theorem noTimeout_none : NoTimeout none := by intro st d h; cases h

theorem noTimeout_badParam (l : List (Nat × Bool)) : NoTimeout (badParam l) := by
  induction l with
  | nil => exact noTimeout_none
  | cons e r ih =>
    obtain ⟨off, bad⟩ := e
    unfold badParam
    split
    · intro st d h; cases h; decide
    · exact ih

theorem noTimeout_refuseIf (c : Bool) {st : Nat} (d : Nat) (h : st ≠ stTimeout) : NoTimeout (refuseIf c st d) := by
  unfold refuseIf
  split
  · intro a b e; cases e; exact h
  · exact noTimeout_none

theorem noTimeout_firstRefusal (l : List (Option (Nat × Nat))) (h : ∀ x ∈ l, NoTimeout x) : NoTimeout (firstRefusal l) := by
  induction l with
  | nil => exact noTimeout_none
  | cons x r ih =>
    cases x with
    | none => exact ih fun y hy => h y (List.mem_cons_of_mem _ hy)
    | some z => exact h (some z) List.mem_cons_self

theorem noTimeout_signFlag (op : Nat) (b : Bool) : NoTimeout (signFlagRefusal op b) := by
  unfold signFlagRefusal
  split
  · split
    · exact noTimeout_none
    · intro st d h; cases h; decide
  · split
    · intro st d h; cases h; decide
    · exact noTimeout_none
  · exact noTimeout_none

/-- Asking PN or KB changes bricks only. -/
theorem askGroup_bricks (op : Nat) (s : State) : askGroup op s = { s with bricks := (askGroup op s).bricks } := by
  unfold askGroup
  split
  · rfl
  · split <;> rfl

/-- Taking the request first makes no difference to the bricks asked. -/
theorem askGroup_takeAccepted (op op' : Nat) (r : Req) (s : State) :
    (askGroup op (takeAccepted op' r s)).bricks = (askGroup op s).bricks := by
  unfold askGroup
  split
  · rfl
  · split <;> rfl

/-- An answer leaves the bricks as they were. -/
theorem answeredByBrick_of_answered {op : Nat} {s t : State} (h : Answered s t) : AnsweredByBrick op s t where
  rest := by rw [h.rest]
  regs := h.regs
  asked := .inl (by rw [h.rest])

/-- An unsigned command that is no settings command and is not mirrored only answers and asks its brick, if its own effect
only answers. -/
theorem answered_or_asked {c : CmdSpec} {r : Req} (s : State) (hs : r.signed = false)
    (hset : settingsOps.contains c.opcode = false) (hm : isMirrored c.opcode (bodyOf r) = false)
    (hc : ∀ t, NoTimeout (c.check r (bodyOf r) t)) (hr : ∀ t, Answered t (c.run r (bodyOf r) t)) :
    Answered s (runCmd c r s) ∨ Answered (askGroup c.opcode (takeAccepted c.opcode r s)) (runCmd c r s) := by
  unfold runCmd
  split
  · have tak := answered_takeAccepted c.opcode r s
    generalize takeAccepted c.opcode r s = t at tak ⊢
    have sig : signatureRefusal c.opcode r t = none := by simp [signatureRefusal, hs]
    have aft : afterSignature r t = t := by simp [afterSignature, hs]
    have pas : ∀ n u, passToPartner c.opcode r (bodyOf r) n u = u := by simp [passToPartner, hm]
    unfold runStarted
    simp only [sig, aft, pas]
    split
    · next st d h => exact .inl (answered_trans tak (answered_finish _ _ _ _ _ _ (noTimeout_signFlag _ _ st d h) hset))
    · split
      · exact .inl (answered_trans tak (answered_finish _ _ _ _ _ _ (by decide) hset))
      · split
        · exact .inl (answered_trans tak (answered_finish _ _ _ _ _ _ (by decide) hset))
        · split
          · next st d h => exact .inl (answered_trans tak (answered_finish _ _ _ _ _ _ (hc t st d h) hset))
          · exact .inr (hr _)
  · exact .inl (answered_refl s)

/-- The same, for a command of neither PN nor KB. -/
theorem answered_runCmd {c : CmdSpec} {r : Req} (s : State) (hs : r.signed = false) (hset : settingsOps.contains c.opcode = false)
    (hm : isMirrored c.opcode (bodyOf r) = false) (hc : ∀ t, NoTimeout (c.check r (bodyOf r) t))
    (hr : ∀ t, Answered t (c.run r (bodyOf r) t)) (hg : ∀ t, askGroup c.opcode t = t) : Answered s (runCmd c r s) := by
  rcases answered_or_asked s hs hset hm hc hr with h | h
  · exact h
  · rw [hg] at h
    exact answered_trans (answered_takeAccepted c.opcode r s) h

/-- The same, for a command of PN or KB. -/
theorem asked_runCmd {c : CmdSpec} {r : Req} (s : State) (hs : r.signed = false) (hset : settingsOps.contains c.opcode = false)
    (hm : isMirrored c.opcode (bodyOf r) = false) (hc : ∀ t, NoTimeout (c.check r (bodyOf r) t))
    (hr : ∀ t, Answered t (c.run r (bodyOf r) t)) : AnsweredByBrick c.opcode s (runCmd c r s) := by
  rcases answered_or_asked s hs hset hm hc hr with h | h
  · exact answeredByBrick_of_answered h
  · generalize runCmd c r s = u at h
    have e := askGroup_bricks c.opcode (takeAccepted c.opcode r s)
    have t := askGroup_takeAccepted c.opcode c.opcode r s
    obtain ⟨hrest, hregs⟩ := h
    have hb : u.bricks = (askGroup c.opcode s).bricks := by rw [hrest, ← t]
    refine ⟨?_, ?_, .inr hb⟩
    · rw [e] at hrest
      rw [hrest]
      rfl
    · rw [hregs, e]
      rfl

end Sys2Proof.Laws
end

