-- ==== Sys2Proof/Laws/Keeps.lean ====
section
/-! SUPPORT. Laws/Keeps.lean: what every step keeps. `Keeps a b` says what cannot go wrong between a state and a later one: slot memory
stays canonical (R389), a transition in progress leads along R521 and the life cycle goes on only along it, no minimum SVN falls (R554). -/

namespace Sys2Proof.Laws

set_option linter.all false

open Sys2Proof.Machine
open Sys2Proof.Safety (lcReach transitionOk)

theorem lcReach_refl (a : LcState) : lcReach a a := .inl rfl

theorem lcReach_trans {a b c : LcState} (h : lcReach a b) (k : lcReach b c) : lcReach a c := by
  cases a <;> cases b <;> cases c <;> simp_all [lcReach]

/-- What lies between a state and a later one. -/
abbrev Keeps (a b : State) : Prop :=
  (Memory.wf a.host.mem → Memory.wf b.host.mem) ∧
  (transitionOk a.keys.op a.keys.lc → transitionOk b.keys.op b.keys.lc ∧ lcReach a.keys.lc b.keys.lc) ∧
  (∀ i, lget a.fwu.minSvn i 0 ≤ lget b.fwu.minSvn i 0)

/-- A step goes on to a state it keeps. -/
def Goes (a : State) (r : Res) : Prop := ∃ t, r = .next t ∧ Keeps a t

theorem Keeps.refl (a : State) : Keeps a a := ⟨id, fun h => ⟨h, lcReach_refl _⟩, fun _ => Nat.le_refl _⟩

theorem goes_next {a t : State} (h : Keeps a t) : Goes a (.next t) := ⟨t, rfl, h⟩

theorem keeps_let {a v : State} {b : State → State} (hv : Keeps a v) (hb : ∀ x, Keeps a x → Keeps a (b x)) :
    Keeps a (let x := v; b x) := hb _ hv

theorem keeps_have {β : Type} {a : State} {v : β} {b : β → State} (hb : ∀ x, Keeps a (b x)) :
    Keeps a (let x := v; b x) := hb _

end Sys2Proof.Laws
end

