-- ==== Sys2Proof/Laws/KeepsOps.lean ====
section
/-! SUPPORT. Laws/KeepsOps.lean: what each operation of Machine/Ops.lean keeps (Laws/Keeps.lean). -/

namespace Sys2Proof.Laws

set_option linter.all false

open Sys2Proof.Machine

theorem keeps_takeFree {a : State} (s : State) (h : Keeps a s) : Keeps a (takeFree s).2 := by
  unfold takeFree
  repeat' first
     | (intro x; first | (have hx : Keeps a x := by (unfold x; repeat' first | with_reducible assumption | split)); clear_value x | (have _ : HostIf := x) | (have _ : Keys := x) | (have _ : Fwu := x) | clear_value x | skip)
     | with_reducible assumption | split | lift_lets

theorem keeps_takeFree_eq {a t : State} {s : State} {z : _} (e : takeFree s = (z, t)) (h : Keeps a s) : Keeps a t := by
  have k := keeps_takeFree s h
  rw [e] at k; exact k

theorem keeps_emit {a : State} (o : Out) (s : State) (h : Keeps a s) : Keeps a (emit o s) := ⟨h.1, h.2⟩

theorem keeps_emitAll {a : State} (y0 : List Out) (y1 : State) (h : Keeps a y1) : Keeps a (emitAll y0 y1) := by
  induction y0 generalizing y1 with
  | nil =>
    unfold emitAll
    repeat' first
       | (intro x; first | (have hx : Keeps a x := by (unfold x; repeat' first | with_reducible assumption | with_reducible apply keeps_emit | split)); clear_value x | (have _ : HostIf := x) | (have _ : Keys := x) | (have _ : Fwu := x) | clear_value x | skip)
       | with_reducible assumption | with_reducible apply keeps_emit | split | lift_lets
  | cons x r ih =>
    unfold emitAll
    repeat' first
       | (intro x; first | (have hx : Keeps a x := by (unfold x; repeat' first | with_reducible assumption | with_reducible apply keeps_emit | with_reducible apply ih | split)); clear_value x | (have _ : HostIf := x) | (have _ : Keys := x) | (have _ : Fwu := x) | clear_value x | skip)
       | with_reducible assumption | with_reducible apply keeps_emit | with_reducible apply ih | split | lift_lets

theorem keeps_setBrick {a : State} (b : Nat) (f : Brick → Brick) (s : State) (h : Keeps a s) : Keeps a (setBrick b f s) := ⟨h.1, h.2⟩

theorem keeps_wakeBrick {a : State} (b : Nat) (s : State) (h : Keeps a s) : Keeps a (wakeBrick b s) := ⟨h.1, h.2⟩

theorem keeps_reachBrick {a : State} (b : Nat) (s : State) (h : Keeps a s) : Keeps a (reachBrick b s) := by
  unfold reachBrick
  split
  · exact keeps_wakeBrick b s h
  · exact h

theorem keeps_restBrick {a : State} (b : Nat) (s : State) (h : Keeps a s) : Keeps a (restBrick b s) := ⟨h.1, h.2⟩

theorem keeps_cfgPoke {a : State} (off : Nat) (v : W32) (s : State) (h : Keeps a s) : Keeps a (cfgPoke off v s) := by
  unfold cfgPoke
  repeat' first | exact ⟨h.1, h.2⟩ | assumption | split

theorem keeps_resign {a : State} (base : Nat) (s : State) (h : Keeps a s) : Keeps a (resign base s) := ⟨h.1, h.2⟩

theorem keeps_cfgSet {a : State} (off : Nat) (v : W32) (s : State) (h : Keeps a s) : Keeps a (cfgSet off v s) := by
  unfold cfgSet
  repeat' first | exact ⟨h.1, h.2⟩ | assumption | with_reducible apply keeps_resign | with_reducible apply keeps_cfgPoke | split

theorem keeps_rcAdd {a : State} (off : Nat) (n : Nat) (s : State) (h : Keeps a s) : Keeps a (rcAdd off n s) := ⟨h.1, h.2⟩

theorem keeps_rcClear {a : State} (off : Nat) (s : State) (h : Keeps a s) : Keeps a (rcClear off s) := ⟨h.1, h.2⟩

theorem keeps_msixSend {a : State} (v : Nat) (s : State) (h : Keeps a s) : Keeps a (msixSend v s) := by
  unfold msixSend
  repeat' first | exact ⟨h.1, h.2⟩ | assumption | with_reducible apply keeps_emit | split

theorem keeps_sendVector {a : State} (v : Nat) (s : State) (h : Keeps a s) : Keeps a (sendVector v s) := by
  unfold sendVector
  repeat' first | exact ⟨h.1, h.2⟩ | assumption | with_reducible apply keeps_msixSend | split

theorem keeps_messageDue {a : State} (v : Nat) (s : State) (h : Keeps a s) : Keeps a (messageDue v s) := by
  unfold messageDue
  repeat' first | exact ⟨h.1, h.2⟩ | assumption | with_reducible apply keeps_sendVector | split

theorem keeps_alertSettle {a : State} (s : State) (h : Keeps a s) : Keeps a (alertSettle s) := by
  unfold alertSettle
  repeat' first | exact ⟨h.1, h.2⟩ | assumption | split

theorem keeps_dropRecord {a : State} (e : EventRec) (s : State) (h : Keeps a s) : Keeps a (dropRecord e s) := ⟨h.1, h.2⟩

theorem keeps_queueRecord {a : State} (e : EventRec) (s : State) (h : Keeps a s) : Keeps a (queueRecord e s) := by
  unfold queueRecord
  with_reducible repeat' first
     | (intro x; first | (have hx : Keeps a x := by (unfold x; repeat' first | assumption | apply keeps_dropRecord | apply keeps_messageDue | split)); clear_value x | (have _ : HostIf := x) | (have _ : Keys := x) | (have _ : Fwu := x) | clear_value x | skip)
     | assumption | apply keeps_dropRecord | apply keeps_messageDue | split | lift_lets

theorem keeps_raiseC {a : State} (src : Nat) (params : List Int) (code : Nat) (s : State) (h : Keeps a s) : Keeps a (raiseC src params code s) := by
  unfold raiseC
  with_reducible repeat' first
     | (intro x; first | (have hx : Keeps a x := by (unfold x; repeat' first | assumption | apply keeps_queueRecord | apply keeps_messageDue | split)); clear_value x | (have _ : HostIf := x) | (have _ : Keys := x) | (have _ : Fwu := x) | clear_value x | skip)
     | assumption | apply keeps_queueRecord | apply keeps_messageDue | split | lift_lets

theorem keeps_raise {a : State} (src : Nat) (params : List Int) (s : State) (h : Keeps a s) : Keeps a (raise src params s) := by
  induction src generalizing s with
  | zero =>
    unfold raise
    repeat' first
       | (intro x; first | (have hx : Keeps a x := by (unfold x; repeat' first | with_reducible assumption | with_reducible apply keeps_raiseC | split)); clear_value x | (have _ : HostIf := x) | (have _ : Keys := x) | (have _ : Fwu := x) | clear_value x | skip)
       | with_reducible assumption | with_reducible apply keeps_raiseC | split | lift_lets
  | succ x ih =>
    unfold raise
    repeat' first
       | (intro x; first | (have hx : Keeps a x := by (unfold x; repeat' first | with_reducible assumption | with_reducible apply keeps_raiseC | with_reducible apply ih | split)); clear_value x | (have _ : HostIf := x) | (have _ : Keys := x) | (have _ : Fwu := x) | clear_value x | skip)
       | with_reducible assumption | with_reducible apply keeps_raiseC | with_reducible apply ih | split | lift_lets

theorem keeps_raiseOnce {a : State} (flag : Bool) (src : Nat) (params : List Int) (s : State) (h : Keeps a s) : Keeps a (raiseOnce flag src params s) := by
  unfold raiseOnce
  repeat' first | exact ⟨h.1, h.2⟩ | assumption | with_reducible apply keeps_raise | split

theorem keeps_raiseAccess {a : State} (src : Nat) (params : List Int) (cause : Nat) (s : State) (h : Keeps a s) : Keeps a (raiseAccess src params cause s) := by
  unfold raiseAccess
  with_reducible repeat' first
     | (intro x; first | (have hx : Keeps a x := by (unfold x; repeat' first | assumption | apply keeps_raiseC | split)); clear_value x | (have _ : HostIf := x) | (have _ : Keys := x) | (have _ : Fwu := x) | clear_value x | skip)
     | assumption | apply keeps_raiseC | split | lift_lets

theorem keeps_dropAccess {a : State} (port : Port) (off : Nat) (cause : Nat) (write : Bool) (s : State) (h : Keeps a s) : Keeps a (dropAccess port off cause write s) := by
  unfold dropAccess
  repeat' first | with_reducible assumption | with_reducible apply keeps_rcAdd | with_reducible apply keeps_raiseAccess | split

theorem keeps_countFault {a : State} (row : Nat) (s : State) (h : Keeps a s) : Keeps a (countFault row s) := ⟨h.1, h.2⟩

theorem keeps_sendMirror {a : State} (body : MirrorBody) (s : State) (h : Keeps a s) : Keeps a (sendMirror body s) := by
  unfold sendMirror
  repeat' first | exact ⟨h.1, h.2⟩ | assumption | with_reducible apply keeps_emit | split

end Sys2Proof.Laws
end

