-- ==== Sys2Proof/Laws/KeepsOperands.lean ====
section
/-! SUPPORT. Laws/KeepsOperands.lean: what each operation of Machine/Operands.lean keeps (Laws/Keeps.lean). -/

namespace Sys2Proof.Laws

set_option linter.all false

open Sys2Proof.Machine

theorem fwf_cons {α : Type} (k : Nat) (v : α) (r : FMap α) : fwf ((k, v) :: r) = true ↔ (∀ e ∈ r, k < e.1) ∧ fwf r = true := by
  induction r generalizing k v with
  | nil => simp [fwf]
  | cons e r ih =>
    obtain ⟨k', v'⟩ := e
    constructor
    · intro hw
      simp only [fwf, Bool.and_eq_true, decide_eq_true_eq] at hw
      refine ⟨fun e he => ?_, hw.2⟩
      rcases List.mem_cons.1 he with rfl | he
      · exact hw.1
      · exact Nat.lt_trans hw.1 (((ih k' v').1 hw.2).1 e he)
    · intro hw
      simp only [fwf, Bool.and_eq_true, decide_eq_true_eq]
      exact ⟨hw.1 (k', v') (by simp), hw.2⟩

theorem fset_mem {α : Type} {m : FMap α} {i : Nat} {x : α} {e : Nat × α} (h : e ∈ fset m i x) : e = (i, x) ∨ e ∈ m := by
  induction m with
  | nil => simp [fset] at h; exact .inl h
  | cons c r ih =>
    obtain ⟨k, v⟩ := c
    simp only [fset] at h
    split at h
    · rename_i hk; subst hk
      rcases List.mem_cons.1 h with h | h
      · exact .inl h
      · exact .inr (by simp [h])
    · split at h
      · rcases List.mem_cons.1 h with h | h
        · exact .inl h
        · exact .inr h
      · rcases List.mem_cons.1 h with h | h
        · exact .inr (by simp [h])
        · rcases ih h with h | h
          · exact .inl h
          · exact .inr (by simp [h])

theorem fset_wf {α : Type} {m : FMap α} (i : Nat) (x : α) (h : fwf m = true) : fwf (fset m i x) = true := by
  induction m with
  | nil => rfl
  | cons c r ih =>
    obtain ⟨k, v⟩ := c
    have hc := (fwf_cons k v r).1 h
    simp only [fset]
    split
    · exact (fwf_cons k x r).2 hc
    · split
      · rename_i h1 h2
        refine (fwf_cons i x _).2 ⟨fun e he => ?_, h⟩
        rcases List.mem_cons.1 he with rfl | he
        · exact h2
        · exact Nat.lt_trans h2 (hc.1 e he)
      · rename_i h1 h2
        refine (fwf_cons k v _).2 ⟨fun e he => ?_, ih hc.2⟩
        rcases fset_mem he with rfl | he
        · simp only; omega
        · exact hc.1 e he

theorem ferase_mem {α : Type} {m : FMap α} {i : Nat} {e : Nat × α} (h : e ∈ ferase m i) : e ∈ m := by
  induction m with
  | nil => exact h
  | cons c r ih =>
    obtain ⟨k, v⟩ := c
    simp only [ferase] at h
    split at h
    · exact List.mem_cons_of_mem _ h
    · rcases List.mem_cons.1 h with h | h
      · simp [h]
      · exact List.mem_cons_of_mem _ (ih h)

theorem ferase_wf {α : Type} {m : FMap α} (i : Nat) (h : fwf m = true) : fwf (ferase m i) = true := by
  induction m with
  | nil => rfl
  | cons c r ih =>
    obtain ⟨k, v⟩ := c
    have hc := (fwf_cons k v r).1 h
    simp only [ferase]
    split
    · exact hc.2
    · exact (fwf_cons k v _).2 ⟨fun e he => hc.1 e (ferase_mem he), ih hc.2⟩

theorem memWrite_wf {m : List Host.Cell} (x : Nat) (b : Byte) (h : Memory.wf m) : Memory.wf (memWrite m x b) := by
  unfold memWrite fput
  split
  · exact ⟨ferase_wf _ h.1, fun c hc => h.2 c (ferase_mem hc)⟩
  · rename_i hb
    refine ⟨fset_wf _ _ h.1, fun c hc => ?_⟩
    rcases fset_mem hc with rfl | hc
    · exact hb
    · exact h.2 c hc

theorem memWriteBytes_wf {m : List Host.Cell} (x : Nat) (l : Bytes) (h : Memory.wf m) : Memory.wf (memWriteBytes m x l) := by
  induction l generalizing m x with
  | nil => exact h
  | cons b r ih => exact ih _ (memWrite_wf _ _ h)

theorem keeps_setSlot {a : State} (n : Nat) (x : Slot) (s : State) (h : Keeps a s) : Keeps a (setSlot n x s) := ⟨h.1, h.2⟩

theorem keeps_slotRespond {a : State} (n op : Nat) (tag : W16) (status detail : Nat) (data : Bytes) (s : State) (h : Keeps a s) :
    Keeps a (slotRespond n op tag status detail data s) := by
  unfold slotRespond setSlot
  apply keeps_msixSend
  exact ⟨fun w => memWriteBytes_wf _ _ (h.1 w), h.2⟩

theorem keeps_sbRespond {a : State} (op : Nat) (tag : W16) (status : Nat) (detail : Nat) (data : Bytes) (s : State) (h : Keeps a s) : Keeps a (sbRespond op tag status detail data s) := ⟨h.1, h.2⟩

theorem keeps_respond {a : State} (op : Nat) (r : Req) (status : Nat) (detail : Nat) (data : Bytes) (s : State) (h : Keeps a s) : Keeps a (respond op r status detail data s) := by
  unfold respond
  with_reducible repeat' first
     | (intro x; first | (have hx : Keeps a x := by (unfold x; repeat' first | assumption | apply keeps_slotRespond | apply keeps_emit | apply keeps_sbRespond | split)); clear_value x | (have _ : HostIf := x) | (have _ : Keys := x) | (have _ : Fwu := x) | clear_value x | skip)
     | assumption | apply keeps_slotRespond | apply keeps_emit | apply keeps_sbRespond | split | lift_lets

theorem keeps_remember {a : State} (op : Nat) (body : Bytes) (s : State) (h : Keeps a s) : Keeps a (remember op body s) := ⟨h.1, h.2⟩

theorem keeps_finish {a : State} (op : Nat) (r : Req) (status : Nat) (detail : Nat) (data : Bytes) (s : State) (h : Keeps a s) : Keeps a (finish op r status detail data s) := by
  unfold finish
  with_reducible repeat' first
     | (intro x; first | (have hx : Keeps a x := by (unfold x; repeat' first | assumption | apply keeps_raise | apply keeps_remember | apply keeps_respond | split)); clear_value x | (have _ : HostIf := x) | (have _ : Keys := x) | (have _ : Fwu := x) | clear_value x | skip)
     | assumption | apply keeps_raise | apply keeps_remember | apply keeps_respond | split | lift_lets

theorem keeps_finishOk {a : State} (op : Nat) (r : Req) (data : Bytes) (s : State) (h : Keeps a s) : Keeps a (finishOk op r data s) := by
  unfold finishOk
  repeat' first | exact ⟨h.1, h.2⟩ | assumption | with_reducible apply keeps_finish | split

theorem keeps_holdCmd {a : State} (op : Nat) (r : Req) (s : State) (h : Keeps a s) : Keeps a (holdCmd op r s) := ⟨h.1, h.2⟩

theorem keeps_finishOpt {a : State} (op : Nat) (r : Option Req) (status : Nat) (detail : Nat) (data : Bytes) (s : State) (h : Keeps a s) : Keeps a (finishOpt op r status detail data s) := by
  unfold finishOpt
  repeat' first | exact ⟨h.1, h.2⟩ | assumption | with_reducible apply keeps_finish | split

theorem keeps_flushMirrored {a : State} (upTo : Nat) (y1 : List MirrorWait) (y2 : State) (h : Keeps a y2) : Keeps a (flushMirrored upTo y1 y2) := by
  induction y1 generalizing y2 with
  | nil =>
    unfold flushMirrored
    repeat' first
       | (intro x; first | (have hx : Keeps a x := by (unfold x; repeat' first | with_reducible assumption | with_reducible apply keeps_respond | split)); clear_value x | (have _ : HostIf := x) | (have _ : Keys := x) | (have _ : Fwu := x) | clear_value x | skip)
       | with_reducible assumption | with_reducible apply keeps_respond | split | lift_lets
  | cons x r ih =>
    unfold flushMirrored
    repeat' first
       | (intro x; first | (have hx : Keeps a x := by (unfold x; repeat' first | with_reducible assumption | with_reducible apply keeps_respond | with_reducible apply ih | split)); clear_value x | (have _ : HostIf := x) | (have _ : Keys := x) | (have _ : Fwu := x) | clear_value x | skip)
       | with_reducible assumption | with_reducible apply keeps_respond | with_reducible apply ih | split | lift_lets

theorem keeps_ackMirrored {a : State} (upTo : Nat) (s : State) (h : Keeps a s) : Keeps a (ackMirrored upTo s) := by
  unfold ackMirrored
  repeat' first | exact ⟨h.1, h.2⟩ | assumption | with_reducible apply keeps_flushMirrored | split

end Sys2Proof.Laws
end

