-- ==== Sys2Proof/Laws/KeepsKeyring.lean ====
section
/-! SUPPORT. Laws/KeepsKeyring.lean: what each operation of Machine/Keyring.lean keeps (Laws/Keeps.lean). -/

namespace Sys2Proof.Laws

set_option linter.all false

open Sys2Proof.Machine

theorem keeps_revokeKey {a : State} (slot : Nat) (cause : Nat) (s : State) (h : Keeps a s) : Keeps a (revokeKey slot cause s) := by
  unfold revokeKey
  repeat' first | exact ⟨h.1, h.2⟩ | assumption | with_reducible apply keeps_raiseC | with_reducible apply keeps_rcAdd | split

theorem keeps_useLegacy {a : State} (slot : Nat) (s : State) (h : Keeps a s) : Keeps a (useLegacy slot s) := by
  unfold useLegacy
  with_reducible repeat' first
     | (intro x; first | (have hx : Keeps a x := by (unfold x; repeat' first | assumption | apply keeps_revokeKey | split)); clear_value x | (have _ : HostIf := x) | (have _ : Keys := x) | (have _ : Fwu := x) | clear_value x | skip)
     | assumption | apply keeps_revokeKey | split | lift_lets

theorem keeps_signedAccept {a : State} (r : Req) (s : State) (h : Keeps a s) : Keeps a (signedAccept r s) := by
  unfold signedAccept
  repeat' first | exact ⟨h.1, h.2⟩ | assumption | with_reducible apply keeps_useLegacy | split

theorem keeps_sectionUsed {a : State} (b : Bytes) (n : Nat) (s : State) (h : Keeps a s) : Keeps a (sectionUsed b n s) :=
  keeps_useLegacy _ _ h

theorem keeps_afterChecks {a : State} (f : Option Nat) (b : Bytes) (n : Nat) (s : State) (h : Keeps a s) :
    Keeps a (afterChecks f b n s) := by
  unfold afterChecks
  repeat' first | assumption | with_reducible apply keeps_sectionUsed | split

end Sys2Proof.Laws
end

