-- ==== Sys2Proof/Laws/KeepsCmd.lean ====
section
/-! SUPPORT. Laws/KeepsCmd.lean: what each operation of Machine/Cmd.lean keeps (Laws/Keeps.lean). -/

namespace Sys2Proof.Laws

set_option linter.all false

open Sys2Proof.Machine

theorem keeps_takeAccepted {a : State} (op : Nat) (r : Req) (s : State) (h : Keeps a s) : Keeps a (takeAccepted op r s) := ⟨h.1, h.2⟩

theorem keeps_passToPartner {a : State} (op : Nat) (r : Req) (body : Bytes) (instant : Nat) (s : State) (h : Keeps a s) :
    Keeps a (passToPartner op r body instant s) := by
  unfold passToPartner
  repeat' first | exact ⟨h.1, h.2⟩ | assumption | with_reducible apply keeps_sendMirror | split

theorem keeps_askKeys {a : State} (r : Req) (s : State) (h : Keeps a s) : Keeps a (askKeys r s) := by
  unfold askKeys
  split
  · exact keeps_reachBrick _ _ h
  · exact h

theorem keeps_afterSignature {a : State} (r : Req) (s : State) (h : Keeps a s) : Keeps a (afterSignature r s) := by
  unfold afterSignature
  split
  · exact keeps_signedAccept _ _ (keeps_askKeys _ _ h)
  · exact h

theorem keeps_askGroup {a : State} (op : Nat) (s : State) (h : Keeps a s) : Keeps a (askGroup op s) := by
  unfold askGroup
  split
  · exact keeps_reachBrick _ _ h
  · split
    · exact keeps_reachBrick _ _ h
    · exact h

theorem keeps_runStarted {a : State} {c : CmdSpec} (hr : ∀ (r : Req) (p : Bytes) (s : State), Keeps a s → Keeps a (c.run r p s))
    (r : Req) {s : State} (h : Keeps a s) : Keeps a (runStarted c r s) := by
  unfold runStarted
  repeat' first
    | ((try lift_lets); intro x; first | (have hx : Keeps a x := by (unfold x; first | with_reducible assumption | apply keeps_afterSignature <;> with_reducible assumption)); clear_value x | clear_value x | skip)
    | with_reducible assumption
    | with_reducible apply keeps_finish
    | with_reducible apply keeps_raiseC
    | with_reducible apply hr
    | with_reducible apply keeps_passToPartner
    | with_reducible apply keeps_afterSignature
    | with_reducible apply keeps_askKeys
    | with_reducible apply keeps_askGroup
    | split

theorem keeps_runCmd {a : State} {c : CmdSpec} (hr : ∀ (r : Req) (p : Bytes) (s : State), Keeps a s → Keeps a (c.run r p s))
    (r : Req) {s : State} (h : Keeps a s) : Keeps a (runCmd c r s) := by
  unfold runCmd
  split
  · exact keeps_runStarted hr r (keeps_takeAccepted _ _ _ h)
  · exact h

end Sys2Proof.Laws
end

