-- ==== Sys2Proof/Laws/KeepsPoints.lean ====
section
/-! SUPPORT. Laws/KeepsPoints.lean: what each operation of Machine/Points.lean keeps (Laws/Keeps.lean). -/

namespace Sys2Proof.Laws

set_option linter.all false

open Sys2Proof.Machine

theorem keeps_putRec {a : State} (id : Nat) (r : PointRec) (s : State) (h : Keeps a s) : Keeps a (putRec id r s) := ⟨h.1, h.2⟩

theorem keeps_writePoint {a : State} (id : Nat) (value : Int) (stime : W32) (quality : Byte) (scale : Int) (s : State) (h : Keeps a s) : Keeps a (writePoint id value stime quality scale s) := by
  unfold writePoint
  with_reducible repeat' first
     | (intro x; first | (have hx : Keeps a x := by (unfold x; repeat' first | assumption | apply keeps_putRec | apply keeps_raise | split)); clear_value x | (have _ : HostIf := x) | (have _ : Keys := x) | (have _ : Fwu := x) | clear_value x | skip)
     | assumption | apply keeps_putRec | apply keeps_raise | split | lift_lets

theorem keeps_writeScaled {a : State} (id : Nat) (value : Int) (scale : Int) (stime : W32) (quality : Byte) (s : State) (h : Keeps a s) : Keeps a (writeScaled id value scale stime quality s) := by
  unfold writeScaled
  repeat' first | exact ⟨h.1, h.2⟩ | assumption | with_reducible apply keeps_writePoint | split

theorem keeps_setQuality {a : State} (id : Nat) (q : Byte) (s : State) (h : Keeps a s) : Keeps a (setQuality id q s) := ⟨h.1, h.2⟩

theorem keeps_specPointRead {a : State} (r : Req) (p : Bytes) (s : State) (h : Keeps a s) : Keeps a (specPointRead.run r p s) := by
  unfold specPointRead; dsimp only
  repeat' first
     | (intro x; first | (have hx : Keeps a x := by (unfold x; repeat' first | with_reducible assumption | with_reducible apply keeps_finishOk | split)); clear_value x | (have _ : HostIf := x) | (have _ : Keys := x) | (have _ : Fwu := x) | clear_value x | skip)
     | with_reducible assumption | with_reducible apply keeps_finishOk | split | lift_lets

theorem keeps_execCmdPointRead {a : State} (r : Req) (s : State) (h : Keeps a s) : Goes a (execCmdPointRead r s) :=
  goes_next (keeps_runCmd keeps_specPointRead r h)

theorem keeps_setCls {a : State} (c : Nat) (f : ClassSt → ClassSt) (s : State) (h : Keeps a s) : Keeps a (setCls c f s) := ⟨h.1, h.2⟩

theorem keeps_queueForce {a : State} (op : Nat) (r : Req) (point : Option Nat) (value : Option Int) (s : State) (h : Keeps a s) : Keeps a (queueForce op r point value s) := ⟨h.1, h.2⟩

theorem keeps_specForceSet {a : State} (r : Req) (p : Bytes) (s : State) (h : Keeps a s) : Keeps a (specForceSet.run r p s) := by
  unfold specForceSet; dsimp only
  repeat' first
     | (intro x; first | (have hx : Keeps a x := by (unfold x; repeat' first | with_reducible assumption | with_reducible apply keeps_queueForce | split)); clear_value x | (have _ : HostIf := x) | (have _ : Keys := x) | (have _ : Fwu := x) | clear_value x | skip)
     | with_reducible assumption | with_reducible apply keeps_queueForce | split | lift_lets

theorem keeps_execCmdForceSet {a : State} (r : Req) (s : State) (h : Keeps a s) : Goes a (execCmdForceSet r s) :=
  goes_next (keeps_runCmd keeps_specForceSet r h)

theorem keeps_specForceClear {a : State} (r : Req) (p : Bytes) (s : State) (h : Keeps a s) : Keeps a (specForceClear.run r p s) := by
  unfold specForceClear; dsimp only
  repeat' first
     | (intro x; first | (have hx : Keeps a x := by (unfold x; repeat' first | with_reducible assumption | with_reducible apply keeps_queueForce | split)); clear_value x | (have _ : HostIf := x) | (have _ : Keys := x) | (have _ : Fwu := x) | clear_value x | skip)
     | with_reducible assumption | with_reducible apply keeps_queueForce | split | lift_lets

theorem keeps_execCmdForceClear {a : State} (r : Req) (s : State) (h : Keeps a s) : Goes a (execCmdForceClear r s) :=
  goes_next (keeps_runCmd keeps_specForceClear r h)

theorem keeps_applyForce {a : State} (c : ForceChange) (s : State) (h : Keeps a s) : Keeps a (applyForce c s) := by
  unfold applyForce
  repeat' first | exact ⟨h.1, h.2⟩ | assumption | with_reducible apply keeps_finishOk | split

theorem keeps_applyForces {a : State} (y0 : List ForceChange) (y1 : State) (h : Keeps a y1) : Keeps a (applyForces y0 y1) := by
  induction y0 generalizing y1 with
  | nil =>
    unfold applyForces
    repeat' first
       | (intro x; first | (have hx : Keeps a x := by (unfold x; repeat' first | with_reducible assumption | with_reducible apply keeps_applyForce | split)); clear_value x | (have _ : HostIf := x) | (have _ : Keys := x) | (have _ : Fwu := x) | clear_value x | skip)
       | with_reducible assumption | with_reducible apply keeps_applyForce | split | lift_lets
  | cons x r ih =>
    unfold applyForces
    repeat' first
       | (intro x; first | (have hx : Keeps a x := by (unfold x; repeat' first | with_reducible assumption | with_reducible apply keeps_applyForce | with_reducible apply ih | split)); clear_value x | (have _ : HostIf := x) | (have _ : Keys := x) | (have _ : Fwu := x) | clear_value x | skip)
       | with_reducible assumption | with_reducible apply keeps_applyForce | with_reducible apply ih | split | lift_lets

theorem keeps_forcesDue {a : State} (t : Nat) (s : State) (h : Keeps a s) : Keeps a (forcesDue t s) := by
  unfold forcesDue
  repeat' first | exact ⟨h.1, h.2⟩ | assumption | with_reducible apply keeps_applyForces | split

theorem keeps_execForceEffect {a : State} (s : State) (h : Keeps a s) : Goes a (execForceEffect s) := by
  unfold execForceEffect
  (try intro x)
  apply goes_next
  repeat' first
     | (intro x; first | (have hx : Keeps a x := by (unfold x; repeat' first | with_reducible assumption | with_reducible apply keeps_forcesDue | split)); clear_value x | (have _ : HostIf := x) | (have _ : Keys := x) | (have _ : Fwu := x) | clear_value x | skip)
     | with_reducible assumption | with_reducible apply keeps_forcesDue | split | lift_lets

theorem keeps_specForceList {a : State} (r : Req) (p : Bytes) (s : State) (h : Keeps a s) : Keeps a (specForceList.run r p s) := by
  unfold specForceList; dsimp only
  repeat' first
     | (intro x; first | (have hx : Keeps a x := by (unfold x; repeat' first | with_reducible assumption | with_reducible apply keeps_finishOk | split)); clear_value x | (have _ : HostIf := x) | (have _ : Keys := x) | (have _ : Fwu := x) | clear_value x | skip)
     | with_reducible assumption | with_reducible apply keeps_finishOk | split | lift_lets

theorem keeps_execCmdForceList {a : State} (r : Req) (s : State) (h : Keeps a s) : Goes a (execCmdForceList r s) :=
  goes_next (keeps_runCmd keeps_specForceList r h)

end Sys2Proof.Laws
end

