-- ==== Sys2Proof/Laws/KeepsRegRead.lean ====
section
/-! SUPPORT. Laws/KeepsRegRead.lean: what each operation of Machine/RegRead.lean keeps (Laws/Keeps.lean). -/

namespace Sys2Proof.Laws

set_option linter.all false

open Sys2Proof.Machine

theorem keeps_setCan {a : State} (n : Nat) (f : CanCtl → CanCtl) (s : State) (h : Keeps a s) : Keeps a (setCan n f s) := ⟨h.1, h.2⟩

theorem keeps_loadRecord {a : State} (p : Port) (s : State) (h : Keeps a s) : Keeps a (loadRecord p s) := ⟨h.1, h.2⟩

theorem keeps_advanceCursor {a : State} (p : Port) (s : State) (h : Keeps a s) : Keeps a (advanceCursor p s) := by
  unfold advanceCursor
  repeat' first | exact ⟨h.1, h.2⟩ | assumption | split

theorem keeps_startFreeze {a : State} (p : Port) (s : State) (h : Keeps a s) : Keeps a (startFreeze p s) := ⟨h.1, h.2⟩

theorem keeps_endFreeze {a : State} (p : Port) (s : State) (h : Keeps a s) : Keeps a (endFreeze p s) := ⟨h.1, h.2⟩

theorem keeps_latchPair {a : State} (p : Port) (lo : Nat) (hi : Nat) (s : State) (h : Keeps a s) : Keeps a (latchPair p lo hi s) := ⟨h.1, h.2⟩

theorem keeps_readFull {a : State} (p : Port) (off : Nat) (s : State) (h : Keeps a s) : Keeps a (readFull p off s).2 := by
  unfold readFull
  repeat' first
     | (intro x; first | (have hx : Keeps a x := by (unfold x; repeat' first | with_reducible assumption | with_reducible apply keeps_loadRecord | with_reducible apply keeps_rcClear | with_reducible apply keeps_latchPair | with_reducible apply keeps_startFreeze | with_reducible apply keeps_endFreeze | with_reducible apply keeps_advanceCursor | split)); clear_value x | (have _ : HostIf := x) | (have _ : Keys := x) | (have _ : Fwu := x) | clear_value x | skip)
     | with_reducible assumption | with_reducible apply keeps_loadRecord | with_reducible apply keeps_rcClear
     | with_reducible apply keeps_latchPair | with_reducible apply keeps_startFreeze | with_reducible apply keeps_endFreeze
     | with_reducible apply keeps_advanceCursor | split | lift_lets

theorem keeps_readFull_eq {a t : State} {p : Port} {off : Nat} {s : State} {z : _} (e : readFull p off s = (z, t)) (h : Keeps a s) : Keeps a t := by
  have k := keeps_readFull p off s h
  rw [e] at k; exact k

end Sys2Proof.Laws
end

