-- ==== Sys2Proof/Laws/KeepsRegAccess.lean ====
section
/-! SUPPORT. Laws/KeepsRegAccess.lean: what each operation of Machine/RegAccess.lean keeps (Laws/Keeps.lean). -/

namespace Sys2Proof.Laws

set_option linter.all false

open Sys2Proof.Machine

theorem keeps_wakeForRead {a : State} (off : Nat) (s : State) (h : Keeps a s) : Keeps a (wakeForRead off s) := by
  unfold wakeForRead
  repeat' first | exact ⟨h.1, h.2⟩ | assumption | with_reducible apply keeps_reachBrick | split

theorem keeps_readDw {a : State} (p : Port) (off : Nat) (be : BitVec 4) (s : State) (h : Keeps a s) : Keeps a (readDw p off be s).2 := by
  unfold readDw
  repeat' first
     | (intro x; first | (have hx : Keeps a x := by (unfold x; repeat' first | with_reducible assumption | with_reducible apply keeps_dropAccess | with_reducible apply keeps_wakeForRead | with_reducible apply keeps_readFull | (with_reducible refine keeps_readFull_eq (by assumption) ?_) | split)); clear_value x | (have _ : HostIf := x) | (have _ : Keys := x) | (have _ : Fwu := x) | clear_value x | skip)
     | with_reducible assumption | with_reducible apply keeps_dropAccess | with_reducible apply keeps_wakeForRead
     | with_reducible apply keeps_readFull | (with_reducible refine keeps_readFull_eq (by assumption) ?_) | split | lift_lets

theorem keeps_readDw_eq {a t : State} {p : Port} {off : Nat} {be : BitVec 4} {s : State} {z : _} (e : readDw p off be s = (z, t)) (h : Keeps a s) : Keeps a t := by
  have k := keeps_readDw p off be s h
  rw [e] at k; exact k

theorem keeps_readRequest {a : State} (p : Port) (off : Nat) (be : BitVec 4) (s : State) (h : Keeps a s) : Keeps a (readRequest p off be s) := by
  unfold readRequest
  with_reducible repeat' first
     | (intro x; first | (have hx : Keeps a x := by (unfold x; repeat' first | assumption | apply keeps_emit | apply keeps_readDw | (refine keeps_readDw_eq (by assumption) ?_) | split)); clear_value x | (have _ : HostIf := x) | (have _ : Keys := x) | (have _ : Fwu := x) | clear_value x | skip)
     | assumption | apply keeps_emit | apply keeps_readDw | (refine keeps_readDw_eq (by assumption) ?_) | split | lift_lets

theorem keeps_execReadClearRegister {a : State} (p : Port) (off : W16) (be : BitVec 4) (s : State) (h : Keeps a s) : Goes a (execReadClearRegister p off be s) := by
  unfold execReadClearRegister
  (try intro x)
  apply goes_next
  repeat' first
     | (intro x; first | (have hx : Keeps a x := by (unfold x; repeat' first | with_reducible assumption | with_reducible apply keeps_readRequest | split)); clear_value x | (have _ : HostIf := x) | (have _ : Keys := x) | (have _ : Fwu := x) | clear_value x | skip)
     | with_reducible assumption | with_reducible apply keeps_readRequest | split | lift_lets

theorem keeps_execLatchingLoRead {a : State} (p : Port) (off : W16) (be : BitVec 4) (s : State) (h : Keeps a s) : Goes a (execLatchingLoRead p off be s) := by
  unfold execLatchingLoRead
  (try intro x)
  apply goes_next
  repeat' first
     | (intro x; first | (have hx : Keeps a x := by (unfold x; repeat' first | with_reducible assumption | with_reducible apply keeps_readRequest | split)); clear_value x | (have _ : HostIf := x) | (have _ : Keys := x) | (have _ : Fwu := x) | clear_value x | skip)
     | with_reducible assumption | with_reducible apply keeps_readRequest | split | lift_lets

theorem keeps_execPtpTimeLoRead {a : State} (p : Port) (s : State) (h : Keeps a s) : Goes a (execPtpTimeLoRead p s) := by
  unfold execPtpTimeLoRead
  (try intro x)
  apply goes_next
  repeat' first
     | (intro x; first | (have hx : Keeps a x := by (unfold x; repeat' first | with_reducible assumption | with_reducible apply keeps_readRequest | split)); clear_value x | (have _ : HostIf := x) | (have _ : Keys := x) | (have _ : Fwu := x) | clear_value x | skip)
     | with_reducible assumption | with_reducible apply keeps_readRequest | split | lift_lets

theorem keeps_execRtcT0Read {a : State} (p : Port) (s : State) (h : Keeps a s) : Goes a (execRtcT0Read p s) := by
  unfold execRtcT0Read
  (try intro x)
  apply goes_next
  repeat' first
     | (intro x; first | (have hx : Keeps a x := by (unfold x; repeat' first | with_reducible assumption | with_reducible apply keeps_readRequest | split)); clear_value x | (have _ : HostIf := x) | (have _ : Keys := x) | (have _ : Fwu := x) | clear_value x | skip)
     | with_reducible assumption | with_reducible apply keeps_readRequest | split | lift_lets

theorem keeps_execRtcT1Read {a : State} (p : Port) (s : State) (h : Keeps a s) : Goes a (execRtcT1Read p s) := by
  unfold execRtcT1Read
  (try intro x)
  apply goes_next
  repeat' first
     | (intro x; first | (have hx : Keeps a x := by (unfold x; repeat' first | with_reducible assumption | with_reducible apply keeps_readRequest | split)); clear_value x | (have _ : HostIf := x) | (have _ : Keys := x) | (have _ : Fwu := x) | clear_value x | skip)
     | with_reducible assumption | with_reducible apply keeps_readRequest | split | lift_lets

theorem keeps_execRecData0Read {a : State} (p : Port) (s : State) (h : Keeps a s) : Goes a (execRecData0Read p s) := by
  unfold execRecData0Read
  (try intro x)
  apply goes_next
  repeat' first
     | (intro x; first | (have hx : Keeps a x := by (unfold x; repeat' first | with_reducible assumption | with_reducible apply keeps_readRequest | split)); clear_value x | (have _ : HostIf := x) | (have _ : Keys := x) | (have _ : Fwu := x) | clear_value x | skip)
     | with_reducible assumption | with_reducible apply keeps_readRequest | split | lift_lets

theorem keeps_execRecData15Read {a : State} (p : Port) (s : State) (h : Keeps a s) : Goes a (execRecData15Read p s) := by
  unfold execRecData15Read
  (try intro x)
  apply goes_next
  repeat' first
     | (intro x; first | (have hx : Keeps a x := by (unfold x; repeat' first | with_reducible assumption | with_reducible apply keeps_readRequest | split)); clear_value x | (have _ : HostIf := x) | (have _ : Keys := x) | (have _ : Fwu := x) | clear_value x | skip)
     | with_reducible assumption | with_reducible apply keeps_readRequest | split | lift_lets

theorem keeps_execRtcFreezeTimeout {a : State} (p : Port) (s : State) (h : Keeps a s) : Goes a (execRtcFreezeTimeout p s) := by
  unfold execRtcFreezeTimeout
  (try intro x)
  apply goes_next
  repeat' first
     | (intro x; first | (have hx : Keeps a x := by (unfold x; repeat' first | with_reducible assumption | with_reducible apply keeps_endFreeze | split)); clear_value x | (have _ : HostIf := x) | (have _ : Keys := x) | (have _ : Fwu := x) | clear_value x | skip)
     | with_reducible assumption | with_reducible apply keeps_endFreeze | split | lift_lets

end Sys2Proof.Laws
end

