-- ==== Sys2Proof/Laws/KeepsRtc.lean ====
section
/-! SUPPORT. Laws/KeepsRtc.lean: what each operation of Machine/Rtc.lean keeps (Laws/Keeps.lean). -/

namespace Sys2Proof.Laws

set_option linter.all false

open Sys2Proof.Machine

theorem keeps_ownWrite {a : State} (p : Port) (off : Nat) (apply' : State → State) (s : State) (hf : ∀ s, Keeps a s → Keeps a (apply' s))
    (h : Keeps a s) : Keeps a (ownWrite p off apply' s) := by
  unfold ownWrite
  split
  · split
    · exact h
    · exact keeps_dropAccess _ _ _ _ _ h
    · exact hf _ h
  · exact h

theorem keeps_setOscStop {a : State} (s : State) (h : Keeps a s) : Keeps a (setOscStop s) := by
  unfold setOscStop
  with_reducible repeat' first
     | (intro x; first | (have hx : Keeps a x := by (unfold x; repeat' first | assumption | apply keeps_raise | split)); clear_value x | (have _ : HostIf := x) | (have _ : Keys := x) | (have _ : Fwu := x) | clear_value x | skip)
     | assumption | apply keeps_raise | split | lift_lets

theorem keeps_releaseMain {a : State} (s : State) (h : Keeps a s) : Keeps a (releaseMain s) := by
  unfold releaseMain
  repeat' first | exact ⟨h.1, h.2⟩ | assumption | split

theorem keeps_fireAlarm {a : State} (n : Nat) (cause : Nat) (s : State) (h : Keeps a s) : Keeps a (fireAlarm n cause s) := by
  unfold fireAlarm
  with_reducible repeat' first
     | (intro x; first | (have hx : Keeps a x := by (unfold x; repeat' first | assumption | apply keeps_raiseC | apply keeps_releaseMain | split)); clear_value x | (have _ : HostIf := x) | (have _ : Keys := x) | (have _ : Fwu := x) | clear_value x | skip)
     | assumption | apply keeps_raiseC | apply keeps_releaseMain | split | lift_lets

theorem keeps_passAlarms {a : State} (old : Nat) (new : Nat) (y2 : List Nat) (y3 : State) (h : Keeps a y3) : Keeps a (passAlarms old new y2 y3) := by
  induction y2 generalizing y3 with
  | nil =>
    unfold passAlarms
    repeat' first
       | (intro x; first | (have hx : Keeps a x := by (unfold x; repeat' first | with_reducible assumption | with_reducible apply keeps_fireAlarm | split)); clear_value x | (have _ : HostIf := x) | (have _ : Keys := x) | (have _ : Fwu := x) | clear_value x | skip)
       | with_reducible assumption | with_reducible apply keeps_fireAlarm | split | lift_lets
  | cons x r ih =>
    unfold passAlarms
    repeat' first
       | (intro x; first | (have hx : Keeps a x := by (unfold x; repeat' first | with_reducible assumption | with_reducible apply keeps_fireAlarm | with_reducible apply ih | split)); clear_value x | (have _ : HostIf := x) | (have _ : Keys := x) | (have _ : Fwu := x) | clear_value x | skip)
       | with_reducible assumption | with_reducible apply keeps_fireAlarm | with_reducible apply ih | split | lift_lets

theorem keeps_adjust {a : State} (cause : Nat) (fine : Nat) (s : State) (h : Keeps a s) : Keeps a (adjust cause fine s) := by
  induction cause generalizing s with
  | zero =>
    unfold adjust
    repeat' first
       | (intro x; first | (have hx : Keeps a x := by (unfold x; repeat' first | with_reducible assumption | with_reducible apply keeps_raiseC | with_reducible apply keeps_passAlarms | split)); clear_value x | (have _ : HostIf := x) | (have _ : Keys := x) | (have _ : Fwu := x) | clear_value x | skip)
       | with_reducible assumption | with_reducible apply keeps_raiseC | with_reducible apply keeps_passAlarms | split
       | lift_lets
  | succ x ih =>
    unfold adjust
    repeat' first
       | (intro x; first | (have hx : Keeps a x := by (unfold x; repeat' first | with_reducible assumption | with_reducible apply keeps_raiseC | with_reducible apply keeps_passAlarms | with_reducible apply ih | split)); clear_value x | (have _ : HostIf := x) | (have _ : Keys := x) | (have _ : Fwu := x) | clear_value x | skip)
       | with_reducible assumption | with_reducible apply keeps_raiseC | with_reducible apply keeps_passAlarms
       | with_reducible apply ih | split | lift_lets

theorem keeps_badWrite {a : State} (t0 : Nat) (t1 : Nat) (s : State) (h : Keeps a s) : Keeps a (badWrite t0 t1 s) := by
  induction t0 generalizing s with
  | zero =>
    unfold badWrite
    repeat' first
       | (intro x; first | (have hx : Keeps a x := by (unfold x; repeat' first | with_reducible assumption | with_reducible apply keeps_raise | split)); clear_value x | (have _ : HostIf := x) | (have _ : Keys := x) | (have _ : Fwu := x) | clear_value x | skip)
       | with_reducible assumption | with_reducible apply keeps_raise | split | lift_lets
  | succ x ih =>
    unfold badWrite
    repeat' first
       | (intro x; first | (have hx : Keeps a x := by (unfold x; repeat' first | with_reducible assumption | with_reducible apply keeps_raise | with_reducible apply ih | split)); clear_value x | (have _ : HostIf := x) | (have _ : Keys := x) | (have _ : Fwu := x) | clear_value x | skip)
       | with_reducible assumption | with_reducible apply keeps_raise | with_reducible apply ih | split | lift_lets

theorem keeps_setCalendar {a : State} (t0 : Nat) (t1 : Nat) (s : State) (h : Keeps a s) : Keeps a (setCalendar t0 t1 s) := by
  unfold setCalendar
  with_reducible repeat' first
     | (intro x; first | (have hx : Keeps a x := by (unfold x; repeat' first | assumption | apply keeps_adjust | apply keeps_badWrite | split)); clear_value x | (have _ : HostIf := x) | (have _ : Keys := x) | (have _ : Fwu := x) | clear_value x | skip)
     | assumption | apply keeps_adjust | apply keeps_badWrite | split | lift_lets

theorem keeps_specRtcRead {a : State} (r : Req) (p : Bytes) (s : State) (h : Keeps a s) : Keeps a (specRtcRead.run r p s) := by
  unfold specRtcRead; dsimp only
  repeat' first
     | (intro x; first | (have hx : Keeps a x := by (unfold x; repeat' first | with_reducible assumption | with_reducible apply keeps_finishOk | split)); clear_value x | (have _ : HostIf := x) | (have _ : Keys := x) | (have _ : Fwu := x) | clear_value x | skip)
     | with_reducible assumption | with_reducible apply keeps_finishOk | split | lift_lets

theorem keeps_execCmdRtcRead {a : State} (r : Req) (s : State) (h : Keeps a s) : Goes a (execCmdRtcRead r s) :=
  goes_next (keeps_runCmd keeps_specRtcRead r h)

theorem keeps_specRtcSet {a : State} (r : Req) (p : Bytes) (s : State) (h : Keeps a s) : Keeps a (specRtcSet.run r p s) := by
  unfold specRtcSet; dsimp only
  repeat' first
     | (intro x; first | (have hx : Keeps a x := by (unfold x; repeat' first | with_reducible assumption | with_reducible apply keeps_finishOk | with_reducible apply keeps_setCalendar | with_reducible apply keeps_finish | with_reducible apply keeps_badWrite | split)); clear_value x | (have _ : HostIf := x) | (have _ : Keys := x) | (have _ : Fwu := x) | clear_value x | skip)
     | with_reducible assumption | with_reducible apply keeps_finishOk | with_reducible apply keeps_setCalendar
     | with_reducible apply keeps_finish | with_reducible apply keeps_badWrite | split | lift_lets

theorem keeps_execCmdRtcSet {a : State} (r : Req) (s : State) (h : Keeps a s) : Goes a (execCmdRtcSet r s) :=
  goes_next (keeps_runCmd keeps_specRtcSet r h)

theorem keeps_specRtcAdjust {a : State} (r : Req) (p : Bytes) (s : State) (h : Keeps a s) : Keeps a (specRtcAdjust.run r p s) := by
  unfold specRtcAdjust; dsimp only
  repeat' first
     | (intro x; first | (have hx : Keeps a x := by (unfold x; repeat' first | with_reducible assumption | with_reducible apply keeps_finishOk | with_reducible apply keeps_adjust | split)); clear_value x | (have _ : HostIf := x) | (have _ : Keys := x) | (have _ : Fwu := x) | clear_value x | skip)
     | with_reducible assumption | with_reducible apply keeps_finishOk | with_reducible apply keeps_adjust | split | lift_lets

theorem keeps_execCmdRtcAdjust {a : State} (r : Req) (s : State) (h : Keeps a s) : Goes a (execCmdRtcAdjust r s) :=
  goes_next (keeps_runCmd keeps_specRtcAdjust r h)

theorem keeps_specRtcAlarm {a : State} (r : Req) (p : Bytes) (s : State) (h : Keeps a s) : Keeps a (specRtcAlarm.run r p s) := by
  unfold specRtcAlarm; dsimp only
  repeat' first
     | (intro x; first | (have hx : Keeps a x := by (unfold x; repeat' first | with_reducible assumption | with_reducible apply keeps_finishOk | with_reducible apply keeps_finish | with_reducible apply keeps_badWrite | split)); clear_value x | (have _ : HostIf := x) | (have _ : Keys := x) | (have _ : Fwu := x) | clear_value x | skip)
     | with_reducible assumption | with_reducible apply keeps_finishOk | with_reducible apply keeps_finish
     | with_reducible apply keeps_badWrite | split | lift_lets

theorem keeps_execCmdRtcAlarm {a : State} (r : Req) (s : State) (h : Keeps a s) : Goes a (execCmdRtcAlarm r s) :=
  goes_next (keeps_runCmd keeps_specRtcAlarm r h)

theorem keeps_execRtcSecond {a : State} (s : State) (h : Keeps a s) : Goes a (execRtcSecond s) := by
  unfold execRtcSecond
  (try intro x)
  apply goes_next
  repeat' first
     | (intro x; first | (have hx : Keeps a x := by (unfold x; repeat' first | with_reducible assumption | with_reducible apply keeps_adjust | split)); clear_value x | (have _ : HostIf := x) | (have _ : Keys := x) | (have _ : Fwu := x) | clear_value x | skip)
     | with_reducible assumption | with_reducible apply keeps_adjust | split | lift_lets

theorem keeps_execRtcAlarm {a : State} (n : Fin 4) (s : State) (h : Keeps a s) : Goes a (execRtcAlarm n s) := by
  unfold execRtcAlarm
  (try intro x)
  apply goes_next
  repeat' first
     | (intro x; first | (have hx : Keeps a x := by (unfold x; repeat' first | with_reducible assumption | with_reducible apply keeps_fireAlarm | split)); clear_value x | (have _ : HostIf := x) | (have _ : Keys := x) | (have _ : Fwu := x) | clear_value x | skip)
     | with_reducible assumption | with_reducible apply keeps_fireAlarm | split | lift_lets

theorem keeps_execOscStopDetect {a : State} (s : State) (h : Keeps a s) : Goes a (execOscStopDetect s) := by
  unfold execOscStopDetect
  (try intro x)
  apply goes_next
  repeat' first
     | (intro x; first | (have hx : Keeps a x := by (unfold x; repeat' first | with_reducible assumption | with_reducible apply keeps_setOscStop | split)); clear_value x | (have _ : HostIf := x) | (have _ : Keys := x) | (have _ : Fwu := x) | clear_value x | skip)
     | with_reducible assumption | with_reducible apply keeps_setOscStop | split | lift_lets

theorem keeps_execOscRestart {a : State} (s : State) (h : Keeps a s) : Goes a (execOscRestart s) := by
  unfold execOscRestart
  (try intro x)
  apply goes_next
  repeat' first
     | (intro x; first | (have hx : Keeps a x := by (unfold x; repeat' first | with_reducible assumption | split)); clear_value x | (have _ : HostIf := x) | (have _ : Keys := x) | (have _ : Fwu := x) | clear_value x | skip)
     | with_reducible assumption | split | lift_lets

theorem keeps_execBackupPowerUp {a : State} (s : State) (h : Keeps a s) : Goes a (execBackupPowerUp s) := by
  unfold execBackupPowerUp
  (try intro x)
  apply goes_next
  repeat' first
     | (intro x; first | (have hx : Keeps a x := by (unfold x; repeat' first | with_reducible assumption | with_reducible apply keeps_setOscStop | with_reducible apply keeps_badWrite | split)); clear_value x | (have _ : HostIf := x) | (have _ : Keys := x) | (have _ : Fwu := x) | clear_value x | skip)
     | with_reducible assumption | with_reducible apply keeps_setOscStop | with_reducible apply keeps_badWrite | split
     | lift_lets

theorem keeps_execVbatMeasure {a : State} (mv : Nat) (s : State) (h : Keeps a s) : Goes a (execVbatMeasure mv s) := by
  unfold execVbatMeasure
  (try intro x)
  apply goes_next
  repeat' first
     | (intro x; first | (have hx : Keeps a x := by (unfold x; repeat' first | with_reducible assumption | with_reducible apply keeps_raise | split)); clear_value x | (have _ : HostIf := x) | (have _ : Keys := x) | (have _ : Fwu := x) | clear_value x | skip)
     | with_reducible assumption | with_reducible apply keeps_raise | split | lift_lets

theorem keeps_applyRtc {a : State} (v : W32) (s : State) (h : Keeps a s) : Keeps a (applyRtc v s) := by
  unfold applyRtc
  repeat' first | exact ⟨h.1, h.2⟩ | assumption | with_reducible apply keeps_setCalendar | split

theorem keeps_execRtcApplySet {a : State} (p : Port) (v : W32) (s : State) (h : Keeps a s) : Goes a (execRtcApplySet p v s) := by
  unfold execRtcApplySet
  (try intro x)
  apply goes_next
  repeat' first
     | (intro x; first | (have hx : Keeps a x := by (unfold x; repeat' first | with_reducible assumption | with_reducible apply keeps_ownWrite | with_reducible apply keeps_applyRtc | split)); clear_value x | (have _ : HostIf := x) | (have _ : Keys := x) | (have _ : Fwu := x) | clear_value x | skip)
     | with_reducible assumption | with_reducible apply keeps_ownWrite | with_reducible apply keeps_applyRtc | split | lift_lets

theorem keeps_applyRtcFlags {a : State} (v : W32) (s : State) (h : Keeps a s) : Keeps a (applyRtcFlags v s) := ⟨h.1, h.2⟩

theorem keeps_execRtcFlagsClear {a : State} (p : Port) (v : W32) (s : State) (h : Keeps a s) : Goes a (execRtcFlagsClear p v s) := by
  unfold execRtcFlagsClear
  (try intro x)
  apply goes_next
  repeat' first
     | (intro x; first | (have hx : Keeps a x := by (unfold x; repeat' first | with_reducible assumption | with_reducible apply keeps_ownWrite | with_reducible apply keeps_applyRtcFlags | split)); clear_value x | (have _ : HostIf := x) | (have _ : Keys := x) | (have _ : Fwu := x) | clear_value x | skip)
     | with_reducible assumption | with_reducible apply keeps_ownWrite | with_reducible apply keeps_applyRtcFlags | split
     | lift_lets

theorem keeps_calTick {a : State} (s : State) (h : Keeps a s) : Keeps a (calTick s) := by
  unfold calTick
  with_reducible repeat' first
     | (intro x; first | (have hx : Keeps a x := by (unfold x; repeat' first | assumption | apply keeps_setOscStop | apply keeps_passAlarms | split)); clear_value x | (have _ : HostIf := x) | (have _ : Keys := x) | (have _ : Fwu := x) | clear_value x | skip)
     | assumption | apply keeps_setOscStop | apply keeps_passAlarms | split | lift_lets

theorem keeps_crystalTick {a : State} (s : State) (h : Keeps a s) : Keeps a (crystalTick s) := by
  unfold crystalTick
  with_reducible repeat' first
     | (intro x; first | (have hx : Keeps a x := by (unfold x; repeat' first | assumption | apply keeps_calTick | split)); clear_value x | (have _ : HostIf := x) | (have _ : Keys := x) | (have _ : Fwu := x) | clear_value x | skip)
     | assumption | apply keeps_calTick | split | lift_lets

theorem keeps_calNano {a : State} (s : State) (h : Keeps a s) : Keeps a (calNano s) := by
  unfold calNano
  with_reducible repeat' first
     | (intro x; first | (have hx : Keeps a x := by (unfold x; repeat' first | assumption | apply keeps_crystalTick | split)); clear_value x | (have _ : HostIf := x) | (have _ : Keys := x) | (have _ : Fwu := x) | clear_value x | skip)
     | assumption | apply keeps_crystalTick | split | lift_lets

end Sys2Proof.Laws
end

