-- ==== Sys2Proof/Laws/KeepsRecorder.lean ====
section
/-! SUPPORT. Laws/KeepsRecorder.lean: what each operation of Machine/Recorder.lean keeps (Laws/Keeps.lean). -/

namespace Sys2Proof.Laws

set_option linter.all false

open Sys2Proof.Machine

theorem keeps_sealRecord {a : State} (slot : Nat) (flags : Byte) (e : EventRec) (s : State) (h : Keeps a s) : Keeps a (sealRecord slot flags e s) := by
  unfold sealRecord
  repeat' first | exact ⟨h.1, h.2⟩ | assumption | with_reducible apply keeps_messageDue | split

theorem keeps_writeCirculating {a : State} (flags : Byte) (e : EventRec) (s : State) (h : Keeps a s) : Keeps a (writeCirculating flags e s) := by
  unfold writeCirculating
  repeat' first | exact ⟨h.1, h.2⟩ | assumption | with_reducible apply keeps_sealRecord | split

theorem keeps_writeRecord {a : State} (e : EventRec) (s : State) (h : Keeps a s) : Keeps a (writeRecord e s) := by
  unfold writeRecord
  with_reducible repeat' first
     | (intro x; first | (have hx : Keeps a x := by (unfold x; repeat' first | assumption | apply keeps_sealRecord | apply keeps_raise | apply keeps_writeCirculating | split)); clear_value x | (have _ : HostIf := x) | (have _ : Keys := x) | (have _ : Fwu := x) | clear_value x | skip)
     | assumption | apply keeps_sealRecord | apply keeps_raise | apply keeps_writeCirculating | split | lift_lets

theorem keeps_admitHeld {a : State} (s : State) (h : Keeps a s) : Keeps a (admitHeld s) := by
  unfold admitHeld
  repeat' first | exact ⟨h.1, h.2⟩ | assumption | split

theorem keeps_execRecWrite {a : State} (s : State) (h : Keeps a s) : Goes a (execRecWrite s) := by
  unfold execRecWrite
  (try intro x)
  apply goes_next
  repeat' first
     | (intro x; first | (have hx : Keeps a x := by (unfold x; repeat' first | with_reducible assumption | with_reducible apply keeps_writeRecord | with_reducible apply keeps_admitHeld | split)); clear_value x | (have _ : HostIf := x) | (have _ : Keys := x) | (have _ : Fwu := x) | clear_value x | skip)
     | with_reducible assumption | with_reducible apply keeps_writeRecord | with_reducible apply keeps_admitHeld | split
     | lift_lets

theorem keeps_recoverRecorder {a : State} (s : State) (h : Keeps a s) : Keeps a (recoverRecorder s) := ⟨h.1, h.2⟩

theorem keeps_specRecRead {a : State} (r : Req) (p : Bytes) (s : State) (h : Keeps a s) : Keeps a (specRecRead.run r p s) := by
  unfold specRecRead; dsimp only
  repeat' first
     | (intro x; first | (have hx : Keeps a x := by (unfold x; repeat' first | with_reducible assumption | with_reducible apply keeps_finishOk | split)); clear_value x | (have _ : HostIf := x) | (have _ : Keys := x) | (have _ : Fwu := x) | clear_value x | skip)
     | with_reducible assumption | with_reducible apply keeps_finishOk | split | lift_lets

theorem keeps_execCmdRecRead {a : State} (r : Req) (s : State) (h : Keeps a s) : Goes a (execCmdRecRead r s) :=
  goes_next (keeps_runCmd keeps_specRecRead r h)

theorem keeps_setCursor {a : State} (p : Port) (slot : Nat) (s : State) (h : Keeps a s) : Keeps a (setCursor p slot s) := ⟨h.1, h.2⟩

theorem keeps_specRecCursor {a : State} (r : Req) (p : Bytes) (s : State) (h : Keeps a s) : Keeps a (specRecCursor.run r p s) := by
  unfold specRecCursor; dsimp only
  repeat' first
     | (intro x; first | (have hx : Keeps a x := by (unfold x; repeat' first | with_reducible assumption | with_reducible apply keeps_finishOk | with_reducible apply keeps_setCursor | split)); clear_value x | (have _ : HostIf := x) | (have _ : Keys := x) | (have _ : Fwu := x) | clear_value x | skip)
     | with_reducible assumption | with_reducible apply keeps_finishOk | with_reducible apply keeps_setCursor | split
     | lift_lets

theorem keeps_execCmdRecCursor {a : State} (r : Req) (s : State) (h : Keeps a s) : Goes a (execCmdRecCursor r s) :=
  goes_next (keeps_runCmd keeps_specRecCursor r h)

theorem keeps_specRecClear {a : State} (r : Req) (p : Bytes) (s : State) (h : Keeps a s) : Keeps a (specRecClear.run r p s) := by
  unfold specRecClear; dsimp only
  repeat' first
     | (intro x; first | (have hx : Keeps a x := by (unfold x; repeat' first | with_reducible assumption | with_reducible apply keeps_holdCmd | split)); clear_value x | (have _ : HostIf := x) | (have _ : Keys := x) | (have _ : Fwu := x) | clear_value x | skip)
     | with_reducible assumption | with_reducible apply keeps_holdCmd | split | lift_lets

theorem keeps_execCmdRecClear {a : State} (r : Req) (s : State) (h : Keeps a s) : Goes a (execCmdRecClear r s) :=
  goes_next (keeps_runCmd keeps_specRecClear r h)

theorem keeps_writeNewest {a : State} (src : Nat) (s : State) (h : Keeps a s) : Keeps a (writeNewest src s) := by
  unfold writeNewest
  repeat' first | exact ⟨h.1, h.2⟩ | assumption | with_reducible apply keeps_writeRecord | split

theorem keeps_execRecClearDone {a : State} (s : State) (h : Keeps a s) : Goes a (execRecClearDone s) := by
  unfold execRecClearDone
  (try intro x)
  apply goes_next
  repeat' first
     | (intro x; first | (have hx : Keeps a x := by (unfold x; repeat' first | with_reducible assumption | with_reducible apply keeps_finishOk | with_reducible apply keeps_writeNewest | with_reducible apply keeps_raise | split)); clear_value x | (have _ : HostIf := x) | (have _ : Keys := x) | (have _ : Fwu := x) | clear_value x | skip)
     | with_reducible assumption | with_reducible apply keeps_finishOk | with_reducible apply keeps_writeNewest
     | with_reducible apply keeps_raise | split | lift_lets

theorem keeps_applyRecSeek {a : State} (p : Port) (v : W32) (s : State) (h : Keeps a s) : Keeps a (applyRecSeek p v s) := ⟨h.1, h.2⟩

theorem keeps_execRecSeek {a : State} (p : Port) (v : W32) (s : State) (h : Keeps a s) : Goes a (execRecSeek p v s) := by
  unfold execRecSeek
  (try intro x)
  apply goes_next
  repeat' first
     | (intro x; first | (have hx : Keeps a x := by (unfold x; repeat' first | with_reducible assumption | with_reducible apply keeps_ownWrite | with_reducible apply keeps_applyRecSeek | split)); clear_value x | (have _ : HostIf := x) | (have _ : Keys := x) | (have _ : Fwu := x) | clear_value x | skip)
     | with_reducible assumption | with_reducible apply keeps_ownWrite | with_reducible apply keeps_applyRecSeek | split
     | lift_lets

theorem keeps_execEvtHoldoffExpiry {a : State} (v : Fin 32) (s : State) (h : Keeps a s) : Goes a (execEvtHoldoffExpiry v s) := by
  unfold execEvtHoldoffExpiry
  (try intro x)
  apply goes_next
  repeat' first
     | (intro x; first | (have hx : Keeps a x := by (unfold x; repeat' first | with_reducible assumption | with_reducible apply keeps_sendVector | split)); clear_value x | (have _ : HostIf := x) | (have _ : Keys := x) | (have _ : Fwu := x) | clear_value x | skip)
     | with_reducible assumption | with_reducible apply keeps_sendVector | split | lift_lets

end Sys2Proof.Laws
end

