-- ==== Sys2Proof/Laws/KeepsKeyStore.lean ====
section
/-! SUPPORT. Laws/KeepsKeyStore.lean: what each operation of Machine/KeyStore.lean keeps (Laws/Keeps.lean). -/

namespace Sys2Proof.Laws

set_option linter.all false

open Sys2Proof.Machine
open Sys2Proof.Safety (lcReach transitionOk)

theorem keeps_setEpoch {a : State} (n : Nat) (e : Nat) (s : State) (h : Keeps a s) : Keeps a (setEpoch n e s) := ⟨h.1, h.2⟩

theorem keeps_resetEpoch {a : State} (n : Nat) (s : State) (h : Keeps a s) : Keeps a (resetEpoch n s) := ⟨h.1, h.2⟩

theorem keeps_sealRevoked {a : State} (y0 : List (Nat × Nat)) (y1 : State) (h : Keeps a y1) : Keeps a (sealRevoked y0 y1) := by
  induction y0 generalizing y1 with
  | nil =>
    unfold sealRevoked
    repeat' first
       | (intro x; first | (have hx : Keeps a x := by (unfold x; repeat' first | with_reducible assumption | with_reducible apply keeps_raise | with_reducible apply keeps_writeNewest | split)); clear_value x | (have _ : HostIf := x) | (have _ : Keys := x) | (have _ : Fwu := x) | clear_value x | skip)
       | with_reducible assumption | with_reducible apply keeps_raise | with_reducible apply keeps_writeNewest | split | lift_lets
  | cons x r ih =>
    unfold sealRevoked
    repeat' first
       | (intro x; first | (have hx : Keeps a x := by (unfold x; repeat' first | with_reducible assumption | with_reducible apply keeps_raise | with_reducible apply keeps_writeNewest | with_reducible apply ih | split)); clear_value x | (have _ : HostIf := x) | (have _ : Keys := x) | (have _ : Fwu := x) | clear_value x | skip)
       | with_reducible assumption | with_reducible apply keeps_raise | with_reducible apply keeps_writeNewest
       | with_reducible apply ih | split | lift_lets

theorem keeps_resetEpochs {a : State} (written : List Nat) (y1 : List Nat) (y2 : State) (h : Keeps a y2) : Keeps a (resetEpochs written y1 y2) := by
  induction y1 generalizing y2 with
  | nil =>
    unfold resetEpochs
    repeat' first
       | (intro x; first | (have hx : Keeps a x := by (unfold x; repeat' first | with_reducible assumption | with_reducible apply keeps_resetEpoch | split)); clear_value x | (have _ : HostIf := x) | (have _ : Keys := x) | (have _ : Fwu := x) | clear_value x | skip)
       | with_reducible assumption | with_reducible apply keeps_resetEpoch | split | lift_lets
  | cons x r ih =>
    unfold resetEpochs
    repeat' first
       | (intro x; first | (have hx : Keeps a x := by (unfold x; repeat' first | with_reducible assumption | with_reducible apply keeps_resetEpoch | with_reducible apply ih | split)); clear_value x | (have _ : HostIf := x) | (have _ : Keys := x) | (have _ : Fwu := x) | clear_value x | skip)
       | with_reducible assumption | with_reducible apply keeps_resetEpoch | with_reducible apply ih | split | lift_lets

theorem keeps_commitSlots {a : State} (slots : FMap Key) (w : List Nat) (rv : List (Nat × Nat)) (s : State) (h : Keeps a s) :
    Keeps a (commitSlots slots w rv s) := by
  unfold commitSlots
  dsimp only
  with_reducible apply keeps_resetEpochs
  with_reducible apply keeps_rcAdd
  exact ⟨h.1, h.2⟩

/-- Keys without an operation in progress. -/
theorem keeps_noOp {a : State} (k : Keys) (s : State) (e : k.lc = s.keys.lc) (h : Keeps a s) :
    Keeps a { s with keys := { k with op := none } } :=
  ⟨h.1, fun j => ⟨fun _ _ _ n => by simp at n, by rw [show ({ k with op := none } : Keys).lc = s.keys.lc from e]; exact (h.2.1 j).2⟩, h.2.2⟩

theorem keeps_sealUpdate {a : State} (c : W32) (n : Nat) (w f : List Nat) (rv : List (Nat × Nat)) (s : State) (h : Keeps a s) :
    Keeps a (sealUpdate c n w f rv s) :=
  keeps_sealRevoked _ _ (keeps_writeNewest _ _ (keeps_raise _ _ _ (keeps_noOp { s.keys with updCnt := c } s rfl h)))

/-- The operation in progress may be any whose target R521 leads to. -/
theorem keeps_enterStage {a : State} (o : KeyOp) (st : KeyStage) (s : State)
    (hw : transitionOk a.keys.op a.keys.lc → ∀ t root, o.work = .transition t root → lcReach s.keys.lc t) (h : Keeps a s) :
    Keeps a (enterStage o st s) := by
  refine ⟨h.1, fun j => ⟨fun o' t root e k => ?_, (h.2.1 j).2⟩, h.2.2⟩
  cases e
  exact hw j t root k

theorem keeps_startKeyOp {a : State} (w : KeyWork) (op : Nat) (r : Req) (s : State)
    (hw : transitionOk a.keys.op a.keys.lc → ∀ t root, w = .transition t root → lcReach s.keys.lc t) (h : Keeps a s) :
    Keeps a (startKeyOp w op r s) := keeps_holdCmd _ _ _ (keeps_enterStage _ _ _ hw h)

theorem keeps_specKeyUpdate {a : State} (r : Req) (p : Bytes) (s : State) (h : Keeps a s) : Keeps a (specKeyUpdate.run r p s) := by
  unfold specKeyUpdate; dsimp only
  split
  · exact keeps_finish _ _ _ _ _ _ (keeps_raiseC _ _ _ _ h)
  · split
    · exact h
    · exact keeps_startKeyOp _ _ _ _ (fun _ t root e => by cases e) h

theorem keeps_execCmdKeyUpdate {a : State} (r : Req) (s : State) (h : Keeps a s) : Goes a (execCmdKeyUpdate r s) :=
  goes_next (keeps_runCmd keeps_specKeyUpdate r h)

theorem keeps_specKeyStatus {a : State} (r : Req) (p : Bytes) (s : State) (h : Keeps a s) : Keeps a (specKeyStatus.run r p s) := by
  unfold specKeyStatus; dsimp only
  repeat' first
     | (intro x; first | (have hx : Keeps a x := by (unfold x; repeat' first | with_reducible assumption | with_reducible apply keeps_finishOk | split)); clear_value x | (have _ : HostIf := x) | (have _ : Keys := x) | (have _ : Fwu := x) | clear_value x | skip)
     | with_reducible assumption | with_reducible apply keeps_finishOk | split | lift_lets

theorem keeps_execCmdKeyStatus {a : State} (r : Req) (s : State) (h : Keeps a s) : Goes a (execCmdKeyStatus r s) :=
  goes_next (keeps_runCmd keeps_specKeyStatus r h)

theorem keeps_specIdentity {a : State} (r : Req) (p : Bytes) (s : State) (h : Keeps a s) : Keeps a (specIdentity.run r p s) := by
  unfold specIdentity; dsimp only
  repeat' first
     | (intro x; first | (have hx : Keeps a x := by (unfold x; repeat' first | with_reducible assumption | with_reducible apply keeps_finishOk | split)); clear_value x | (have _ : HostIf := x) | (have _ : Keys := x) | (have _ : Fwu := x) | clear_value x | skip)
     | with_reducible assumption | with_reducible apply keeps_finishOk | split | lift_lets

theorem keeps_execCmdIdentity {a : State} (r : Req) (s : State) (h : Keeps a s) : Goes a (execCmdIdentity r s) :=
  goes_next (keeps_runCmd keeps_specIdentity r h)

theorem keeps_enterState {a : State} (t : LcState) (root : Bytes) (s : State)
    (hr : transitionOk a.keys.op a.keys.lc → lcReach s.keys.lc t)
    (ho : ∀ o t' r', s.keys.op = some o → o.work = .transition t' r' → t' = t) (h : Keeps a s) :
    Keeps a (enterState t root s) :=
  ⟨h.1, fun j => ⟨fun o t' r' e k => (ho o t' r' e k) ▸ lcReach_refl _, lcReach_trans (h.2.1 j).2 (hr j)⟩, h.2.2⟩

theorem keeps_openDebug {a : State} (s : State) (h : Keeps a s) : Keeps a (openDebug s) := by
  unfold openDebug
  split
  · exact keeps_raise _ _ _ ⟨h.1, h.2⟩
  · exact h

theorem transitionTo_reach {x t : LcState} {n : Nat} {b : Bool} (h : transitionTo x n = some (t, b)) : lcReach x t := by
  unfold transitionTo at h
  split at h <;> simp_all [lcReach] <;> (obtain ⟨rfl, -⟩ := h; simp)

theorem keeps_recoverJournal {a : State} (s : State) (h : Keeps a s) : Keeps a (recoverJournal s) := by
  unfold recoverJournal
  split
  · exact h
  · rename_i o e
    have hn := keeps_noOp s.keys s rfl h
    dsimp only
    split
    · exact keeps_raise _ _ _ hn
    · split
      · exact keeps_raise _ _ _ (keeps_sealUpdate _ _ _ _ _ _ hn)
      · rename_i target root w
        refine keeps_raise _ _ _ (keeps_openDebug _ (keeps_enterState target root _ (fun j => (h.2.1 j).1 o target root e w) ?_ hn))
        intro o' t' r' n
        simp at n

theorem keeps_expireKeys_go {a : State} (y0 : List Nat) (y1 : State) (h : Keeps a y1) : Keeps a (expireKeys.go y0 y1) := by
  induction y0 generalizing y1 with
  | nil =>
    unfold expireKeys.go
    repeat' first
       | (intro x; first | (have hx : Keeps a x := by (unfold x; repeat' first | with_reducible assumption | with_reducible apply keeps_revokeKey | split)); clear_value x | (have _ : HostIf := x) | (have _ : Keys := x) | (have _ : Fwu := x) | clear_value x | skip)
       | with_reducible assumption | with_reducible apply keeps_revokeKey | split | lift_lets
  | cons x r ih =>
    unfold expireKeys.go
    repeat' first
       | (intro x; first | (have hx : Keeps a x := by (unfold x; repeat' first | with_reducible assumption | with_reducible apply keeps_revokeKey | with_reducible apply ih | split)); clear_value x | (have _ : HostIf := x) | (have _ : Keys := x) | (have _ : Fwu := x) | clear_value x | skip)
       | with_reducible assumption | with_reducible apply keeps_revokeKey | with_reducible apply ih | split | lift_lets

theorem keeps_expireKeys {a : State} (s : State) (h : Keeps a s) : Keeps a (expireKeys s) := by
  unfold expireKeys
  with_reducible repeat' first
     | (intro x; first | (have hx : Keeps a x := by (unfold x; repeat' first | assumption | apply keeps_expireKeys_go | apply keeps_revokeKey | split)); clear_value x | (have _ : HostIf := x) | (have _ : Keys := x) | (have _ : Fwu := x) | clear_value x | skip)
     | assumption | apply keeps_expireKeys_go | apply keeps_revokeKey | split | lift_lets

end Sys2Proof.Laws
end

