-- ==== Sys2Proof/Laws/KeepsPnl.lean ====
section
/-! SUPPORT. Laws/KeepsPnl.lean: what each operation of Machine/Pnl.lean keeps (Laws/Keeps.lean). -/

namespace Sys2Proof.Laws

set_option linter.all false

open Sys2Proof.Machine

theorem keeps_updateBand {a : State} (s : State) (h : Keeps a s) : Keeps a (updateBand s) := by
  unfold updateBand
  with_reducible repeat' first
     | (intro x; first | (have hx : Keeps a x := by (unfold x; repeat' first | assumption | apply keeps_raise | split)); clear_value x | (have _ : HostIf := x) | (have _ : Keys := x) | (have _ : Fwu := x) | clear_value x | skip)
     | assumption | apply keeps_raise | split | lift_lets

theorem keeps_settlePixels {a : State} (s0 : State) (u : PnlUpd) (z2 : Nat) (y3 : List (Nat × Nat)) (y4 : State) (h : Keeps a y4) : Keeps a (settlePixels s0 u z2 y3 y4) := by
  induction y3 generalizing y4 with
  | nil =>
    unfold settlePixels
    repeat' first
       | (intro x; first | (have hx : Keeps a x := by (unfold x; repeat' first | with_reducible assumption | with_reducible apply keeps_raise | split)); clear_value x | (have _ : HostIf := x) | (have _ : Keys := x) | (have _ : Fwu := x) | clear_value x | skip)
       | with_reducible assumption | with_reducible apply keeps_raise | split | lift_lets
  | cons x r ih =>
    unfold settlePixels
    repeat' first
       | (intro x; first | (have hx : Keeps a x := by (unfold x; repeat' first | with_reducible assumption | with_reducible apply keeps_raise | with_reducible apply ih | split)); clear_value x | (have _ : HostIf := x) | (have _ : Keys := x) | (have _ : Fwu := x) | clear_value x | skip)
       | with_reducible assumption | with_reducible apply keeps_raise | with_reducible apply ih | split | lift_lets

theorem keeps_settleUpdates {a : State} (y0 : List PnlUpd) (y1 : State) (h : Keeps a y1) : Keeps a (settleUpdates y0 y1) := by
  induction y0 generalizing y1 with
  | nil =>
    unfold settleUpdates
    repeat' first
       | (intro x; first | (have hx : Keeps a x := by (unfold x; repeat' first | with_reducible assumption | with_reducible apply keeps_settlePixels | split)); clear_value x | (have _ : HostIf := x) | (have _ : Keys := x) | (have _ : Fwu := x) | clear_value x | skip)
       | with_reducible assumption | with_reducible apply keeps_settlePixels | split | lift_lets
  | cons x r ih =>
    unfold settleUpdates
    repeat' first
       | (intro x; first | (have hx : Keeps a x := by (unfold x; repeat' first | with_reducible assumption | with_reducible apply keeps_settlePixels | with_reducible apply ih | split)); clear_value x | (have _ : HostIf := x) | (have _ : Keys := x) | (have _ : Fwu := x) | clear_value x | skip)
       | with_reducible assumption | with_reducible apply keeps_settlePixels | with_reducible apply ih | split | lift_lets

theorem keeps_startRepairs {a : State} (y0 : List Rect) (y1 : State) (h : Keeps a y1) : Keeps a (startRepairs y0 y1) := by
  induction y0 generalizing y1 with
  | nil =>
    unfold startRepairs
    repeat' first
       | (intro x; first | (have hx : Keeps a x := by (unfold x; repeat' first | with_reducible assumption | split)); clear_value x | (have _ : HostIf := x) | (have _ : Keys := x) | (have _ : Fwu := x) | clear_value x | skip)
       | with_reducible assumption | split | lift_lets
  | cons x r ih =>
    unfold startRepairs
    repeat' first
       | (intro x; first | (have hx : Keeps a x := by (unfold x; repeat' first | with_reducible assumption | with_reducible apply ih | split)); clear_value x | (have _ : HostIf := x) | (have _ : Keys := x) | (have _ : Fwu := x) | clear_value x | skip)
       | with_reducible assumption | with_reducible apply ih | split | lift_lets

theorem keeps_pnlRepair {a : State} (s : State) (h : Keeps a s) : Keeps a (pnlRepair s) := by
  unfold pnlRepair
  with_reducible repeat' first
     | (intro x; first | (have hx : Keeps a x := by (unfold x; repeat' first | assumption | apply keeps_updateBand | apply keeps_raise | apply keeps_startRepairs | apply keeps_settleUpdates | split)); clear_value x | (have _ : HostIf := x) | (have _ : Keys := x) | (have _ : Fwu := x) | clear_value x | skip)
     | assumption | apply keeps_updateBand | apply keeps_raise | apply keeps_startRepairs | apply keeps_settleUpdates | split | lift_lets

theorem keeps_interruptUpdates {a : State} (s : State) (h : Keeps a s) : Keeps a (interruptUpdates s) := ⟨h.1, h.2⟩

theorem keeps_updateDone {a : State} (u : PnlUpd) (s : State) (h : Keeps a s) : Keeps a (updateDone u s) := by
  unfold updateDone
  repeat' first | exact ⟨h.1, h.2⟩ | assumption | with_reducible apply keeps_raise | split

theorem keeps_frameOf {a : State} (u : PnlUpd) (s : State) (h : Keeps a s) : Keeps a (frameOf u s) := by
  unfold frameOf
  repeat' first | with_reducible assumption | with_reducible apply keeps_emit | with_reducible apply keeps_updateDone | split

theorem keeps_framesOf {a : State} (y0 : List PnlUpd) (y1 : State) (h : Keeps a y1) : Keeps a (framesOf y0 y1) := by
  induction y0 generalizing y1 with
  | nil =>
    unfold framesOf
    repeat' first
       | (intro x; first | (have hx : Keeps a x := by (unfold x; repeat' first | with_reducible assumption | with_reducible apply keeps_frameOf | split)); clear_value x | (have _ : HostIf := x) | (have _ : Keys := x) | (have _ : Fwu := x) | clear_value x | skip)
       | with_reducible assumption | with_reducible apply keeps_frameOf | split | lift_lets
  | cons x r ih =>
    unfold framesOf
    repeat' first
       | (intro x; first | (have hx : Keeps a x := by (unfold x; repeat' first | with_reducible assumption | with_reducible apply keeps_frameOf | with_reducible apply ih | split)); clear_value x | (have _ : HostIf := x) | (have _ : Keys := x) | (have _ : Fwu := x) | clear_value x | skip)
       | with_reducible assumption | with_reducible apply keeps_frameOf | with_reducible apply ih | split | lift_lets

theorem keeps_execPnlFrame {a : State} (s : State) (h : Keeps a s) : Goes a (execPnlFrame s) := by
  unfold execPnlFrame
  (try intro x)
  apply goes_next
  repeat' first
     | (intro x; first | (have hx : Keeps a x := by (unfold x; repeat' first | with_reducible assumption | with_reducible apply keeps_updateBand | with_reducible apply keeps_framesOf | split)); clear_value x | (have _ : HostIf := x) | (have _ : Keys := x) | (have _ : Fwu := x) | clear_value x | skip)
     | with_reducible assumption | with_reducible apply keeps_updateBand | with_reducible apply keeps_framesOf | split | lift_lets

theorem keeps_execPnlBiasCheck {a : State} (out : List (Fin 8)) (s : State) (h : Keeps a s) : Goes a (execPnlBiasCheck out s) := by
  unfold execPnlBiasCheck
  (try intro x)
  apply goes_next
  repeat' first
     | (intro x; first | (have hx : Keeps a x := by (unfold x; repeat' first | with_reducible assumption | with_reducible apply keeps_interruptUpdates | with_reducible apply keeps_raise | split)); clear_value x | (have _ : HostIf := x) | (have _ : Keys := x) | (have _ : Fwu := x) | clear_value x | skip)
     | with_reducible assumption | with_reducible apply keeps_interruptUpdates | with_reducible apply keeps_raise | split
     | lift_lets

theorem keeps_execPnlBiasRetry {a : State} (ok : Bool) (s : State) (h : Keeps a s) : Goes a (execPnlBiasRetry ok s) := by
  unfold execPnlBiasRetry
  (try intro x)
  apply goes_next
  repeat' first
     | (intro x; first | (have hx : Keeps a x := by (unfold x; repeat' first | with_reducible assumption | with_reducible apply keeps_interruptUpdates | with_reducible apply keeps_pnlRepair | split)); clear_value x | (have _ : HostIf := x) | (have _ : Keys := x) | (have _ : Fwu := x) | clear_value x | skip)
     | with_reducible assumption | with_reducible apply keeps_interruptUpdates | with_reducible apply keeps_pnlRepair | split | lift_lets

theorem keeps_execPnlBiasOff {a : State} (s : State) (h : Keeps a s) : Goes a (execPnlBiasOff s) := by
  unfold execPnlBiasOff
  (try intro x)
  apply goes_next
  repeat' first
     | (intro x; first | (have hx : Keeps a x := by (unfold x; repeat' first | with_reducible assumption | split)); clear_value x | (have _ : HostIf := x) | (have _ : Keys := x) | (have _ : Fwu := x) | clear_value x | skip)
     | with_reducible assumption | split | lift_lets

theorem keeps_compareFrame {a : State} (expected : W32) (s : State) (h : Keeps a s) : Keeps a (compareFrame expected s) := by
  unfold compareFrame
  repeat' first | exact ⟨h.1, h.2⟩ | assumption | with_reducible apply keeps_raise | with_reducible apply keeps_rcAdd | split

theorem keeps_execPnlCrcCheck {a : State} (upsets : List (Nat × Byte)) (s : State) (h : Keeps a s) : Goes a (execPnlCrcCheck upsets s) := by
  unfold execPnlCrcCheck
  (try intro x)
  apply goes_next
  repeat' first
     | (intro x; first | (have hx : Keeps a x := by (unfold x; repeat' first | with_reducible assumption | with_reducible apply keeps_updateBand | with_reducible apply keeps_compareFrame | split)); clear_value x | (have _ : HostIf := x) | (have _ : Keys := x) | (have _ : Fwu := x) | clear_value x | skip)
     | with_reducible assumption | with_reducible apply keeps_updateBand | with_reducible apply keeps_compareFrame | split | lift_lets

theorem keeps_keepFrameCrc {a : State} (s : State) (h : Keeps a s) : Keeps a (keepFrameCrc s) := ⟨h.1, h.2⟩

theorem keeps_specPnlConfig {a : State} (r : Req) (p : Bytes) (s : State) (h : Keeps a s) : Keeps a (specPnlConfig.run r p s) := by
  unfold specPnlConfig; dsimp only
  refine keeps_finishOk _ _ _ _ ?_
  split
  · exact keeps_keepFrameCrc _ ⟨h.1, h.2⟩
  · exact ⟨h.1, h.2⟩

theorem keeps_execCmdPnlConfig {a : State} (r : Req) (s : State) (h : Keeps a s) : Goes a (execCmdPnlConfig r s) :=
  goes_next (keeps_runCmd keeps_specPnlConfig r h)

theorem keeps_specPnlWrite {a : State} (r : Req) (p : Bytes) (s : State) (h : Keeps a s) : Keeps a (specPnlWrite.run r p s) := by
  unfold specPnlWrite; dsimp only
  repeat' first
     | (intro x; first | (have hx : Keeps a x := by (unfold x; repeat' first | with_reducible assumption | with_reducible apply keeps_finishOk | split)); clear_value x | (have _ : HostIf := x) | (have _ : Keys := x) | (have _ : Fwu := x) | clear_value x | skip)
     | with_reducible assumption | with_reducible apply keeps_finishOk | split | lift_lets

theorem keeps_execCmdPnlWrite {a : State} (r : Req) (s : State) (h : Keeps a s) : Goes a (execCmdPnlWrite r s) :=
  goes_next (keeps_runCmd keeps_specPnlWrite r h)

theorem keeps_specPnlUpdate {a : State} (r : Req) (p : Bytes) (s : State) (h : Keeps a s) : Keeps a (specPnlUpdate.run r p s) := by
  unfold specPnlUpdate; dsimp only
  repeat' first
     | (intro x; first | (have hx : Keeps a x := by (unfold x; repeat' first | with_reducible assumption | with_reducible apply keeps_updateBand | with_reducible apply keeps_compareFrame | with_reducible apply keeps_finish | with_reducible apply keeps_raiseC | with_reducible apply keeps_finishOk | split)); clear_value x | (have _ : HostIf := x) | (have _ : Keys := x) | (have _ : Fwu := x) | clear_value x | skip)
     | with_reducible assumption | with_reducible apply keeps_updateBand | with_reducible apply keeps_compareFrame
     | with_reducible apply keeps_finish | with_reducible apply keeps_raiseC | with_reducible apply keeps_finishOk | split
     | lift_lets

theorem keeps_execCmdPnlUpdate {a : State} (r : Req) (s : State) (h : Keeps a s) : Goes a (execCmdPnlUpdate r s) :=
  goes_next (keeps_runCmd keeps_specPnlUpdate r h)

theorem keeps_specPnlStatus {a : State} (r : Req) (p : Bytes) (s : State) (h : Keeps a s) : Keeps a (specPnlStatus.run r p s) := by
  unfold specPnlStatus; dsimp only
  repeat' first
     | (intro x; first | (have hx : Keeps a x := by (unfold x; repeat' first | with_reducible assumption | with_reducible apply keeps_finishOk | split)); clear_value x | (have _ : HostIf := x) | (have _ : Keys := x) | (have _ : Fwu := x) | clear_value x | skip)
     | with_reducible assumption | with_reducible apply keeps_finishOk | split | lift_lets

theorem keeps_execCmdPnlStatus {a : State} (r : Req) (s : State) (h : Keeps a s) : Goes a (execCmdPnlStatus r s) :=
  goes_next (keeps_runCmd keeps_specPnlStatus r h)

theorem keeps_execPnlCtrlEnable {a : State} (p : Port) (v : W32) (s : State) (h : Keeps a s) : Goes a (execPnlCtrlEnable p v s) := by
  unfold execPnlCtrlEnable
  (try intro x)
  apply goes_next
  repeat' first
     | (intro x; first | (have hx : Keeps a x := by (unfold x; repeat' first | with_reducible assumption | with_reducible apply keeps_ownWrite | with_reducible apply keeps_cfgSet | split)); clear_value x | (have _ : HostIf := x) | (have _ : Keys := x) | (have _ : Fwu := x) | clear_value x | skip)
     | with_reducible assumption | with_reducible apply keeps_ownWrite | with_reducible apply keeps_cfgSet | split | lift_lets

end Sys2Proof.Laws
end

