-- ==== Sys2Proof/Laws/KeepsFieldCfg.lean ====
section
/-! SUPPORT. Laws/KeepsFieldCfg.lean: what each operation of Machine/FieldCfg.lean keeps (Laws/Keeps.lean). -/

namespace Sys2Proof.Laws

set_option linter.all false

open Sys2Proof.Machine

theorem keeps_enterMode {a : State} (n : Nat) (m : Nat) (s : State) (h : Keeps a s) : Keeps a (enterMode n m s) := by
  unfold enterMode
  with_reducible repeat' first
     | (intro x; first | (have hx : Keeps a x := by (unfold x; repeat' first | assumption | apply keeps_setCan | split)); clear_value x | (have _ : HostIf := x) | (have _ : Keys := x) | (have _ : Fwu := x) | clear_value x | skip)
     | assumption | apply keeps_setCan | split | lift_lets

theorem keeps_refreshMode {a : State} (n : Nat) (s : State) (h : Keeps a s) : Keeps a (refreshMode n s) := by
  unfold refreshMode
  repeat' first | exact ⟨h.1, h.2⟩ | assumption | with_reducible apply keeps_enterMode | split

theorem keeps_refreshModes {a : State} (s : State) (h : Keeps a s) : Keeps a (refreshModes s) := by
  unfold refreshModes
  repeat' first | with_reducible assumption | with_reducible apply keeps_refreshMode | split

theorem keeps_setBuf {a : State} (n : Nat) (b : Nat) (f : CanBuf → CanBuf) (s : State) (h : Keeps a s) : Keeps a (setBuf n b f s) := ⟨h.1, h.2⟩

theorem keeps_applyRingConfig {a : State} (p : Bytes) (s : State) (h : Keeps a s) : Keeps a (applyRingConfig p s) := by
  unfold applyRingConfig
  with_reducible repeat' first
     | (intro x; first | (have hx : Keeps a x := by (unfold x; repeat' first | assumption | apply keeps_cfgSet | apply keeps_resetEpoch | split)); clear_value x | (have _ : HostIf := x) | (have _ : Keys := x) | (have _ : Fwu := x) | clear_value x | skip)
     | assumption | apply keeps_cfgSet | apply keeps_resetEpoch | split | lift_lets

theorem keeps_applyStationConfig {a : State} (p : Bytes) (s : State) (h : Keeps a s) : Keeps a (applyStationConfig p s) := ⟨h.1, h.2⟩

theorem keeps_applyCanConfig {a : State} (p : Bytes) (s : State) (h : Keeps a s) : Keeps a (applyCanConfig p s) := by
  unfold applyCanConfig
  with_reducible repeat' first
     | (intro x; first | (have hx : Keeps a x := by (unfold x; repeat' first | assumption | apply keeps_enterMode | apply keeps_cfgSet | apply keeps_setBuf | apply keeps_refreshMode | split)); clear_value x | (have _ : HostIf := x) | (have _ : Keys := x) | (have _ : Fwu := x) | clear_value x | skip)
     | assumption | apply keeps_enterMode | apply keeps_cfgSet | apply keeps_setBuf | apply keeps_refreshMode | split
     | lift_lets

theorem keeps_applyCfg {a : State} (c : BoundaryCfg) (s : State) (h : Keeps a s) : Keeps a (applyCfg c s) := by
  unfold applyCfg
  with_reducible repeat' first
     | (intro x; first | (have hx : Keeps a x := by (unfold x; repeat' first | assumption | apply keeps_applyRingConfig | apply keeps_applyStationConfig | apply keeps_applyCanConfig | apply keeps_setBuf | split)); clear_value x | (have _ : HostIf := x) | (have _ : Keys := x) | (have _ : Fwu := x) | clear_value x | skip)
     | assumption | apply keeps_applyRingConfig | apply keeps_applyStationConfig | apply keeps_applyCanConfig
     | apply keeps_setBuf | split | lift_lets

theorem keeps_applyCfgs {a : State} (y0 : List BoundaryCfg) (y1 : State) (h : Keeps a y1) : Keeps a (applyCfgs y0 y1) := by
  induction y0 generalizing y1 with
  | nil =>
    unfold applyCfgs
    repeat' first
       | (intro x; first | (have hx : Keeps a x := by (unfold x; repeat' first | with_reducible assumption | with_reducible apply keeps_applyCfg | split)); clear_value x | (have _ : HostIf := x) | (have _ : Keys := x) | (have _ : Fwu := x) | clear_value x | skip)
       | with_reducible assumption | with_reducible apply keeps_applyCfg | split | lift_lets
  | cons x r ih =>
    unfold applyCfgs
    repeat' first
       | (intro x; first | (have hx : Keeps a x := by (unfold x; repeat' first | with_reducible assumption | with_reducible apply keeps_applyCfg | with_reducible apply ih | split)); clear_value x | (have _ : HostIf := x) | (have _ : Keys := x) | (have _ : Fwu := x) | clear_value x | skip)
       | with_reducible assumption | with_reducible apply keeps_applyCfg | with_reducible apply ih | split | lift_lets

theorem keeps_planned {a : State} (s : State) (h : Keeps a s) : Keeps a (planned s) := by
  unfold planned
  repeat' first | exact ⟨h.1, h.2⟩ | assumption | with_reducible apply keeps_applyCfgs | split

theorem keeps_stage {a : State} (op : Nat) (p : Bytes) (s : State) (h : Keeps a s) : Keeps a (stage op p s) := ⟨h.1, h.2⟩

theorem keeps_clearConflict {a : State} (n : Nat) (s : State) (h : Keeps a s) : Keeps a (clearConflict n s) := by
  unfold clearConflict
  repeat' first | exact ⟨h.1, h.2⟩ | assumption | with_reducible apply keeps_setCan | split

end Sys2Proof.Laws
end

