-- ==== Sys2Proof/Laws/KeepsPortQueue.lean ====
section
/-! SUPPORT. Laws/KeepsPortQueue.lean: what each operation of Machine/PortQueue.lean keeps (Laws/Keeps.lean). -/

namespace Sys2Proof.Laws

set_option linter.all false

open Sys2Proof.Machine

theorem keeps_setPort {a : State} (p : Nat) (f : RingPort → RingPort) (s : State) (h : Keeps a s) : Keeps a (setPort p f s) := ⟨h.1, h.2⟩

theorem keeps_setDom {a : State} (i : Fin 2) (f : Domain → Domain) (s : State) (h : Keeps a s) : Keeps a (setDom i f s) := by
  unfold setDom
  repeat' first | exact ⟨h.1, h.2⟩ | assumption | split

theorem keeps_setPtp {a : State} (i : Fin 2) (p : Nat) (f : PtpPort → PtpPort) (s : State) (h : Keeps a s) : Keeps a (setPtp i p f s) := by
  unfold setPtp
  repeat' first | exact ⟨h.1, h.2⟩ | assumption | with_reducible apply keeps_setDom | split

theorem keeps_setTx {a : State} (p : Nat) (f : PortTx → PortTx) (s : State) (h : Keeps a s) : Keeps a (setTx p f s) := ⟨h.1, h.2⟩

theorem keeps_startFrame {a : State} (p : Nat) (o : Out) (s : State) (h : Keeps a s) : Keeps a (startFrame p o s) := ⟨h.1, h.2⟩

theorem keeps_leaveLater {a : State} (p : Nat) (o : Out) (s : State) (h : Keeps a s) : Keeps a (leaveLater p o s).2 := by
  unfold leaveLater
  repeat' first
     | (intro x; first | (have hx : Keeps a x := by (unfold x; repeat' first | with_reducible assumption | with_reducible apply keeps_setPort | with_reducible apply keeps_setPtp | split)); clear_value x | (have _ : HostIf := x) | (have _ : Keys := x) | (have _ : Fwu := x) | clear_value x | skip)
     | with_reducible assumption | with_reducible apply keeps_setPort | with_reducible apply keeps_setPtp | split | lift_lets

theorem keeps_leaveLater_eq {a t : State} {p : Nat} {o : Out} {s : State} {z : _} (e : leaveLater p o s = (z, t)) (h : Keeps a s) : Keeps a t := by
  have k := keeps_leaveLater p o s h
  rw [e] at k; exact k

theorem keeps_serveRing {a : State} (p : Nat) (s : State) (h : Keeps a s) : Keeps a (serveRing p s) := by
  unfold serveRing
  with_reducible repeat' first
     | (intro x; first | (have hx : Keeps a x := by (unfold x; repeat' first | assumption | apply keeps_setTx | apply keeps_startFrame | apply keeps_leaveLater | (refine keeps_leaveLater_eq (by assumption) ?_) | split)); clear_value x | (have _ : HostIf := x) | (have _ : Keys := x) | (have _ : Fwu := x) | clear_value x | skip)
     | assumption | apply keeps_setTx | apply keeps_startFrame | apply keeps_leaveLater
     | (refine keeps_leaveLater_eq (by assumption) ?_) | split | lift_lets

theorem keeps_portSend {a : State} (p : Nat) (prec : Nat) (o : Out) (s : State) (h : Keeps a s) : Keeps a (portSend p prec o s) := by
  unfold portSend
  with_reducible repeat' first
     | (intro x; first | (have hx : Keeps a x := by (unfold x; repeat' first | assumption | apply keeps_startFrame | apply keeps_setTx | split)); clear_value x | (have _ : HostIf := x) | (have _ : Keys := x) | (have _ : Fwu := x) | clear_value x | skip)
     | assumption | apply keeps_startFrame | apply keeps_setTx | split | lift_lets

theorem keeps_serveRings {a : State} (y0 : List Nat) (y1 : State) (h : Keeps a y1) : Keeps a (serveRings y0 y1) := by
  induction y0 generalizing y1 with
  | nil =>
    unfold serveRings
    repeat' first
       | (intro x; first | (have hx : Keeps a x := by (unfold x; repeat' first | with_reducible assumption | with_reducible apply keeps_serveRing | split)); clear_value x | (have _ : HostIf := x) | (have _ : Keys := x) | (have _ : Fwu := x) | clear_value x | skip)
       | with_reducible assumption | with_reducible apply keeps_serveRing | split | lift_lets
  | cons x r ih =>
    unfold serveRings
    repeat' first
       | (intro x; first | (have hx : Keeps a x := by (unfold x; repeat' first | with_reducible assumption | with_reducible apply keeps_serveRing | with_reducible apply ih | split)); clear_value x | (have _ : HostIf := x) | (have _ : Keys := x) | (have _ : Fwu := x) | clear_value x | skip)
       | with_reducible assumption | with_reducible apply keeps_serveRing | with_reducible apply ih | split | lift_lets

theorem keeps_portsTick {a : State} (s : State) (h : Keeps a s) : Keeps a (portsTick s) := by
  unfold portsTick
  repeat' first | with_reducible assumption | with_reducible apply keeps_serveRings | split

end Sys2Proof.Laws
end

