-- ==== Sys2Proof/Laws/KeepsRings.lean ====
section
/-! SUPPORT. Laws/KeepsRings.lean: what each operation of Machine/Rings.lean keeps (Laws/Keeps.lean). -/

namespace Sys2Proof.Laws

set_option linter.all false

open Sys2Proof.Machine

theorem keeps_setRing {a : State} (n : Nat) (f : Ring → Ring) (s : State) (h : Keeps a s) : Keeps a (setRing n f s) := ⟨h.1, h.2⟩

theorem keeps_setStation {a : State} (n : Nat) (f : Station → Station) (s : State) (h : Keeps a s) : Keeps a (setStation n f s) := ⟨h.1, h.2⟩

theorem keeps_advanceEpoch {a : State} (n : Nat) (s : State) (h : Keeps a s) : Keeps a (advanceEpoch n s) := by
  unfold advanceEpoch
  with_reducible repeat' first
     | (intro x; first | (have hx : Keeps a x := by (unfold x; repeat' first | assumption | apply keeps_setEpoch | apply keeps_raise | apply keeps_setRing | split)); clear_value x | (have _ : HostIf := x) | (have _ : Keys := x) | (have _ : Fwu := x) | clear_value x | skip)
     | assumption | apply keeps_setEpoch | apply keeps_raise | apply keeps_setRing | split | lift_lets

theorem keeps_takeHsrSeq {a : State} (n : Nat) (s : State) (h : Keeps a s) : Keeps a (takeHsrSeq n s) := by
  unfold takeHsrSeq
  exact keeps_setRing _ _ _ h

theorem keeps_sendBoth {a : State} (n : Nat) (prec : Nat) (f : Nat → Out) (s : State) (h : Keeps a s) : Keeps a (sendBoth n prec f s) := by
  unfold sendBoth
  with_reducible repeat' first
     | (intro x; first | (have hx : Keeps a x := by (unfold x; repeat' first | assumption | apply keeps_portSend | split)); clear_value x | (have _ : HostIf := x) | (have _ : Keys := x) | (have _ : Fwu := x) | clear_value x | skip)
     | assumption | apply keeps_portSend | split | lift_lets

theorem keeps_sendKnama {a : State} (kind : Nat) (stationNo : Nat) (dataset : Nat) (time : Nat) (hold : Nat) (count : Nat) (body : Bytes) (s : State) (h : Keeps a s) : Keeps a (sendKnama kind stationNo dataset time hold count body s) := by
  unfold sendKnama
  with_reducible repeat' first
     | (intro x; first | (have hx : Keeps a x := by (unfold x; repeat' first | assumption | apply keeps_advanceEpoch | apply keeps_takeHsrSeq | apply keeps_rcAdd | apply keeps_sendBoth | split)); clear_value x | (have _ : HostIf := x) | (have _ : Keys := x) | (have _ : Fwu := x) | clear_value x | skip)
     | assumption | apply keeps_advanceEpoch | apply keeps_takeHsrSeq | apply keeps_rcAdd | apply keeps_sendBoth | split | lift_lets

theorem keeps_sendOutput {a : State} (stationNo : Nat) (dataset : Nat) (time : Nat) (hold : Nat) (body : Bytes) (s : State) (h : Keeps a s) : Keeps a (sendOutput stationNo dataset time hold body s) := by
  unfold sendOutput
  with_reducible repeat' first
     | (intro x; first | (have hx : Keeps a x := by (unfold x; repeat' first | assumption | apply keeps_setStation | apply keeps_sendKnama | split)); clear_value x | (have _ : HostIf := x) | (have _ : Keys := x) | (have _ : Fwu := x) | clear_value x | skip)
     | assumption | apply keeps_setStation | apply keeps_sendKnama | split | lift_lets

theorem keeps_sendSet {a : State} (time : Nat) (y1 : List (Nat × Nat × Bytes)) (y2 : State) (h : Keeps a y2) : Keeps a (sendSet time y1 y2) := by
  induction y1 generalizing y2 with
  | nil =>
    unfold sendSet
    repeat' first
       | (intro x; first | (have hx : Keeps a x := by (unfold x; repeat' first | with_reducible assumption | with_reducible apply keeps_sendOutput | split)); clear_value x | (have _ : HostIf := x) | (have _ : Keys := x) | (have _ : Fwu := x) | clear_value x | skip)
       | with_reducible assumption | with_reducible apply keeps_sendOutput | split | lift_lets
  | cons x r ih =>
    unfold sendSet
    repeat' first
       | (intro x; first | (have hx : Keeps a x := by (unfold x; repeat' first | with_reducible assumption | with_reducible apply keeps_sendOutput | with_reducible apply ih | split)); clear_value x | (have _ : HostIf := x) | (have _ : Keys := x) | (have _ : Fwu := x) | clear_value x | skip)
       | with_reducible assumption | with_reducible apply keeps_sendOutput | with_reducible apply ih | split | lift_lets

theorem keeps_publishClass {a : State} (c : Nat) (time : Nat) (s : State) (h : Keeps a s) : Keeps a (publishClass c time s) := by
  unfold publishClass
  with_reducible repeat' first
     | (intro x; first | (have hx : Keeps a x := by (unfold x; repeat' first | assumption | apply keeps_sendSet | split)); clear_value x | (have _ : HostIf := x) | (have _ : Keys := x) | (have _ : Fwu := x) | clear_value x | skip)
     | assumption | apply keeps_sendSet | split | lift_lets

theorem keeps_republishHeld {a : State} (c : Nat) (time : Nat) (s : State) (h : Keeps a s) : Keeps a (republishHeld c time s) := by
  unfold republishHeld
  repeat' first | exact ⟨h.1, h.2⟩ | assumption | with_reducible apply keeps_sendSet | split

theorem keeps_sendLoop {a : State} (route : Nat) (time : Nat) (q : Byte) (scale : Int) (value : Int) (s : State) (h : Keeps a s) : Keeps a (sendLoop route time q scale value s) := by
  unfold sendLoop
  with_reducible repeat' first
     | (intro x; first | (have hx : Keeps a x := by (unfold x; repeat' first | assumption | apply keeps_sendKnama | split)); clear_value x | (have _ : HostIf := x) | (have _ : Keys := x) | (have _ : Fwu := x) | clear_value x | skip)
     | assumption | apply keeps_sendKnama | split | lift_lets

theorem keeps_resendLoops {a : State} (y0 : FMap Bytes) (y1 : State) (h : Keeps a y1) : Keeps a (resendLoops y0 y1) := by
  induction y0 generalizing y1 with
  | nil =>
    unfold resendLoops
    repeat' first
       | (intro x; first | (have hx : Keeps a x := by (unfold x; repeat' first | with_reducible assumption | with_reducible apply keeps_sendKnama | split)); clear_value x | (have _ : HostIf := x) | (have _ : Keys := x) | (have _ : Fwu := x) | clear_value x | skip)
       | with_reducible assumption | with_reducible apply keeps_sendKnama | split | lift_lets
  | cons x r ih =>
    unfold resendLoops
    repeat' first
       | (intro x; first | (have hx : Keeps a x := by (unfold x; repeat' first | with_reducible assumption | with_reducible apply keeps_sendKnama | with_reducible apply ih | split)); clear_value x | (have _ : HostIf := x) | (have _ : Keys := x) | (have _ : Fwu := x) | clear_value x | skip)
       | with_reducible assumption | with_reducible apply keeps_sendKnama | with_reducible apply ih | split | lift_lets

theorem keeps_settlePins {a : State} (s : State) (h : Keeps a s) : Keeps a (settlePins s) := ⟨h.1, h.2⟩

theorem keeps_sendTripCmds {a : State} (g : Nat) (reason : Nat) (y2 : List Nat) (y3 : State) (h : Keeps a y3) : Keeps a (sendTripCmds g reason y2 y3) := by
  induction y2 generalizing y3 with
  | nil =>
    unfold sendTripCmds
    repeat' first
       | (intro x; first | (have hx : Keeps a x := by (unfold x; repeat' first | with_reducible assumption | with_reducible apply keeps_sendKnama | split)); clear_value x | (have _ : HostIf := x) | (have _ : Keys := x) | (have _ : Fwu := x) | clear_value x | skip)
       | with_reducible assumption | with_reducible apply keeps_sendKnama | split | lift_lets
  | cons x r ih =>
    unfold sendTripCmds
    repeat' first
       | (intro x; first | (have hx : Keeps a x := by (unfold x; repeat' first | with_reducible assumption | with_reducible apply keeps_sendKnama | with_reducible apply ih | split)); clear_value x | (have _ : HostIf := x) | (have _ : Keys := x) | (have _ : Fwu := x) | clear_value x | skip)
       | with_reducible assumption | with_reducible apply keeps_sendKnama | with_reducible apply ih | split | lift_lets

theorem keeps_fireGroup {a : State} (stationNo : Nat) (g : Nat) (reason : Nat) (s : State) (h : Keeps a s) : Keeps a (fireGroup stationNo g reason s) := by
  unfold fireGroup
  repeat' first | with_reducible assumption | with_reducible apply keeps_sendTripCmds | with_reducible apply keeps_raise | split

theorem keeps_fireFromLoop {a : State} (g : Nat) (s : State) (h : Keeps a s) : Keeps a (fireFromLoop g s) := by
  unfold fireFromLoop
  repeat' first | exact ⟨h.1, h.2⟩ | assumption | with_reducible apply keeps_fireGroup | split

theorem keeps_releaseGroup {a : State} (g : Nat) (s : State) (h : Keeps a s) : Keeps a (releaseGroup g s) := by
  unfold releaseGroup
  repeat' first | exact ⟨h.1, h.2⟩ | assumption | with_reducible apply keeps_raise | split

theorem keeps_releaseGroups {a : State} (y0 : List Nat) (y1 : State) (h : Keeps a y1) : Keeps a (releaseGroups y0 y1) := by
  induction y0 generalizing y1 with
  | nil =>
    unfold releaseGroups
    repeat' first
       | (intro x; first | (have hx : Keeps a x := by (unfold x; repeat' first | with_reducible assumption | with_reducible apply keeps_releaseGroup | split)); clear_value x | (have _ : HostIf := x) | (have _ : Keys := x) | (have _ : Fwu := x) | clear_value x | skip)
       | with_reducible assumption | with_reducible apply keeps_releaseGroup | split | lift_lets
  | cons x r ih =>
    unfold releaseGroups
    repeat' first
       | (intro x; first | (have hx : Keeps a x := by (unfold x; repeat' first | with_reducible assumption | with_reducible apply keeps_releaseGroup | with_reducible apply ih | split)); clear_value x | (have _ : HostIf := x) | (have _ : Keys := x) | (have _ : Fwu := x) | clear_value x | skip)
       | with_reducible assumption | with_reducible apply keeps_releaseGroup | with_reducible apply ih | split | lift_lets

theorem keeps_rejectFrame {a : State} (st : Nat) (s : State) (h : Keeps a s) : Keeps a (rejectFrame st s) := by
  unfold rejectFrame
  with_reducible repeat' first
     | (intro x; first | (have hx : Keeps a x := by (unfold x; repeat' first | assumption | apply keeps_raiseOnce | apply keeps_setStation | split)); clear_value x | (have _ : HostIf := x) | (have _ : Keys := x) | (have _ : Fwu := x) | clear_value x | skip)
     | assumption | apply keeps_raiseOnce | apply keeps_setStation | split | lift_lets

theorem keeps_authReject {a : State} (st : Nat) (s : State) (h : Keeps a s) : Keeps a (authReject st s) := by
  unfold authReject
  with_reducible repeat' first
     | (intro x; first | (have hx : Keeps a x := by (unfold x; repeat' first | assumption | apply keeps_rcAdd | apply keeps_raiseOnce | apply keeps_setStation | apply keeps_rejectFrame | split)); clear_value x | (have _ : HostIf := x) | (have _ : Keys := x) | (have _ : Fwu := x) | clear_value x | skip)
     | assumption | apply keeps_rcAdd | apply keeps_raiseOnce | apply keeps_setStation | apply keeps_rejectFrame | split
     | lift_lets

theorem keeps_applyEntry {a : State} (st : Nat) (time : Nat) (e : DsEntry) (s : State) (h : Keeps a s) : Keeps a (applyEntry st time e s) := by
  unfold applyEntry
  with_reducible repeat' first
     | (intro x; first | (have hx : Keeps a x := by (unfold x; repeat' first | assumption | apply keeps_writePoint | apply keeps_setStation | split)); clear_value x | (have _ : HostIf := x) | (have _ : Keys := x) | (have _ : Fwu := x) | clear_value x | skip)
     | assumption | apply keeps_writePoint | apply keeps_setStation | split | lift_lets

theorem keeps_writeEntries {a : State} (st : Nat) (time : Nat) (y2 : List DsEntry) (y3 : State) (h : Keeps a y3) : Keeps a (writeEntries st time y2 y3) := by
  induction y2 generalizing y3 with
  | nil =>
    unfold writeEntries
    repeat' first
       | (intro x; first | (have hx : Keeps a x := by (unfold x; repeat' first | with_reducible assumption | with_reducible apply keeps_applyEntry | split)); clear_value x | (have _ : HostIf := x) | (have _ : Keys := x) | (have _ : Fwu := x) | clear_value x | skip)
       | with_reducible assumption | with_reducible apply keeps_applyEntry | split | lift_lets
  | cons x r ih =>
    unfold writeEntries
    repeat' first
       | (intro x; first | (have hx : Keeps a x := by (unfold x; repeat' first | with_reducible assumption | with_reducible apply keeps_applyEntry | with_reducible apply ih | split)); clear_value x | (have _ : HostIf := x) | (have _ : Keys := x) | (have _ : Fwu := x) | clear_value x | skip)
       | with_reducible assumption | with_reducible apply keeps_applyEntry | with_reducible apply ih | split | lift_lets

theorem keeps_noteAccepted {a : State} (k : Knama) (s : State) (h : Keeps a s) : Keeps a (noteAccepted k s) := ⟨h.1, h.2⟩

theorem keeps_acceptDataset {a : State} (k : Knama) (s : State) (h : Keeps a s) : Keeps a (acceptDataset k s) := by
  unfold acceptDataset
  with_reducible repeat' first
     | (intro x; first | (have hx : Keeps a x := by (unfold x; repeat' first | assumption | apply keeps_noteAccepted | apply keeps_setStation | apply keeps_writeEntries | apply keeps_raise | split)); clear_value x | (have _ : HostIf := x) | (have _ : Keys := x) | (have _ : Fwu := x) | clear_value x | skip)
     | assumption | apply keeps_noteAccepted | apply keeps_setStation | apply keeps_writeEntries | apply keeps_raise | split
     | lift_lets

theorem keeps_execInputDataset {a : State} (n : Fin 4) (knama : Bytes) (s : State) (h : Keeps a s) : Goes a (execInputDataset n knama s) := by
  unfold execInputDataset
  (try intro x)
  apply goes_next
  repeat' first
     | (intro x; first | (have hx : Keeps a x := by (unfold x; repeat' first | with_reducible assumption | with_reducible apply keeps_rejectFrame | with_reducible apply keeps_authReject | with_reducible apply keeps_acceptDataset | split)); clear_value x | (have _ : HostIf := x) | (have _ : Keys := x) | (have _ : Fwu := x) | clear_value x | skip)
     | with_reducible assumption | with_reducible apply keeps_rejectFrame | with_reducible apply keeps_authReject
     | with_reducible apply keeps_acceptDataset | split | lift_lets

theorem keeps_execTripReq {a : State} (n : Fin 4) (knama : Bytes) (s : State) (h : Keeps a s) : Goes a (execTripReq n knama s) := by
  unfold execTripReq
  (try intro x)
  apply goes_next
  repeat' first
     | (intro x; first | (have hx : Keeps a x := by (unfold x; repeat' first | with_reducible assumption | with_reducible apply keeps_rejectFrame | with_reducible apply keeps_authReject | with_reducible apply keeps_noteAccepted | with_reducible apply keeps_fireGroup | with_reducible apply keeps_sendKnama | with_reducible apply keeps_raise | split)); clear_value x | (have _ : HostIf := x) | (have _ : Keys := x) | (have _ : Fwu := x) | clear_value x | skip)
     | with_reducible assumption | with_reducible apply keeps_rejectFrame | with_reducible apply keeps_authReject
     | with_reducible apply keeps_noteAccepted | with_reducible apply keeps_fireGroup | with_reducible apply keeps_sendKnama
     | with_reducible apply keeps_raise | split | lift_lets

theorem keeps_holdPoints {a : State} (y0 : List Nat) (y1 : State) (h : Keeps a y1) : Keeps a (holdPoints y0 y1) := by
  induction y0 generalizing y1 with
  | nil =>
    unfold holdPoints
    repeat' first
       | (intro x; first | (have hx : Keeps a x := by (unfold x; repeat' first | with_reducible assumption | with_reducible apply keeps_setQuality | split)); clear_value x | (have _ : HostIf := x) | (have _ : Keys := x) | (have _ : Fwu := x) | clear_value x | skip)
       | with_reducible assumption | with_reducible apply keeps_setQuality | split | lift_lets
  | cons x r ih =>
    unfold holdPoints
    repeat' first
       | (intro x; first | (have hx : Keeps a x := by (unfold x; repeat' first | with_reducible assumption | with_reducible apply keeps_setQuality | with_reducible apply ih | split)); clear_value x | (have _ : HostIf := x) | (have _ : Keys := x) | (have _ : Fwu := x) | clear_value x | skip)
       | with_reducible assumption | with_reducible apply keeps_setQuality | with_reducible apply ih | split | lift_lets

theorem keeps_execStationAbsent {a : State} (st : BitVec 12) (s : State) (h : Keeps a s) : Goes a (execStationAbsent st s) := by
  unfold execStationAbsent
  (try intro x)
  apply goes_next
  repeat' first
     | (intro x; first | (have hx : Keeps a x := by (unfold x; repeat' first | with_reducible assumption | with_reducible apply keeps_raise | with_reducible apply keeps_holdPoints | with_reducible apply keeps_setStation | split)); clear_value x | (have _ : HostIf := x) | (have _ : Keys := x) | (have _ : Fwu := x) | clear_value x | skip)
     | with_reducible assumption | with_reducible apply keeps_raise | with_reducible apply keeps_holdPoints
     | with_reducible apply keeps_setStation | split | lift_lets

theorem keeps_setNode {a : State} (n : Nat) (src : BitVec 48) (x : HsrNode) (s : State) (h : Keeps a s) : Keeps a (setNode n src x s) := ⟨h.1, h.2⟩

theorem keeps_noteSource {a : State} (n : Nat) (f : HsrFrame) (s : State) (h : Keeps a s) : Keeps a (noteSource n f s) := by
  unfold noteSource
  with_reducible repeat' first
     | (intro x; first | (have hx : Keeps a x := by (unfold x; repeat' first | assumption | apply keeps_setNode | apply keeps_raiseOnce | apply keeps_setRing | split)); clear_value x | (have _ : HostIf := x) | (have _ : Keys := x) | (have _ : Fwu := x) | clear_value x | skip)
     | assumption | apply keeps_setNode | apply keeps_raiseOnce | apply keeps_setRing | split | lift_lets

theorem keeps_execHsrFrameForward {a : State} (port : Fin 8) (f : HsrFrame) (s : State) (h : Keeps a s) : Goes a (execHsrFrameForward port f s) := by
  unfold execHsrFrameForward
  (try intro x)
  apply goes_next
  repeat' first
     | (intro x; first | (have hx : Keeps a x := by (unfold x; repeat' first | with_reducible assumption | with_reducible apply keeps_setRing | with_reducible apply keeps_noteSource | with_reducible apply keeps_portSend | split)); clear_value x | (have _ : HostIf := x) | (have _ : Keys := x) | (have _ : Fwu := x) | clear_value x | skip)
     | with_reducible assumption | with_reducible apply keeps_setRing | with_reducible apply keeps_noteSource
     | with_reducible apply keeps_portSend | split | lift_lets

theorem keeps_execDuplicateEntryExpiry {a : State} (n : Fin 4) (src : BitVec 48) (s : State) (h : Keeps a s) : Goes a (execDuplicateEntryExpiry n src s) := by
  unfold execDuplicateEntryExpiry
  (try intro x)
  apply goes_next
  repeat' first
     | (intro x; first | (have hx : Keeps a x := by (unfold x; repeat' first | with_reducible assumption | with_reducible apply keeps_setNode | split)); clear_value x | (have _ : HostIf := x) | (have _ : Keys := x) | (have _ : Fwu := x) | clear_value x | skip)
     | with_reducible assumption | with_reducible apply keeps_setNode | split | lift_lets

theorem keeps_execNodeForgotten {a : State} (n : Fin 4) (src : BitVec 48) (s : State) (h : Keeps a s) : Goes a (execNodeForgotten n src s) := by
  unfold execNodeForgotten
  (try intro x)
  apply goes_next
  repeat' first
     | (intro x; first | (have hx : Keeps a x := by (unfold x; repeat' first | with_reducible assumption | with_reducible apply keeps_setRing | split)); clear_value x | (have _ : HostIf := x) | (have _ : Keys := x) | (have _ : Fwu := x) | clear_value x | skip)
     | with_reducible assumption | with_reducible apply keeps_setRing | split | lift_lets

theorem keeps_execSupervisionFrameSend {a : State} (port : Fin 8) (s : State) (h : Keeps a s) : Goes a (execSupervisionFrameSend port s) := by
  unfold execSupervisionFrameSend
  (try intro x)
  apply goes_next
  repeat' first
     | (intro x; first | (have hx : Keeps a x := by (unfold x; repeat' first | with_reducible assumption | with_reducible apply keeps_portSend | with_reducible apply keeps_setPort | with_reducible apply keeps_takeHsrSeq | split)); clear_value x | (have _ : HostIf := x) | (have _ : Keys := x) | (have _ : Fwu := x) | clear_value x | skip)
     | with_reducible assumption | with_reducible apply keeps_portSend | with_reducible apply keeps_setPort | with_reducible apply keeps_takeHsrSeq | split | lift_lets

theorem keeps_leavePort {a : State} (p : Nat) (s : State) (h : Keeps a s) : Keeps a (leavePort p s) := ⟨h.1, h.2⟩

theorem keeps_failPort {a : State} (p : Nat) (s : State) (h : Keeps a s) : Keeps a (failPort p s) := by
  unfold failPort
  with_reducible repeat' first
     | (intro x; first | (have hx : Keeps a x := by (unfold x; repeat' first | assumption | apply keeps_setPort | apply keeps_countFault | apply keeps_rcAdd | apply keeps_raise | apply keeps_leavePort | split)); clear_value x | (have _ : HostIf := x) | (have _ : Keys := x) | (have _ : Fwu := x) | clear_value x | skip)
     | assumption | apply keeps_setPort | apply keeps_countFault | apply keeps_rcAdd | apply keeps_raise | apply keeps_leavePort
     | split | lift_lets

theorem keeps_judgeCheck {a : State} (p : Nat) (s : State) (h : Keeps a s) : Keeps a (judgeCheck p s) := by
  unfold judgeCheck
  with_reducible repeat' first
     | (intro x; first | (have hx : Keeps a x := by (unfold x; repeat' first | assumption | apply keeps_setPort | apply keeps_failPort | split)); clear_value x | (have _ : HostIf := x) | (have _ : Keys := x) | (have _ : Fwu := x) | clear_value x | skip)
     | assumption | apply keeps_setPort | apply keeps_failPort | split | lift_lets

theorem keeps_execLinkCheckSend {a : State} (port : Fin 8) (s : State) (h : Keeps a s) : Goes a (execLinkCheckSend port s) := by
  unfold execLinkCheckSend
  (try intro x)
  apply goes_next
  repeat' first
     | (intro x; first | (have hx : Keeps a x := by (unfold x; repeat' first | with_reducible assumption | with_reducible apply keeps_judgeCheck | with_reducible apply keeps_portSend | with_reducible apply keeps_setPort | split)); clear_value x | (have _ : HostIf := x) | (have _ : Keys := x) | (have _ : Fwu := x) | clear_value x | skip)
     | with_reducible assumption | with_reducible apply keeps_judgeCheck | with_reducible apply keeps_portSend
     | with_reducible apply keeps_setPort | split | lift_lets

theorem keeps_execLinkCheckReceive {a : State} (port : Fin 8) (s : State) (h : Keeps a s) : Goes a (execLinkCheckReceive port s) := by
  unfold execLinkCheckReceive
  (try intro x)
  apply goes_next
  repeat' first
     | (intro x; first | (have hx : Keeps a x := by (unfold x; repeat' first | with_reducible assumption | with_reducible apply keeps_portSend | split)); clear_value x | (have _ : HostIf := x) | (have _ : Keys := x) | (have _ : Fwu := x) | clear_value x | skip)
     | with_reducible assumption | with_reducible apply keeps_portSend | split | lift_lets

theorem keeps_execLinkEcho {a : State} (port : Fin 8) (s : State) (h : Keeps a s) : Goes a (execLinkEcho port s) := by
  unfold execLinkEcho
  (try intro x)
  apply goes_next
  repeat' first
     | (intro x; first | (have hx : Keeps a x := by (unfold x; repeat' first | with_reducible assumption | with_reducible apply keeps_setPort | with_reducible apply keeps_raise | split)); clear_value x | (have _ : HostIf := x) | (have _ : Keys := x) | (have _ : Fwu := x) | clear_value x | skip)
     | with_reducible assumption | with_reducible apply keeps_setPort | with_reducible apply keeps_raise | split | lift_lets

theorem keeps_execPortLinkLoss {a : State} (port : Fin 8) (s : State) (h : Keeps a s) : Goes a (execPortLinkLoss port s) := by
  unfold execPortLinkLoss
  (try intro x)
  apply goes_next
  repeat' first
     | (intro x; first | (have hx : Keeps a x := by (unfold x; repeat' first | with_reducible assumption | with_reducible apply keeps_failPort | with_reducible apply keeps_setPort | split)); clear_value x | (have _ : HostIf := x) | (have _ : Keys := x) | (have _ : Fwu := x) | clear_value x | skip)
     | with_reducible assumption | with_reducible apply keeps_failPort | with_reducible apply keeps_setPort | split | lift_lets

theorem keeps_specRingConfig {a : State} (r : Req) (p : Bytes) (s : State) (h : Keeps a s) : Keeps a (specRingConfig.run r p s) := by
  unfold specRingConfig; dsimp only
  repeat' first
     | (intro x; first | (have hx : Keeps a x := by (unfold x; repeat' first | with_reducible assumption | with_reducible apply keeps_finishOk | with_reducible apply keeps_stage | split)); clear_value x | (have _ : HostIf := x) | (have _ : Keys := x) | (have _ : Fwu := x) | clear_value x | skip)
     | with_reducible assumption | with_reducible apply keeps_finishOk | with_reducible apply keeps_stage | split | lift_lets

theorem keeps_execCmdRingConfig {a : State} (r : Req) (s : State) (h : Keeps a s) : Goes a (execCmdRingConfig r s) :=
  goes_next (keeps_runCmd keeps_specRingConfig r h)

theorem keeps_specStationConfig {a : State} (r : Req) (p : Bytes) (s : State) (h : Keeps a s) : Keeps a (specStationConfig.run r p s) := by
  unfold specStationConfig; dsimp only
  repeat' first
     | (intro x; first | (have hx : Keeps a x := by (unfold x; repeat' first | with_reducible assumption | with_reducible apply keeps_planned | with_reducible apply keeps_finishOk | with_reducible apply keeps_stage | split)); clear_value x | (have _ : HostIf := x) | (have _ : Keys := x) | (have _ : Fwu := x) | clear_value x | skip)
     | with_reducible assumption | with_reducible apply keeps_planned | with_reducible apply keeps_finishOk
     | with_reducible apply keeps_stage | split | lift_lets

theorem keeps_execCmdStationConfig {a : State} (r : Req) (s : State) (h : Keeps a s) : Goes a (execCmdStationConfig r s) :=
  goes_next (keeps_runCmd keeps_specStationConfig r h)

theorem keeps_specDatasetConfig {a : State} (r : Req) (p : Bytes) (s : State) (h : Keeps a s) : Keeps a (specDatasetConfig.run r p s) := by
  unfold specDatasetConfig; dsimp only
  repeat' first
     | (intro x; first | (have hx : Keeps a x := by (unfold x; repeat' first | with_reducible assumption | with_reducible apply keeps_finishOk | with_reducible apply keeps_stage | split)); clear_value x | (have _ : HostIf := x) | (have _ : Keys := x) | (have _ : Fwu := x) | clear_value x | skip)
     | with_reducible assumption | with_reducible apply keeps_finishOk | with_reducible apply keeps_stage | split | lift_lets

theorem keeps_execCmdDatasetConfig {a : State} (r : Req) (s : State) (h : Keeps a s) : Goes a (execCmdDatasetConfig r s) :=
  goes_next (keeps_runCmd keeps_specDatasetConfig r h)

theorem keeps_specLoopRoute {a : State} (r : Req) (p : Bytes) (s : State) (h : Keeps a s) : Keeps a (specLoopRoute.run r p s) := by
  unfold specLoopRoute; dsimp only
  repeat' first
     | (intro x; first | (have hx : Keeps a x := by (unfold x; repeat' first | with_reducible assumption | with_reducible apply keeps_applyCfg | with_reducible apply keeps_planned | with_reducible apply keeps_finishOk | with_reducible apply keeps_stage | split)); clear_value x | (have _ : HostIf := x) | (have _ : Keys := x) | (have _ : Fwu := x) | clear_value x | skip)
     | with_reducible assumption | with_reducible apply keeps_applyCfg | with_reducible apply keeps_planned
     | with_reducible apply keeps_finishOk | with_reducible apply keeps_stage | split | lift_lets

theorem keeps_execCmdLoopRoute {a : State} (r : Req) (s : State) (h : Keeps a s) : Goes a (execCmdLoopRoute r s) :=
  goes_next (keeps_runCmd keeps_specLoopRoute r h)

theorem keeps_specTripConfig {a : State} (r : Req) (p : Bytes) (s : State) (h : Keeps a s) : Keeps a (specTripConfig.run r p s) := by
  unfold specTripConfig; dsimp only
  repeat' first
     | (intro x; first | (have hx : Keeps a x := by (unfold x; repeat' first | with_reducible assumption | with_reducible apply keeps_finishOk | with_reducible apply keeps_stage | split)); clear_value x | (have _ : HostIf := x) | (have _ : Keys := x) | (have _ : Fwu := x) | clear_value x | skip)
     | with_reducible assumption | with_reducible apply keeps_finishOk | with_reducible apply keeps_stage | split | lift_lets

theorem keeps_execCmdTripConfig {a : State} (r : Req) (s : State) (h : Keeps a s) : Goes a (execCmdTripConfig r s) :=
  goes_next (keeps_runCmd keeps_specTripConfig r h)

theorem keeps_specTripReset {a : State} (r : Req) (p : Bytes) (s : State) (h : Keeps a s) : Keeps a (specTripReset.run r p s) := by
  unfold specTripReset; dsimp only
  repeat' first
     | (intro x; first | (have hx : Keeps a x := by (unfold x; repeat' first | with_reducible assumption | with_reducible apply keeps_holdCmd | with_reducible apply keeps_stage | split)); clear_value x | (have _ : HostIf := x) | (have _ : Keys := x) | (have _ : Fwu := x) | clear_value x | skip)
     | with_reducible assumption | with_reducible apply keeps_holdCmd | with_reducible apply keeps_stage | split | lift_lets

theorem keeps_execCmdTripReset {a : State} (r : Req) (s : State) (h : Keeps a s) : Goes a (execCmdTripReset r s) :=
  goes_next (keeps_runCmd keeps_specTripReset r h)

theorem keeps_applyBoundary {a : State} (c : BoundaryCfg) (s : State) (h : Keeps a s) : Keeps a (applyBoundary c s) := by
  unfold applyBoundary
  with_reducible repeat' first
     | (intro x; first | (have hx : Keeps a x := by (unfold x; repeat' first | assumption | apply keeps_finishOpt | apply keeps_releaseGroups | apply keeps_applyCfg | split)); clear_value x | (have _ : HostIf := x) | (have _ : Keys := x) | (have _ : Fwu := x) | clear_value x | skip)
     | assumption | apply keeps_finishOpt | apply keeps_releaseGroups | apply keeps_applyCfg | split | lift_lets

theorem keeps_applyBoundaries {a : State} (y0 : List BoundaryCfg) (y1 : State) (h : Keeps a y1) : Keeps a (applyBoundaries y0 y1) := by
  induction y0 generalizing y1 with
  | nil =>
    unfold applyBoundaries
    repeat' first
       | (intro x; first | (have hx : Keeps a x := by (unfold x; repeat' first | with_reducible assumption | with_reducible apply keeps_applyBoundary | split)); clear_value x | (have _ : HostIf := x) | (have _ : Keys := x) | (have _ : Fwu := x) | clear_value x | skip)
       | with_reducible assumption | with_reducible apply keeps_applyBoundary | split | lift_lets
  | cons x r ih =>
    unfold applyBoundaries
    repeat' first
       | (intro x; first | (have hx : Keeps a x := by (unfold x; repeat' first | with_reducible assumption | with_reducible apply keeps_applyBoundary | with_reducible apply ih | split)); clear_value x | (have _ : HostIf := x) | (have _ : Keys := x) | (have _ : Fwu := x) | clear_value x | skip)
       | with_reducible assumption | with_reducible apply keeps_applyBoundary | with_reducible apply ih | split | lift_lets

theorem keeps_execMainBoundaryConfigApply {a : State} (s : State) (h : Keeps a s) : Goes a (execMainBoundaryConfigApply s) := by
  unfold execMainBoundaryConfigApply
  (try intro x)
  apply goes_next
  repeat' first
     | (intro x; first | (have hx : Keeps a x := by (unfold x; repeat' first | with_reducible assumption | with_reducible apply keeps_applyBoundaries | with_reducible apply keeps_clearConflict | split)); clear_value x | (have _ : HostIf := x) | (have _ : Keys := x) | (have _ : Fwu := x) | clear_value x | skip)
     | with_reducible assumption | with_reducible apply keeps_applyBoundaries | with_reducible apply keeps_clearConflict | split
     | lift_lets

theorem keeps_specRingStatus {a : State} (r : Req) (p : Bytes) (s : State) (h : Keeps a s) : Keeps a (specRingStatus.run r p s) := by
  unfold specRingStatus; dsimp only
  repeat' first
     | (intro x; first | (have hx : Keeps a x := by (unfold x; repeat' first | with_reducible assumption | with_reducible apply keeps_finishOk | split)); clear_value x | (have _ : HostIf := x) | (have _ : Keys := x) | (have _ : Fwu := x) | clear_value x | skip)
     | with_reducible assumption | with_reducible apply keeps_finishOk | split | lift_lets

theorem keeps_execCmdRingStatus {a : State} (r : Req) (s : State) (h : Keeps a s) : Goes a (execCmdRingStatus r s) :=
  goes_next (keeps_runCmd keeps_specRingStatus r h)

theorem keeps_specStationStatus {a : State} (r : Req) (p : Bytes) (s : State) (h : Keeps a s) : Keeps a (specStationStatus.run r p s) := by
  unfold specStationStatus; dsimp only
  repeat' first
     | (intro x; first | (have hx : Keeps a x := by (unfold x; repeat' first | with_reducible assumption | with_reducible apply keeps_finishOk | split)); clear_value x | (have _ : HostIf := x) | (have _ : Keys := x) | (have _ : Fwu := x) | clear_value x | skip)
     | with_reducible assumption | with_reducible apply keeps_finishOk | split | lift_lets

theorem keeps_execCmdStationStatus {a : State} (r : Req) (s : State) (h : Keeps a s) : Goes a (execCmdStationStatus r s) :=
  goes_next (keeps_runCmd keeps_specStationStatus r h)

theorem keeps_execRingCtrlEnable {a : State} (p : Port) (v : W32) (s : State) (h : Keeps a s) : Goes a (execRingCtrlEnable p v s) := by
  unfold execRingCtrlEnable
  (try intro x)
  apply goes_next
  repeat' first
     | (intro x; first | (have hx : Keeps a x := by (unfold x; repeat' first | with_reducible assumption | with_reducible apply keeps_ownWrite | with_reducible apply keeps_cfgSet | split)); clear_value x | (have _ : HostIf := x) | (have _ : Keys := x) | (have _ : Fwu := x) | clear_value x | skip)
     | with_reducible assumption | with_reducible apply keeps_ownWrite | with_reducible apply keeps_cfgSet | split | lift_lets

theorem keeps_execRingEtypeWrite {a : State} (p : Port) (v : W32) (s : State) (h : Keeps a s) : Goes a (execRingEtypeWrite p v s) := by
  unfold execRingEtypeWrite
  (try intro x)
  apply goes_next
  repeat' first
     | (intro x; first | (have hx : Keeps a x := by (unfold x; repeat' first | with_reducible assumption | with_reducible apply keeps_ownWrite | with_reducible apply keeps_cfgSet | split)); clear_value x | (have _ : HostIf := x) | (have _ : Keys := x) | (have _ : Fwu := x) | clear_value x | skip)
     | with_reducible assumption | with_reducible apply keeps_ownWrite | with_reducible apply keeps_cfgSet | split | lift_lets

end Sys2Proof.Laws
end

