-- ==== Sys2Proof/Laws/KeepsCan.lean ====
section
/-! SUPPORT. Laws/KeepsCan.lean: what each operation of Machine/Can.lean keeps (Laws/Keeps.lean). -/

namespace Sys2Proof.Laws

set_option linter.all false

open Sys2Proof.Machine

theorem keeps_enterBusOff {a : State} (n : Nat) (s : State) (h : Keeps a s) : Keeps a (enterBusOff n s) := by
  unfold enterBusOff
  with_reducible repeat' first
     | (intro x; first | (have hx : Keeps a x := by (unfold x; repeat' first | assumption | apply keeps_rcAdd | apply keeps_setCan | apply keeps_raise | split)); clear_value x | (have _ : HostIf := x) | (have _ : Keys := x) | (have _ : Fwu := x) | clear_value x | skip)
     | assumption | apply keeps_rcAdd | apply keeps_setCan | apply keeps_raise | split | lift_lets

theorem keeps_confine {a : State} (n : Nat) (s : State) (h : Keeps a s) : Keeps a (confine n s) := by
  induction n generalizing s with
  | zero =>
    unfold confine
    repeat' first
       | (intro x; first | (have hx : Keeps a x := by (unfold x; repeat' first | with_reducible assumption | with_reducible apply keeps_enterBusOff | with_reducible apply keeps_raise | with_reducible apply keeps_setCan | split)); clear_value x | (have _ : HostIf := x) | (have _ : Keys := x) | (have _ : Fwu := x) | clear_value x | skip)
       | with_reducible assumption | with_reducible apply keeps_enterBusOff | with_reducible apply keeps_raise
       | with_reducible apply keeps_setCan | split | lift_lets
  | succ x ih =>
    unfold confine
    repeat' first
       | (intro x; first | (have hx : Keeps a x := by (unfold x; repeat' first | with_reducible assumption | with_reducible apply keeps_enterBusOff | with_reducible apply keeps_raise | with_reducible apply keeps_setCan | with_reducible apply ih | split)); clear_value x | (have _ : HostIf := x) | (have _ : Keys := x) | (have _ : Fwu := x) | clear_value x | skip)
       | with_reducible assumption | with_reducible apply keeps_enterBusOff | with_reducible apply keeps_raise
       | with_reducible apply keeps_setCan | with_reducible apply ih | split | lift_lets

theorem keeps_txErrorCount {a : State} (n : Nat) (s : State) (h : Keeps a s) : Keeps a (txErrorCount n s) := by
  unfold txErrorCount
  repeat' first | exact ⟨h.1, h.2⟩ | assumption | with_reducible apply keeps_confine | with_reducible apply keeps_setCan | split

theorem keeps_rxErrorCount {a : State} (n : Nat) (s : State) (h : Keeps a s) : Keeps a (rxErrorCount n s) := by
  unfold rxErrorCount
  repeat' first | exact ⟨h.1, h.2⟩ | assumption | with_reducible apply keeps_confine | with_reducible apply keeps_setCan | split

theorem keeps_rxGoodCount {a : State} (n : Nat) (s : State) (h : Keeps a s) : Keeps a (rxGoodCount n s) := by
  unfold rxGoodCount
  with_reducible repeat' first
     | (intro x; first | (have hx : Keeps a x := by (unfold x; repeat' first | assumption | apply keeps_confine | apply keeps_setCan | apply keeps_takeFree | (refine keeps_takeFree_eq (by assumption) ?_) | split)); clear_value x | (have _ : HostIf := x) | (have _ : Keys := x) | (have _ : Fwu := x) | clear_value x | skip)
     | assumption | apply keeps_confine | apply keeps_setCan | apply keeps_takeFree
     | (refine keeps_takeFree_eq (by assumption) ?_) | split | lift_lets

theorem keeps_startNext {a : State} (n : Nat) (s : State) (h : Keeps a s) : Keeps a (startNext n s) := by
  simp only [startNext]
  split
  · cases firstToSend (canCtl s n).bufs with
    | none => exact h
    | some q => exact keeps_emit _ _ (keeps_setCan _ _ _ (keeps_setBuf _ _ _ _ h))
  · exact h

theorem keeps_requestFrame {a : State} (n : Nat) (b : Nat) (f : CanPend) (s : State) (h : Keeps a s) : Keeps a (requestFrame n b f s) := by
  unfold requestFrame
  with_reducible repeat' first
     | (intro x; first | (have hx : Keeps a x := by (unfold x; repeat' first | assumption | apply keeps_rcAdd | apply keeps_startNext | apply keeps_setBuf | split)); clear_value x | (have _ : HostIf := x) | (have _ : Keys := x) | (have _ : Fwu := x) | clear_value x | skip)
     | assumption | apply keeps_rcAdd | apply keeps_startNext | apply keeps_setBuf | split | lift_lets

theorem keeps_fillBuffer {a : State} (n : Nat) (b : Nat) (data : Bytes) (s : State) (h : Keeps a s) : Keeps a (fillBuffer n b data s) := by
  unfold fillBuffer
  with_reducible repeat' first
     | (intro x; first | (have hx : Keeps a x := by (unfold x; repeat' first | assumption | apply keeps_setBuf | apply keeps_requestFrame | split)); clear_value x | (have _ : HostIf := x) | (have _ : Keys := x) | (have _ : Fwu := x) | clear_value x | skip)
     | assumption | apply keeps_setBuf | apply keeps_requestFrame | split | lift_lets

theorem keeps_fillBuffers {a : State} (n : Nat) (c : Nat) (y2 : List (Nat × CanBuf)) (y3 : State) (h : Keeps a y3) : Keeps a (fillBuffers n c y2 y3) := by
  induction y2 generalizing y3 with
  | nil =>
    unfold fillBuffers
    repeat' first
       | (intro x; first | (have hx : Keeps a x := by (unfold x; repeat' first | with_reducible assumption | with_reducible apply keeps_fillBuffer | split)); clear_value x | (have _ : HostIf := x) | (have _ : Keys := x) | (have _ : Fwu := x) | clear_value x | skip)
       | with_reducible assumption | with_reducible apply keeps_fillBuffer | split | lift_lets
  | cons x r ih =>
    unfold fillBuffers
    repeat' first
       | (intro x; first | (have hx : Keeps a x := by (unfold x; repeat' first | with_reducible assumption | with_reducible apply keeps_fillBuffer | with_reducible apply ih | split)); clear_value x | (have _ : HostIf := x) | (have _ : Keys := x) | (have _ : Fwu := x) | clear_value x | skip)
       | with_reducible assumption | with_reducible apply keeps_fillBuffer | with_reducible apply ih | split | lift_lets

theorem keeps_canPublish {a : State} (c : Nat) (s : State) (h : Keeps a s) : Keeps a (canPublish c s) := by
  unfold canPublish
  split
  · exact keeps_fillBuffers _ _ _ _ (keeps_fillBuffers _ _ _ _ (keeps_fillBuffers _ _ _ _ (keeps_fillBuffers _ _ _ _ h)))
  · exact h

theorem keeps_foldl {a : State} {β : Type} {f : State → β → State} (hf : ∀ s b, Keeps a s → Keeps a (f s b)) (l : List β)
    {s : State} (h : Keeps a s) : Keeps a (l.foldl f s) := by
  induction l generalizing s with
  | nil => exact h
  | cons b r ih => exact ih (hf _ _ h)

theorem keeps_canRepeat {a : State} (c : Nat) (s : State) (h : Keeps a s) : Keeps a (canRepeat c s) := by
  unfold canRepeat
  refine keeps_foldl ?_ _ h
  intro s n h
  refine keeps_foldl ?_ _ h
  intro s n h
  exact keeps_requestFrame _ _ _ _ h

theorem keeps_canLoopFill {a : State} (n : Nat) (b : Nat) (value : Int) (scale : Int) (s : State) (h : Keeps a s) : Keeps a (canLoopFill n b value scale s) := by
  unfold canLoopFill
  with_reducible repeat' first
     | (intro x; first | (have hx : Keeps a x := by (unfold x; repeat' first | assumption | apply keeps_fillBuffer | split)); clear_value x | (have _ : HostIf := x) | (have _ : Keys := x) | (have _ : Fwu := x) | clear_value x | skip)
     | assumption | apply keeps_fillBuffer | split | lift_lets

theorem keeps_canCancelClass {a : State} (c : Nat) (s : State) (h : Keeps a s) : Keeps a (canCancelClass c s) := ⟨h.1, h.2⟩

theorem keeps_dropOnBus {a : State} (n : Nat) (b : Nat) (s : State) (h : Keeps a s) : Keeps a (dropOnBus n b s) := ⟨h.1, h.2⟩

theorem keeps_execCanTxComplete {a : State} (n : Fin 4) (s : State) (h : Keeps a s) : Goes a (execCanTxComplete n s) := by
  unfold execCanTxComplete
  (try intro x)
  apply goes_next
  repeat' first
     | (intro x; first | (have hx : Keeps a x := by (unfold x; repeat' first | with_reducible assumption | with_reducible apply keeps_setBuf | with_reducible apply keeps_dropOnBus | with_reducible apply keeps_setCan | with_reducible apply keeps_startNext | with_reducible apply keeps_confine | split)); clear_value x | (have _ : HostIf := x) | (have _ : Keys := x) | (have _ : Fwu := x) | clear_value x | skip)
     | with_reducible assumption | with_reducible apply keeps_setBuf | with_reducible apply keeps_dropOnBus
     | with_reducible apply keeps_setCan | with_reducible apply keeps_startNext | with_reducible apply keeps_confine | split
     | lift_lets

theorem keeps_busError {a : State} (n : Nat) (b : Nat) (s : State) (h : Keeps a s) : Keeps a (busError n b s) := by
  unfold busError
  with_reducible repeat' first
     | (intro x; first | (have hx : Keeps a x := by (unfold x; repeat' first | assumption | apply keeps_txErrorCount | apply keeps_setCan | apply keeps_dropOnBus | apply keeps_setBuf | apply keeps_raise | split)); clear_value x | (have _ : HostIf := x) | (have _ : Keys := x) | (have _ : Fwu := x) | clear_value x | skip)
     | assumption | apply keeps_txErrorCount | apply keeps_setCan | apply keeps_dropOnBus | apply keeps_setBuf
     | apply keeps_raise | split | lift_lets

theorem keeps_execCanTxError {a : State} (n : Fin 4) (kind : CanTxFault) (s : State) (h : Keeps a s) : Goes a (execCanTxError n kind s) := by
  unfold execCanTxError
  (try intro x)
  apply goes_next
  repeat' first
     | (intro x; first | (have hx : Keeps a x := by (unfold x; repeat' first | with_reducible assumption | with_reducible apply keeps_startNext | with_reducible apply keeps_busError | with_reducible apply keeps_setCan | with_reducible apply keeps_dropOnBus | split)); clear_value x | (have _ : HostIf := x) | (have _ : Keys := x) | (have _ : Fwu := x) | clear_value x | skip)
     | with_reducible assumption | with_reducible apply keeps_startNext | with_reducible apply keeps_busError
     | with_reducible apply keeps_setCan | with_reducible apply keeps_dropOnBus | split | lift_lets

theorem keeps_execCanBusOn {a : State} (n : Fin 4) (s : State) (h : Keeps a s) : Goes a (execCanBusOn n s) := by
  unfold execCanBusOn
  (try intro x)
  apply goes_next
  repeat' first
     | (intro x; first | (have hx : Keeps a x := by (unfold x; repeat' first | with_reducible assumption | with_reducible apply keeps_startNext | with_reducible apply keeps_raise | with_reducible apply keeps_setCan | split)); clear_value x | (have _ : HostIf := x) | (have _ : Keys := x) | (have _ : Fwu := x) | clear_value x | skip)
     | with_reducible assumption | with_reducible apply keeps_startNext | with_reducible apply keeps_raise
     | with_reducible apply keeps_setCan | split | lift_lets

theorem keeps_execCanIntegrate {a : State} (n : Fin 4) (s : State) (h : Keeps a s) : Goes a (execCanIntegrate n s) := by
  unfold execCanIntegrate
  (try intro x)
  apply goes_next
  repeat' first
     | (intro x; first | (have hx : Keeps a x := by (unfold x; repeat' first | with_reducible assumption | with_reducible apply keeps_startNext | with_reducible apply keeps_setCan | split)); clear_value x | (have _ : HostIf := x) | (have _ : Keys := x) | (have _ : Fwu := x) | clear_value x | skip)
     | with_reducible assumption | with_reducible apply keeps_startNext | with_reducible apply keeps_setCan | split | lift_lets

theorem keeps_execCanRxBusError {a : State} (n : Fin 4) (s : State) (h : Keeps a s) : Goes a (execCanRxBusError n s) := by
  unfold execCanRxBusError
  (try intro x)
  apply goes_next
  repeat' first
     | (intro x; first | (have hx : Keeps a x := by (unfold x; repeat' first | with_reducible assumption | with_reducible apply keeps_rxErrorCount | split)); clear_value x | (have _ : HostIf := x) | (have _ : Keys := x) | (have _ : Fwu := x) | clear_value x | skip)
     | with_reducible assumption | with_reducible apply keeps_rxErrorCount | split | lift_lets

theorem keeps_writeSignals {a : State} (n : Nat) (f : CanFrame) (stamp : W32) (y3 : List CanSignal) (y4 : State) (h : Keeps a y4) : Keeps a (writeSignals n f stamp y3 y4) := by
  induction y3 generalizing y4 with
  | nil =>
    unfold writeSignals
    repeat' first
       | (intro x; first | (have hx : Keeps a x := by (unfold x; repeat' first | with_reducible assumption | with_reducible apply keeps_rcAdd | with_reducible apply keeps_writeScaled | split)); clear_value x | (have _ : HostIf := x) | (have _ : Keys := x) | (have _ : Fwu := x) | clear_value x | skip)
       | with_reducible assumption | with_reducible apply keeps_rcAdd | with_reducible apply keeps_writeScaled | split
       | lift_lets
  | cons x r ih =>
    unfold writeSignals
    repeat' first
       | (intro x; first | (have hx : Keeps a x := by (unfold x; repeat' first | with_reducible assumption | with_reducible apply keeps_rcAdd | with_reducible apply keeps_writeScaled | with_reducible apply ih | split)); clear_value x | (have _ : HostIf := x) | (have _ : Keys := x) | (have _ : Fwu := x) | clear_value x | skip)
       | with_reducible assumption | with_reducible apply keeps_rcAdd | with_reducible apply keeps_writeScaled
       | with_reducible apply ih | split | lift_lets

theorem keeps_raisePrio {a : State} (n : Nat) (s : State) (h : Keeps a s) : Keeps a (raisePrio n s) := by
  unfold raisePrio
  with_reducible repeat' first
     | (intro x; first | (have hx : Keeps a x := by (unfold x; repeat' first | assumption | apply keeps_setCan | apply keeps_messageDue | apply keeps_raise | split)); clear_value x | (have _ : HostIf := x) | (have _ : Keys := x) | (have _ : Fwu := x) | clear_value x | skip)
     | assumption | apply keeps_setCan | apply keeps_messageDue | apply keeps_raise | split | lift_lets

theorem keeps_storeFrame {a : State} (n : Nat) (b : Nat) (f : CanFrame) (s : State) (h : Keeps a s) : Keeps a (storeFrame n b f s) := by
  unfold storeFrame
  with_reducible repeat' first
     | (intro x; first | (have hx : Keeps a x := by (unfold x; repeat' first | assumption | apply keeps_setBuf | apply keeps_raise | apply keeps_writeSignals | apply keeps_raisePrio | split)); clear_value x | (have _ : HostIf := x) | (have _ : Keys := x) | (have _ : Fwu := x) | clear_value x | skip)
     | assumption | apply keeps_setBuf | apply keeps_raise | apply keeps_writeSignals | apply keeps_raisePrio | split
     | lift_lets

theorem keeps_execCanFrameReceive {a : State} (n : Fin 4) (f : CanFrame) (s : State) (h : Keeps a s) : Goes a (execCanFrameReceive n f s) := by
  unfold execCanFrameReceive
  (try intro x)
  apply goes_next
  repeat' first
     | (intro x; first | (have hx : Keeps a x := by (unfold x; repeat' first | with_reducible assumption | with_reducible apply keeps_rxGoodCount | with_reducible apply keeps_rcAdd | with_reducible apply keeps_storeFrame | split)); clear_value x | (have _ : HostIf := x) | (have _ : Keys := x) | (have _ : Fwu := x) | clear_value x | skip)
     | with_reducible assumption | with_reducible apply keeps_rxGoodCount | with_reducible apply keeps_rcAdd
     | with_reducible apply keeps_storeFrame | split | lift_lets

theorem keeps_stalePoints {a : State} (y0 : List CanSignal) (y1 : State) (h : Keeps a y1) : Keeps a (stalePoints y0 y1) := by
  induction y0 generalizing y1 with
  | nil =>
    unfold stalePoints
    repeat' first
       | (intro x; first | (have hx : Keeps a x := by (unfold x; repeat' first | with_reducible assumption | with_reducible apply keeps_setQuality | split)); clear_value x | (have _ : HostIf := x) | (have _ : Keys := x) | (have _ : Fwu := x) | clear_value x | skip)
       | with_reducible assumption | with_reducible apply keeps_setQuality | split | lift_lets
  | cons x r ih =>
    unfold stalePoints
    repeat' first
       | (intro x; first | (have hx : Keeps a x := by (unfold x; repeat' first | with_reducible assumption | with_reducible apply keeps_setQuality | with_reducible apply ih | split)); clear_value x | (have _ : HostIf := x) | (have _ : Keys := x) | (have _ : Fwu := x) | clear_value x | skip)
       | with_reducible assumption | with_reducible apply keeps_setQuality | with_reducible apply ih | split | lift_lets

theorem keeps_execCanRxTimeout {a : State} (n : Fin 4) (buf : Fin 65) (s : State) (h : Keeps a s) : Goes a (execCanRxTimeout n buf s) := by
  unfold execCanRxTimeout
  (try intro x)
  apply goes_next
  repeat' first
     | (intro x; first | (have hx : Keeps a x := by (unfold x; repeat' first | with_reducible assumption | with_reducible apply keeps_raise | with_reducible apply keeps_stalePoints | with_reducible apply keeps_setBuf | split)); clear_value x | (have _ : HostIf := x) | (have _ : Keys := x) | (have _ : Fwu := x) | clear_value x | skip)
     | with_reducible assumption | with_reducible apply keeps_raise | with_reducible apply keeps_stalePoints
     | with_reducible apply keeps_setBuf | split | lift_lets

theorem keeps_applyCanCtrl {a : State} (n : Nat) (v : W32) (s : State) (h : Keeps a s) : Keeps a (applyCanCtrl n v s) := by
  unfold applyCanCtrl
  with_reducible repeat' first
     | (intro x; first | (have hx : Keeps a x := by (unfold x; repeat' first | assumption | apply keeps_startNext | apply keeps_refreshMode | apply keeps_cfgSet | split)); clear_value x | (have _ : HostIf := x) | (have _ : Keys := x) | (have _ : Fwu := x) | clear_value x | skip)
     | assumption | apply keeps_startNext | apply keeps_refreshMode | apply keeps_cfgSet | split | lift_lets

theorem keeps_execCanModeWrite {a : State} (p : Port) (n : Fin 4) (v : W32) (s : State) (h : Keeps a s) : Goes a (execCanModeWrite p n v s) := by
  unfold execCanModeWrite
  (try intro x)
  apply goes_next
  repeat' first
     | (intro x; first | (have hx : Keeps a x := by (unfold x; repeat' first | with_reducible assumption | with_reducible apply keeps_ownWrite | with_reducible apply keeps_applyCanCtrl | split)); clear_value x | (have _ : HostIf := x) | (have _ : Keys := x) | (have _ : Fwu := x) | clear_value x | skip)
     | with_reducible assumption | with_reducible apply keeps_ownWrite | with_reducible apply keeps_applyCanCtrl | split
     | lift_lets

theorem keeps_corruptFrame {a : State} (n : Nat) (s : State) (h : Keeps a s) : Keeps a (corruptFrame n s) := by
  unfold corruptFrame
  with_reducible repeat' first
     | (intro x; first | (have hx : Keeps a x := by (unfold x; repeat' first | assumption | apply keeps_startNext | apply keeps_busError | apply keeps_emit | apply keeps_rxErrorCount | apply keeps_takeFree | (refine keeps_takeFree_eq (by assumption) ?_) | split)); clear_value x | (have _ : HostIf := x) | (have _ : Keys := x) | (have _ : Fwu := x) | clear_value x | skip)
     | assumption | apply keeps_startNext | apply keeps_busError | apply keeps_emit | apply keeps_rxErrorCount
     | apply keeps_takeFree | (refine keeps_takeFree_eq (by assumption) ?_) | split | lift_lets

theorem keeps_raiseBreaks {a : State} (n : Nat) (y1 : List (Nat × Nat)) (y2 : State) (h : Keeps a y2) : Keeps a (raiseBreaks n y1 y2) := by
  induction y1 generalizing y2 with
  | nil =>
    unfold raiseBreaks
    repeat' first
       | (intro x; first | (have hx : Keeps a x := by (unfold x; repeat' first | with_reducible assumption | with_reducible apply keeps_raise | split)); clear_value x | (have _ : HostIf := x) | (have _ : Keys := x) | (have _ : Fwu := x) | clear_value x | skip)
       | with_reducible assumption | with_reducible apply keeps_raise | split | lift_lets
  | cons x r ih =>
    unfold raiseBreaks
    repeat' first
       | (intro x; first | (have hx : Keeps a x := by (unfold x; repeat' first | with_reducible assumption | with_reducible apply keeps_raise | with_reducible apply ih | split)); clear_value x | (have _ : HostIf := x) | (have _ : Keys := x) | (have _ : Fwu := x) | clear_value x | skip)
       | with_reducible assumption | with_reducible apply keeps_raise | with_reducible apply ih | split | lift_lets

theorem keeps_applyCanTiming {a : State} (n : Nat) (off : Nat) (v : W32) (s : State) (h : Keeps a s) : Keeps a (applyCanTiming n off v s) := by
  unfold applyCanTiming
  with_reducible repeat' first
     | (intro x; first | (have hx : Keeps a x := by (unfold x; repeat' first | assumption | apply keeps_cfgSet | apply keeps_raise | apply keeps_corruptFrame | apply keeps_clearConflict | apply keeps_raiseBreaks | apply keeps_setCan | split)); clear_value x | (have _ : HostIf := x) | (have _ : Keys := x) | (have _ : Fwu := x) | clear_value x | skip)
     | assumption | apply keeps_cfgSet | apply keeps_raise | apply keeps_corruptFrame | apply keeps_clearConflict
     | apply keeps_raiseBreaks | apply keeps_setCan | split | lift_lets

theorem keeps_execCanBitTimingWrite {a : State} (p : Port) (n : Fin 4) (data : Bool) (v : W32) (s : State) (h : Keeps a s) : Goes a (execCanBitTimingWrite p n data v s) := by
  unfold execCanBitTimingWrite
  (try intro x)
  apply goes_next
  repeat' first
     | (intro x; first | (have hx : Keeps a x := by (unfold x; repeat' first | with_reducible assumption | with_reducible apply keeps_ownWrite | with_reducible apply keeps_applyCanTiming | split)); clear_value x | (have _ : HostIf := x) | (have _ : Keys := x) | (have _ : Fwu := x) | clear_value x | skip)
     | with_reducible assumption | with_reducible apply keeps_ownWrite | with_reducible apply keeps_applyCanTiming | split
     | lift_lets

theorem keeps_requestHost {a : State} (n : Nat) (y1 : List Nat) (y2 : State) (h : Keeps a y2) : Keeps a (requestHost n y1 y2) := by
  induction y1 generalizing y2 with
  | nil =>
    unfold requestHost
    repeat' first
       | (intro x; first | (have hx : Keeps a x := by (unfold x; repeat' first | with_reducible assumption | with_reducible apply keeps_requestFrame | split)); clear_value x | (have _ : HostIf := x) | (have _ : Keys := x) | (have _ : Fwu := x) | clear_value x | skip)
       | with_reducible assumption | with_reducible apply keeps_requestFrame | split | lift_lets
  | cons x r ih =>
    unfold requestHost
    repeat' first
       | (intro x; first | (have hx : Keeps a x := by (unfold x; repeat' first | with_reducible assumption | with_reducible apply keeps_requestFrame | with_reducible apply ih | split)); clear_value x | (have _ : HostIf := x) | (have _ : Keys := x) | (have _ : Fwu := x) | clear_value x | skip)
       | with_reducible assumption | with_reducible apply keeps_requestFrame | with_reducible apply ih | split | lift_lets

theorem keeps_execCanTxreq {a : State} (p : Port) (n : Fin 4) (hi : Bool) (v : W32) (s : State) (h : Keeps a s) : Goes a (execCanTxreq p n hi v s) := by
  unfold execCanTxreq
  (try intro x)
  apply goes_next
  repeat' first
     | (intro x; first | (have hx : Keeps a x := by (unfold x; repeat' first | with_reducible assumption | with_reducible apply keeps_ownWrite | with_reducible apply keeps_requestHost | split)); clear_value x | (have _ : HostIf := x) | (have _ : Keys := x) | (have _ : Fwu := x) | clear_value x | skip)
     | with_reducible assumption | with_reducible apply keeps_ownWrite | with_reducible apply keeps_requestHost | split
     | lift_lets

theorem keeps_cancelBufs {a : State} (n : Nat) (y1 : List Nat) (y2 : State) (h : Keeps a y2) : Keeps a (cancelBufs n y1 y2) := by
  induction y1 generalizing y2 with
  | nil =>
    unfold cancelBufs
    repeat' first
       | (intro x; first | (have hx : Keeps a x := by (unfold x; repeat' first | with_reducible assumption | with_reducible apply keeps_setBuf | split)); clear_value x | (have _ : HostIf := x) | (have _ : Keys := x) | (have _ : Fwu := x) | clear_value x | skip)
       | with_reducible assumption | with_reducible apply keeps_setBuf | split | lift_lets
  | cons x r ih =>
    unfold cancelBufs
    repeat' first
       | (intro x; first | (have hx : Keeps a x := by (unfold x; repeat' first | with_reducible assumption | with_reducible apply keeps_setBuf | with_reducible apply ih | split)); clear_value x | (have _ : HostIf := x) | (have _ : Keys := x) | (have _ : Fwu := x) | clear_value x | skip)
       | with_reducible assumption | with_reducible apply keeps_setBuf | with_reducible apply ih | split | lift_lets

theorem keeps_execCanCancel {a : State} (p : Port) (n : Fin 4) (hi : Bool) (v : W32) (s : State) (h : Keeps a s) : Goes a (execCanCancel p n hi v s) := by
  unfold execCanCancel
  (try intro x)
  apply goes_next
  repeat' first
     | (intro x; first | (have hx : Keeps a x := by (unfold x; repeat' first | with_reducible assumption | with_reducible apply keeps_ownWrite | with_reducible apply keeps_cancelBufs | split)); clear_value x | (have _ : HostIf := x) | (have _ : Keys := x) | (have _ : Fwu := x) | clear_value x | skip)
     | with_reducible assumption | with_reducible apply keeps_ownWrite | with_reducible apply keeps_cancelBufs | split
     | lift_lets

theorem keeps_clearNd {a : State} (n : Nat) (y1 : List Nat) (y2 : State) (h : Keeps a y2) : Keeps a (clearNd n y1 y2) := by
  induction y1 generalizing y2 with
  | nil =>
    unfold clearNd
    repeat' first
       | (intro x; first | (have hx : Keeps a x := by (unfold x; repeat' first | with_reducible assumption | with_reducible apply keeps_setBuf | split)); clear_value x | (have _ : HostIf := x) | (have _ : Keys := x) | (have _ : Fwu := x) | clear_value x | skip)
       | with_reducible assumption | with_reducible apply keeps_setBuf | split | lift_lets
  | cons x r ih =>
    unfold clearNd
    repeat' first
       | (intro x; first | (have hx : Keeps a x := by (unfold x; repeat' first | with_reducible assumption | with_reducible apply keeps_setBuf | with_reducible apply ih | split)); clear_value x | (have _ : HostIf := x) | (have _ : Keys := x) | (have _ : Fwu := x) | clear_value x | skip)
       | with_reducible assumption | with_reducible apply keeps_setBuf | with_reducible apply ih | split | lift_lets

theorem keeps_execCanNdClear {a : State} (p : Port) (n : Fin 4) (hi : Bool) (v : W32) (s : State) (h : Keeps a s) : Goes a (execCanNdClear p n hi v s) := by
  unfold execCanNdClear
  (try intro x)
  apply goes_next
  repeat' first
     | (intro x; first | (have hx : Keeps a x := by (unfold x; repeat' first | with_reducible assumption | with_reducible apply keeps_ownWrite | with_reducible apply keeps_clearNd | split)); clear_value x | (have _ : HostIf := x) | (have _ : Keys := x) | (have _ : Fwu := x) | clear_value x | skip)
     | with_reducible assumption | with_reducible apply keeps_ownWrite | with_reducible apply keeps_clearNd | split | lift_lets

theorem keeps_applyCanWindow {a : State} (n : Nat) (off : Nat) (v : W32) (s : State) (h : Keeps a s) : Keeps a (applyCanWindow n off v s) := ⟨h.1, h.2⟩

theorem keeps_specCanConfig {a : State} (r : Req) (p : Bytes) (s : State) (h : Keeps a s) : Keeps a (specCanConfig.run r p s) := by
  unfold specCanConfig; dsimp only
  repeat' first
     | (intro x; first | (have hx : Keeps a x := by (unfold x; repeat' first | with_reducible assumption | with_reducible apply keeps_finishOk | with_reducible apply keeps_stage | split)); clear_value x | (have _ : HostIf := x) | (have _ : Keys := x) | (have _ : Fwu := x) | clear_value x | skip)
     | with_reducible assumption | with_reducible apply keeps_finishOk | with_reducible apply keeps_stage | split | lift_lets

theorem keeps_execCmdCanConfig {a : State} (r : Req) (s : State) (h : Keeps a s) : Goes a (execCmdCanConfig r s) :=
  goes_next (keeps_runCmd keeps_specCanConfig r h)

theorem keeps_specCanBuffer {a : State} (r : Req) (p : Bytes) (s : State) (h : Keeps a s) : Keeps a (specCanBuffer.run r p s) := by
  unfold specCanBuffer; dsimp only
  repeat' first
     | (intro x; first | (have hx : Keeps a x := by (unfold x; repeat' first | with_reducible assumption | with_reducible apply keeps_finishOk | with_reducible apply keeps_stage | split)); clear_value x | (have _ : HostIf := x) | (have _ : Keys := x) | (have _ : Fwu := x) | clear_value x | skip)
     | with_reducible assumption | with_reducible apply keeps_finishOk | with_reducible apply keeps_stage | split | lift_lets

theorem keeps_execCmdCanBuffer {a : State} (r : Req) (s : State) (h : Keeps a s) : Goes a (execCmdCanBuffer r s) :=
  goes_next (keeps_runCmd keeps_specCanBuffer r h)

theorem keeps_specCanCancel {a : State} (r : Req) (p : Bytes) (s : State) (h : Keeps a s) : Keeps a (specCanCancel.run r p s) := by
  unfold specCanCancel; dsimp only
  repeat' first
     | (intro x; first | (have hx : Keeps a x := by (unfold x; repeat' first | with_reducible assumption | with_reducible apply keeps_finishOk | with_reducible apply keeps_cancelBufs | split)); clear_value x | (have _ : HostIf := x) | (have _ : Keys := x) | (have _ : Fwu := x) | clear_value x | skip)
     | with_reducible assumption | with_reducible apply keeps_finishOk | with_reducible apply keeps_cancelBufs | split
     | lift_lets

theorem keeps_execCmdCanCancel {a : State} (r : Req) (s : State) (h : Keeps a s) : Goes a (execCmdCanCancel r s) :=
  goes_next (keeps_runCmd keeps_specCanCancel r h)

theorem keeps_specCanRecover {a : State} (r : Req) (p : Bytes) (s : State) (h : Keeps a s) : Keeps a (specCanRecover.run r p s) := by
  unfold specCanRecover; dsimp only
  repeat' first
     | (intro x; first | (have hx : Keeps a x := by (unfold x; repeat' first | with_reducible assumption | with_reducible apply keeps_finishOk | with_reducible apply keeps_setCan | split)); clear_value x | (have _ : HostIf := x) | (have _ : Keys := x) | (have _ : Fwu := x) | clear_value x | skip)
     | with_reducible assumption | with_reducible apply keeps_finishOk | with_reducible apply keeps_setCan | split | lift_lets

theorem keeps_execCmdCanRecover {a : State} (r : Req) (s : State) (h : Keeps a s) : Goes a (execCmdCanRecover r s) :=
  goes_next (keeps_runCmd keeps_specCanRecover r h)

theorem keeps_specCanStatus {a : State} (r : Req) (p : Bytes) (s : State) (h : Keeps a s) : Keeps a (specCanStatus.run r p s) := by
  unfold specCanStatus; dsimp only
  repeat' first
     | (intro x; first | (have hx : Keeps a x := by (unfold x; repeat' first | with_reducible assumption | with_reducible apply keeps_finishOk | split)); clear_value x | (have _ : HostIf := x) | (have _ : Keys := x) | (have _ : Fwu := x) | clear_value x | skip)
     | with_reducible assumption | with_reducible apply keeps_finishOk | split | lift_lets

theorem keeps_execCmdCanStatus {a : State} (r : Req) (s : State) (h : Keeps a s) : Goes a (execCmdCanStatus r s) :=
  goes_next (keeps_runCmd keeps_specCanStatus r h)

end Sys2Proof.Laws
end

