-- ==== Sys2Proof/Laws/KeepsTime.lean ====
section
/-! SUPPORT. Laws/KeepsTime.lean: what each operation of Machine/Time.lean keeps (Laws/Keeps.lean). -/

namespace Sys2Proof.Laws

set_option linter.all false

open Sys2Proof.Machine

theorem keeps_moveDom {a : State} (i : Fin 2) (ns : Int) (s : State) (h : Keeps a s) : Keeps a (moveDom i ns s) := by
  unfold moveDom
  repeat' first | exact ⟨h.1, h.2⟩ | assumption | split

theorem keeps_setUtc {a : State} (v : Int) (s : State) (h : Keeps a s) : Keeps a (setUtc v s) := by
  unfold setUtc
  with_reducible repeat' first
     | (intro x; first | (have hx : Keeps a x := by (unfold x; repeat' first | assumption | apply keeps_raise | split)); clear_value x | (have _ : HostIf := x) | (have _ : Keys := x) | (have _ : Fwu := x) | clear_value x | skip)
     | assumption | apply keeps_raise | split | lift_lets

theorem keeps_setLeap {a : State} (l61 : Bool) (l59 : Bool) (s : State) (h : Keeps a s) : Keeps a (setLeap l61 l59 s) := by
  unfold setLeap
  with_reducible repeat' first
     | (intro x; first | (have hx : Keeps a x := by (unfold x; repeat' first | assumption | apply keeps_raise | split)); clear_value x | (have _ : HostIf := x) | (have _ : Keys := x) | (have _ : Fwu := x) | clear_value x | skip)
     | assumption | apply keeps_raise | split | lift_lets

theorem keeps_sourceUtc {a : State} (i : Fin 2) (valid : Bool) (offset : Int) (l61 : Bool) (l59 : Bool) (s : State) (h : Keeps a s) : Keeps a (sourceUtc i valid offset l61 l59 s) := by
  unfold sourceUtc
  repeat' first | exact ⟨h.1, h.2⟩ | assumption | with_reducible apply keeps_setUtc | with_reducible apply keeps_setLeap | split

theorem keeps_passLeap {a : State} (s : State) (h : Keeps a s) : Keeps a (passLeap s) := by
  unfold passLeap
  repeat' first | exact ⟨h.1, h.2⟩ | assumption | with_reducible apply keeps_setUtc | with_reducible apply keeps_setDom | split

theorem keeps_domainUtc {a : State} (i : Fin 2) (s : State) (h : Keeps a s) : Keeps a (domainUtc i s) := by
  simp only [domainUtc]
  split
  · exact keeps_setUtc _ _ ⟨h.1, h.2⟩
  · exact ⟨h.1, h.2⟩

theorem keeps_selectDom {a : State} (i : Fin 2) (s : State) (h : Keeps a s) : Keeps a (selectDom i s) := by
  unfold selectDom
  repeat' first | exact ⟨h.1, h.2⟩ | assumption | with_reducible apply keeps_raise | with_reducible apply keeps_domainUtc | split

theorem keeps_evalSelection {a : State} (s : State) (h : Keeps a s) : Keeps a (evalSelection s) := by
  unfold evalSelection
  with_reducible repeat' first
     | (intro x; first | (have hx : Keeps a x := by (unfold x; repeat' first | assumption | apply keeps_selectDom | split)); clear_value x | (have _ : HostIf := x) | (have _ : Keys := x) | (have _ : Fwu := x) | clear_value x | skip)
     | assumption | apply keeps_selectDom | split | lift_lets

theorem keeps_stepClass {a : State} (ns : Nat) (c : Nat) (s : State) (h : Keeps a s) : Keeps a (stepClass ns c s) := ⟨h.1, h.2⟩

theorem keeps_stepTime {a : State} (ns : Nat) (s : State) (h : Keeps a s) : Keeps a (stepTime ns s) := by
  unfold stepTime
  repeat' first | exact ⟨h.1, h.2⟩ | assumption | with_reducible apply keeps_raise | split

theorem keeps_acquire {a : State} (i : Fin 2) (e : Int) (s : State) (h : Keeps a s) : Keeps a (acquire i e s) := by
  unfold acquire
  with_reducible repeat' first
     | (intro x; first | (have hx : Keeps a x := by (unfold x; repeat' first | assumption | apply keeps_moveDom | apply keeps_setDom | apply keeps_evalSelection | apply keeps_raise | split)); clear_value x | (have _ : HostIf := x) | (have _ : Keys := x) | (have _ : Fwu := x) | clear_value x | skip)
     | assumption | apply keeps_moveDom | apply keeps_setDom | apply keeps_evalSelection | apply keeps_raise | split | lift_lets

theorem keeps_track {a : State} (i : Fin 2) (e : Int) (s : State) (h : Keeps a s) : Keeps a (track i e s) := by
  unfold track
  with_reducible repeat' first
     | (intro x; first | (have hx : Keeps a x := by (unfold x; repeat' first | assumption | apply keeps_setDom | apply keeps_raise | split)); clear_value x | (have _ : HostIf := x) | (have _ : Keys := x) | (have _ : Fwu := x) | clear_value x | skip)
     | assumption | apply keeps_setDom | apply keeps_raise | split | lift_lets

theorem keeps_takeSample {a : State} (i : Fin 2) (e : Int) (s : State) (h : Keeps a s) : Keeps a (takeSample i e s) := by
  unfold takeSample
  with_reducible repeat' first
     | (intro x; first | (have hx : Keeps a x := by (unfold x; repeat' first | assumption | apply keeps_setDom | apply keeps_track | apply keeps_acquire | apply keeps_raise | split)); clear_value x | (have _ : HostIf := x) | (have _ : Keys := x) | (have _ : Fwu := x) | clear_value x | skip)
     | assumption | apply keeps_setDom | apply keeps_track | apply keeps_acquire | apply keeps_raise | split | lift_lets

theorem keeps_execDomainHoldover {a : State} (i : Fin 2) (s : State) (h : Keeps a s) : Goes a (execDomainHoldover i s) := by
  unfold execDomainHoldover
  (try intro x)
  apply goes_next
  repeat' first
     | (intro x; first | (have hx : Keeps a x := by (unfold x; repeat' first | with_reducible assumption | with_reducible apply keeps_setDom | with_reducible apply keeps_raise | with_reducible apply keeps_evalSelection | split)); clear_value x | (have _ : HostIf := x) | (have _ : Keys := x) | (have _ : Fwu := x) | clear_value x | skip)
     | with_reducible assumption | with_reducible apply keeps_setDom | with_reducible apply keeps_raise
     | with_reducible apply keeps_evalSelection | split | lift_lets

theorem keeps_execDomainRevert {a : State} (s : State) (h : Keeps a s) : Goes a (execDomainRevert s) := by
  unfold execDomainRevert
  (try intro x)
  apply goes_next
  repeat' first
     | (intro x; first | (have hx : Keeps a x := by (unfold x; repeat' first | with_reducible assumption | with_reducible apply keeps_selectDom | split)); clear_value x | (have _ : HostIf := x) | (have _ : Keys := x) | (have _ : Fwu := x) | clear_value x | skip)
     | with_reducible assumption | with_reducible apply keeps_selectDom | split | lift_lets

theorem keeps_follow {a : State} (s : State) (h : Keeps a s) : Keeps a (follow s) := by
  unfold follow
  with_reducible repeat' first
     | (intro x; first | (have hx : Keeps a x := by (unfold x; repeat' first | assumption | apply keeps_raise | split)); clear_value x | (have _ : HostIf := x) | (have _ : Keys := x) | (have _ : Fwu := x) | clear_value x | skip)
     | assumption | apply keeps_raise | split | lift_lets

theorem keeps_firstLock {a : State} (s : State) (h : Keeps a s) : Keeps a (firstLock s) := by
  unfold firstLock
  with_reducible repeat' first
     | (intro x; first | (have hx : Keeps a x := by (unfold x; repeat' first | assumption | apply keeps_stepTime | split)); clear_value x | (have _ : HostIf := x) | (have _ : Keys := x) | (have _ : Fwu := x) | clear_value x | skip)
     | assumption | apply keeps_stepTime | split | lift_lets

theorem keeps_startTime {a : State} (s : State) (h : Keeps a s) : Keeps a (startTime s) := by
  unfold startTime
  exact ⟨h.1, h.2⟩

theorem keeps_bmca {a : State} (i : Fin 2) (s : State) (h : Keeps a s) : Keeps a (bmca i s) := by
  unfold bmca
  with_reducible repeat' first
     | (intro x; first | (have hx : Keeps a x := by (unfold x; repeat' first | assumption | apply keeps_setDom | apply keeps_raise | split)); clear_value x | (have _ : HostIf := x) | (have _ : Keys := x) | (have _ : Fwu := x) | clear_value x | skip)
     | assumption | apply keeps_setDom | apply keeps_raise | split | lift_lets

theorem keeps_ageDomain {a : State} (i : Fin 2) (s : State) (h : Keeps a s) : Keeps a (ageDomain i s) := by
  unfold ageDomain
  split
  · exact keeps_bmca i s h
  · exact h

theorem keeps_execDeviceTimeUpdate {a : State} (s : State) (h : Keeps a s) : Goes a (execDeviceTimeUpdate s) := by
  unfold execDeviceTimeUpdate
  (try intro x)
  apply goes_next
  repeat' first
     | (intro x; first | (have hx : Keeps a x := by (unfold x; repeat' first | with_reducible assumption | with_reducible apply keeps_follow | with_reducible apply keeps_firstLock | with_reducible apply keeps_passLeap | with_reducible apply keeps_ageDomain | split)); clear_value x | (have _ : HostIf := x) | (have _ : Keys := x) | (have _ : Fwu := x) | clear_value x | skip)
     | with_reducible assumption | with_reducible apply keeps_follow | with_reducible apply keeps_firstLock
     | with_reducible apply keeps_passLeap | with_reducible apply keeps_ageDomain | split | lift_lets

theorem keeps_syncDone {a : State} (i : Fin 2) (p : Nat) (t1 : Int) (t2 : Int) (s : State) (h : Keeps a s) : Keeps a (syncDone i p t1 t2 s) := by
  unfold syncDone
  with_reducible repeat' first
     | (intro x; first | (have hx : Keeps a x := by (unfold x; repeat' first | assumption | apply keeps_setPtp | apply keeps_takeSample | split)); clear_value x | (have _ : HostIf := x) | (have _ : Keys := x) | (have _ : Fwu := x) | clear_value x | skip)
     | assumption | apply keeps_setPtp | apply keeps_takeSample | split | lift_lets

theorem keeps_ptpReceive {a : State} (i : Fin 2) (p : Nat) (m : PtpMsg) (s : State) (h : Keeps a s) : Keeps a (ptpReceive i p m s) := by
  unfold ptpReceive
  with_reducible repeat' first
     | (intro x; first | (have hx : Keeps a x := by (unfold x; repeat' first | assumption | apply keeps_syncDone | apply keeps_setPtp | apply keeps_portSend | apply keeps_bmca | apply keeps_setDom | apply keeps_sourceUtc | split)); clear_value x | (have _ : HostIf := x) | (have _ : Keys := x) | (have _ : Fwu := x) | clear_value x | skip)
     | assumption | apply keeps_syncDone | apply keeps_setPtp | apply keeps_portSend | apply keeps_bmca | apply keeps_setDom
     | apply keeps_sourceUtc | split | lift_lets

theorem keeps_execPtpMessage {a : State} (port : Fin 8) (m : PtpMsg) (s : State) (h : Keeps a s) : Goes a (execPtpMessage port m s) := by
  unfold execPtpMessage
  (try intro x)
  apply goes_next
  repeat' first
     | (intro x; first | (have hx : Keeps a x := by (unfold x; repeat' first | with_reducible assumption | with_reducible apply keeps_rcAdd | with_reducible apply keeps_ptpReceive | split)); clear_value x | (have _ : HostIf := x) | (have _ : Keys := x) | (have _ : Fwu := x) | clear_value x | skip)
     | with_reducible assumption | with_reducible apply keeps_rcAdd | with_reducible apply keeps_ptpReceive | split | lift_lets

theorem keeps_execSyncSend {a : State} (i : Fin 2) (port : Fin 8) (s : State) (h : Keeps a s) : Goes a (execSyncSend i port s) := by
  unfold execSyncSend
  (try intro x)
  apply goes_next
  repeat' first
     | (intro x; first | (have hx : Keeps a x := by (unfold x; repeat' first | with_reducible assumption | with_reducible apply keeps_portSend | with_reducible apply keeps_setPtp | split)); clear_value x | (have _ : HostIf := x) | (have _ : Keys := x) | (have _ : Fwu := x) | clear_value x | skip)
     | with_reducible assumption | with_reducible apply keeps_portSend | with_reducible apply keeps_setPtp | split | lift_lets

theorem keeps_execAnnounceSend {a : State} (i : Fin 2) (port : Fin 8) (s : State) (h : Keeps a s) : Goes a (execAnnounceSend i port s) := by
  unfold execAnnounceSend
  (try intro x)
  apply goes_next
  repeat' first
     | (intro x; first | (have hx : Keeps a x := by (unfold x; repeat' first | with_reducible assumption | with_reducible apply keeps_portSend | with_reducible apply keeps_setPtp | split)); clear_value x | (have _ : HostIf := x) | (have _ : Keys := x) | (have _ : Fwu := x) | clear_value x | skip)
     | with_reducible assumption | with_reducible apply keeps_portSend | with_reducible apply keeps_setPtp | split | lift_lets

theorem keeps_execDelayReqSend {a : State} (i : Fin 2) (port : Fin 8) (s : State) (h : Keeps a s) : Goes a (execDelayReqSend i port s) := by
  unfold execDelayReqSend
  (try intro x)
  apply goes_next
  repeat' first
     | (intro x; first | (have hx : Keeps a x := by (unfold x; repeat' first | with_reducible assumption | with_reducible apply keeps_portSend | with_reducible apply keeps_setPtp | split)); clear_value x | (have _ : HostIf := x) | (have _ : Keys := x) | (have _ : Fwu := x) | clear_value x | skip)
     | with_reducible assumption | with_reducible apply keeps_portSend | with_reducible apply keeps_setPtp | split | lift_lets

theorem keeps_execPpsEdge {a : State} (s : State) (h : Keeps a s) : Goes a (execPpsEdge s) := by
  unfold execPpsEdge
  (try intro x)
  apply goes_next
  repeat' first
     | (intro x; first | (have hx : Keeps a x := by (unfold x; repeat' first | with_reducible assumption | split)); clear_value x | (have _ : HostIf := x) | (have _ : Keys := x) | (have _ : Fwu := x) | clear_value x | skip)
     | with_reducible assumption | split | lift_lets

theorem keeps_ppsSample {a : State} (i : Fin 2) (stamp : Nat) (m : Bytes) (s : State) (h : Keeps a s) : Keeps a (ppsSample i stamp m s) := by
  unfold ppsSample
  with_reducible repeat' first
     | (intro x; first | (have hx : Keeps a x := by (unfold x; repeat' first | assumption | apply keeps_takeSample | apply keeps_setDom | apply keeps_sourceUtc | split)); clear_value x | (have _ : HostIf := x) | (have _ : Keys := x) | (have _ : Fwu := x) | clear_value x | skip)
     | assumption | apply keeps_takeSample | apply keeps_setDom | apply keeps_sourceUtc | split | lift_lets

theorem keeps_execTodMessage {a : State} (m : Bytes) (s : State) (h : Keeps a s) : Goes a (execTodMessage m s) := by
  unfold execTodMessage
  (try intro x)
  apply goes_next
  repeat' first
     | (intro x; first | (have hx : Keeps a x := by (unfold x; repeat' first | with_reducible assumption | with_reducible apply keeps_ppsSample | split)); clear_value x | (have _ : HostIf := x) | (have _ : Keys := x) | (have _ : Fwu := x) | clear_value x | skip)
     | with_reducible assumption | with_reducible apply keeps_ppsSample | split | lift_lets

theorem keeps_configDomain {a : State} (i : Fin 2) (c : DomainCfg) (s : State) (h : Keeps a s) : Keeps a (configDomain i c s) := by
  unfold configDomain
  with_reducible repeat' first
     | (intro x; first | (have hx : Keeps a x := by (unfold x; repeat' first | assumption | apply keeps_setDom | apply keeps_evalSelection | split)); clear_value x | (have _ : HostIf := x) | (have _ : Keys := x) | (have _ : Fwu := x) | clear_value x | skip)
     | assumption | apply keeps_setDom | apply keeps_evalSelection | split | lift_lets

theorem keeps_specTimeConfig {a : State} (r : Req) (p : Bytes) (s : State) (h : Keeps a s) : Keeps a (specTimeConfig.run r p s) := by
  unfold specTimeConfig; dsimp only
  repeat' first
     | (intro x; first | (have hx : Keeps a x := by (unfold x; repeat' first | with_reducible assumption | with_reducible apply keeps_finishOk | with_reducible apply keeps_configDomain | split)); clear_value x | (have _ : HostIf := x) | (have _ : Keys := x) | (have _ : Fwu := x) | clear_value x | skip)
     | with_reducible assumption | with_reducible apply keeps_finishOk | with_reducible apply keeps_configDomain | split
     | lift_lets

theorem keeps_execCmdTimeConfig {a : State} (r : Req) (s : State) (h : Keeps a s) : Goes a (execCmdTimeConfig r s) :=
  goes_next (keeps_runCmd keeps_specTimeConfig r h)

theorem keeps_specTimePort {a : State} (r : Req) (p : Bytes) (s : State) (h : Keeps a s) : Keeps a (specTimePort.run r p s) := by
  unfold specTimePort; dsimp only
  repeat' first
     | (intro x; first | (have hx : Keeps a x := by (unfold x; repeat' first | with_reducible assumption | with_reducible apply keeps_finishOk | split)); clear_value x | (have _ : HostIf := x) | (have _ : Keys := x) | (have _ : Fwu := x) | clear_value x | skip)
     | with_reducible assumption | with_reducible apply keeps_finishOk | split | lift_lets

theorem keeps_execCmdTimePort {a : State} (r : Req) (s : State) (h : Keeps a s) : Goes a (execCmdTimePort r s) :=
  goes_next (keeps_runCmd keeps_specTimePort r h)

theorem keeps_specTimeSelect {a : State} (r : Req) (p : Bytes) (s : State) (h : Keeps a s) : Keeps a (specTimeSelect.run r p s) := by
  unfold specTimeSelect; dsimp only
  repeat' first
     | (intro x; first | (have hx : Keeps a x := by (unfold x; repeat' first | with_reducible assumption | with_reducible apply keeps_finishOk | with_reducible apply keeps_evalSelection | with_reducible apply keeps_cfgSet | split)); clear_value x | (have _ : HostIf := x) | (have _ : Keys := x) | (have _ : Fwu := x) | clear_value x | skip)
     | with_reducible assumption | with_reducible apply keeps_finishOk | with_reducible apply keeps_evalSelection
     | with_reducible apply keeps_cfgSet | split | lift_lets

theorem keeps_execCmdTimeSelect {a : State} (r : Req) (s : State) (h : Keeps a s) : Goes a (execCmdTimeSelect r s) :=
  goes_next (keeps_runCmd keeps_specTimeSelect r h)

theorem keeps_specTimeStatus {a : State} (r : Req) (p : Bytes) (s : State) (h : Keeps a s) : Keeps a (specTimeStatus.run r p s) := by
  unfold specTimeStatus; dsimp only
  repeat' first
     | (intro x; first | (have hx : Keeps a x := by (unfold x; repeat' first | with_reducible assumption | with_reducible apply keeps_finishOk | split)); clear_value x | (have _ : HostIf := x) | (have _ : Keys := x) | (have _ : Fwu := x) | clear_value x | skip)
     | with_reducible assumption | with_reducible apply keeps_finishOk | split | lift_lets

theorem keeps_execCmdTimeStatus {a : State} (r : Req) (s : State) (h : Keeps a s) : Goes a (execCmdTimeStatus r s) :=
  goes_next (keeps_runCmd keeps_specTimeStatus r h)

theorem keeps_specTimeSet {a : State} (r : Req) (p : Bytes) (s : State) (h : Keeps a s) : Keeps a (specTimeSet.run r p s) := by
  unfold specTimeSet; dsimp only
  repeat' first
     | (intro x; first | (have hx : Keeps a x := by (unfold x; repeat' first | with_reducible assumption | with_reducible apply keeps_finishOk | with_reducible apply keeps_setUtc | with_reducible apply keeps_stepTime | split)); clear_value x | (have _ : HostIf := x) | (have _ : Keys := x) | (have _ : Fwu := x) | clear_value x | skip)
     | with_reducible assumption | with_reducible apply keeps_finishOk | with_reducible apply keeps_setUtc
     | with_reducible apply keeps_stepTime | split | lift_lets

theorem keeps_execCmdTimeSet {a : State} (r : Req) (s : State) (h : Keeps a s) : Goes a (execCmdTimeSet r s) :=
  goes_next (keeps_runCmd keeps_specTimeSet r h)

theorem keeps_applyPtpCtrl {a : State} (v : W32) (s : State) (h : Keeps a s) : Keeps a (applyPtpCtrl v s) := by
  unfold applyPtpCtrl
  with_reducible repeat' first
     | (intro x; first | (have hx : Keeps a x := by (unfold x; repeat' first | assumption | apply keeps_evalSelection | apply keeps_cfgSet | split)); clear_value x | (have _ : HostIf := x) | (have _ : Keys := x) | (have _ : Fwu := x) | clear_value x | skip)
     | assumption | apply keeps_evalSelection | apply keeps_cfgSet | split | lift_lets

theorem keeps_execPtpCtrlWrite {a : State} (p : Port) (v : W32) (s : State) (h : Keeps a s) : Goes a (execPtpCtrlWrite p v s) := by
  unfold execPtpCtrlWrite
  (try intro x)
  apply goes_next
  repeat' first
     | (intro x; first | (have hx : Keeps a x := by (unfold x; repeat' first | with_reducible assumption | with_reducible apply keeps_ownWrite | with_reducible apply keeps_applyPtpCtrl | split)); clear_value x | (have _ : HostIf := x) | (have _ : Keys := x) | (have _ : Fwu := x) | clear_value x | skip)
     | with_reducible assumption | with_reducible apply keeps_ownWrite | with_reducible apply keeps_applyPtpCtrl | split
     | lift_lets

end Sys2Proof.Laws
end

