-- ==== Sys2Proof/Laws/KeepsMetering.lean ====
section
/-! SUPPORT. Laws/KeepsMetering.lean: what each operation of Machine/Metering.lean keeps (Laws/Keeps.lean). -/

namespace Sys2Proof.Laws

set_option linter.all false

open Sys2Proof.Machine

theorem keeps_setMset {a : State} (n : Nat) (f : MeterSet → MeterSet) (s : State) (h : Keeps a s) : Keeps a (setMset n f s) := ⟨h.1, h.2⟩

theorem keeps_setHeat {a : State} (n : Nat) (f : HeatCh → HeatCh) (s : State) (h : Keeps a s) : Keeps a (setHeat n f s) := ⟨h.1, h.2⟩

theorem keeps_closeSet {a : State} (n : Nat) (flags : Byte) (now : Nat) (s : State) (h : Keeps a s) : Keeps a (closeSet n flags now s) := ⟨h.1, h.2⟩

theorem keeps_closeHeat {a : State} (z0 : Nat) (flags : Byte) (now : Nat) (s : State) (h : Keeps a s) : Keeps a (closeHeat z0 flags now s) := ⟨h.1, h.2⟩

theorem keeps_openSet {a : State} (n : Nat) (flags : Byte) (now : Nat) (s : State) (h : Keeps a s) : Keeps a (openSet n flags now s) := ⟨h.1, h.2⟩

theorem keeps_openHeat {a : State} (z0 : Nat) (flags : Byte) (now : Nat) (s : State) (h : Keeps a s) : Keeps a (openHeat z0 flags now s) := ⟨h.1, h.2⟩

theorem keeps_forEach {a : State} (f : Nat → State → State) (l : List Nat) (s : State) (hf : ∀ n s, Keeps a s → Keeps a (f n s))
    (h : Keeps a s) : Keeps a (forEach f l s) := by
  induction l generalizing s with
  | nil => exact h
  | cons b r ih => exact ih _ (hf _ _ h)

theorem keeps_closeAll {a : State} (flags : Byte) (now : Nat) (s : State) (h : Keeps a s) : Keeps a (closeAll flags now s) := ⟨h.1, h.2⟩

theorem keeps_openAll {a : State} (flags : Byte) (now : Nat) (s : State) (h : Keeps a s) : Keeps a (openAll flags now s) := by
  unfold openAll
  with_reducible repeat' first
     | (intro x; first | (have hx : Keeps a x := by (unfold x; repeat' first | assumption | apply keeps_forEach | apply keeps_openSet | apply keeps_openHeat | split)); clear_value x | (have _ : HostIf := x) | (have _ : Keys := x) | (have _ : Fwu := x) | clear_value x | skip)
     | assumption | apply keeps_forEach | apply keeps_openSet | apply keeps_openHeat | split | lift_lets

theorem keeps_turnSets {a : State} (b : Nat) (y1 : List Nat) (y2 : State) (h : Keeps a y2) : Keeps a (turnSets b y1 y2) := by
  induction y1 generalizing y2 with
  | nil =>
    unfold turnSets
    repeat' first
       | (intro x; first | (have hx : Keeps a x := by (unfold x; repeat' first | with_reducible assumption | with_reducible apply keeps_openSet | with_reducible apply keeps_closeSet | split)); clear_value x | (have _ : HostIf := x) | (have _ : Keys := x) | (have _ : Fwu := x) | clear_value x | skip)
       | with_reducible assumption | with_reducible apply keeps_openSet | with_reducible apply keeps_closeSet | split
       | lift_lets
  | cons x r ih =>
    unfold turnSets
    repeat' first
       | (intro x; first | (have hx : Keeps a x := by (unfold x; repeat' first | with_reducible assumption | with_reducible apply keeps_openSet | with_reducible apply keeps_closeSet | with_reducible apply ih | split)); clear_value x | (have _ : HostIf := x) | (have _ : Keys := x) | (have _ : Fwu := x) | clear_value x | skip)
       | with_reducible assumption | with_reducible apply keeps_openSet | with_reducible apply keeps_closeSet
       | with_reducible apply ih | split | lift_lets

theorem keeps_turnHeats {a : State} (b : Nat) (y1 : List Nat) (y2 : State) (h : Keeps a y2) : Keeps a (turnHeats b y1 y2) := by
  induction y1 generalizing y2 with
  | nil =>
    unfold turnHeats
    repeat' first
       | (intro x; first | (have hx : Keeps a x := by (unfold x; repeat' first | with_reducible assumption | with_reducible apply keeps_openHeat | with_reducible apply keeps_closeHeat | split)); clear_value x | (have _ : HostIf := x) | (have _ : Keys := x) | (have _ : Fwu := x) | clear_value x | skip)
       | with_reducible assumption | with_reducible apply keeps_openHeat | with_reducible apply keeps_closeHeat | split
       | lift_lets
  | cons x r ih =>
    unfold turnHeats
    repeat' first
       | (intro x; first | (have hx : Keeps a x := by (unfold x; repeat' first | with_reducible assumption | with_reducible apply keeps_openHeat | with_reducible apply keeps_closeHeat | with_reducible apply ih | split)); clear_value x | (have _ : HostIf := x) | (have _ : Keys := x) | (have _ : Fwu := x) | clear_value x | skip)
       | with_reducible assumption | with_reducible apply keeps_openHeat | with_reducible apply keeps_closeHeat
       | with_reducible apply ih | split | lift_lets

theorem keeps_execIntervalClose {a : State} (s : State) (h : Keeps a s) : Goes a (execIntervalClose s) := by
  unfold execIntervalClose
  (try intro x)
  apply goes_next
  repeat' first
     | (intro x; first | (have hx : Keeps a x := by (unfold x; repeat' first | with_reducible assumption | with_reducible apply keeps_turnHeats | with_reducible apply keeps_turnSets | split)); clear_value x | (have _ : HostIf := x) | (have _ : Keys := x) | (have _ : Fwu := x) | clear_value x | skip)
     | with_reducible assumption | with_reducible apply keeps_turnHeats | with_reducible apply keeps_turnSets | split
     | lift_lets

theorem keeps_crossing {a : State} (n : Nat) (c : SetCfg) (pos : Int) (s : State) (h : Keeps a s) : Keeps a (crossing n c pos s) := by
  induction n generalizing s with
  | zero =>
    unfold crossing
    repeat' first
       | (intro x; first | (have hx : Keeps a x := by (unfold x; repeat' first | with_reducible assumption | with_reducible apply keeps_setMset | with_reducible apply keeps_raise | with_reducible apply keeps_closeSet | split)); clear_value x | (have _ : HostIf := x) | (have _ : Keys := x) | (have _ : Fwu := x) | clear_value x | skip)
       | with_reducible assumption | with_reducible apply keeps_setMset | with_reducible apply keeps_raise
       | with_reducible apply keeps_closeSet | split | lift_lets
  | succ x ih =>
    unfold crossing
    repeat' first
       | (intro x; first | (have hx : Keeps a x := by (unfold x; repeat' first | with_reducible assumption | with_reducible apply keeps_setMset | with_reducible apply keeps_raise | with_reducible apply keeps_closeSet | with_reducible apply ih | split)); clear_value x | (have _ : HostIf := x) | (have _ : Keys := x) | (have _ : Fwu := x) | clear_value x | skip)
       | with_reducible assumption | with_reducible apply keeps_setMset | with_reducible apply keeps_raise
       | with_reducible apply keeps_closeSet | with_reducible apply ih | split | lift_lets

theorem keeps_changeBand {a : State} (n : Nat) (b : Nat) (s : State) (h : Keeps a s) : Keeps a (changeBand n b s) := by
  unfold changeBand
  repeat' first | exact ⟨h.1, h.2⟩ | assumption | with_reducible apply keeps_raise | with_reducible apply keeps_setMset | split

theorem keeps_meterSample {a : State} (n : Nat) (p : MeterParams) (c : SetCfg) (xs : List Int) (past : Bool) (s : State) (h : Keeps a s) : Keeps a (meterSample n p c xs past s) := by
  unfold meterSample
  with_reducible repeat' first
     | (intro x; first | (have hx : Keeps a x := by (unfold x; repeat' first | assumption | apply keeps_changeBand | apply keeps_crossing | apply keeps_setMset | split)); clear_value x | (have _ : HostIf := x) | (have _ : Keys := x) | (have _ : Fwu := x) | clear_value x | skip)
     | assumption | apply keeps_changeBand | apply keeps_crossing | apply keeps_setMset | split | lift_lets

theorem keeps_missFrames {a : State} (n : Nat) (g : Nat) (s : State) (h : Keeps a s) : Keeps a (missFrames n g s) := by
  unfold missFrames
  repeat' first | exact ⟨h.1, h.2⟩ | assumption | with_reducible apply keeps_setMset | split

theorem keeps_portRecovers {a : State} (n : Nat) (s : State) (h : Keeps a s) : Keeps a (portRecovers n s) := by
  unfold portRecovers
  with_reducible repeat' first
     | (intro x; first | (have hx : Keeps a x := by (unfold x; repeat' first | assumption | apply keeps_raise | apply keeps_setMset | split)); clear_value x | (have _ : HostIf := x) | (have _ : Keys := x) | (have _ : Fwu := x) | clear_value x | skip)
     | assumption | apply keeps_raise | apply keeps_setMset | split | lift_lets

theorem keeps_acceptFrame {a : State} (n : Nat) (slots : List W32) (s : State) (h : Keeps a s) : Keeps a (acceptFrame n slots s) := by
  unfold acceptFrame
  with_reducible repeat' first
     | (intro x; first | (have hx : Keeps a x := by (unfold x; repeat' first | assumption | apply keeps_missFrames | apply keeps_setMset | apply keeps_portRecovers | apply keeps_meterSample | split)); clear_value x | (have _ : HostIf := x) | (have _ : Keys := x) | (have _ : Fwu := x) | clear_value x | skip)
     | assumption | apply keeps_missFrames | apply keeps_setMset | apply keeps_portRecovers | apply keeps_meterSample | split
     | lift_lets

theorem keeps_discardFrame {a : State} (n : Nat) (s : State) (h : Keeps a s) : Keeps a (discardFrame n s) := by
  unfold discardFrame
  with_reducible repeat' first
     | (intro x; first | (have hx : Keeps a x := by (unfold x; repeat' first | assumption | apply keeps_missFrames | apply keeps_rcAdd | apply keeps_setMset | split)); clear_value x | (have _ : HostIf := x) | (have _ : Keys := x) | (have _ : Fwu := x) | clear_value x | skip)
     | assumption | apply keeps_missFrames | apply keeps_rcAdd | apply keeps_setMset | split | lift_lets

theorem keeps_execMspFrame {a : State} (n : Fin 4) (slots : List W32) (s : State) (h : Keeps a s) : Goes a (execMspFrame n slots s) := by
  unfold execMspFrame
  (try intro x)
  apply goes_next
  repeat' first
     | (intro x; first | (have hx : Keeps a x := by (unfold x; repeat' first | with_reducible assumption | with_reducible apply keeps_acceptFrame | with_reducible apply keeps_discardFrame | split)); clear_value x | (have _ : HostIf := x) | (have _ : Keys := x) | (have _ : Fwu := x) | clear_value x | skip)
     | with_reducible assumption | with_reducible apply keeps_acceptFrame | with_reducible apply keeps_discardFrame | split
     | lift_lets

theorem keeps_loseSignal {a : State} (n : Nat) (s : State) (h : Keeps a s) : Keeps a (loseSignal n s) := ⟨h.1, h.2⟩

theorem keeps_stopIfDisabling {a : State} (n : Nat) (s : State) (h : Keeps a s) : Keeps a (stopIfDisabling n s) := by
  unfold stopIfDisabling
  repeat' first | with_reducible assumption | with_reducible apply keeps_setMset | with_reducible apply keeps_closeSet | split

theorem keeps_execMeterPortLoss {a : State} (n : Fin 4) (s : State) (h : Keeps a s) : Goes a (execMeterPortLoss n s) := by
  unfold execMeterPortLoss
  (try intro x)
  apply goes_next
  repeat' first
     | (intro x; first | (have hx : Keeps a x := by (unfold x; repeat' first | with_reducible assumption | with_reducible apply keeps_setMset | with_reducible apply keeps_loseSignal | with_reducible apply keeps_stopIfDisabling | with_reducible apply keeps_raise | split)); clear_value x | (have _ : HostIf := x) | (have _ : Keys := x) | (have _ : Fwu := x) | clear_value x | skip)
     | with_reducible assumption | with_reducible apply keeps_setMset | with_reducible apply keeps_loseSignal
     | with_reducible apply keeps_stopIfDisabling | with_reducible apply keeps_raise | split | lift_lets

theorem keeps_execZcTimeout {a : State} (n : Fin 4) (s : State) (h : Keeps a s) : Goes a (execZcTimeout n s) := by
  unfold execZcTimeout
  (try intro x)
  apply goes_next
  repeat' first
     | (intro x; first | (have hx : Keeps a x := by (unfold x; repeat' first | with_reducible assumption | with_reducible apply keeps_stopIfDisabling | with_reducible apply keeps_raise | with_reducible apply keeps_loseSignal | split)); clear_value x | (have _ : HostIf := x) | (have _ : Keys := x) | (have _ : Fwu := x) | clear_value x | skip)
     | with_reducible assumption | with_reducible apply keeps_stopIfDisabling | with_reducible apply keeps_raise
     | with_reducible apply keeps_loseSignal | split | lift_lets

theorem keeps_execPulseEdge {a : State} (n : Fin 16) (levels : W16) (s : State) (h : Keeps a s) : Goes a (execPulseEdge n levels s) := by
  unfold execPulseEdge
  (try intro x)
  apply goes_next
  repeat' first
     | (intro x; first | (have hx : Keeps a x := by (unfold x; repeat' first | with_reducible assumption | split)); clear_value x | (have _ : HostIf := x) | (have _ : Keys := x) | (have _ : Fwu := x) | clear_value x | skip)
     | with_reducible assumption | split | lift_lets

theorem keeps_heatStepOne {a : State} (p : MeterParams) (edges : List PulseEdge) (ms : Nat) (z3 : Nat) (s : State) (h : Keeps a s) : Keeps a (heatStepOne p edges ms z3 s) := by
  unfold heatStepOne
  with_reducible repeat' first
     | (intro x; first | (have hx : Keeps a x := by (unfold x; repeat' first | assumption | apply keeps_raiseOnce | apply keeps_setHeat | apply keeps_closeHeat | split)); clear_value x | (have _ : HostIf := x) | (have _ : Keys := x) | (have _ : Fwu := x) | clear_value x | skip)
     | assumption | apply keeps_raiseOnce | apply keeps_setHeat | apply keeps_closeHeat | split | lift_lets

theorem keeps_meterPoint {a : State} (id : Nat) (value : Int) (scale : Int) (q : Nat) (stamp : Nat) (s : State) (h : Keeps a s) : Keeps a (meterPoint id value scale q stamp s) := by
  unfold meterPoint
  repeat' first | exact ⟨h.1, h.2⟩ | assumption | with_reducible apply keeps_writeScaled | split

theorem keeps_meterBad {a : State} (id : Nat) (stamp : Nat) (s : State) (h : Keeps a s) : Keeps a (meterBad id stamp s) := by
  unfold meterBad
  repeat' first | exact ⟨h.1, h.2⟩ | assumption | with_reducible apply keeps_putRec | split

theorem keeps_setPoints {a : State} (now : Nat) (n : Nat) (s : State) (h : Keeps a s) : Keeps a (setPoints now n s) := by
  unfold setPoints
  with_reducible repeat' first
     | (intro x; first | (have hx : Keeps a x := by (unfold x; repeat' first | assumption | apply keeps_forEach | apply keeps_meterBad | apply keeps_meterPoint | split)); clear_value x | (have _ : HostIf := x) | (have _ : Keys := x) | (have _ : Fwu := x) | clear_value x | skip)
     | assumption | apply keeps_forEach | apply keeps_meterBad | apply keeps_meterPoint | split | lift_lets

theorem keeps_heatPoints {a : State} (now : Nat) (z1 : Nat) (s : State) (h : Keeps a s) : Keeps a (heatPoints now z1 s) := by
  unfold heatPoints
  with_reducible repeat' first
     | (intro x; first | (have hx : Keeps a x := by (unfold x; repeat' first | assumption | apply keeps_meterPoint | apply keeps_forEach | apply keeps_meterBad | split)); clear_value x | (have _ : HostIf := x) | (have _ : Keys := x) | (have _ : Fwu := x) | clear_value x | skip)
     | assumption | apply keeps_meterPoint | apply keeps_forEach | apply keeps_meterBad | split | lift_lets

theorem keeps_totalPoints {a : State} (now : Nat) (s : State) (h : Keeps a s) : Keeps a (totalPoints now s) := by
  unfold totalPoints
  with_reducible repeat' first
     | (intro x; first | (have hx : Keeps a x := by (unfold x; repeat' first | assumption | apply keeps_forEach | apply keeps_meterPoint | split)); clear_value x | (have _ : HostIf := x) | (have _ : Keys := x) | (have _ : Fwu := x) | clear_value x | skip)
     | assumption | apply keeps_forEach | apply keeps_meterPoint | split | lift_lets

theorem keeps_readTemps {a : State} (reads : List TbusRead) (z1 : Nat) (s : State) (h : Keeps a s) : Keeps a (readTemps reads z1 s) := by
  unfold readTemps
  repeat' first | exact ⟨h.1, h.2⟩ | assumption | with_reducible apply keeps_rcAdd | with_reducible apply keeps_setHeat | split

theorem keeps_needReads {a : State} (opened : Nat) (s : State) (h : Keeps a s) : Keeps a (needReads opened s) := by
  unfold needReads
  split
  · exact h
  · exact keeps_forEach _ _ _ (fun n s h => keeps_readTemps _ n s h) h

theorem keeps_heatStepAt {a : State} (opened t ms : Nat) (s : State) (h : Keeps a s) : Keeps a (heatStepAt opened t ms s) := by
  unfold heatStepAt
  with_reducible repeat' first
     | (intro x; first | (have hx : Keeps a x := by (unfold x; repeat' first | assumption | apply keeps_needReads | apply keeps_forEach | apply keeps_heatStepOne | split)); clear_value x | (have _ : HostIf := x) | (have _ : Keys := x) | (have _ : Fwu := x) | clear_value x | skip)
     | assumption | apply keeps_needReads | apply keeps_forEach | apply keeps_heatStepOne | split | lift_lets

theorem keeps_heatStepDue {a : State} (s : State) (h : Keeps a s) : Keeps a (heatStepDue s) := by
  simp only [heatStepDue]
  split
  · exact keeps_forEach _ _ _ (fun n s h => keeps_heatPoints _ _ _ h)
      (keeps_forEach _ _ _ (fun n s h => keeps_setPoints _ _ _ h) (keeps_heatStepAt _ _ _ _ h))
  · exact h

theorem keeps_execHeatStep {a : State} (s : State) (h : Keeps a s) : Goes a (execHeatStep s) := by
  unfold execHeatStep
  (try intro x)
  apply goes_next
  repeat' first
     | (intro x; first | (have hx : Keeps a x := by (unfold x; repeat' first | with_reducible assumption | with_reducible apply keeps_heatStepDue | split)); clear_value x | (have _ : HostIf := x) | (have _ : Keys := x) | (have _ : Fwu := x) | clear_value x | skip)
     | with_reducible assumption | with_reducible apply keeps_heatStepDue | split | lift_lets

theorem keeps_meter {a s : State} (m : Meter) (h : Keeps a s) : Keeps a { s with meter := m } := ⟨h.1, h.2⟩

theorem keeps_pick {a x y : State} {b : Prop} [Decidable b] (hx : Keeps a x) (hy : Keeps a y) : Keeps a (if b then x else y) := by
  split
  · exact hx
  · exact hy

theorem keeps_readStep {a : State} (reads : List TbusRead) (t : Nat) (x : State) (k : Keeps a x) :
    Keeps a (if later 64 x.meter.readAt t then
        (let s := forEach (readTemps reads) (upto 16) x; { s with meter := { s.meter with readAt := t } })
      else x) := by
  split
  · exact keeps_meter _ (keeps_forEach (readTemps reads) (upto 16) x (fun n s h => keeps_readTemps reads n s h) k)
  · exact k

theorem keeps_execTbusRead {a : State} (reads : List TbusRead) (s : State) (h : Keeps a s) : Goes a (execTbusRead reads s) := by
  have k := keeps_readStep reads (boundary100 (heatStepDue s)) _ (keeps_heatStepDue s h)
  unfold execTbusRead
  dsimp only at *
  generalize heatStepDue s = x at *
  generalize boundary100 x = t at *
  apply goes_next
  split
  · exact k
  · exact h

theorem keeps_writeBlock {a : State} (flags : Nat) (s : State) (h : Keeps a s) : Keeps a (writeBlock flags s) := ⟨h.1, h.2⟩

theorem keeps_adoptTotals {a : State} (sets : List (List Nat)) (heats : List (List Nat)) (res : Option (List (List Nat) × List (List Nat))) (s : State) (h : Keeps a s) : Keeps a (adoptTotals sets heats res s) := ⟨h.1, h.2⟩

theorem keeps_adoptAtSave {a : State} (s : State) (h : Keeps a s) : Keeps a (adoptAtSave s) := by
  unfold adoptAtSave
  repeat' first | exact ⟨h.1, h.2⟩ | assumption | with_reducible apply keeps_adoptTotals | split

theorem keeps_saveTotals {a : State} (extra : Nat) (s : State) (h : Keeps a s) : Keeps a (saveTotals extra s) := by
  unfold saveTotals
  with_reducible repeat' first
     | (intro x; first | (have hx : Keeps a x := by (unfold x; repeat' first | assumption | apply keeps_adoptAtSave | apply keeps_raise | apply keeps_writeBlock | apply keeps_totalPoints | apply keeps_sendMirror | apply keeps_finishOk | split)); clear_value x | (have _ : HostIf := x) | (have _ : Keys := x) | (have _ : Fwu := x) | clear_value x | skip)
     | assumption | apply keeps_adoptAtSave | apply keeps_raise | apply keeps_writeBlock | apply keeps_totalPoints
     | apply keeps_sendMirror | apply keeps_finishOk | split | lift_lets

theorem keeps_execTotalsSave {a : State} (s : State) (h : Keeps a s) : Goes a (execTotalsSave s) := by
  unfold execTotalsSave
  (try intro x)
  apply goes_next
  repeat' first
     | (intro x; first | (have hx : Keeps a x := by (unfold x; repeat' first | with_reducible assumption | with_reducible apply keeps_saveTotals | split)); clear_value x | (have _ : HostIf := x) | (have _ : Keys := x) | (have _ : Fwu := x) | clear_value x | skip)
     | with_reducible assumption | with_reducible apply keeps_saveTotals | split | lift_lets

theorem keeps_compareTotal {a : State} (p : MeterParams) (obj : Nat) (i : Nat) (z3 : Nat) (own : Nat) (s : State) (h : Keeps a s) : Keeps a (compareTotal p obj i z3 own s) := by
  unfold compareTotal
  with_reducible repeat' first
     | (intro x; first | (have hx : Keeps a x := by (unfold x; repeat' first | assumption | apply keeps_setMset | apply keeps_setHeat | apply keeps_raise | split)); clear_value x | (have _ : HostIf := x) | (have _ : Keys := x) | (have _ : Fwu := x) | clear_value x | skip)
     | assumption | apply keeps_setMset | apply keeps_setHeat | apply keeps_raise | split | lift_lets

theorem keeps_compareTotals {a : State} (p : MeterParams) (obj : Nat) (own : List Nat) (y3 : List (Nat × Nat)) (y4 : State) (h : Keeps a y4) : Keeps a (compareTotals p obj own y3 y4) := by
  induction y3 generalizing y4 with
  | nil =>
    unfold compareTotals
    repeat' first
       | (intro x; first | (have hx : Keeps a x := by (unfold x; repeat' first | with_reducible assumption | with_reducible apply keeps_compareTotal | split)); clear_value x | (have _ : HostIf := x) | (have _ : Keys := x) | (have _ : Fwu := x) | clear_value x | skip)
       | with_reducible assumption | with_reducible apply keeps_compareTotal | split | lift_lets
  | cons x r ih =>
    unfold compareTotals
    repeat' first
       | (intro x; first | (have hx : Keeps a x := by (unfold x; repeat' first | with_reducible assumption | with_reducible apply keeps_compareTotal | with_reducible apply ih | split)); clear_value x | (have _ : HostIf := x) | (have _ : Keys := x) | (have _ : Fwu := x) | clear_value x | skip)
       | with_reducible assumption | with_reducible apply keeps_compareTotal | with_reducible apply ih | split | lift_lets

theorem keeps_totalsArrive {a : State} (sets : List (List Nat)) (heats : List (List Nat)) (s : State) (h : Keeps a s) : Keeps a (totalsArrive sets heats s) := by
  unfold totalsArrive
  with_reducible repeat' first
     | (intro x; first | (have hx : Keeps a x := by (unfold x; repeat' first | assumption | apply keeps_forEach | apply keeps_compareTotals | split)); clear_value x | (have _ : HostIf := x) | (have _ : Keys := x) | (have _ : Fwu := x) | clear_value x | skip)
     | assumption | apply keeps_forEach | apply keeps_compareTotals | split | lift_lets

theorem keeps_flushMeter {a : State} (s : State) (h : Keeps a s) : Keeps a (flushMeter s) := by
  unfold flushMeter
  with_reducible repeat' first
     | (intro x; first | (have hx : Keeps a x := by (unfold x; repeat' first | assumption | apply keeps_heatStepAt | apply keeps_forEach | apply keeps_setMset | apply keeps_closeAll | apply keeps_writeBlock | split)); clear_value x | (have _ : HostIf := x) | (have _ : Keys := x) | (have _ : Fwu := x) | clear_value x | skip)
     | assumption | apply keeps_heatStepAt | apply keeps_forEach | apply keeps_setMset | apply keeps_closeAll
     | apply keeps_writeBlock | split | lift_lets

theorem keeps_resumeMeter {a : State} (s : State) (h : Keeps a s) : Keeps a (resumeMeter s) := by
  unfold resumeMeter
  with_reducible repeat' first
     | (intro x; first | (have hx : Keeps a x := by (unfold x; repeat' first | assumption | apply keeps_forEach | apply keeps_setMset | apply keeps_openAll | split)); clear_value x | (have _ : HostIf := x) | (have _ : Keys := x) | (have _ : Fwu := x) | clear_value x | skip)
     | assumption | apply keeps_forEach | apply keeps_setMset | apply keeps_openAll | split | lift_lets

theorem keeps_reportUnsaved {a : State} (s : State) (h : Keeps a s) : Keeps a (reportUnsaved s) := by
  unfold reportUnsaved
  with_reducible repeat' first
     | (intro x; first | (have hx : Keeps a x := by (unfold x; repeat' first | assumption | apply keeps_forEach | apply keeps_raise | split)); clear_value x | (have _ : HostIf := x) | (have _ : Keys := x) | (have _ : Fwu := x) | clear_value x | skip)
     | assumption | apply keeps_forEach | apply keeps_raise | split | lift_lets

theorem keeps_restoreBlock {a : State} (b : TotBlock) (s : State) (h : Keeps a s) : Keeps a (restoreBlock b s) := ⟨h.1, h.2⟩

theorem keeps_startMeter {a : State} (version : W32) (s : State) (h : Keeps a s) : Keeps a (startMeter version s) := by
  unfold startMeter
  with_reducible repeat' first
     | (intro x; first | (have hx : Keeps a x := by (unfold x; repeat' first | assumption | apply keeps_restoreBlock | apply keeps_reportUnsaved | apply keeps_raise | apply keeps_forEach | apply keeps_setMset | apply keeps_openAll | split)); clear_value x | (have _ : HostIf := x) | (have _ : Keys := x) | (have _ : Fwu := x) | clear_value x | skip)
     | assumption | apply keeps_restoreBlock | apply keeps_reportUnsaved | apply keeps_raise | apply keeps_forEach
     | apply keeps_setMset | apply keeps_openAll | split | lift_lets

theorem keeps_specMtrParamLoad {a : State} (r : Req) (p : Bytes) (s : State) (h : Keeps a s) : Keeps a (specMtrParamLoad.run r p s) := by
  unfold specMtrParamLoad; dsimp only
  repeat' first
     | (intro x; first | (have hx : Keeps a x := by (unfold x; repeat' first | with_reducible assumption | with_reducible apply keeps_sectionUsed | with_reducible apply keeps_finish | with_reducible apply keeps_finishOk | split)); clear_value x | (have _ : HostIf := x) | (have _ : Keys := x) | (have _ : Fwu := x) | clear_value x | skip)
     | with_reducible assumption | with_reducible apply keeps_sectionUsed | with_reducible apply keeps_finish | with_reducible apply keeps_finishOk | split | lift_lets

theorem keeps_execCmdMtrParamLoad {a : State} (r : Req) (s : State) (h : Keeps a s) : Goes a (execCmdMtrParamLoad r s) :=
  goes_next (keeps_runCmd keeps_specMtrParamLoad r h)

theorem keeps_specMtrParamSwitch {a : State} (r : Req) (p : Bytes) (s : State) (h : Keeps a s) : Keeps a (specMtrParamSwitch.run r p s) := by
  unfold specMtrParamSwitch; dsimp only
  repeat' first
     | (intro x; first | (have hx : Keeps a x := by (unfold x; repeat' first | with_reducible assumption | with_reducible apply keeps_writeNewest | with_reducible apply keeps_raise | with_reducible apply keeps_holdCmd | split)); clear_value x | (have _ : HostIf := x) | (have _ : Keys := x) | (have _ : Fwu := x) | clear_value x | skip)
     | with_reducible assumption | with_reducible apply keeps_writeNewest | with_reducible apply keeps_raise
     | with_reducible apply keeps_holdCmd | split | lift_lets

theorem keeps_execCmdMtrParamSwitch {a : State} (r : Req) (s : State) (h : Keeps a s) : Goes a (execCmdMtrParamSwitch r s) :=
  goes_next (keeps_runCmd keeps_specMtrParamSwitch r h)

theorem keeps_execMtrParamEffect {a : State} (s : State) (h : Keeps a s) : Goes a (execMtrParamEffect s) := by
  unfold execMtrParamEffect
  (try intro x)
  apply goes_next
  repeat' first
     | (intro x; first | (have hx : Keeps a x := by (unfold x; repeat' first | with_reducible assumption | with_reducible apply keeps_closeAll | with_reducible apply keeps_finishOk | with_reducible apply keeps_openAll | split)); clear_value x | (have _ : HostIf := x) | (have _ : Keys := x) | (have _ : Fwu := x) | clear_value x | skip)
     | with_reducible assumption | with_reducible apply keeps_closeAll | with_reducible apply keeps_finishOk
     | with_reducible apply keeps_openAll | split | lift_lets

theorem keeps_specMtrParamRead {a : State} (r : Req) (p : Bytes) (s : State) (h : Keeps a s) : Keeps a (specMtrParamRead.run r p s) := by
  unfold specMtrParamRead; dsimp only
  repeat' first
     | (intro x; first | (have hx : Keeps a x := by (unfold x; repeat' first | with_reducible assumption | with_reducible apply keeps_finishOk | split)); clear_value x | (have _ : HostIf := x) | (have _ : Keys := x) | (have _ : Fwu := x) | clear_value x | skip)
     | with_reducible assumption | with_reducible apply keeps_finishOk | split | lift_lets

theorem keeps_execCmdMtrParamRead {a : State} (r : Req) (s : State) (h : Keeps a s) : Goes a (execCmdMtrParamRead r s) :=
  goes_next (keeps_runCmd keeps_specMtrParamRead r h)

theorem keeps_specMtrTotals {a : State} (r : Req) (p : Bytes) (s : State) (h : Keeps a s) : Keeps a (specMtrTotals.run r p s) := by
  unfold specMtrTotals; dsimp only
  repeat' first
     | (intro x; first | (have hx : Keeps a x := by (unfold x; repeat' first | with_reducible assumption | with_reducible apply keeps_finishOk | split)); clear_value x | (have _ : HostIf := x) | (have _ : Keys := x) | (have _ : Fwu := x) | clear_value x | skip)
     | with_reducible assumption | with_reducible apply keeps_finishOk | split | lift_lets

theorem keeps_execCmdMtrTotals {a : State} (r : Req) (s : State) (h : Keeps a s) : Goes a (execCmdMtrTotals r s) :=
  goes_next (keeps_runCmd keeps_specMtrTotals r h)

theorem keeps_specMtrIntervals {a : State} (r : Req) (p : Bytes) (s : State) (h : Keeps a s) : Keeps a (specMtrIntervals.run r p s) := by
  unfold specMtrIntervals; dsimp only
  repeat' first
     | (intro x; first | (have hx : Keeps a x := by (unfold x; repeat' first | with_reducible assumption | with_reducible apply keeps_finishOk | split)); clear_value x | (have _ : HostIf := x) | (have _ : Keys := x) | (have _ : Fwu := x) | clear_value x | skip)
     | with_reducible assumption | with_reducible apply keeps_finishOk | split | lift_lets

theorem keeps_execCmdMtrIntervals {a : State} (r : Req) (s : State) (h : Keeps a s) : Goes a (execCmdMtrIntervals r s) :=
  goes_next (keeps_runCmd keeps_specMtrIntervals r h)

theorem keeps_enableSet {a : State} (n : Nat) (on : Bool) (s : State) (h : Keeps a s) : Keeps a (enableSet n on s) := by
  unfold enableSet
  with_reducible repeat' first
     | (intro x; first | (have hx : Keeps a x := by (unfold x; repeat' first | assumption | apply keeps_setMset | apply keeps_openSet | apply keeps_stopIfDisabling | split)); clear_value x | (have _ : HostIf := x) | (have _ : Keys := x) | (have _ : Fwu := x) | clear_value x | skip)
     | assumption | apply keeps_setMset | apply keeps_openSet | apply keeps_stopIfDisabling | split | lift_lets

theorem keeps_enableHeat {a : State} (z0 : Nat) (on : Bool) (s : State) (h : Keeps a s) : Keeps a (enableHeat z0 on s) := by
  unfold enableHeat
  with_reducible repeat' first
     | (intro x; first | (have hx : Keeps a x := by (unfold x; repeat' first | assumption | apply keeps_setHeat | apply keeps_openHeat | split)); clear_value x | (have _ : HostIf := x) | (have _ : Keys := x) | (have _ : Fwu := x) | clear_value x | skip)
     | assumption | apply keeps_setHeat | apply keeps_openHeat | split | lift_lets

theorem keeps_specMtrEnable {a : State} (r : Req) (p : Bytes) (s : State) (h : Keeps a s) : Keeps a (specMtrEnable.run r p s) := by
  unfold specMtrEnable; dsimp only
  repeat' first
     | (intro x; first | (have hx : Keeps a x := by (unfold x; repeat' first | with_reducible assumption | with_reducible apply keeps_writeNewest | with_reducible apply keeps_raise | with_reducible apply keeps_forEach | with_reducible apply keeps_enableSet | with_reducible apply keeps_enableHeat | with_reducible apply keeps_finishOk | split)); clear_value x | (have _ : HostIf := x) | (have _ : Keys := x) | (have _ : Fwu := x) | clear_value x | skip)
     | with_reducible assumption | with_reducible apply keeps_writeNewest | with_reducible apply keeps_raise
     | with_reducible apply keeps_forEach | with_reducible apply keeps_enableSet | with_reducible apply keeps_enableHeat
     | with_reducible apply keeps_finishOk | split | lift_lets

theorem keeps_execCmdMtrEnable {a : State} (r : Req) (s : State) (h : Keeps a s) : Goes a (execCmdMtrEnable r s) :=
  goes_next (keeps_runCmd keeps_specMtrEnable r h)

theorem keeps_specMtrAdopt {a : State} (r : Req) (p : Bytes) (s : State) (h : Keeps a s) : Keeps a (specMtrAdopt.run r p s) := by
  unfold specMtrAdopt; dsimp only
  repeat' first
     | (intro x; first | (have hx : Keeps a x := by (unfold x; repeat' first | with_reducible assumption | with_reducible apply keeps_holdCmd | with_reducible apply keeps_finishOk | split)); clear_value x | (have _ : HostIf := x) | (have _ : Keys := x) | (have _ : Fwu := x) | clear_value x | skip)
     | with_reducible assumption | with_reducible apply keeps_holdCmd | with_reducible apply keeps_finishOk | split | lift_lets

theorem keeps_execCmdMtrAdopt {a : State} (r : Req) (s : State) (h : Keeps a s) : Goes a (execCmdMtrAdopt r s) :=
  goes_next (keeps_runCmd keeps_specMtrAdopt r h)

end Sys2Proof.Laws
end

