-- ==== Sys2Proof/Laws/KeepsLoops.lean ====
section
/-! SUPPORT. Laws/KeepsLoops.lean: what each operation of Machine/Loops.lean keeps (Laws/Keeps.lean). -/

namespace Sys2Proof.Laws

set_option linter.all false

open Sys2Proof.Machine

theorem keeps_setChan {a : State} (n : Nat) (f : Channel → Channel) (s : State) (h : Keeps a s) : Keeps a (setChan n f s) := ⟨h.1, h.2⟩

theorem keeps_latchLoops {a : State} (c : Nat) (s : State) (h : Keeps a s) : Keeps a (latchLoops c s) := by
  unfold latchLoops
  repeat' first | exact ⟨h.1, h.2⟩ | assumption | split

theorem keeps_takeAction {a : State} (n : Nat) (d : LoopDesc) (c : Channel) (s : State) (h : Keeps a s) : Keeps a (takeAction n d c s).2 := by
  unfold takeAction
  repeat' first
     | (intro x; first | (have hx : Keeps a x := by (unfold x; repeat' first | with_reducible assumption | with_reducible apply keeps_raise | with_reducible apply keeps_fireFromLoop | split)); clear_value x | (have _ : HostIf := x) | (have _ : Keys := x) | (have _ : Fwu := x) | clear_value x | skip)
     | with_reducible assumption | with_reducible apply keeps_raise | with_reducible apply keeps_fireFromLoop | split
     | lift_lets

theorem keeps_takeAction_eq {a t : State} {n : Nat} {d : LoopDesc} {c : Channel} {s : State} {z : _} (e : takeAction n d c s = (z, t)) (h : Keeps a s) : Keeps a t := by
  have k := keeps_takeAction n d c s h
  rw [e] at k; exact k

theorem keeps_supervise {a : State} (n : Nat) (d : LoopDesc) (pvOk : Bool) (pv : Int) (c : Channel) (s : State) (h : Keeps a s) : Keeps a (supervise n d pvOk pv c s).2 := by
  unfold supervise
  repeat' first
     | (intro x; first | (have hx : Keeps a x := by (unfold x; repeat' first | with_reducible assumption | with_reducible apply keeps_raise | with_reducible apply keeps_takeAction | (with_reducible refine keeps_takeAction_eq (by assumption) ?_) | split)); clear_value x | (have _ : HostIf := x) | (have _ : Keys := x) | (have _ : Fwu := x) | clear_value x | skip)
     | with_reducible assumption | with_reducible apply keeps_raise | with_reducible apply keeps_takeAction
     | (with_reducible refine keeps_takeAction_eq (by assumption) ?_) | split | lift_lets

theorem keeps_supervise_eq {a t : State} {n : Nat} {d : LoopDesc} {pvOk : Bool} {pv : Int} {c : Channel} {s : State} {z : _} (e : supervise n d pvOk pv c s = (z, t)) (h : Keeps a s) : Keeps a t := by
  have k := keeps_supervise n d pvOk pv c s h
  rw [e] at k; exact k

theorem keeps_loopOutput {a : State} (d : LoopDesc) (q : Byte) (t : Nat) (c : Channel) (s : State) (h : Keeps a s) : Keeps a (loopOutput d q t c s) := by
  unfold loopOutput
  with_reducible repeat' first
     | (intro x; first | (have hx : Keeps a x := by (unfold x; repeat' first | assumption | apply keeps_writeScaled | apply keeps_sendLoop | apply keeps_canLoopFill | split)); clear_value x | (have _ : HostIf := x) | (have _ : Keys := x) | (have _ : Fwu := x) | clear_value x | skip)
     | assumption | apply keeps_writeScaled | apply keeps_sendLoop | apply keeps_canLoopFill | split | lift_lets

theorem keeps_sampleChannel {a : State} (n : Nat) (t : Nat) (d : LoopDesc) (s : State) (h : Keeps a s) : Keeps a (sampleChannel n t d s) := by
  unfold sampleChannel
  with_reducible repeat' first
     | (intro x; first | (have hx : Keeps a x := by (unfold x; repeat' first | assumption | apply keeps_raiseOnce | apply keeps_loopOutput | apply keeps_setChan | apply keeps_supervise | (refine keeps_supervise_eq (by assumption) ?_) | split)); clear_value x | (have _ : HostIf := x) | (have _ : Keys := x) | (have _ : Fwu := x) | clear_value x | skip)
     | assumption | apply keeps_raiseOnce | apply keeps_loopOutput | apply keeps_setChan | apply keeps_supervise
     | (refine keeps_supervise_eq (by assumption) ?_) | split | lift_lets

theorem keeps_evalChannel {a : State} (ms : Nat) (n : Nat) (s : State) (h : Keeps a s) : Keeps a (evalChannel ms n s) := by
  unfold evalChannel
  with_reducible repeat' first
     | (intro x; first | (have hx : Keeps a x := by (unfold x; repeat' first | assumption | apply keeps_sampleChannel | apply keeps_setChan | split)); clear_value x | (have _ : HostIf := x) | (have _ : Keys := x) | (have _ : Fwu := x) | clear_value x | skip)
     | assumption | apply keeps_sampleChannel | apply keeps_setChan | split | lift_lets

theorem keeps_evalChannels {a : State} (ms : Nat) (y1 : List Nat) (y2 : State) (h : Keeps a y2) : Keeps a (evalChannels ms y1 y2) := by
  induction y1 generalizing y2 with
  | nil =>
    unfold evalChannels
    repeat' first
       | (intro x; first | (have hx : Keeps a x := by (unfold x; repeat' first | with_reducible assumption | with_reducible apply keeps_evalChannel | split)); clear_value x | (have _ : HostIf := x) | (have _ : Keys := x) | (have _ : Fwu := x) | clear_value x | skip)
       | with_reducible assumption | with_reducible apply keeps_evalChannel | split | lift_lets
  | cons x r ih =>
    unfold evalChannels
    repeat' first
       | (intro x; first | (have hx : Keeps a x := by (unfold x; repeat' first | with_reducible assumption | with_reducible apply keeps_evalChannel | with_reducible apply ih | split)); clear_value x | (have _ : HostIf := x) | (have _ : Keys := x) | (have _ : Fwu := x) | clear_value x | skip)
       | with_reducible assumption | with_reducible apply keeps_evalChannel | with_reducible apply ih | split | lift_lets

theorem keeps_execLoopMsTick {a : State} (evalUs : Nat) (left : Nat) (s : State) (h : Keeps a s) : Goes a (execLoopMsTick evalUs left s) := by
  unfold execLoopMsTick
  (try intro x)
  apply goes_next
  repeat' first
     | (intro x; first | (have hx : Keeps a x := by (unfold x; repeat' first | with_reducible assumption | with_reducible apply keeps_evalChannels | with_reducible apply keeps_raise | with_reducible apply keeps_rcAdd | split)); clear_value x | (have _ : HostIf := x) | (have _ : Keys := x) | (have _ : Fwu := x) | clear_value x | skip)
     | with_reducible assumption | with_reducible apply keeps_evalChannels | with_reducible apply keeps_raise
     | with_reducible apply keeps_rcAdd | split | lift_lets

theorem keeps_execLoopFeExpiry {a : State} (ch : Fin 2048) (s : State) (h : Keeps a s) : Goes a (execLoopFeExpiry ch s) := by
  unfold execLoopFeExpiry
  (try intro x)
  apply goes_next
  repeat' first
     | (intro x; first | (have hx : Keeps a x := by (unfold x; repeat' first | with_reducible assumption | with_reducible apply keeps_loopOutput | with_reducible apply keeps_setChan | with_reducible apply keeps_takeAction | (with_reducible refine keeps_takeAction_eq (by assumption) ?_) | split)); clear_value x | (have _ : HostIf := x) | (have _ : Keys := x) | (have _ : Fwu := x) | clear_value x | skip)
     | with_reducible assumption | with_reducible apply keeps_loopOutput | with_reducible apply keeps_setChan
     | with_reducible apply keeps_takeAction | (with_reducible refine keeps_takeAction_eq (by assumption) ?_) | split
     | lift_lets

theorem keeps_adoptMirror {a : State} (m : MirrorChannel) (s : State) (h : Keeps a s) : Keeps a (adoptMirror m s) := ⟨h.1, h.2⟩

theorem keeps_adoptMirrors {a : State} (y0 : List MirrorChannel) (y1 : State) (h : Keeps a y1) : Keeps a (adoptMirrors y0 y1) := by
  induction y0 generalizing y1 with
  | nil =>
    unfold adoptMirrors
    repeat' first
       | (intro x; first | (have hx : Keeps a x := by (unfold x; repeat' first | with_reducible assumption | with_reducible apply keeps_adoptMirror | split)); clear_value x | (have _ : HostIf := x) | (have _ : Keys := x) | (have _ : Fwu := x) | clear_value x | skip)
       | with_reducible assumption | with_reducible apply keeps_adoptMirror | split | lift_lets
  | cons x r ih =>
    unfold adoptMirrors
    repeat' first
       | (intro x; first | (have hx : Keeps a x := by (unfold x; repeat' first | with_reducible assumption | with_reducible apply keeps_adoptMirror | with_reducible apply ih | split)); clear_value x | (have _ : HostIf := x) | (have _ : Keys := x) | (have _ : Fwu := x) | clear_value x | skip)
       | with_reducible assumption | with_reducible apply keeps_adoptMirror | with_reducible apply ih | split | lift_lets

theorem keeps_restoreLoop {a : State} (m : MirrorChannel) (s : State) (h : Keeps a s) : Keeps a (restoreLoop m s) := ⟨h.1, h.2⟩

theorem keeps_specLoopConfig {a : State} (r : Req) (p : Bytes) (s : State) (h : Keeps a s) : Keeps a (specLoopConfig.run r p s) := by
  unfold specLoopConfig; dsimp only
  repeat' first
     | (intro x; first | (have hx : Keeps a x := by (unfold x; repeat' first | with_reducible assumption | with_reducible apply keeps_finishOk | with_reducible apply keeps_setChan | split)); clear_value x | (have _ : HostIf := x) | (have _ : Keys := x) | (have _ : Fwu := x) | clear_value x | skip)
     | with_reducible assumption | with_reducible apply keeps_finishOk | with_reducible apply keeps_setChan | split | lift_lets

theorem keeps_execCmdLoopConfig {a : State} (r : Req) (s : State) (h : Keeps a s) : Goes a (execCmdLoopConfig r s) :=
  goes_next (keeps_runCmd keeps_specLoopConfig r h)

theorem keeps_specLoopRead {a : State} (r : Req) (p : Bytes) (s : State) (h : Keeps a s) : Keeps a (specLoopRead.run r p s) := by
  unfold specLoopRead; dsimp only
  repeat' first
     | (intro x; first | (have hx : Keeps a x := by (unfold x; repeat' first | with_reducible assumption | with_reducible apply keeps_finishOk | split)); clear_value x | (have _ : HostIf := x) | (have _ : Keys := x) | (have _ : Fwu := x) | clear_value x | skip)
     | with_reducible assumption | with_reducible apply keeps_finishOk | split | lift_lets

theorem keeps_execCmdLoopRead {a : State} (r : Req) (s : State) (h : Keeps a s) : Goes a (execCmdLoopRead r s) :=
  goes_next (keeps_runCmd keeps_specLoopRead r h)

theorem keeps_specLoopEnable {a : State} (r : Req) (p : Bytes) (s : State) (h : Keeps a s) : Keeps a (specLoopEnable.run r p s) := by
  unfold specLoopEnable; dsimp only
  repeat' first
     | (intro x; first | (have hx : Keeps a x := by (unfold x; repeat' first | with_reducible assumption | with_reducible apply keeps_setChan | with_reducible apply keeps_finishOk | split)); clear_value x | (have _ : HostIf := x) | (have _ : Keys := x) | (have _ : Fwu := x) | clear_value x | skip)
     | with_reducible assumption | with_reducible apply keeps_setChan | with_reducible apply keeps_finishOk | split | lift_lets

theorem keeps_execCmdLoopEnable {a : State} (r : Req) (s : State) (h : Keeps a s) : Goes a (execCmdLoopEnable r s) :=
  goes_next (keeps_runCmd keeps_specLoopEnable r h)

theorem keeps_specLoopAck {a : State} (r : Req) (p : Bytes) (s : State) (h : Keeps a s) : Keeps a (specLoopAck.run r p s) := by
  unfold specLoopAck; dsimp only
  repeat' first
     | (intro x; first | (have hx : Keeps a x := by (unfold x; repeat' first | with_reducible assumption | with_reducible apply keeps_setChan | with_reducible apply keeps_finishOk | split)); clear_value x | (have _ : HostIf := x) | (have _ : Keys := x) | (have _ : Fwu := x) | clear_value x | skip)
     | with_reducible assumption | with_reducible apply keeps_setChan | with_reducible apply keeps_finishOk | split | lift_lets

theorem keeps_execCmdLoopAck {a : State} (r : Req) (s : State) (h : Keeps a s) : Goes a (execCmdLoopAck r s) :=
  goes_next (keeps_runCmd keeps_specLoopAck r h)

theorem keeps_specLoopStatus {a : State} (r : Req) (p : Bytes) (s : State) (h : Keeps a s) : Keeps a (specLoopStatus.run r p s) := by
  unfold specLoopStatus; dsimp only
  repeat' first
     | (intro x; first | (have hx : Keeps a x := by (unfold x; repeat' first | with_reducible assumption | with_reducible apply keeps_finishOk | split)); clear_value x | (have _ : HostIf := x) | (have _ : Keys := x) | (have _ : Fwu := x) | clear_value x | skip)
     | with_reducible assumption | with_reducible apply keeps_finishOk | split | lift_lets

theorem keeps_execCmdLoopStatus {a : State} (r : Req) (s : State) (h : Keeps a s) : Goes a (execCmdLoopStatus r s) :=
  goes_next (keeps_runCmd keeps_specLoopStatus r h)

end Sys2Proof.Laws
end

