-- ==== Sys2Proof/Laws/KeepsRetain.lean ====
section
/-! SUPPORT. Laws/KeepsRetain.lean: what each operation of Machine/Retain.lean keeps (Laws/Keeps.lean). -/

namespace Sys2Proof.Laws

set_option linter.all false

open Sys2Proof.Machine

theorem keeps_saveRetain {a : State} (final : Bool) (stamp : Nat) (s : State) (h : Keeps a s) : Keeps a (saveRetain final stamp s) := by
  unfold saveRetain
  repeat' first | exact ⟨h.1, h.2⟩ | assumption | split

theorem keeps_sealHalf {a : State} (s : State) (h : Keeps a s) : Keeps a (sealHalf s) := by
  unfold sealHalf
  repeat' first | exact ⟨h.1, h.2⟩ | assumption | split

theorem keeps_putInst {a : State} (c : Nat) (id : Nat) (words : List W64) (fresh : Bool) (s : State) (h : Keeps a s) : Keeps a (putInst c id words fresh s) := ⟨h.1, h.2⟩

end Sys2Proof.Laws
end

