-- ==== Sys2Proof/Laws/KeepsBudget.lean ====
section
/-! SUPPORT. Laws/KeepsBudget.lean: what each operation of Machine/Budget.lean keeps (Laws/Keeps.lean). -/

namespace Sys2Proof.Laws

set_option linter.all false

open Sys2Proof.Machine

theorem keeps_setEngine {a : State} (e : Nat) (f : Engine → Engine) (s : State) (h : Keeps a s) : Keeps a (setEngine e f s) := ⟨h.1, h.2⟩

theorem keeps_settleCfgErr {a : State} (s : State) (h : Keeps a s) : Keeps a (settleCfgErr s) := ⟨h.1, h.2⟩

theorem keeps_adoptBudget {a : State} (s : State) (h : Keeps a s) : Keeps a (adoptBudget s) := by
  unfold adoptBudget
  with_reducible repeat' first
     | (intro x; first | (have hx : Keeps a x := by (unfold x; repeat' first | assumption | split)); clear_value x | (have _ : HostIf := x) | (have _ : Keys := x) | (have _ : Fwu := x) | clear_value x | skip)
     | assumption | split | lift_lets

theorem keeps_settleAdmit {a : State} (s : State) (h : Keeps a s) : Keeps a (settleAdmit s) := ⟨h.1, h.2⟩

theorem keeps_debit {a : State} (ember : Nat) (s : State) (h : Keeps a s) : Keeps a (debit ember s) := by
  induction ember generalizing s with
  | zero =>
    unfold debit
    repeat' first
       | (intro x; first | (have hx : Keeps a x := by (unfold x; repeat' first | with_reducible assumption | with_reducible apply keeps_settleAdmit | split)); clear_value x | (have _ : HostIf := x) | (have _ : Keys := x) | (have _ : Fwu := x) | clear_value x | skip)
       | with_reducible assumption | with_reducible apply keeps_settleAdmit | split | lift_lets
  | succ x ih =>
    unfold debit
    repeat' first
       | (intro x; first | (have hx : Keeps a x := by (unfold x; repeat' first | with_reducible assumption | with_reducible apply keeps_settleAdmit | with_reducible apply ih | split)); clear_value x | (have _ : HostIf := x) | (have _ : Keys := x) | (have _ : Fwu := x) | clear_value x | skip)
       | with_reducible assumption | with_reducible apply keeps_settleAdmit | with_reducible apply ih | split | lift_lets

theorem keeps_settleEntry {a : State} (x : Entry) (spent : Nat) (s : State) (h : Keeps a s) : Keeps a (settleEntry x spent s) := ⟨h.1, h.2⟩

theorem keeps_tickEvents {a : State} (was : Nat) (owed : Int) (s : State) (h : Keeps a s) : Keeps a (tickEvents was owed s) := by
  unfold tickEvents
  repeat' first | exact ⟨h.1, h.2⟩ | assumption | with_reducible apply keeps_raise | with_reducible apply keeps_rcAdd | split

theorem keeps_orderPoint {a : State} (b : Nat) (p : Fin 5) (s : State) (h : Keeps a s) : Keeps a (orderPoint b p s) := by
  unfold orderPoint
  with_reducible repeat' first
     | (intro x; first | (have hx : Keeps a x := by (unfold x; repeat' first | assumption | apply keeps_setBrick | split)); clear_value x | (have _ : HostIf := x) | (have _ : Keys := x) | (have _ : Fwu := x) | clear_value x | skip)
     | assumption | apply keeps_setBrick | split | lift_lets

theorem keeps_orderPoints {a : State} (y0 : List Nat) (y1 : State) (h : Keeps a y1) : Keeps a (orderPoints y0 y1) := by
  induction y0 generalizing y1 with
  | nil =>
    unfold orderPoints
    repeat' first
       | (intro x; first | (have hx : Keeps a x := by (unfold x; repeat' first | with_reducible assumption | with_reducible apply keeps_orderPoint | split)); clear_value x | (have _ : HostIf := x) | (have _ : Keys := x) | (have _ : Fwu := x) | clear_value x | skip)
       | with_reducible assumption | with_reducible apply keeps_orderPoint | split | lift_lets
  | cons x r ih =>
    unfold orderPoints
    repeat' first
       | (intro x; first | (have hx : Keeps a x := by (unfold x; repeat' first | with_reducible assumption | with_reducible apply keeps_orderPoint | with_reducible apply ih | split)); clear_value x | (have _ : HostIf := x) | (have _ : Keys := x) | (have _ : Fwu := x) | clear_value x | skip)
       | with_reducible assumption | with_reducible apply keeps_orderPoint | with_reducible apply ih | split | lift_lets

theorem keeps_raiseDeadline {a : State} (b : Nat) (s : State) (h : Keeps a s) : Keeps a (raiseDeadline b s) := by
  unfold raiseDeadline
  repeat' first | exact ⟨h.1, h.2⟩ | assumption | with_reducible apply keeps_orderPoint | split

theorem keeps_execGovernorTick {a : State} (baseCharge : Nat) (s : State) (h : Keeps a s) : Goes a (execGovernorTick baseCharge s) := by
  unfold execGovernorTick
  (try intro x)
  apply goes_next
  repeat' first
     | (intro x; first | (have hx : Keeps a x := by (unfold x; repeat' first | with_reducible assumption | with_reducible apply keeps_adoptBudget | with_reducible apply keeps_orderPoints | with_reducible apply keeps_settleAdmit | with_reducible apply keeps_tickEvents | split)); clear_value x | (have _ : HostIf := x) | (have _ : Keys := x) | (have _ : Fwu := x) | clear_value x | skip)
     | with_reducible assumption | with_reducible apply keeps_adoptBudget | with_reducible apply keeps_orderPoints
     | with_reducible apply keeps_settleAdmit | with_reducible apply keeps_tickEvents | split | lift_lets

theorem keeps_fillPool {a : State} (s : State) (h : Keeps a s) : Keeps a (fillPool s) := by
  unfold fillPool
  with_reducible repeat' first
     | (intro x; first | (have hx : Keeps a x := by (unfold x; repeat' first | assumption | apply keeps_adoptBudget | apply keeps_settleAdmit | split)); clear_value x | (have _ : HostIf := x) | (have _ : Keys := x) | (have _ : Fwu := x) | clear_value x | skip)
     | assumption | apply keeps_adoptBudget | apply keeps_settleAdmit | split | lift_lets

theorem keeps_wakeBricks {a : State} (y0 : List Nat) (y1 : State) (h : Keeps a y1) : Keeps a (wakeBricks y0 y1) := by
  induction y0 generalizing y1 with
  | nil =>
    unfold wakeBricks
    repeat' first
       | (intro x; first | (have hx : Keeps a x := by (unfold x; repeat' first | with_reducible assumption | with_reducible apply keeps_wakeBrick | split)); clear_value x | (have _ : HostIf := x) | (have _ : Keys := x) | (have _ : Fwu := x) | clear_value x | skip)
       | with_reducible assumption | with_reducible apply keeps_wakeBrick | split | lift_lets
  | cons x r ih =>
    unfold wakeBricks
    repeat' first
       | (intro x; first | (have hx : Keeps a x := by (unfold x; repeat' first | with_reducible assumption | with_reducible apply keeps_wakeBrick | with_reducible apply ih | split)); clear_value x | (have _ : HostIf := x) | (have _ : Keys := x) | (have _ : Fwu := x) | clear_value x | skip)
       | with_reducible assumption | with_reducible apply keeps_wakeBrick | with_reducible apply ih | split | lift_lets

theorem keeps_wakeHomes {a : State} (rows : Nat) (s : State) (h : Keeps a s) : Keeps a (wakeHomes rows s) := by
  unfold wakeHomes
  repeat' first | exact ⟨h.1, h.2⟩ | assumption | with_reducible apply keeps_wakeBricks | split

theorem keeps_execBrickBank {a : State} (b : BrickId) (s : State) (h : Keeps a s) : Goes a (execBrickBank b s) := by
  unfold execBrickBank
  (try intro x)
  apply goes_next
  repeat' first
     | (intro x; first | (have hx : Keeps a x := by (unfold x; repeat' first | with_reducible assumption | with_reducible apply keeps_setBrick | split)); clear_value x | (have _ : HostIf := x) | (have _ : Keys := x) | (have _ : Fwu := x) | clear_value x | skip)
     | with_reducible assumption | with_reducible apply keeps_setBrick | split | lift_lets

theorem keeps_execBrickWake {a : State} (b : BrickId) (s : State) (h : Keeps a s) : Goes a (execBrickWake b s) := by
  unfold execBrickWake
  (try intro x)
  apply goes_next
  repeat' first
     | (intro x; first | (have hx : Keeps a x := by (unfold x; repeat' first | with_reducible assumption | with_reducible apply keeps_wakeBrick | split)); clear_value x | (have _ : HostIf := x) | (have _ : Keys := x) | (have _ : Fwu := x) | clear_value x | skip)
     | with_reducible assumption | with_reducible apply keeps_wakeBrick | split | lift_lets

theorem keeps_execSlowForced {a : State} (s : State) (h : Keeps a s) : Goes a (execSlowForced s) := by
  unfold execSlowForced
  (try intro x)
  apply goes_next
  repeat' first
     | (intro x; first | (have hx : Keeps a x := by (unfold x; repeat' first | with_reducible assumption | with_reducible apply keeps_setCls | with_reducible apply keeps_raise | split)); clear_value x | (have _ : HostIf := x) | (have _ : Keys := x) | (have _ : Fwu := x) | clear_value x | skip)
     | with_reducible assumption | with_reducible apply keeps_setCls | with_reducible apply keeps_raise | split | lift_lets

theorem keeps_specBudgetConfig {a : State} (r : Req) (p : Bytes) (s : State) (h : Keeps a s) : Keeps a (specBudgetConfig.run r p s) := by
  unfold specBudgetConfig; dsimp only
  repeat' first
     | (intro x; first | (have hx : Keeps a x := by (unfold x; repeat' first | with_reducible assumption | with_reducible apply keeps_cfgPoke | with_reducible apply keeps_finishOk | with_reducible apply keeps_settleCfgErr | with_reducible apply keeps_resign | split)); clear_value x | (have _ : HostIf := x) | (have _ : Keys := x) | (have _ : Fwu := x) | clear_value x | skip)
     | with_reducible assumption | with_reducible apply keeps_cfgPoke | with_reducible apply keeps_finishOk
     | with_reducible apply keeps_settleCfgErr | with_reducible apply keeps_resign | split | lift_lets

theorem keeps_execCmdBudgetConfig {a : State} (r : Req) (s : State) (h : Keeps a s) : Goes a (execCmdBudgetConfig r s) :=
  goes_next (keeps_runCmd keeps_specBudgetConfig r h)

theorem keeps_specBudgetStatus {a : State} (r : Req) (p : Bytes) (s : State) (h : Keeps a s) : Keeps a (specBudgetStatus.run r p s) := by
  unfold specBudgetStatus; dsimp only
  repeat' first
     | (intro x; first | (have hx : Keeps a x := by (unfold x; repeat' first | with_reducible assumption | with_reducible apply keeps_finishOk | split)); clear_value x | (have _ : HostIf := x) | (have _ : Keys := x) | (have _ : Fwu := x) | clear_value x | skip)
     | with_reducible assumption | with_reducible apply keeps_finishOk | split | lift_lets

theorem keeps_execCmdBudgetStatus {a : State} (r : Req) (s : State) (h : Keeps a s) : Goes a (execCmdBudgetStatus r s) :=
  goes_next (keeps_runCmd keeps_specBudgetStatus r h)

theorem keeps_execBgtConfigWrite {a : State} (p : Port) (off : W16) (v : W32) (s : State) (h : Keeps a s) : Goes a (execBgtConfigWrite p off v s) := by
  unfold execBgtConfigWrite
  (try intro x)
  apply goes_next
  repeat' first
     | (intro x; first | (have hx : Keeps a x := by (unfold x; repeat' first | with_reducible assumption | with_reducible apply keeps_ownWrite | with_reducible apply keeps_settleCfgErr | with_reducible apply keeps_cfgSet | split)); clear_value x | (have _ : HostIf := x) | (have _ : Keys := x) | (have _ : Fwu := x) | clear_value x | skip)
     | with_reducible assumption | with_reducible apply keeps_ownWrite | with_reducible apply keeps_settleCfgErr
     | with_reducible apply keeps_cfgSet | split | lift_lets

end Sys2Proof.Laws
end

