-- ==== Sys2Proof/Laws/KeepsSolver.lean ====
section
/-! SUPPORT. Laws/KeepsSolver.lean: what each operation of Machine/Solver.lean keeps (Laws/Keeps.lean). -/

namespace Sys2Proof.Laws

set_option linter.all false

open Sys2Proof.Machine

theorem keeps_markState {a : State} (st : Nat) (id : Nat) (s : State) (h : Keeps a s) : Keeps a (markState st id s) := by
  unfold markState
  repeat' first | exact ⟨h.1, h.2⟩ | assumption | with_reducible apply keeps_setQuality | split

theorem keeps_markStates {a : State} (st : Nat) (y1 : List Nat) (y2 : State) (h : Keeps a y2) : Keeps a (markStates st y1 y2) := by
  induction y1 generalizing y2 with
  | nil =>
    unfold markStates
    repeat' first
       | (intro x; first | (have hx : Keeps a x := by (unfold x; repeat' first | with_reducible assumption | with_reducible apply keeps_markState | split)); clear_value x | (have _ : HostIf := x) | (have _ : Keys := x) | (have _ : Fwu := x) | clear_value x | skip)
       | with_reducible assumption | with_reducible apply keeps_markState | split | lift_lets
  | cons x r ih =>
    unfold markStates
    repeat' first
       | (intro x; first | (have hx : Keeps a x := by (unfold x; repeat' first | with_reducible assumption | with_reducible apply keeps_markState | with_reducible apply ih | split)); clear_value x | (have _ : HostIf := x) | (have _ : Keys := x) | (have _ : Fwu := x) | clear_value x | skip)
       | with_reducible assumption | with_reducible apply keeps_markState | with_reducible apply ih | split | lift_lets

theorem keeps_writeResult {a : State} (stime : W32) (q : Byte) (e : Nat × Int) (s : State) (h : Keeps a s) : Keeps a (writeResult stime q e s) := by
  unfold writeResult
  repeat' first | exact ⟨h.1, h.2⟩ | assumption | with_reducible apply keeps_writeScaled | split

theorem keeps_writeResults {a : State} (stime : W32) (q : Byte) (y2 : List (Nat × Int)) (y3 : State) (h : Keeps a y3) : Keeps a (writeResults stime q y2 y3) := by
  induction y2 generalizing y3 with
  | nil =>
    unfold writeResults
    repeat' first
       | (intro x; first | (have hx : Keeps a x := by (unfold x; repeat' first | with_reducible assumption | with_reducible apply keeps_writeResult | split)); clear_value x | (have _ : HostIf := x) | (have _ : Keys := x) | (have _ : Fwu := x) | clear_value x | skip)
       | with_reducible assumption | with_reducible apply keeps_writeResult | split | lift_lets
  | cons x r ih =>
    unfold writeResults
    repeat' first
       | (intro x; first | (have hx : Keeps a x := by (unfold x; repeat' first | with_reducible assumption | with_reducible apply keeps_writeResult | with_reducible apply ih | split)); clear_value x | (have _ : HostIf := x) | (have _ : Keys := x) | (have _ : Fwu := x) | clear_value x | skip)
       | with_reducible assumption | with_reducible apply keeps_writeResult | with_reducible apply ih | split | lift_lets

theorem keeps_raiseRanges {a : State} (y1 : List (List Int)) (y2 : State) (h : Keeps a y2) : Keeps a (raiseRanges y1 y2) := by
  induction y1 generalizing y2 with
  | nil =>
    unfold raiseRanges
    repeat' first
       | (intro x; first | (have hx : Keeps a x := by (unfold x; repeat' first | with_reducible assumption | with_reducible apply keeps_raise | with_reducible apply keeps_rcAdd | split)); clear_value x | (have _ : HostIf := x) | (have _ : Keys := x) | (have _ : Fwu := x) | clear_value x | skip)
       | with_reducible assumption | with_reducible apply keeps_raise | with_reducible apply keeps_rcAdd | split | lift_lets
  | cons x r ih =>
    unfold raiseRanges
    repeat' first
       | (intro x; first | (have hx : Keeps a x := by (unfold x; repeat' first | with_reducible assumption | with_reducible apply keeps_raise | with_reducible apply keeps_rcAdd | with_reducible apply ih | split)); clear_value x | (have _ : HostIf := x) | (have _ : Keys := x) | (have _ : Fwu := x) | clear_value x | skip)
       | with_reducible assumption | with_reducible apply keeps_raise | with_reducible apply keeps_rcAdd
       | with_reducible apply ih | split | lift_lets

theorem keeps_restLanes_go {a : State} (y0 : List Nat) (y1 : State) (h : Keeps a y1) : Keeps a (restLanes.go y0 y1) := by
  induction y0 generalizing y1 with
  | nil =>
    unfold restLanes.go
    repeat' first
       | (intro x; first | (have hx : Keeps a x := by (unfold x; repeat' first | with_reducible assumption | with_reducible apply keeps_setBrick | split)); clear_value x | (have _ : HostIf := x) | (have _ : Keys := x) | (have _ : Fwu := x) | clear_value x | skip)
       | with_reducible assumption | with_reducible apply keeps_setBrick | split | lift_lets
  | cons x r ih =>
    unfold restLanes.go
    repeat' first
       | (intro x; first | (have hx : Keeps a x := by (unfold x; repeat' first | with_reducible assumption | with_reducible apply keeps_setBrick | with_reducible apply ih | split)); clear_value x | (have _ : HostIf := x) | (have _ : Keys := x) | (have _ : Fwu := x) | clear_value x | skip)
       | with_reducible assumption | with_reducible apply keeps_setBrick | with_reducible apply ih | split | lift_lets

theorem keeps_restLanes {a : State} (s : State) (h : Keeps a s) : Keeps a (restLanes s) := ⟨h.1, h.2⟩

theorem keeps_settleBad {a : State} (keepMax : Nat) (s : State) (h : Keeps a s) : Keeps a (settleBad keepMax s) := by
  unfold settleBad
  with_reducible repeat' first
     | (intro x; first | (have hx : Keeps a x := by (unfold x; repeat' first | assumption | apply keeps_raise | split)); clear_value x | (have _ : HostIf := x) | (have _ : Keys := x) | (have _ : Fwu := x) | clear_value x | skip)
     | assumption | apply keeps_raise | split | lift_lets

theorem keeps_rejectStage {a : State} (keepMax : Nat) (n : Nat) (stage : Nat) (pts : List Nat) (s : State) (h : Keeps a s) : Keeps a (rejectStage keepMax n stage pts s) := by
  unfold rejectStage
  with_reducible repeat' first
     | (intro x; first | (have hx : Keeps a x := by (unfold x; repeat' first | assumption | apply keeps_raise | apply keeps_rcAdd | apply keeps_markStates | apply keeps_stage | split)); clear_value x | (have _ : HostIf := x) | (have _ : Keys := x) | (have _ : Fwu := x) | clear_value x | skip)
     | assumption | apply keeps_raise | apply keeps_rcAdd | apply keeps_markStates | apply keeps_stage | split | lift_lets

theorem keeps_applyHyd {a : State} (r : JobRun) (e : JobEnd) (s : State) (h : Keeps a s) : Keeps a (applyHyd r e s) := by
  unfold applyHyd
  with_reducible repeat' first
     | (intro x; first | (have hx : Keeps a x := by (unfold x; repeat' first | assumption | apply keeps_writeResults | apply keeps_rejectStage | split)); clear_value x | (have _ : HostIf := x) | (have _ : Keys := x) | (have _ : Fwu := x) | clear_value x | skip)
     | assumption | apply keeps_writeResults | apply keeps_rejectStage | split | lift_lets

theorem keeps_applyTherm {a : State} (r : JobRun) (e : JobEnd) (s : State) (h : Keeps a s) : Keeps a (applyTherm r e s) := by
  unfold applyTherm
  with_reducible repeat' first
     | (intro x; first | (have hx : Keeps a x := by (unfold x; repeat' first | assumption | apply keeps_writeResults | apply keeps_rejectStage | split)); clear_value x | (have _ : HostIf := x) | (have _ : Keys := x) | (have _ : Fwu := x) | clear_value x | skip)
     | assumption | apply keeps_writeResults | apply keeps_rejectStage | split | lift_lets

theorem keeps_solutionAfter {a : State} (r : JobRun) (e : JobEnd) (s : State) (h : Keeps a s) : Keeps a (solutionAfter r e s) := by
  unfold solutionAfter
  repeat' first | exact ⟨h.1, h.2⟩ | assumption | split

theorem keeps_settleMain {a : State} (r : JobRun) (e : JobEnd) (s : State) (h : Keeps a s) : Keeps a (settleMain r e s) := ⟨h.1, h.2⟩

theorem keeps_jobEvents {a : State} (r : JobRun) (e : JobEnd) (s : State) (h : Keeps a s) : Keeps a (jobEvents r e s) := by
  unfold jobEvents
  with_reducible repeat' first
     | (intro x; first | (have hx : Keeps a x := by (unfold x; repeat' first | assumption | apply keeps_raiseRanges | apply keeps_raise | apply keeps_rcAdd | split)); clear_value x | (have _ : HostIf := x) | (have _ : Keys := x) | (have _ : Fwu := x) | clear_value x | skip)
     | assumption | apply keeps_raiseRanges | apply keeps_raise | apply keeps_rcAdd | split | lift_lets

theorem keeps_markIslands {a : State} (r : JobRun) (s : State) (h : Keeps a s) : Keeps a (markIslands r s) := by
  unfold markIslands
  repeat' first | exact ⟨h.1, h.2⟩ | assumption | with_reducible apply keeps_markStates | split

theorem keeps_raiseIslands {a : State} (r : JobRun) (s : State) (h : Keeps a s) : Keeps a (raiseIslands r s) := by
  unfold raiseIslands
  repeat' first | exact ⟨h.1, h.2⟩ | assumption | with_reducible apply keeps_raise | split

theorem keeps_returnMain {a : State} (r : JobRun) (e : JobEnd) (s : State) (h : Keeps a s) : Keeps a (returnMain r e s) := by
  unfold returnMain
  with_reducible repeat' first
     | (intro x; first | (have hx : Keeps a x := by (unfold x; repeat' first | assumption | apply keeps_markIslands | apply keeps_jobEvents | apply keeps_applyTherm | apply keeps_applyHyd | apply keeps_restLanes | apply keeps_settleMain | apply keeps_solutionAfter | apply keeps_settleBad | split)); clear_value x | (have _ : HostIf := x) | (have _ : Keys := x) | (have _ : Fwu := x) | clear_value x | skip)
     | assumption | apply keeps_markIslands | apply keeps_jobEvents | apply keeps_applyTherm | apply keeps_applyHyd
     | apply keeps_restLanes | apply keeps_settleMain | apply keeps_solutionAfter | apply keeps_settleBad | split | lift_lets

theorem keeps_returnHost {a : State} (r : JobRun) (t : JobTiming) (s : State) (h : Keeps a s) : Keeps a (returnHost r t s) := by
  unfold returnHost
  with_reducible repeat' first
     | (intro x; first | (have hx : Keeps a x := by (unfold x; repeat' first | assumption | apply keeps_jobEvents | apply keeps_raise | apply keeps_rcAdd | apply keeps_restLanes | apply keeps_finishOpt | split)); clear_value x | (have _ : HostIf := x) | (have _ : Keys := x) | (have _ : Fwu := x) | clear_value x | skip)
     | assumption | apply keeps_jobEvents | apply keeps_raise | apply keeps_rcAdd | apply keeps_restLanes
     | apply keeps_finishOpt | split | lift_lets

theorem keeps_abortMain {a : State} (s : State) (h : Keeps a s) : Keeps a (abortMain s) := by
  unfold abortMain
  with_reducible repeat' first
     | (intro x; first | (have hx : Keeps a x := by (unfold x; repeat' first | assumption | apply keeps_markStates | apply keeps_restLanes | apply keeps_settleBad | split)); clear_value x | (have _ : HostIf := x) | (have _ : Keys := x) | (have _ : Fwu := x) | clear_value x | skip)
     | assumption | apply keeps_markStates | apply keeps_restLanes | apply keeps_settleBad | split | lift_lets

theorem keeps_abortHost {a : State} (s : State) (h : Keeps a s) : Keeps a (abortHost s) := by
  unfold abortHost
  with_reducible repeat' first
     | (intro x; first | (have hx : Keeps a x := by (unfold x; repeat' first | assumption | apply keeps_restLanes | apply keeps_finishOpt | split)); clear_value x | (have _ : HostIf := x) | (have _ : Keys := x) | (have _ : Fwu := x) | clear_value x | skip)
     | assumption | apply keeps_restLanes | apply keeps_finishOpt | split | lift_lets

end Sys2Proof.Laws
end

