-- ==== Sys2Proof/Laws/KeepsOptEst.lean ====
section
/-! SUPPORT. Laws/KeepsOptEst.lean: what each operation of Machine/OptEst.lean keeps (Laws/Keeps.lean). -/

namespace Sys2Proof.Laws

set_option linter.all false

open Sys2Proof.Machine

theorem keeps_noteMismatch {a : State} (s : State) (h : Keeps a s) : Keeps a (noteMismatch s) := by
  unfold noteMismatch
  with_reducible repeat' first
     | (intro x; first | (have hx : Keeps a x := by (unfold x; repeat' first | assumption | apply keeps_raise | split)); clear_value x | (have _ : HostIf := x) | (have _ : Keys := x) | (have _ : Fwu := x) | clear_value x | skip)
     | assumption | apply keeps_raise | split | lift_lets

theorem keeps_installPlan {a : State} (s : State) (h : Keeps a s) : Keeps a (installPlan s) := by
  unfold installPlan
  repeat' first | with_reducible assumption | with_reducible apply keeps_sendMirror | with_reducible apply keeps_raise | split

theorem keeps_writeTraj {a : State} (stamp : Nat) (e : Nat × Nat) (s : State) (h : Keeps a s) : Keeps a (writeTraj stamp e s) := by
  unfold writeTraj
  with_reducible repeat' first
     | (intro x; first | (have hx : Keeps a x := by (unfold x; repeat' first | assumption | apply keeps_writeScaled | apply keeps_markState | split)); clear_value x | (have _ : HostIf := x) | (have _ : Keys := x) | (have _ : Fwu := x) | clear_value x | skip)
     | assumption | apply keeps_writeScaled | apply keeps_markState | split | lift_lets

theorem keeps_writeTrajs {a : State} (stamp : Nat) (y1 : List (Nat × Nat)) (y2 : State) (h : Keeps a y2) : Keeps a (writeTrajs stamp y1 y2) := by
  induction y1 generalizing y2 with
  | nil =>
    unfold writeTrajs
    repeat' first
       | (intro x; first | (have hx : Keeps a x := by (unfold x; repeat' first | with_reducible assumption | with_reducible apply keeps_writeTraj | split)); clear_value x | (have _ : HostIf := x) | (have _ : Keys := x) | (have _ : Fwu := x) | clear_value x | skip)
       | with_reducible assumption | with_reducible apply keeps_writeTraj | split | lift_lets
  | cons x r ih =>
    unfold writeTrajs
    repeat' first
       | (intro x; first | (have hx : Keeps a x := by (unfold x; repeat' first | with_reducible assumption | with_reducible apply keeps_writeTraj | with_reducible apply ih | split)); clear_value x | (have _ : HostIf := x) | (have _ : Keys := x) | (have _ : Fwu := x) | clear_value x | skip)
       | with_reducible assumption | with_reducible apply keeps_writeTraj | with_reducible apply ih | split | lift_lets

theorem keeps_trajectoryWrite {a : State} (stamp : Nat) (s : State) (h : Keeps a s) : Keeps a (trajectoryWrite stamp s) := by
  unfold trajectoryWrite
  with_reducible repeat' first
     | (intro x; first | (have hx : Keeps a x := by (unfold x; repeat' first | assumption | apply keeps_writeTrajs | apply keeps_raise | split)); clear_value x | (have _ : HostIf := x) | (have _ : Keys := x) | (have _ : Fwu := x) | clear_value x | skip)
     | assumption | apply keeps_writeTrajs | apply keeps_raise | split | lift_lets

theorem keeps_modelDue {a : State} (t : Nat) (s : State) (h : Keeps a s) : Keeps a (modelDue t s) := by
  unfold modelDue
  with_reducible repeat' first
     | (intro x; first | (have hx : Keeps a x := by (unfold x; repeat' first | assumption | apply keeps_finishOk | apply keeps_noteMismatch | apply keeps_raise | split)); clear_value x | (have _ : HostIf := x) | (have _ : Keys := x) | (have _ : Fwu := x) | clear_value x | skip)
     | assumption | apply keeps_finishOk | apply keeps_noteMismatch | apply keeps_raise | split | lift_lets

theorem keeps_adoptProblem {a : State} (p : Problem) (s : State) (h : Keeps a s) : Keeps a (adoptProblem p s) := ⟨h.1, h.2⟩

theorem keeps_problemDue {a : State} (t : Nat) (s : State) (h : Keeps a s) : Keeps a (problemDue t s) := by
  unfold problemDue
  with_reducible repeat' first
     | (intro x; first | (have hx : Keeps a x := by (unfold x; repeat' first | assumption | apply keeps_finishOk | apply keeps_noteMismatch | apply keeps_adoptProblem | split)); clear_value x | (have _ : HostIf := x) | (have _ : Keys := x) | (have _ : Fwu := x) | clear_value x | skip)
     | assumption | apply keeps_finishOk | apply keeps_noteMismatch | apply keeps_adoptProblem | split | lift_lets

theorem keeps_judgePlan {a : State} (r : OptRun) (v : IpRun) (ok : Bool) (s : State) (h : Keeps a s) : Keeps a (judgePlan r v ok s) := by
  unfold judgePlan
  with_reducible repeat' first
     | (intro x; first | (have hx : Keeps a x := by (unfold x; repeat' first | assumption | apply keeps_raise | split)); clear_value x | (have _ : HostIf := x) | (have _ : Keys := x) | (have _ : Fwu := x) | clear_value x | skip)
     | assumption | apply keeps_raise | split | lift_lets

theorem keeps_returnEvents {a : State} (kind : Nat) (ranges : List (List Int)) (rec' : JobRecord) (s : State) (h : Keeps a s) : Keeps a (returnEvents kind ranges rec' s) := by
  unfold returnEvents
  with_reducible repeat' first
     | (intro x; first | (have hx : Keeps a x := by (unfold x; repeat' first | assumption | apply keeps_raiseRanges | apply keeps_raise | apply keeps_rcAdd | split)); clear_value x | (have _ : HostIf := x) | (have _ : Keys := x) | (have _ : Fwu := x) | clear_value x | skip)
     | assumption | apply keeps_raiseRanges | apply keeps_raise | apply keeps_rcAdd | split | lift_lets

theorem keeps_returnOpt {a : State} (r : OptRun) (v : IpRun) (mu0 : Dy) (s : State) (h : Keeps a s) : Keeps a (returnOpt r v mu0 s) := by
  unfold returnOpt
  with_reducible repeat' first
     | (intro x; first | (have hx : Keeps a x := by (unfold x; repeat' first | assumption | apply keeps_restLanes | apply keeps_judgePlan | apply keeps_returnEvents | split)); clear_value x | (have _ : HostIf := x) | (have _ : Keys := x) | (have _ : Fwu := x) | clear_value x | skip)
     | assumption | apply keeps_restLanes | apply keeps_judgePlan | apply keeps_returnEvents | split | lift_lets

theorem keeps_abortOpt {a : State} (s : State) (h : Keeps a s) : Keeps a (abortOpt s) := by
  unfold abortOpt
  repeat' first | exact ⟨h.1, h.2⟩ | assumption | with_reducible apply keeps_restLanes | split

theorem keeps_estTrigger {a : State} (t : EstTrigger) (req : Option Req) (s : State) (h : Keeps a s) : Keeps a (estTrigger t req s) := by
  unfold estTrigger
  repeat' first | exact ⟨h.1, h.2⟩ | assumption | split

theorem keeps_startEst {a : State} (t : EstTrigger) (req : Option Req) (s : State) (h : Keeps a s) : Keeps a (startEst t req s) := by
  unfold startEst
  repeat' first | exact ⟨h.1, h.2⟩ | assumption | with_reducible apply keeps_wakeHomes | split

theorem keeps_useEstimate {a : State} (m : Model) (r : EstRun) (p : List Int) (q : List Int) (dem : FMap Int) (s : State) (h : Keeps a s) : Keeps a (useEstimate m r p q dem s) := by
  unfold useEstimate
  repeat' first | exact ⟨h.1, h.2⟩ | assumption | with_reducible apply keeps_writeResults | split

theorem keeps_returnEst {a : State} (r : EstRun) (y : EstIter) (s : State) (h : Keeps a s) : Keeps a (returnEst r y s) := by
  unfold returnEst
  with_reducible repeat' first
     | (intro x; first | (have hx : Keeps a x := by (unfold x; repeat' first | assumption | apply keeps_returnEvents | apply keeps_raise | apply keeps_useEstimate | apply keeps_restLanes | apply keeps_finishOpt | split)); clear_value x | (have _ : HostIf := x) | (have _ : Keys := x) | (have _ : Fwu := x) | clear_value x | skip)
     | assumption | apply keeps_returnEvents | apply keeps_raise | apply keeps_useEstimate | apply keeps_restLanes
     | apply keeps_finishOpt | split | lift_lets

theorem keeps_abortEst {a : State} (s : State) (h : Keeps a s) : Keeps a (abortEst s) := by
  unfold abortEst
  with_reducible repeat' first
     | (intro x; first | (have hx : Keeps a x := by (unfold x; repeat' first | assumption | apply keeps_restLanes | apply keeps_finishOpt | split)); clear_value x | (have _ : HostIf := x) | (have _ : Keys := x) | (have _ : Fwu := x) | clear_value x | skip)
     | assumption | apply keeps_restLanes | apply keeps_finishOpt | split | lift_lets

theorem keeps_dropEstimates {a : State} (m : Model) (read : Nat → PointRec) (s : State) (h : Keeps a s) : Keeps a (dropEstimates m read s) := ⟨h.1, h.2⟩

theorem keeps_issueMain {a : State} (stamp : Nat) (read : Nat → PointRec) (s : State) (h : Keeps a s) : Keeps a (issueMain stamp read s).1 := by
  unfold issueMain
  repeat' first
     | (intro x; first | (have hx : Keeps a x := by (unfold x; repeat' first | with_reducible assumption | with_reducible apply keeps_dropEstimates | with_reducible apply keeps_wakeHomes | with_reducible apply keeps_raiseIslands | with_reducible apply keeps_estTrigger | split)); clear_value x | (have _ : HostIf := x) | (have _ : Keys := x) | (have _ : Fwu := x) | clear_value x | skip)
     | with_reducible assumption | with_reducible apply keeps_dropEstimates | with_reducible apply keeps_wakeHomes
     | with_reducible apply keeps_raiseIslands | with_reducible apply keeps_estTrigger | split | lift_lets

theorem keeps_issueMain_eq {a t : State} {stamp : Nat} {read : Nat → PointRec} {s : State} {z : _} (e : issueMain stamp read s = (t, z)) (h : Keeps a s) : Keeps a t := by
  have k := keeps_issueMain stamp read s h
  rw [e] at k; exact k

end Sys2Proof.Laws
end

