-- ==== Sys2Proof/Laws/KeepsPairCore.lean ====
section
/-! SUPPORT. Laws/KeepsPairCore.lean: what each operation of Machine/PairCore.lean keeps (Laws/Keeps.lean). -/

namespace Sys2Proof.Laws

set_option linter.all false

open Sys2Proof.Machine

theorem keeps_setPair {a : State} (f : Pair → Pair) (s : State) (h : Keeps a s) : Keeps a (setPair f s) := ⟨h.1, h.2⟩

theorem keeps_dropPaths {a : State} (s : State) (h : Keeps a s) : Keeps a (dropPaths s) := by
  unfold dropPaths
  repeat' first | with_reducible assumption | with_reducible apply keeps_refreshModes | split

theorem keeps_restRole {a : State} (r : Role) (s : State) (h : Keeps a s) : Keeps a (restRole r s) := by
  unfold restRole
  repeat' first | with_reducible assumption | with_reducible apply keeps_dropPaths | with_reducible apply keeps_setPair | split

theorem keeps_dropPartner {a : State} (s : State) (h : Keeps a s) : Keeps a (dropPartner s) := by
  unfold dropPartner
  with_reducible repeat' first
     | (intro x; first | (have hx : Keeps a x := by (unfold x; repeat' first | assumption | apply keeps_ackMirrored | apply keeps_setPair | split)); clear_value x | (have _ : HostIf := x) | (have _ : Keys := x) | (have _ : Fwu := x) | clear_value x | skip)
     | assumption | apply keeps_ackMirrored | apply keeps_setPair | split | lift_lets

theorem keeps_endExchange {a : State} (status : Nat) (s : State) (h : Keeps a s) : Keeps a (endExchange status s) := by
  unfold endExchange
  repeat' first | with_reducible assumption | with_reducible apply keeps_finishOpt | with_reducible apply keeps_setPair | split

theorem keeps_fenceSelf {a : State} (s : State) (h : Keeps a s) : Keeps a (fenceSelf s) := by
  unfold fenceSelf
  with_reducible repeat' first
     | (intro x; first | (have hx : Keeps a x := by (unfold x; repeat' first | assumption | apply keeps_endExchange | apply keeps_dropPartner | apply keeps_restRole | split)); clear_value x | (have _ : HostIf := x) | (have _ : Keys := x) | (have _ : Fwu := x) | clear_value x | skip)
     | assumption | apply keeps_endExchange | apply keeps_dropPartner | apply keeps_restRole | split | lift_lets

theorem keeps_mismatch {a : State} (row : Nat) (s : State) (h : Keeps a s) : Keeps a (mismatch row s) := by
  induction row generalizing s with
  | zero =>
    unfold mismatch
    repeat' first
       | (intro x; first | (have hx : Keeps a x := by (unfold x; repeat' first | with_reducible assumption | with_reducible apply keeps_rcAdd | with_reducible apply keeps_countFault | with_reducible apply keeps_setPair | split)); clear_value x | (have _ : HostIf := x) | (have _ : Keys := x) | (have _ : Fwu := x) | clear_value x | skip)
       | with_reducible assumption | with_reducible apply keeps_rcAdd | with_reducible apply keeps_countFault
       | with_reducible apply keeps_setPair | split | lift_lets
  | succ x ih =>
    unfold mismatch
    repeat' first
       | (intro x; first | (have hx : Keeps a x := by (unfold x; repeat' first | with_reducible assumption | with_reducible apply keeps_rcAdd | with_reducible apply keeps_countFault | with_reducible apply keeps_setPair | with_reducible apply ih | split)); clear_value x | (have _ : HostIf := x) | (have _ : Keys := x) | (have _ : Fwu := x) | clear_value x | skip)
       | with_reducible assumption | with_reducible apply keeps_rcAdd | with_reducible apply keeps_countFault
       | with_reducible apply keeps_setPair | with_reducible apply ih | split | lift_lets

theorem keeps_startResync {a : State} (s : State) (h : Keeps a s) : Keeps a (startResync s) := by
  unfold startResync
  repeat' first | exact ⟨h.1, h.2⟩ | assumption | with_reducible apply keeps_raise | with_reducible apply keeps_setPair | split

theorem keeps_noteLag {a : State} (own : OutDigest) (their : OutDigest) (active : List OutDigest) (s : State) (h : Keeps a s) : Keeps a (noteLag own their active s) := by
  unfold noteLag
  with_reducible repeat' first
     | (intro x; first | (have hx : Keeps a x := by (unfold x; repeat' first | assumption | apply keeps_setPair | apply keeps_raise | apply keeps_startResync | split)); clear_value x | (have _ : HostIf := x) | (have _ : Keys := x) | (have _ : Fwu := x) | clear_value x | skip)
     | assumption | apply keeps_setPair | apply keeps_raise | apply keeps_startResync | split | lift_lets

theorem keeps_compareDigest {a : State} (own : OutDigest) (their : OutDigest) (s : State) (h : Keeps a s) : Keeps a (compareDigest own their s) := by
  unfold compareDigest
  with_reducible repeat' first
     | (intro x; first | (have hx : Keeps a x := by (unfold x; repeat' first | assumption | apply keeps_setPair | apply keeps_mismatch | apply keeps_raise | split)); clear_value x | (have _ : HostIf := x) | (have _ : Keys := x) | (have _ : Fwu := x) | clear_value x | skip)
     | assumption | apply keeps_setPair | apply keeps_mismatch | apply keeps_raise | split | lift_lets

theorem keeps_compareAll {a : State} (y0 : List OutDigest) (y1 : State) (h : Keeps a y1) : Keeps a (compareAll y0 y1) := by
  induction y0 generalizing y1 with
  | nil =>
    unfold compareAll
    repeat' first
       | (intro x; first | (have hx : Keeps a x := by (unfold x; repeat' first | with_reducible assumption | with_reducible apply keeps_noteLag | with_reducible apply keeps_setPair | with_reducible apply keeps_compareDigest | split)); clear_value x | (have _ : HostIf := x) | (have _ : Keys := x) | (have _ : Fwu := x) | clear_value x | skip)
       | with_reducible assumption | with_reducible apply keeps_noteLag | with_reducible apply keeps_setPair
       | with_reducible apply keeps_compareDigest | split | lift_lets
  | cons x r ih =>
    unfold compareAll
    repeat' first
       | (intro x; first | (have hx : Keeps a x := by (unfold x; repeat' first | with_reducible assumption | with_reducible apply keeps_noteLag | with_reducible apply keeps_setPair | with_reducible apply keeps_compareDigest | with_reducible apply ih | split)); clear_value x | (have _ : HostIf := x) | (have _ : Keys := x) | (have _ : Fwu := x) | clear_value x | skip)
       | with_reducible assumption | with_reducible apply keeps_noteLag | with_reducible apply keeps_setPair
       | with_reducible apply keeps_compareDigest | with_reducible apply ih | split | lift_lets

theorem keeps_ownDigest {a : State} (c : Nat) (cycle : W32) (digest : W64) (s : State) (h : Keeps a s) : Keeps a (ownDigest c cycle digest s) := by
  unfold ownDigest
  repeat' first | with_reducible assumption | with_reducible apply keeps_setPair | with_reducible apply keeps_compareAll | split

theorem keeps_theirDigest {a : State} (c : Nat) (cycle : W32) (digest : W64) (s : State) (h : Keeps a s) : Keeps a (theirDigest c cycle digest s) := by
  unfold theirDigest
  repeat' first | with_reducible assumption | with_reducible apply keeps_setPair | with_reducible apply keeps_compareAll | split

theorem keeps_sendDigest {a : State} (c : Fin 4) (cycle : W32) (digest : W64) (set : List (Nat × Nat × Bytes)) (notCompared : Bool) (s : State) (h : Keeps a s) : Keeps a (sendDigest c cycle digest set notCompared s) := by
  unfold sendDigest
  with_reducible repeat' first
     | (intro x; first | (have hx : Keeps a x := by (unfold x; repeat' first | assumption | apply keeps_rcAdd | apply keeps_setPair | apply keeps_sendMirror | apply keeps_emit | apply keeps_ownDigest | split)); clear_value x | (have _ : HostIf := x) | (have _ : Keys := x) | (have _ : Fwu := x) | clear_value x | skip)
     | assumption | apply keeps_rcAdd | apply keeps_setPair | apply keeps_sendMirror | apply keeps_emit | apply keeps_ownDigest
     | split | lift_lets

theorem keeps_compareRetain {a : State} (s : State) (h : Keeps a s) : Keeps a (compareRetain s) := by
  unfold compareRetain
  with_reducible repeat' first
     | (intro x; first | (have hx : Keeps a x := by (unfold x; repeat' first | assumption | apply keeps_setPair | apply keeps_mismatch | apply keeps_raise | split)); clear_value x | (have _ : HostIf := x) | (have _ : Keys := x) | (have _ : Fwu := x) | clear_value x | skip)
     | assumption | apply keeps_setPair | apply keeps_mismatch | apply keeps_raise | split | lift_lets

theorem keeps_retainCommit {a : State} (stamp : Nat) (s : State) (h : Keeps a s) : Keeps a (retainCommit stamp s) := by
  unfold retainCommit
  with_reducible repeat' first
     | (intro x; first | (have hx : Keeps a x := by (unfold x; repeat' first | assumption | apply keeps_sendMirror | apply keeps_emit | apply keeps_setPair | apply keeps_saveRetain | apply keeps_compareRetain | split)); clear_value x | (have _ : HostIf := x) | (have _ : Keys := x) | (have _ : Fwu := x) | clear_value x | skip)
     | assumption | apply keeps_sendMirror | apply keeps_emit | apply keeps_setPair | apply keeps_saveRetain
     | apply keeps_compareRetain | split | lift_lets

theorem keeps_sendLoops {a : State} (s : State) (h : Keeps a s) : Keeps a (sendLoops s) := by
  unfold sendLoops
  repeat' first | exact ⟨h.1, h.2⟩ | assumption | with_reducible apply keeps_sendMirror | split

theorem keeps_takeLoops {a : State} (digest : W64) (l : List MirrorChannel) (s : State) (h : Keeps a s) : Keeps a (takeLoops digest l s) := by
  unfold takeLoops
  with_reducible repeat' first
     | (intro x; first | (have hx : Keeps a x := by (unfold x; repeat' first | assumption | apply keeps_mismatch | apply keeps_raise | apply keeps_adoptMirrors | split)); clear_value x | (have _ : HostIf := x) | (have _ : Keys := x) | (have _ : Fwu := x) | clear_value x | skip)
     | assumption | apply keeps_mismatch | apply keeps_raise | apply keeps_adoptMirrors | split | lift_lets

end Sys2Proof.Laws
end

