-- ==== Sys2Proof/Laws/KeepsClasses.lean ====
section
/-! SUPPORT. Laws/KeepsClasses.lean: what each operation of Machine/Classes.lean keeps (Laws/Keeps.lean). -/

namespace Sys2Proof.Laws

set_option linter.all false

open Sys2Proof.Machine

theorem keeps_restBricks {a : State} (l : List Nat) (s : State) (h : Keeps a s) : Keeps a (restBricks l s) := by
  induction l generalizing s with
  | nil => exact h
  | cons b r ih => exact ih _ (keeps_restBrick b s h)

theorem keeps_stopWork {a : State} (c : Nat) (s : State) (h : Keeps a s) : Keeps a (stopWork c s) :=
  keeps_restBricks _ _ ⟨h.1, h.2⟩

theorem keeps_stopJobs {a : State} (c : Nat) (s : State) (h : Keeps a s) : Keeps a (stopJobs c s) := by
  unfold stopJobs
  repeat' first | with_reducible assumption | with_reducible apply keeps_abortMain | with_reducible apply keeps_abortOpt | split

theorem keeps_stopClass {a : State} (c : Nat) (s : State) (h : Keeps a s) : Keeps a (stopClass c s) := by
  unfold stopClass
  with_reducible repeat' first
     | (intro x; first | (have hx : Keeps a x := by (unfold x; repeat' first | assumption | apply keeps_stopJobs | apply keeps_stopWork | apply keeps_setCls | split)); clear_value x | (have _ : HostIf := x) | (have _ : Keys := x) | (have _ : Fwu := x) | clear_value x | skip)
     | assumption | apply keeps_stopJobs | apply keeps_stopWork | apply keeps_setCls | split | lift_lets

theorem keeps_endRestart {a : State} (c : Nat) (status : Nat) (s : State) (h : Keeps a s) : Keeps a (endRestart c status s) := by
  unfold endRestart
  repeat' first | with_reducible assumption | with_reducible apply keeps_finishOpt | with_reducible apply keeps_setCls | split

theorem keeps_haltClass {a : State} (c : Nat) (s : State) (h : Keeps a s) : Keeps a (haltClass c s) := by
  unfold haltClass
  with_reducible repeat' first
     | (intro x; first | (have hx : Keeps a x := by (unfold x; repeat' first | assumption | apply keeps_setCls | apply keeps_stopClass | apply keeps_canCancelClass | apply keeps_endRestart | apply keeps_raise | split)); clear_value x | (have _ : HostIf := x) | (have _ : Keys := x) | (have _ : Fwu := x) | clear_value x | skip)
     | assumption | apply keeps_setCls | apply keeps_stopClass | apply keeps_canCancelClass | apply keeps_endRestart
     | apply keeps_raise | split | lift_lets

theorem keeps_haltAll {a : State} (s : State) (h : Keeps a s) : Keeps a (haltAll s) := by
  unfold haltAll
  repeat' first | with_reducible assumption | with_reducible apply keeps_haltClass | split

theorem keeps_putSafe {a : State} (stime : W32) (y1 : List (Nat × Int)) (y2 : State) (h : Keeps a y2) : Keeps a (putSafe stime y1 y2) := by
  induction y1 generalizing y2 with
  | nil =>
    unfold putSafe
    repeat' first
       | (intro x; first | (have hx : Keeps a x := by (unfold x; repeat' first | with_reducible assumption | with_reducible apply keeps_putRec | split)); clear_value x | (have _ : HostIf := x) | (have _ : Keys := x) | (have _ : Fwu := x) | clear_value x | skip)
       | with_reducible assumption | with_reducible apply keeps_putRec | split | lift_lets
  | cons x r ih =>
    unfold putSafe
    repeat' first
       | (intro x; first | (have hx : Keeps a x := by (unfold x; repeat' first | with_reducible assumption | with_reducible apply keeps_putRec | with_reducible apply ih | split)); clear_value x | (have _ : HostIf := x) | (have _ : Keys := x) | (have _ : Fwu := x) | clear_value x | skip)
       | with_reducible assumption | with_reducible apply keeps_putRec | with_reducible apply ih | split | lift_lets

theorem keeps_publishSafe {a : State} (c : Nat) (stamp : Nat) (s : State) (h : Keeps a s) : Keeps a (publishSafe c stamp s) := by
  unfold publishSafe
  with_reducible repeat' first
     | (intro x; first | (have hx : Keeps a x := by (unfold x; repeat' first | assumption | apply keeps_putSafe | apply keeps_publishClass | apply keeps_canPublish | split)); clear_value x | (have _ : HostIf := x) | (have _ : Keys := x) | (have _ : Fwu := x) | clear_value x | skip)
     | assumption | apply keeps_putSafe | apply keeps_publishClass | apply keeps_canPublish | split | lift_lets

theorem keeps_enterSafe {a : State} (c : Nat) (s : State) (h : Keeps a s) : Keeps a (enterSafe c s) := by
  unfold enterSafe
  with_reducible repeat' first
     | (intro x; first | (have hx : Keeps a x := by (unfold x; repeat' first | assumption | apply keeps_stopClass | apply keeps_endRestart | apply keeps_setCls | split)); clear_value x | (have _ : HostIf := x) | (have _ : Keys := x) | (have _ : Fwu := x) | clear_value x | skip)
     | assumption | apply keeps_stopClass | apply keeps_endRestart | apply keeps_setCls | split | lift_lets

theorem keeps_allSafe {a : State} (s : State) (h : Keeps a s) : Keeps a (allSafe s) := by
  unfold allSafe
  repeat' first | with_reducible assumption | with_reducible apply keeps_raise | with_reducible apply keeps_enterSafe | split

theorem keeps_histPut {a : State} (r : HistRec) (s : State) (h : Keeps a s) : Keeps a (histPut r s) := ⟨h.1, h.2⟩

theorem keeps_setSub {a : State} (i : Nat) (z1 : HistSub) (s : State) (h : Keeps a s) : Keeps a (setSub i z1 s) := ⟨h.1, h.2⟩

theorem keeps_sampleSub {a : State} (stamp : Nat) (safe : Bool) (i : Nat) (s : State) (h : Keeps a s) : Keeps a (sampleSub stamp safe i s) := by
  unfold sampleSub
  with_reducible repeat' first
     | (intro x; first | (have hx : Keeps a x := by (unfold x; repeat' first | assumption | apply keeps_histPut | apply keeps_setSub | split)); clear_value x | (have _ : HostIf := x) | (have _ : Keys := x) | (have _ : Fwu := x) | clear_value x | skip)
     | assumption | apply keeps_histPut | apply keeps_setSub | split | lift_lets

theorem keeps_sampleSubs {a : State} (stamp : Nat) (safe : Bool) (y2 : List Nat) (y3 : State) (h : Keeps a y3) : Keeps a (sampleSubs stamp safe y2 y3) := by
  induction y2 generalizing y3 with
  | nil =>
    unfold sampleSubs
    repeat' first
       | (intro x; first | (have hx : Keeps a x := by (unfold x; repeat' first | with_reducible assumption | with_reducible apply keeps_sampleSub | split)); clear_value x | (have _ : HostIf := x) | (have _ : Keys := x) | (have _ : Fwu := x) | clear_value x | skip)
       | with_reducible assumption | with_reducible apply keeps_sampleSub | split | lift_lets
  | cons x r ih =>
    unfold sampleSubs
    repeat' first
       | (intro x; first | (have hx : Keeps a x := by (unfold x; repeat' first | with_reducible assumption | with_reducible apply keeps_sampleSub | with_reducible apply ih | split)); clear_value x | (have _ : HostIf := x) | (have _ : Keys := x) | (have _ : Fwu := x) | clear_value x | skip)
       | with_reducible assumption | with_reducible apply keeps_sampleSub | with_reducible apply ih | split | lift_lets

theorem keeps_skipSubs {a : State} (l : List Nat) (s : State) (h : Keeps a s) : Keeps a (skipSubs l s) := ⟨h.1, h.2⟩

theorem keeps_endSampling {a : State} (s : State) (h : Keeps a s) : Keeps a (endSampling s) := by
  unfold endSampling
  repeat' first | exact ⟨h.1, h.2⟩ | assumption | with_reducible apply keeps_sampleSubs | split

theorem keeps_sampleHist {a : State} (stamp : Nat) (safe : Bool) (s : State) (h : Keeps a s) : Keeps a (sampleHist stamp safe s) := ⟨h.1, h.2⟩

theorem keeps_samplingTick {a : State} (s : State) (h : Keeps a s) : Keeps a (samplingTick s) := by
  unfold samplingTick
  repeat' first | exact ⟨h.1, h.2⟩ | assumption | with_reducible apply keeps_endSampling | split

end Sys2Proof.Laws
end

