-- ==== Sys2Proof/Laws/KeepsFaults.lean ====
section
/-! SUPPORT. Laws/KeepsFaults.lean: what each operation of Machine/Faults.lean keeps (Laws/Keeps.lean). -/

namespace Sys2Proof.Laws

set_option linter.all false

open Sys2Proof.Machine

theorem keeps_abortLoopback {a : State} (s : State) (h : Keeps a s) : Keeps a (abortLoopback s) := by
  unfold abortLoopback
  repeat' first | exact ⟨h.1, h.2⟩ | assumption | with_reducible apply keeps_rcAdd | with_reducible apply keeps_finish | split

theorem keeps_moduleFault {a : State} (row : Nat) (s : State) (h : Keeps a s) : Keeps a (moduleFault row s) := by
  unfold moduleFault
  with_reducible repeat' first
     | (intro x; first | (have hx : Keeps a x := by (unfold x; repeat' first | assumption | apply keeps_abortLoopback | apply keeps_raise | apply keeps_setPair | apply keeps_allSafe | apply keeps_fenceSelf | split)); clear_value x | (have _ : HostIf := x) | (have _ : Keys := x) | (have _ : Fwu := x) | clear_value x | skip)
     | assumption | apply keeps_abortLoopback | apply keeps_raise | apply keeps_setPair | apply keeps_allSafe
     | apply keeps_fenceSelf | split | lift_lets

theorem keeps_rowFault {a : State} (row : Nat) (s : State) (h : Keeps a s) : Keeps a (rowFault row s) := by
  unfold rowFault
  with_reducible repeat' first
     | (intro x; first | (have hx : Keeps a x := by (unfold x; repeat' first | assumption | apply keeps_moduleFault | apply keeps_countFault | split)); clear_value x | (have _ : HostIf := x) | (have _ : Keys := x) | (have _ : Fwu := x) | clear_value x | skip)
     | assumption | apply keeps_moduleFault | apply keeps_countFault | split | lift_lets

theorem keeps_losePair {a : State} (s : State) (h : Keeps a s) : Keeps a (losePair s) := by
  unfold losePair
  with_reducible repeat' first
     | (intro x; first | (have hx : Keeps a x := by (unfold x; repeat' first | assumption | apply keeps_setPair | apply keeps_fenceSelf | apply keeps_raise | apply keeps_endExchange | apply keeps_dropPartner | split)); clear_value x | (have _ : HostIf := x) | (have _ : Keys := x) | (have _ : Fwu := x) | clear_value x | skip)
     | assumption | apply keeps_setPair | apply keeps_fenceSelf | apply keeps_raise | apply keeps_endExchange
     | apply keeps_dropPartner | split | lift_lets

theorem keeps_dropKeyReq {a : State} (s : State) (h : Keeps a s) : Keeps a (dropKeyReq s) := by
  unfold dropKeyReq
  split
  · exact h
  · rename_i o e
    refine keeps_finishOpt _ _ _ _ _ _ ⟨h.1, fun j => ⟨fun o' t root k w => ?_, (h.2.1 j).2⟩, h.2.2⟩
    cases k
    exact (h.2.1 j).1 o t root e w

theorem keeps_brickConsequence {a : State} (b : Nat) (s : State) (h : Keeps a s) : Keeps a (brickConsequence b s) := by
  unfold brickConsequence
  with_reducible repeat' first
     | (intro x; first | (have hx : Keeps a x := by (unfold x; repeat' first | assumption | apply keeps_moduleFault | apply keeps_losePair | apply keeps_dropKeyReq | split)); clear_value x | (have _ : HostIf := x) | (have _ : Keys := x) | (have _ : Fwu := x) | clear_value x | skip)
     | assumption | apply keeps_moduleFault | apply keeps_losePair | apply keeps_dropKeyReq | split | lift_lets

end Sys2Proof.Laws
end

