-- ==== Sys2Proof/Laws/KeepsMortar.lean ====
section
/-! SUPPORT. Laws/KeepsMortar.lean: what each operation of Machine/Mortar.lean keeps (Laws/Keeps.lean). -/

namespace Sys2Proof.Laws

set_option linter.all false

open Sys2Proof.Machine

theorem keeps_setCrossing {a : State} (b : Nat) (p : Nat) (f : Crossing → Crossing) (s : State) (h : Keeps a s) : Keeps a (setCrossing b p f s) := ⟨h.1, h.2⟩

theorem keeps_waitAt {a : State} (p : MortarPacket) (s : State) (h : Keeps a s) : Keeps a (waitAt p s) := ⟨h.1, h.2⟩

theorem keeps_sendOn {a : State} (p : MortarPacket) (s : State) (h : Keeps a s) : Keeps a (sendOn p s) := by
  unfold sendOn
  with_reducible repeat' first
     | (intro x; first | (have hx : Keeps a x := by (unfold x; repeat' first | assumption | apply keeps_emit | apply keeps_waitAt | split)); clear_value x | (have _ : HostIf := x) | (have _ : Keys := x) | (have _ : Fwu := x) | clear_value x | skip)
     | assumption | apply keeps_emit | apply keeps_waitAt | split | lift_lets

theorem keeps_sendBarriers {a : State} (b : Nat) (l : List Issued) (s : State) (h : Keeps a s) : Keeps a (sendBarriers b l s) := by
  induction l generalizing s with
  | nil =>
    unfold sendBarriers
    exact keeps_setBrick _ _ _ h
  | cons x r ih =>
    cases x with
    | barrier p =>
      unfold sendBarriers
      exact ih _ (keeps_sendOn _ _ h)
    | write w =>
      unfold sendBarriers
      exact keeps_setBrick _ _ _ h

theorem keeps_endWrite {a : State} (r : Nat) (s : State) (h : Keeps a s) : Keeps a (endWrite r s) := by
  unfold endWrite
  with_reducible repeat' first
     | (intro x; first | (have hx : Keeps a x := by (unfold x; repeat' first | assumption | apply keeps_sendBarriers | split)); clear_value x | (have _ : HostIf := x) | (have _ : Keys := x) | (have _ : Fwu := x) | clear_value x | skip)
     | assumption | apply keeps_sendBarriers | split | lift_lets

theorem keeps_responseArrives {a : State} (r : W64) (s : State) (h : Keeps a s) : Keeps a (responseArrives r s) := by
  unfold responseArrives
  repeat' first | exact ⟨h.1, h.2⟩ | assumption | with_reducible apply keeps_endWrite | with_reducible apply keeps_emit | split

theorem keeps_mortarRespond {a : State} (r : W64) (s : State) (h : Keeps a s) : Keeps a (mortarRespond r s) := by
  unfold mortarRespond
  with_reducible repeat' first
     | (intro x; first | (have hx : Keeps a x := by (unfold x; repeat' first | assumption | apply keeps_responseArrives | apply keeps_waitAt | split)); clear_value x | (have _ : HostIf := x) | (have _ : Keys := x) | (have _ : Fwu := x) | clear_value x | skip)
     | assumption | apply keeps_responseArrives | apply keeps_waitAt | split | lift_lets

theorem keeps_answerAll {a : State} (y0 : List MortarPacket) (y1 : State) (h : Keeps a y1) : Keeps a (answerAll y0 y1) := by
  induction y0 generalizing y1 with
  | nil =>
    unfold answerAll
    repeat' first
       | (intro x; first | (have hx : Keeps a x := by (unfold x; repeat' first | with_reducible assumption | with_reducible apply keeps_mortarRespond | split)); clear_value x | (have _ : HostIf := x) | (have _ : Keys := x) | (have _ : Fwu := x) | clear_value x | skip)
       | with_reducible assumption | with_reducible apply keeps_mortarRespond | split | lift_lets
  | cons x r ih =>
    unfold answerAll
    repeat' first
       | (intro x; first | (have hx : Keeps a x := by (unfold x; repeat' first | with_reducible assumption | with_reducible apply keeps_mortarRespond | with_reducible apply ih | split)); clear_value x | (have _ : HostIf := x) | (have _ : Keys := x) | (have _ : Fwu := x) | clear_value x | skip)
       | with_reducible assumption | with_reducible apply keeps_mortarRespond | with_reducible apply ih | split | lift_lets

theorem keeps_mortarDeliver {a : State} (p : MortarPacket) (s : State) (h : Keeps a s) : Keeps a (mortarDeliver p s) := by
  unfold mortarDeliver
  with_reducible repeat' first
     | (intro x; first | (have hx : Keeps a x := by (unfold x; repeat' first | assumption | apply keeps_emit | apply keeps_mortarRespond | apply keeps_endWrite | split)); clear_value x | (have _ : HostIf := x) | (have _ : Keys := x) | (have _ : Fwu := x) | clear_value x | skip)
     | assumption | apply keeps_emit | apply keeps_mortarRespond | apply keeps_endWrite | split | lift_lets

end Sys2Proof.Laws
end

