-- ==== Sys2Proof/Laws/KeepsWork.lean ====
section
/-! SUPPORT. Laws/KeepsWork.lean: what each operation of Machine/Work.lean keeps (Laws/Keeps.lean). -/

namespace Sys2Proof.Laws

set_option linter.all false

open Sys2Proof.Machine

theorem keeps_setLine {a : State} (x : Entry) (f : LedgerLine → LedgerLine) (s : State) (h : Keeps a s) : Keeps a (setLine x f s) := ⟨h.1, h.2⟩

theorem keeps_pushTo {a : State} (e : Nat) (x : Entry) (s : State) (h : Keeps a s) : Keeps a (pushTo e x s) := by
  unfold pushTo
  with_reducible repeat' first
     | (intro x; first | (have hx : Keeps a x := by (unfold x; repeat' first | assumption | apply keeps_setEngine | apply keeps_setLine | apply keeps_raiseDeadline | apply keeps_wakeBrick | split)); clear_value x | (have _ : HostIf := x) | (have _ : Keys := x) | (have _ : Fwu := x) | clear_value x | skip)
     | assumption | apply keeps_setEngine | apply keeps_setLine | apply keeps_raiseDeadline | apply keeps_wakeBrick | split
     | lift_lets

theorem keeps_pushEntry {a : State} (x : Entry) (s : State) (h : Keeps a s) : Keeps a (pushEntry x s) := by
  unfold pushEntry
  repeat' first | exact ⟨h.1, h.2⟩ | assumption | with_reducible apply keeps_pushTo | split

theorem keeps_drainFeeder {a : State} (y0 : List Entry) (y1 : State) (h : Keeps a y1) : Keeps a (drainFeeder y0 y1) := by
  induction y0 generalizing y1 with
  | nil =>
    unfold drainFeeder
    repeat' first
       | (intro x; first | (have hx : Keeps a x := by (unfold x; repeat' first | with_reducible assumption | with_reducible apply keeps_pushEntry | split)); clear_value x | (have _ : HostIf := x) | (have _ : Keys := x) | (have _ : Fwu := x) | clear_value x | skip)
       | with_reducible assumption | with_reducible apply keeps_pushEntry | split | lift_lets
  | cons x r ih =>
    unfold drainFeeder
    repeat' first
       | (intro x; first | (have hx : Keeps a x := by (unfold x; repeat' first | with_reducible assumption | with_reducible apply keeps_pushEntry | with_reducible apply ih | split)); clear_value x | (have _ : HostIf := x) | (have _ : Keys := x) | (have _ : Fwu := x) | clear_value x | skip)
       | with_reducible assumption | with_reducible apply keeps_pushEntry | with_reducible apply ih | split | lift_lets

theorem keeps_execFeederPush {a : State} (s : State) (h : Keeps a s) : Goes a (execFeederPush s) := by
  unfold execFeederPush
  (try intro x)
  apply goes_next
  repeat' first
     | (intro x; first | (have hx : Keeps a x := by (unfold x; repeat' first | with_reducible assumption | with_reducible apply keeps_drainFeeder | split)); clear_value x | (have _ : HostIf := x) | (have _ : Keys := x) | (have _ : Fwu := x) | clear_value x | skip)
     | with_reducible assumption | with_reducible apply keeps_drainFeeder | split | lift_lets

theorem keeps_issueEntry {a : State} (x : Entry) (s : State) (h : Keeps a s) : Keeps a (issueEntry x s) := by
  unfold issueEntry
  repeat' first | exact ⟨h.1, h.2⟩ | assumption | with_reducible apply keeps_pushEntry | split

theorem keeps_issueUnit {a : State} (c : Nat) (n : Nat) (u : Nat) (e : UnitEntry) (s : State) (h : Keeps a s) : Keeps a (issueUnit c n u e s) := by
  unfold issueUnit
  repeat' first | exact ⟨h.1, h.2⟩ | assumption | with_reducible apply keeps_issueEntry | split

theorem keeps_issueUnits {a : State} (c : Nat) (n : Nat) (im : Image) (y3 : List Nat) (y4 : State) (h : Keeps a y4) : Keeps a (issueUnits c n im y3 y4) := by
  induction y3 generalizing y4 with
  | nil =>
    unfold issueUnits
    repeat' first
       | (intro x; first | (have hx : Keeps a x := by (unfold x; repeat' first | with_reducible assumption | with_reducible apply keeps_issueUnit | split)); clear_value x | (have _ : HostIf := x) | (have _ : Keys := x) | (have _ : Fwu := x) | clear_value x | skip)
       | with_reducible assumption | with_reducible apply keeps_issueUnit | split | lift_lets
  | cons x r ih =>
    unfold issueUnits
    repeat' first
       | (intro x; first | (have hx : Keeps a x := by (unfold x; repeat' first | with_reducible assumption | with_reducible apply keeps_issueUnit | with_reducible apply ih | split)); clear_value x | (have _ : HostIf := x) | (have _ : Keys := x) | (have _ : Fwu := x) | clear_value x | skip)
       | with_reducible assumption | with_reducible apply keeps_issueUnit | with_reducible apply ih | split | lift_lets

theorem keeps_offDeque {a : State} (v : Nat) (x : Entry) (s : State) (h : Keeps a s) : Keeps a (offDeque v x s) := ⟨h.1, h.2⟩

theorem keeps_takeEntry {a : State} (e : Nat) (x : Entry) (stolen : Bool) (s : State) (h : Keeps a s) : Keeps a (takeEntry e x stolen s) := by
  unfold takeEntry
  with_reducible repeat' first
     | (intro x; first | (have hx : Keeps a x := by (unfold x; repeat' first | assumption | apply keeps_setLine | apply keeps_setEngine | apply keeps_raiseDeadline | apply keeps_debit | split)); clear_value x | (have _ : HostIf := x) | (have _ : Keys := x) | (have _ : Fwu := x) | clear_value x | skip)
     | assumption | apply keeps_setLine | apply keeps_setEngine | apply keeps_raiseDeadline | apply keeps_debit | split
     | lift_lets

theorem keeps_selectClass_eq {a t : State} {e : Nat} {l : List Nat} {c d : Nat} {s : State} (e1 : selectClass e l c d s = some t) (h : Keeps a s) : Keeps a t := by
  unfold selectClass at e1
  dsimp only at e1
  split at e1
  · cases e1
    exact keeps_takeEntry _ _ _ _ (keeps_offDeque _ _ _ h)
  · split at e1
    · cases e1
      exact keeps_takeEntry _ _ _ _ (keeps_offDeque _ _ _ h)
    · obtain ⟨i, -, rfl⟩ := Option.map_eq_some_iff.1 e1
      exact keeps_setEngine _ _ _ h

theorem keeps_selectFrom {a : State} (e : Nat) (b : List Nat) (d : Nat) (l : List Nat) (s : State) (h : Keeps a s) : Keeps a (selectFrom e b d l s) := by
  induction l generalizing d s with
  | nil => exact keeps_restBrick _ _ (keeps_setEngine _ _ _ h)
  | cons c r ih =>
    unfold selectFrom
    split
    · rename_i e1
      exact keeps_selectClass_eq e1 h
    · exact ih _ _ h

theorem keeps_selectWork {a : State} (e : Nat) (s : State) (h : Keeps a s) : Keeps a (selectWork e s) := by
  unfold selectWork
  with_reducible repeat' first
     | (intro x; first | (have hx : Keeps a x := by (unfold x; repeat' first | assumption | apply keeps_selectFrom | split)); clear_value x | (have _ : HostIf := x) | (have _ : Keys := x) | (have _ : Fwu := x) | clear_value x | skip)
     | assumption | apply keeps_selectFrom | split | lift_lets

theorem keeps_execEngineWake {a : State} (e : EngineId) (s : State) (h : Keeps a s) : Goes a (execEngineWake e s) := by
  unfold execEngineWake
  (try intro x)
  apply goes_next
  repeat' first
     | (intro x; first | (have hx : Keeps a x := by (unfold x; repeat' first | with_reducible assumption | with_reducible apply keeps_selectWork | split)); clear_value x | (have _ : HostIf := x) | (have _ : Keys := x) | (have _ : Fwu := x) | clear_value x | skip)
     | with_reducible assumption | with_reducible apply keeps_selectWork | split | lift_lets

theorem keeps_grantSteal {a : State} (e : Nat) (victim : Nat) (q : Search) (s : State) (h : Keeps a s) : Keeps a (grantSteal e victim q s) := by
  unfold grantSteal
  with_reducible repeat' first
     | (intro x; first | (have hx : Keeps a x := by (unfold x; repeat' first | assumption | apply keeps_setEngine | apply keeps_offDeque | split)); clear_value x | (have _ : HostIf := x) | (have _ : Keys := x) | (have _ : Fwu := x) | clear_value x | skip)
     | assumption | apply keeps_setEngine | apply keeps_offDeque | split | lift_lets

theorem keeps_execStealRequest {a : State} (thief : EngineId) (victim : Fin 16) (c : Fin 5) (s : State) (h : Keeps a s) : Goes a (execStealRequest thief victim c s) := by
  unfold execStealRequest
  (try intro x)
  apply goes_next
  repeat' first
     | (intro x; first | (have hx : Keeps a x := by (unfold x; repeat' first | with_reducible assumption | with_reducible apply keeps_setEngine | with_reducible apply keeps_wakeBrick | with_reducible apply keeps_grantSteal | split)); clear_value x | (have _ : HostIf := x) | (have _ : Keys := x) | (have _ : Fwu := x) | clear_value x | skip)
     | with_reducible assumption | with_reducible apply keeps_setEngine | with_reducible apply keeps_wakeBrick
     | with_reducible apply keeps_grantSteal | split | lift_lets

theorem keeps_execStealGrant {a : State} (thief : EngineId) (s : State) (h : Keeps a s) : Goes a (execStealGrant thief s) := by
  unfold execStealGrant
  (try intro x)
  apply goes_next
  repeat' first
     | (intro x; first | (have hx : Keeps a x := by (unfold x; repeat' first | with_reducible assumption | with_reducible apply keeps_takeEntry | with_reducible apply keeps_setEngine | with_reducible apply keeps_selectFrom | split)); clear_value x | (have _ : HostIf := x) | (have _ : Keys := x) | (have _ : Fwu := x) | clear_value x | skip)
     | with_reducible assumption | with_reducible apply keeps_takeEntry | with_reducible apply keeps_setEngine
     | with_reducible apply keeps_selectFrom | split | lift_lets

theorem keeps_withdraw {a : State} (x : Entry) (s : State) (h : Keeps a s) : Keeps a (withdraw x s) := ⟨h.1, h.2⟩

theorem keeps_countReissue {a : State} (s : State) (h : Keeps a s) : Keeps a (countReissue s) := ⟨h.1, h.2⟩

theorem keeps_issueAgain {a : State} (x : Entry) (s : State) (h : Keeps a s) : Keeps a (issueAgain x s) := by
  unfold issueAgain
  with_reducible repeat' first
     | (intro x; first | (have hx : Keeps a x := by (unfold x; repeat' first | assumption | apply keeps_issueEntry | apply keeps_countReissue | split)); clear_value x | (have _ : HostIf := x) | (have _ : Keys := x) | (have _ : Fwu := x) | clear_value x | skip)
     | assumption | apply keeps_issueEntry | apply keeps_countReissue | split | lift_lets

theorem keeps_splitAgain {a : State} (x : Entry) (sib : Entry) (s : State) (h : Keeps a s) : Keeps a (splitAgain x sib s) := by
  unfold splitAgain
  with_reducible repeat' first
     | (intro x; first | (have hx : Keeps a x := by (unfold x; repeat' first | assumption | apply keeps_issueAgain | apply keeps_withdraw | split)); clear_value x | (have _ : HostIf := x) | (have _ : Keys := x) | (have _ : Fwu := x) | clear_value x | skip)
     | assumption | apply keeps_issueAgain | apply keeps_withdraw | split | lift_lets

theorem keeps_reissue {a : State} (x : Entry) (s : State) (h : Keeps a s) : Keeps a (reissue x s) := by
  unfold reissue
  with_reducible repeat' first
     | (intro x; first | (have hx : Keeps a x := by (unfold x; repeat' first | assumption | apply keeps_issueAgain | apply keeps_splitAgain | split)); clear_value x | (have _ : HostIf := x) | (have _ : Keys := x) | (have _ : Fwu := x) | clear_value x | skip)
     | assumption | apply keeps_issueAgain | apply keeps_splitAgain | split | lift_lets

theorem keeps_reissueAll {a : State} (y0 : List Entry) (y1 : State) (h : Keeps a y1) : Keeps a (reissueAll y0 y1) := by
  induction y0 generalizing y1 with
  | nil =>
    unfold reissueAll
    repeat' first
       | (intro x; first | (have hx : Keeps a x := by (unfold x; repeat' first | with_reducible assumption | with_reducible apply keeps_reissue | split)); clear_value x | (have _ : HostIf := x) | (have _ : Keys := x) | (have _ : Fwu := x) | clear_value x | skip)
       | with_reducible assumption | with_reducible apply keeps_reissue | split | lift_lets
  | cons x r ih =>
    unfold reissueAll
    repeat' first
       | (intro x; first | (have hx : Keeps a x := by (unfold x; repeat' first | with_reducible assumption | with_reducible apply keeps_reissue | with_reducible apply ih | split)); clear_value x | (have _ : HostIf := x) | (have _ : Keys := x) | (have _ : Fwu := x) | clear_value x | skip)
       | with_reducible assumption | with_reducible apply keeps_reissue | with_reducible apply ih | split | lift_lets

theorem keeps_work {a s : State} (w : Work) (h : Keeps a s) : Keeps a { s with work := w } := ⟨h.1, h.2⟩

theorem keeps_moveEntries {a : State} (to' : List Nat) (i : Nat) (l : List Entry) (s : State) (h : Keeps a s) :
    Keeps a (moveEntries to' i l s) := by
  induction l generalizing i s with
  | nil => exact h
  | cons x r ih =>
    unfold moveEntries
    dsimp only
    refine ih _ _ ?_
    split
    · exact keeps_work _ h
    · exact keeps_pushTo _ _ _ h

theorem keeps_cinderEngine {a : State} (e : Nat) (cause : FenceCause) (s : State) (h : Keeps a s) : Keeps a (cinderEngine e cause s) := by
  unfold cinderEngine
  with_reducible repeat' first
     | (intro x; first | (have hx : Keeps a x := by (unfold x; repeat' first | assumption | apply keeps_settleEntry | apply keeps_setEngine | apply keeps_raise | apply keeps_takeFree | (refine keeps_takeFree_eq (by assumption) ?_) | split)); clear_value x | (have _ : HostIf := x) | (have _ : Keys := x) | (have _ : Fwu := x) | clear_value x | skip)
     | assumption | apply keeps_restBrick | apply keeps_settleEntry | apply keeps_setEngine | apply keeps_raise | apply keeps_takeFree
     | (refine keeps_takeFree_eq (by assumption) ?_) | split | lift_lets

theorem keeps_closeBrick {a : State} (b : Nat) (event : Option Nat) (s : State) (h : Keeps a s) : Keeps a (closeBrick b event s) := by
  unfold closeBrick
  with_reducible repeat' first
     | (intro x; first | (have hx : Keeps a x := by (unfold x; repeat' first | assumption | apply keeps_setBrick | apply keeps_answerAll | apply keeps_raise | apply keeps_countFault | split)); clear_value x | (have _ : HostIf := x) | (have _ : Keys := x) | (have _ : Fwu := x) | clear_value x | skip)
     | assumption | apply keeps_setBrick | apply keeps_answerAll | apply keeps_raise | apply keeps_countFault | split
     | lift_lets

theorem keeps_cinderAll {a : State} (y0 : List Nat) (y1 : State) (h : Keeps a y1) : Keeps a (cinderAll y0 y1) := by
  induction y0 generalizing y1 with
  | nil =>
    unfold cinderAll
    repeat' first
       | (intro x; first | (have hx : Keeps a x := by (unfold x; repeat' first | with_reducible assumption | with_reducible apply keeps_cinderEngine | split)); clear_value x | (have _ : HostIf := x) | (have _ : Keys := x) | (have _ : Fwu := x) | clear_value x | skip)
       | with_reducible assumption | with_reducible apply keeps_cinderEngine | split | lift_lets
  | cons x r ih =>
    unfold cinderAll
    repeat' first
       | (intro x; first | (have hx : Keeps a x := by (unfold x; repeat' first | with_reducible assumption | with_reducible apply keeps_cinderEngine | with_reducible apply ih | split)); clear_value x | (have _ : HostIf := x) | (have _ : Keys := x) | (have _ : Fwu := x) | clear_value x | skip)
       | with_reducible assumption | with_reducible apply keeps_cinderEngine | with_reducible apply ih | split | lift_lets

theorem keeps_fenceBrick {a : State} (b : Nat) (event : Option Nat) (s : State) (h : Keeps a s) : Keeps a (fenceBrick b event s) := by
  unfold fenceBrick
  with_reducible repeat' first
     | (intro x; first | (have hx : Keeps a x := by (unfold x; repeat' first | assumption | apply keeps_cinderAll | apply keeps_closeBrick | apply keeps_brickConsequence | apply keeps_reissueAll | split)); clear_value x | (have _ : HostIf := x) | (have _ : Keys := x) | (have _ : Fwu := x) | clear_value x | skip)
     | assumption | apply keeps_cinderAll | apply keeps_closeBrick | apply keeps_brickConsequence | apply keeps_reissueAll
     | split | lift_lets

theorem keeps_fenceEngine {a : State} (e : Nat) (cause : FenceCause) (s : State) (h : Keeps a s) : Keeps a (fenceEngine e cause s) := by
  unfold fenceEngine
  with_reducible repeat' first
     | (intro x; first | (have hx : Keeps a x := by (unfold x; repeat' first | assumption | apply keeps_cinderEngine | apply keeps_closeBrick | apply keeps_brickConsequence | apply keeps_reissueAll | apply keeps_moveEntries | split)); clear_value x | (have _ : HostIf := x) | (have _ : Keys := x) | (have _ : Fwu := x) | clear_value x | skip)
     | assumption | apply keeps_cinderEngine | apply keeps_closeBrick | apply keeps_brickConsequence | apply keeps_reissueAll
     | apply keeps_moveEntries | split | lift_lets

theorem keeps_execEngineHung {a : State} (e : EngineId) (s : State) (h : Keeps a s) : Goes a (execEngineHung e s) := by
  unfold execEngineHung
  (try intro x)
  apply goes_next
  repeat' first
     | (intro x; first | (have hx : Keeps a x := by (unfold x; repeat' first | with_reducible assumption | with_reducible apply keeps_fenceEngine | with_reducible apply keeps_raise | split)); clear_value x | (have _ : HostIf := x) | (have _ : Keys := x) | (have _ : Fwu := x) | clear_value x | skip)
     | with_reducible assumption | with_reducible apply keeps_fenceEngine | with_reducible apply keeps_raise | split | lift_lets

theorem keeps_execEngineCheck {a : State} (e : EngineId) (s : State) (h : Keeps a s) : Goes a (execEngineCheck e s) := by
  unfold execEngineCheck
  (try intro x)
  apply goes_next
  repeat' first
     | (intro x; first | (have hx : Keeps a x := by (unfold x; repeat' first | with_reducible assumption | with_reducible apply keeps_fenceEngine | with_reducible apply keeps_raise | split)); clear_value x | (have _ : HostIf := x) | (have _ : Keys := x) | (have _ : Fwu := x) | clear_value x | skip)
     | with_reducible assumption | with_reducible apply keeps_fenceEngine | with_reducible apply keeps_raise | split | lift_lets

end Sys2Proof.Laws
end

