-- ==== Sys2Proof/Laws/KeepsCycle.lean ====
section
/-! SUPPORT. Laws/KeepsCycle.lean: what each operation of Machine/Cycle.lean keeps (Laws/Keeps.lean). -/

namespace Sys2Proof.Laws

set_option linter.all false

open Sys2Proof.Machine

theorem keeps_commitWrites {a : State} (isLate : Bool) (y1 : List (Nat × PointRec)) (y2 : State) (h : Keeps a y2) : Keeps a (commitWrites isLate y1 y2) := by
  induction y1 generalizing y2 with
  | nil =>
    unfold commitWrites
    repeat' first
       | (intro x; first | (have hx : Keeps a x := by (unfold x; repeat' first | with_reducible assumption | with_reducible apply keeps_putRec | split)); clear_value x | (have _ : HostIf := x) | (have _ : Keys := x) | (have _ : Fwu := x) | clear_value x | skip)
       | with_reducible assumption | with_reducible apply keeps_putRec | split | lift_lets
  | cons x r ih =>
    unfold commitWrites
    repeat' first
       | (intro x; first | (have hx : Keeps a x := by (unfold x; repeat' first | with_reducible assumption | with_reducible apply keeps_putRec | with_reducible apply ih | split)); clear_value x | (have _ : HostIf := x) | (have _ : Keys := x) | (have _ : Fwu := x) | clear_value x | skip)
       | with_reducible assumption | with_reducible apply keeps_putRec | with_reducible apply ih | split | lift_lets

theorem keeps_publishCommit {a : State} (c : Fin 4) (y : Cycle) (s : State) (h : Keeps a s) : Keeps a (publishCommit c y s) := by
  unfold publishCommit
  with_reducible repeat' first
     | (intro x; first | (have hx : Keeps a x := by (unfold x; repeat' first | assumption | apply keeps_canPublish | apply keeps_latchLoops | apply keeps_publishClass | apply keeps_sendDigest | split)); clear_value x | (have _ : HostIf := x) | (have _ : Keys := x) | (have _ : Fwu := x) | clear_value x | skip)
     | assumption | apply keeps_canPublish | apply keeps_latchLoops | apply keeps_publishClass | apply keeps_sendDigest | split
     | lift_lets

theorem keeps_activationDone {a : State} (c : Nat) (s : State) (h : Keeps a s) : Keeps a (activationDone c s) := by
  unfold activationDone
  repeat' first | exact ⟨h.1, h.2⟩ | assumption | with_reducible apply keeps_finishOpt | split

theorem keeps_commitDone {a : State} (c : Nat) (was : ClassSt) (s : State) (h : Keeps a s) : Keeps a (commitDone c was s) := by
  unfold commitDone
  with_reducible repeat' first
     | (intro x; first | (have hx : Keeps a x := by (unfold x; repeat' first | assumption | apply keeps_raise | apply keeps_finishOpt | apply keeps_setCls | split)); clear_value x | (have _ : HostIf := x) | (have _ : Keys := x) | (have _ : Fwu := x) | clear_value x | skip)
     | assumption | apply keeps_raise | apply keeps_finishOpt | apply keeps_setCls | split | lift_lets

theorem keeps_issueBackground {a : State} (s : State) (h : Keeps a s) : Keeps a (issueBackground s) := by
  unfold issueBackground
  repeat' first | exact ⟨h.1, h.2⟩ | assumption | with_reducible apply keeps_issueUnits | split

theorem keeps_commitCycle {a : State} (c : Nat) (s : State) (h : Keeps a s) : Keeps a (commitCycle c s) := by
  unfold commitCycle
  with_reducible repeat' first
     | (intro x; first | (have hx : Keeps a x := by (unfold x; repeat' first | assumption | apply keeps_commitWrites | apply keeps_setCls | apply keeps_activationDone | apply keeps_commitDone | apply keeps_publishCommit | apply keeps_retainCommit | apply keeps_sampleHist | apply keeps_issueBackground | split)); clear_value x | (have _ : HostIf := x) | (have _ : Keys := x) | (have _ : Fwu := x) | clear_value x | skip)
     | assumption | apply keeps_commitWrites | apply keeps_setCls | apply keeps_activationDone | apply keeps_commitDone
     | apply keeps_publishCommit | apply keeps_retainCommit | apply keeps_sampleHist | apply keeps_issueBackground | split | lift_lets

theorem keeps_setCycle {a : State} (c : Nat) (f : Cycle → Cycle) (s : State) (h : Keeps a s) : Keeps a (setCycle c f s) := ⟨h.1, h.2⟩

theorem keeps_openCourse {a : State} (c : Nat) (y1 : Nat) (y2 : Nat) (y3 : State) (h : Keeps a y3) : Keeps a (openCourse c y1 y2 y3) := by
  induction y1 generalizing y2 y3 with
  | zero =>
    unfold openCourse
    repeat' first
       | (intro x; first | (have hx : Keeps a x := by (unfold x; repeat' first | with_reducible assumption | with_reducible apply keeps_setCycle | with_reducible apply keeps_commitCycle | with_reducible apply keeps_issueUnits | split)); clear_value x | (have _ : HostIf := x) | (have _ : Keys := x) | (have _ : Fwu := x) | clear_value x | skip)
       | with_reducible assumption | with_reducible apply keeps_setCycle | with_reducible apply keeps_commitCycle
       | with_reducible apply keeps_issueUnits | split | lift_lets
  | succ x ih =>
    unfold openCourse
    repeat' first
       | (intro x; first | (have hx : Keeps a x := by (unfold x; repeat' first | with_reducible assumption | with_reducible apply keeps_setCycle | with_reducible apply keeps_commitCycle | with_reducible apply keeps_issueUnits | with_reducible apply ih | split)); clear_value x | (have _ : HostIf := x) | (have _ : Keys := x) | (have _ : Fwu := x) | clear_value x | skip)
       | with_reducible assumption | with_reducible apply keeps_setCycle | with_reducible apply keeps_commitCycle
       | with_reducible apply keeps_issueUnits | with_reducible apply ih | split | lift_lets

theorem keeps_releaseFrom {a : State} (c : Nat) (n : Nat) (s : State) (h : Keeps a s) : Keeps a (releaseFrom c n s) := by
  unfold releaseFrom
  repeat' first | exact ⟨h.1, h.2⟩ | assumption | with_reducible apply keeps_openCourse | split

theorem keeps_jobReturned {a : State} (c : Nat) (s : State) (h : Keeps a s) : Keeps a (jobReturned c s) := by
  unfold jobReturned
  with_reducible repeat' first
     | (intro x; first | (have hx : Keeps a x := by (unfold x; repeat' first | assumption | apply keeps_setCycle | apply keeps_commitCycle | apply keeps_releaseFrom | split)); clear_value x | (have _ : HostIf := x) | (have _ : Keys := x) | (have _ : Fwu := x) | clear_value x | skip)
     | assumption | apply keeps_setCycle | apply keeps_commitCycle | apply keeps_releaseFrom | split | lift_lets

theorem keeps_sendMark {a : State} (c : Nat) (s : State) (h : Keeps a s) : Keeps a (sendMark c s) := by
  unfold sendMark
  repeat' first | exact ⟨h.1, h.2⟩ | assumption | with_reducible apply keeps_sendMirror | split

theorem keeps_issueJob {a : State} (c : Nat) (s : State) (h : Keeps a s) : Keeps a (issueJob c s) := by
  unfold issueJob
  with_reducible repeat' first
     | (intro x; first | (have hx : Keeps a x := by (unfold x; repeat' first | assumption | apply keeps_setCycle | apply keeps_noteMismatch | apply keeps_issueMain | (refine keeps_issueMain_eq (by assumption) ?_) | split)); clear_value x | (have _ : HostIf := x) | (have _ : Keys := x) | (have _ : Fwu := x) | clear_value x | skip)
     | assumption | apply keeps_setCycle | apply keeps_noteMismatch | apply keeps_issueMain
     | (refine keeps_issueMain_eq (by assumption) ?_) | split | lift_lets

theorem keeps_closeSnapshot {a : State} (c : Nat) (s : State) (h : Keeps a s) : Keeps a (closeSnapshot c s) := by
  unfold closeSnapshot
  with_reducible repeat' first
     | (intro x; first | (have hx : Keeps a x := by (unfold x; repeat' first | assumption | apply keeps_setCycle | apply keeps_releaseFrom | apply keeps_issueJob | apply keeps_sendMark | split)); clear_value x | (have _ : HostIf := x) | (have _ : Keys := x) | (have _ : Fwu := x) | clear_value x | skip)
     | assumption | apply keeps_setCycle | apply keeps_releaseFrom | apply keeps_issueJob | apply keeps_sendMark | split
     | lift_lets

theorem keeps_startCycle {a : State} (c : Nat) (stamp : Nat) (count : W32) (s : State) (h : Keeps a s) : Keeps a (startCycle c stamp count s) := by
  unfold startCycle
  with_reducible repeat' first
     | (intro x; first | (have hx : Keeps a x := by (unfold x; repeat' first | assumption | apply keeps_trajectoryWrite | apply keeps_setCls | split)); clear_value x | (have _ : HostIf := x) | (have _ : Keys := x) | (have _ : Fwu := x) | clear_value x | skip)
     | assumption | apply keeps_trajectoryWrite | apply keeps_setCls | split | lift_lets

theorem keeps_execMarkAck {a : State} (c : PClass) (b : BrickId) (s : State) (h : Keeps a s) : Goes a (execMarkAck c b s) := by
  unfold execMarkAck
  (try intro x)
  apply goes_next
  repeat' first
     | (intro x; first | (have hx : Keeps a x := by (unfold x; repeat' first | with_reducible assumption | with_reducible apply keeps_setCycle | with_reducible apply keeps_closeSnapshot | split)); clear_value x | (have _ : HostIf := x) | (have _ : Keys := x) | (have _ : Fwu := x) | clear_value x | skip)
     | with_reducible assumption | with_reducible apply keeps_setCycle | with_reducible apply keeps_closeSnapshot | split
     | lift_lets

theorem keeps_raisePartial {a : State} (c : Nat) (y1 : List Nat) (y2 : State) (h : Keeps a y2) : Keeps a (raisePartial c y1 y2) := by
  induction y1 generalizing y2 with
  | nil =>
    unfold raisePartial
    repeat' first
       | (intro x; first | (have hx : Keeps a x := by (unfold x; repeat' first | with_reducible assumption | with_reducible apply keeps_raise | split)); clear_value x | (have _ : HostIf := x) | (have _ : Keys := x) | (have _ : Fwu := x) | clear_value x | skip)
       | with_reducible assumption | with_reducible apply keeps_raise | split | lift_lets
  | cons x r ih =>
    unfold raisePartial
    repeat' first
       | (intro x; first | (have hx : Keeps a x := by (unfold x; repeat' first | with_reducible assumption | with_reducible apply keeps_raise | with_reducible apply ih | split)); clear_value x | (have _ : HostIf := x) | (have _ : Keys := x) | (have _ : Fwu := x) | clear_value x | skip)
       | with_reducible assumption | with_reducible apply keeps_raise | with_reducible apply ih | split | lift_lets

theorem keeps_execSnapshotTimeout {a : State} (c : PClass) (s : State) (h : Keeps a s) : Goes a (execSnapshotTimeout c s) := by
  unfold execSnapshotTimeout
  (try intro x)
  apply goes_next
  repeat' first
     | (intro x; first | (have hx : Keeps a x := by (unfold x; repeat' first | with_reducible assumption | with_reducible apply keeps_closeSnapshot | with_reducible apply keeps_raisePartial | split)); clear_value x | (have _ : HostIf := x) | (have _ : Keys := x) | (have _ : Fwu := x) | clear_value x | skip)
     | with_reducible assumption | with_reducible apply keeps_closeSnapshot | with_reducible apply keeps_raisePartial | split
     | lift_lets

theorem keeps_requestFills {a : State} (c : Nat) (y1 : List (Nat × Nat)) (y2 : State) (h : Keeps a y2) : Keeps a (requestFills c y1 y2) := by
  induction y1 generalizing y2 with
  | nil =>
    unfold requestFills
    repeat' first
       | (intro x; first | (have hx : Keeps a x := by (unfold x; repeat' first | with_reducible assumption | with_reducible apply keeps_emit | with_reducible apply keeps_setPair | split)); clear_value x | (have _ : HostIf := x) | (have _ : Keys := x) | (have _ : Fwu := x) | clear_value x | skip)
       | with_reducible assumption | with_reducible apply keeps_emit | with_reducible apply keeps_setPair | split | lift_lets
  | cons x r ih =>
    unfold requestFills
    repeat' first
       | (intro x; first | (have hx : Keeps a x := by (unfold x; repeat' first | with_reducible assumption | with_reducible apply keeps_emit | with_reducible apply keeps_setPair | with_reducible apply ih | split)); clear_value x | (have _ : HostIf := x) | (have _ : Keys := x) | (have _ : Fwu := x) | clear_value x | skip)
       | with_reducible assumption | with_reducible apply keeps_emit | with_reducible apply keeps_setPair
       | with_reducible apply ih | split | lift_lets

theorem keeps_divergeEp {a : State} (apart : Bool) (s : State) (h : Keeps a s) :
    Keeps a { s with time := { s.time with divergeEp := apart } } := ⟨h.1, h.2⟩

theorem keeps_noteApart {a : State} (stamp : Nat) (apart : Bool) (s : State) (h : Keeps a s) :
    Keeps a (if (apart && !s.time.divergeEp) = true then raise 0x8B [↑stamp] { s with time := { s.time with divergeEp := apart } }
      else { s with time := { s.time with divergeEp := apart } }) := by
  split
  · exact keeps_raise _ _ _ (keeps_divergeEp _ _ h)
  · exact keeps_divergeEp _ _ h

theorem keeps_checkStamp {a : State} (stamp : Nat) (s : State) (h : Keeps a s) : Keeps a (checkStamp stamp s) := by
  unfold checkStamp
  exact keeps_noteApart _ _ _ h

theorem keeps_followInstant {a : State} (t : Nat) (s : State) (h : Keeps a s) : Keeps a (followInstant t s) := by
  unfold followInstant
  with_reducible repeat' first
     | (intro x; first | (have hx : Keeps a x := by (unfold x; repeat' first | assumption | apply keeps_forcesDue | apply keeps_trajectoryWrite | apply keeps_modelDue | apply keeps_setCls | split)); clear_value x | (have _ : HostIf := x) | (have _ : Keys := x) | (have _ : Fwu := x) | clear_value x | skip)
     | assumption | apply keeps_forcesDue | apply keeps_trajectoryWrite | apply keeps_modelDue | apply keeps_setCls | split
     | lift_lets

theorem keeps_haltAtMark {a : State} (c : Nat) (stamp : Nat) (s : State) (h : Keeps a s) : Keeps a (haltAtMark c stamp s) := by
  unfold haltAtMark
  repeat' first | with_reducible assumption | with_reducible apply keeps_haltClass | with_reducible apply keeps_setCls | split

theorem keeps_startMarked {a : State} (m : HeldMark) (s : State) (h : Keeps a s) : Keeps a (startMarked m s) := by
  have k0 : Keeps a (if m.cls = 1 then checkStamp m.stamp s else s) := by
    split
    · exact keeps_checkStamp _ _ h
    · exact h
  have k := keeps_followInstant m.stamp _ k0
  unfold startMarked
  revert k
  generalize followInstant m.stamp (if m.cls = 1 then checkStamp m.stamp s else s) = x
  intro k
  dsimp only
  generalize snapVector x m.vector x.points = q
  obtain ⟨q, missing⟩ := q
  dsimp only
  apply keeps_haltAtMark
  split
  · exact keeps_closeSnapshot _ _ (keeps_setCls _ _ _ k)
  · exact keeps_requestFills _ _ _ (keeps_setCls _ _ _ k)

theorem keeps_startHeld {a : State} (c : Nat) (s : State) (h : Keeps a s) : Keeps a (startHeld c s) := by
  unfold startHeld
  with_reducible repeat' first
     | (intro x; first | (have hx : Keeps a x := by (unfold x; repeat' first | assumption | apply keeps_startMarked | apply keeps_setPair | split)); clear_value x | (have _ : HostIf := x) | (have _ : Keys := x) | (have _ : Fwu := x) | clear_value x | skip)
     | assumption | apply keeps_startMarked | apply keeps_setPair | split | lift_lets

theorem keeps_unitEvents {a : State} (c u : Nat) (o : UnitOut) (s : State) (h : Keeps a s) : Keeps a (unitEvents c u o s) := by
  have k := keeps_foldl (f := fun s (id : Nat) => raise 0x33 [(u : Int), (id : Int)] s) (fun _ _ h => keeps_raise _ _ _ h) o.outside h
  have k2 := keeps_foldl (f := fun s (id : Nat) => raise 0x25 [(id : Int)] s) (fun _ _ h => keeps_raise _ _ _ h) o.invalid k
  unfold unitEvents
  revert k2
  dsimp only
  generalize List.foldl _ _ o.invalid = x
  intro k2
  split
  · split
    · exact k2
    · exact keeps_raiseC _ _ _ _ (keeps_setCycle _ _ _ k2)
  · split
    · exact keeps_raiseC _ _ _ _ k2
    · exact k2
  · exact k2

theorem keeps_unitDone {a : State} (c : Nat) (u : Nat) (s : State) (h : Keeps a s) : Keeps a (unitDone c u s) := by
  unfold unitDone
  with_reducible repeat' first
     | (intro x; first | (have hx : Keeps a x := by (unfold x; repeat' first | assumption | apply keeps_setCycle | apply keeps_startHeld | apply keeps_releaseFrom | split)); clear_value x | (have _ : HostIf := x) | (have _ : Keys := x) | (have _ : Fwu := x) | clear_value x | skip)
     | assumption | apply keeps_setCycle | apply keeps_startHeld | apply keeps_releaseFrom | split | lift_lets

theorem keeps_backDone {a : State} (x : Entry) (o : UnitOut) (s : State) (h : Keeps a s) : Keeps a (backDone x o s) := by
  unfold backDone
  exact keeps_work _ (keeps_setCls _ _ _ (keeps_commitWrites _ _ _ h))

theorem keeps_engineDone {a : State} (e : Nat) (x : Entry) (traps : Nat) (spent : Nat) (s : State) (h : Keeps a s) : Keeps a (engineDone e x traps spent s) := ⟨h.1, h.2⟩

theorem keeps_execUnitComplete {a : State} (e : EngineId) (obs : RunObs) (s : State) (h : Keeps a s) : Goes a (execUnitComplete e obs s) := by
  unfold execUnitComplete
  (try intro x)
  apply goes_next
  repeat' first
     | (intro x; first | (have hx : Keeps a x := by (unfold x; repeat' first | with_reducible assumption | with_reducible apply keeps_selectWork | with_reducible apply keeps_settleEntry | with_reducible apply keeps_setEngine | with_reducible apply keeps_engineDone | with_reducible apply keeps_unitEvents | with_reducible apply keeps_setLine | with_reducible apply keeps_unitDone | with_reducible apply keeps_backDone | with_reducible apply keeps_setCycle | split)); clear_value x | (have _ : HostIf := x) | (have _ : Keys := x) | (have _ : Fwu := x) | clear_value x | skip)
     | with_reducible assumption | with_reducible apply keeps_selectWork | with_reducible apply keeps_settleEntry
     | with_reducible apply keeps_setEngine | with_reducible apply keeps_engineDone | with_reducible apply keeps_unitEvents
     | with_reducible apply keeps_setLine | with_reducible apply keeps_unitDone | with_reducible apply keeps_backDone | with_reducible apply keeps_setCycle | split
     | lift_lets

theorem keeps_setVote {a : State} (c : Nat) (u : Nat) (stamp : Nat) (f : Vote → Vote) (s : State) (h : Keeps a s) : Keeps a (setVote c u stamp f s) := ⟨h.1, h.2⟩

theorem keeps_dropVote {a : State} (c : Nat) (u : Nat) (stamp : Nat) (s : State) (h : Keeps a s) : Keeps a (dropVote c u stamp s) := ⟨h.1, h.2⟩

theorem keeps_releaseStaged {a : State} (v : Vote) (g : Staged) (s : State) (h : Keeps a s) : Keeps a (releaseStaged v g s) := by
  unfold releaseStaged
  repeat' first | with_reducible assumption | with_reducible apply keeps_dropVote | with_reducible apply keeps_setVote | split

theorem keeps_compareReplicas {a : State} (x : Entry) (v : Vote) (z2 : Staged) (b : Staged) (s : State) (h : Keeps a s) : Keeps a (compareReplicas x v z2 b s) := by
  unfold compareReplicas
  with_reducible repeat' first
     | (intro x; first | (have hx : Keeps a x := by (unfold x; repeat' first | assumption | apply keeps_releaseStaged | apply keeps_raise | apply keeps_countFault | apply keeps_issueEntry | split)); clear_value x | (have _ : HostIf := x) | (have _ : Keys := x) | (have _ : Fwu := x) | clear_value x | skip)
     | assumption | apply keeps_releaseStaged | apply keeps_raise | apply keeps_countFault | apply keeps_issueEntry | split
     | lift_lets

theorem keeps_decideVote {a : State} (v : Vote) (z1 : Staged) (b : Staged) (d : Staged) (s : State) (h : Keeps a s) : Keeps a (decideVote v z1 b d s) := by
  unfold decideVote
  with_reducible repeat' first
     | (intro x; first | (have hx : Keeps a x := by (unfold x; repeat' first | assumption | apply keeps_releaseStaged | apply keeps_setEngine | apply keeps_raise | apply keeps_fenceEngine | apply keeps_dropVote | apply keeps_unitDone | apply keeps_setCycle | split)); clear_value x | (have _ : HostIf := x) | (have _ : Keys := x) | (have _ : Fwu := x) | clear_value x | skip)
     | assumption | apply keeps_releaseStaged | apply keeps_setEngine | apply keeps_raise | apply keeps_fenceEngine
     | apply keeps_dropVote | apply keeps_unitDone | apply keeps_setCycle | split | lift_lets

theorem keeps_takeHash {a : State} (x : Entry) (g : Staged) (s : State) (h : Keeps a s) : Keeps a (takeHash x g s) := by
  unfold takeHash
  with_reducible repeat' first
     | (intro x; first | (have hx : Keeps a x := by (unfold x; repeat' first | assumption | apply keeps_setVote | apply keeps_decideVote | apply keeps_compareReplicas | split)); clear_value x | (have _ : HostIf := x) | (have _ : Keys := x) | (have _ : Fwu := x) | clear_value x | skip)
     | assumption | apply keeps_setVote | apply keeps_decideVote | apply keeps_compareReplicas | split | lift_lets

theorem keeps_execResultHash {a : State} (e : EngineId) (s : State) (h : Keeps a s) : Goes a (execResultHash e s) := by
  unfold execResultHash
  (try intro x)
  apply goes_next
  repeat' first
     | (intro x; first | (have hx : Keeps a x := by (unfold x; repeat' first | with_reducible assumption | with_reducible apply keeps_takeHash | with_reducible apply keeps_setEngine | split)); clear_value x | (have _ : HostIf := x) | (have _ : Keys := x) | (have _ : Fwu := x) | clear_value x | skip)
     | with_reducible assumption | with_reducible apply keeps_takeHash | with_reducible apply keeps_setEngine | split
     | lift_lets

theorem keeps_execStagingCopyDone {a : State} (c : PClass) (u : Nat) (s : State) (h : Keeps a s) : Goes a (execStagingCopyDone c u s) := by
  unfold execStagingCopyDone
  (try intro x)
  apply goes_next
  repeat' first
     | (intro x; first | (have hx : Keeps a x := by (unfold x; repeat' first | with_reducible assumption | with_reducible apply keeps_unitDone | with_reducible apply keeps_setCycle | with_reducible apply keeps_dropVote | split)); clear_value x | (have _ : HostIf := x) | (have _ : Keys := x) | (have _ : Fwu := x) | clear_value x | skip)
     | with_reducible assumption | with_reducible apply keeps_unitDone | with_reducible apply keeps_setCycle
     | with_reducible apply keeps_dropVote | split | lift_lets

theorem keeps_solveDeadline {a : State} (d c : Nat) (s : State) (h : Keeps a s) :
    Keeps a (if c = 1 then { s with solveDeadline := d } else s) := by
  split
  · exact ⟨h.1, h.2⟩
  · exact h

theorem keeps_adoptClassCfg {a : State} (c now : Nat) (s : State) (h : Keeps a s) : Keeps a (adoptClassCfg c now s) := by
  unfold adoptClassCfg
  dsimp only
  split
  · exact h
  · split
    · exact keeps_solveDeadline _ _ _ (keeps_setCls _ _ _ h)
    · exact h

theorem keeps_periodStart {a : State} (c t : Nat) (s : State) (h : Keeps a s) : Keeps a (periodStart c t s) := by
  unfold periodStart
  dsimp only
  split
  · exact keeps_raise _ _ _ (keeps_rcAdd _ _ _ (keeps_setCls _ _ _ h))
  · have k : Keeps a (if (cls s c).republish = true then canRepeat c (republishHeld c t s) else s) := by
      split
      · exact keeps_canRepeat _ _ (keeps_republishHeld _ _ _ h)
      · exact h
    revert k
    generalize (if (cls s c).republish = true then canRepeat c (republishHeld c t s) else s) = x
    intro k
    split
    · exact k
    · split
      · have k2 := keeps_publishSafe c t x k
        split
        · exact keeps_sampleHist _ _ _ k2
        · exact k2
      · split
        · exact k
        · split
          · exact keeps_startHeld _ _ k
          · exact keeps_startCycle _ _ _ _ k

theorem keeps_execCycleDeadline {a : State} (c : PClass) (s : State) (h : Keeps a s) : Goes a (execCycleDeadline c s) := by
  unfold execCycleDeadline
  (try intro x)
  apply goes_next
  repeat' first
     | (intro x; first | (have hx : Keeps a x := by (unfold x; repeat' first | with_reducible assumption | with_reducible apply keeps_setCycle | split)); clear_value x | (have _ : HostIf := x) | (have _ : Keys := x) | (have _ : Fwu := x) | clear_value x | skip)
     | with_reducible assumption | with_reducible apply keeps_setCycle | split | lift_lets

theorem keeps_execCycleAbandon {a : State} (c' : PClass) (s : State) (h : Keeps a s) : Goes a (execCycleAbandon c' s) := by
  unfold execCycleAbandon
  (try intro x)
  apply goes_next
  repeat' first
     | (intro x; first | (have hx : Keeps a x := by (unfold x; repeat' first | with_reducible assumption | with_reducible apply keeps_setCls | with_reducible apply keeps_canCancelClass | with_reducible apply keeps_stopClass | with_reducible apply keeps_raise | with_reducible apply keeps_endRestart | split)); clear_value x | (have _ : HostIf := x) | (have _ : Keys := x) | (have _ : Fwu := x) | clear_value x | skip)
     | with_reducible assumption | with_reducible apply keeps_setCls | with_reducible apply keeps_canCancelClass
     | with_reducible apply keeps_stopClass | with_reducible apply keeps_raise | with_reducible apply keeps_endRestart | split
     | lift_lets

end Sys2Proof.Laws
end

