-- ==== Sys2Proof/Laws/KeepsPairing.lean ====
section
/-! SUPPORT. Laws/KeepsPairing.lean: what each operation of Machine/Pairing.lean keeps (Laws/Keeps.lean). -/

namespace Sys2Proof.Laws

set_option linter.all false

open Sys2Proof.Machine

theorem keeps_claimRole {a : State} (r : Role) (s : State) (h : Keeps a s) : Keeps a (claimRole r s) := by
  unfold claimRole
  with_reducible repeat' first
     | (intro x; first | (have hx : Keeps a x := by (unfold x; repeat' first | assumption | apply keeps_settlePins | apply keeps_refreshModes | apply keeps_setPair | split)); clear_value x | (have _ : HostIf := x) | (have _ : Keys := x) | (have _ : Fwu := x) | clear_value x | skip)
     | assumption | apply keeps_settlePins | apply keeps_refreshModes | apply keeps_setPair | split | lift_lets

theorem keeps_decideRole {a : State} (s : State) (h : Keeps a s) : Keeps a (decideRole s) := by
  unfold decideRole
  with_reducible repeat' first
     | (intro x; first | (have hx : Keeps a x := by (unfold x; repeat' first | assumption | apply keeps_restRole | apply keeps_claimRole | apply keeps_setPair | split)); clear_value x | (have _ : HostIf := x) | (have _ : Keys := x) | (have _ : Fwu := x) | clear_value x | skip)
     | assumption | apply keeps_restRole | apply keeps_claimRole | apply keeps_setPair | split | lift_lets

theorem keeps_execSlot1ClaimTimeout {a : State} (s : State) (h : Keeps a s) : Goes a (execSlot1ClaimTimeout s) := by
  unfold execSlot1ClaimTimeout
  (try intro x)
  apply goes_next
  repeat' first
     | (intro x; first | (have hx : Keeps a x := by (unfold x; repeat' first | with_reducible assumption | with_reducible apply keeps_decideRole | split)); clear_value x | (have _ : HostIf := x) | (have _ : Keys := x) | (have _ : Fwu := x) | clear_value x | skip)
     | with_reducible assumption | with_reducible apply keeps_decideRole | split | lift_lets

theorem keeps_execActiveNChange {a : State} (low : Bool) (s : State) (h : Keeps a s) : Goes a (execActiveNChange low s) := by
  unfold execActiveNChange
  (try intro x)
  apply goes_next
  repeat' first
     | (intro x; first | (have hx : Keeps a x := by (unfold x; repeat' first | with_reducible assumption | with_reducible apply keeps_setPair | with_reducible apply keeps_decideRole | split)); clear_value x | (have _ : HostIf := x) | (have _ : Keys := x) | (have _ : Fwu := x) | clear_value x | skip)
     | with_reducible assumption | with_reducible apply keeps_setPair | with_reducible apply keeps_decideRole | split
     | lift_lets

theorem keeps_execPartnerPresentChange {a : State} (present : Bool) (s : State) (h : Keeps a s) : Goes a (execPartnerPresentChange present s) := by
  unfold execPartnerPresentChange
  (try intro x)
  apply goes_next
  repeat' first
     | (intro x; first | (have hx : Keeps a x := by (unfold x; repeat' first | with_reducible assumption | with_reducible apply keeps_setPair | with_reducible apply keeps_raise | with_reducible apply keeps_endExchange | with_reducible apply keeps_dropPartner | with_reducible apply keeps_decideRole | split)); clear_value x | (have _ : HostIf := x) | (have _ : Keys := x) | (have _ : Fwu := x) | clear_value x | skip)
     | with_reducible assumption | with_reducible apply keeps_setPair | with_reducible apply keeps_raise
     | with_reducible apply keeps_endExchange | with_reducible apply keeps_dropPartner | with_reducible apply keeps_decideRole
     | split | lift_lets

theorem keeps_execPairLinkUp {a : State} (lane : Fin 2) (s : State) (h : Keeps a s) : Goes a (execPairLinkUp lane s) := by
  unfold execPairLinkUp
  (try intro x)
  apply goes_next
  repeat' first
     | (intro x; first | (have hx : Keeps a x := by (unfold x; repeat' first | with_reducible assumption | with_reducible apply keeps_setPair | with_reducible apply keeps_raise | split)); clear_value x | (have _ : HostIf := x) | (have _ : Keys := x) | (have _ : Fwu := x) | clear_value x | skip)
     | with_reducible assumption | with_reducible apply keeps_setPair | with_reducible apply keeps_raise | split | lift_lets

theorem keeps_execPairLaneLoss {a : State} (lane : Fin 2) (s : State) (h : Keeps a s) : Goes a (execPairLaneLoss lane s) := by
  unfold execPairLaneLoss
  (try intro x)
  apply goes_next
  repeat' first
     | (intro x; first | (have hx : Keeps a x := by (unfold x; repeat' first | with_reducible assumption | with_reducible apply keeps_rcAdd | with_reducible apply keeps_setPair | split)); clear_value x | (have _ : HostIf := x) | (have _ : Keys := x) | (have _ : Fwu := x) | clear_value x | skip)
     | with_reducible assumption | with_reducible apply keeps_rcAdd | with_reducible apply keeps_setPair | split | lift_lets

theorem keeps_execPairLinkDown {a : State} (s : State) (h : Keeps a s) : Goes a (execPairLinkDown s) := by
  unfold execPairLinkDown
  (try intro x)
  apply goes_next
  repeat' first
     | (intro x; first | (have hx : Keeps a x := by (unfold x; repeat' first | with_reducible assumption | with_reducible apply keeps_raise | with_reducible apply keeps_setPair | with_reducible apply keeps_countFault | with_reducible apply keeps_endExchange | with_reducible apply keeps_dropPartner | split)); clear_value x | (have _ : HostIf := x) | (have _ : Keys := x) | (have _ : Fwu := x) | clear_value x | skip)
     | with_reducible assumption | with_reducible apply keeps_raise | with_reducible apply keeps_setPair
     | with_reducible apply keeps_countFault | with_reducible apply keeps_endExchange | with_reducible apply keeps_dropPartner
     | split | lift_lets

theorem keeps_execHeartbeatSend {a : State} (s : State) (h : Keeps a s) : Goes a (execHeartbeatSend s) := by
  unfold execHeartbeatSend
  (try intro x)
  apply goes_next
  repeat' first
     | (intro x; first | (have hx : Keeps a x := by (unfold x; repeat' first | with_reducible assumption | with_reducible apply keeps_setPair | with_reducible apply keeps_emit | split)); clear_value x | (have _ : HostIf := x) | (have _ : Keys := x) | (have _ : Fwu := x) | clear_value x | skip)
     | with_reducible assumption | with_reducible apply keeps_setPair | with_reducible apply keeps_emit | split | lift_lets

theorem keeps_refuseJoin {a : State} (cause : Nat) (s : State) (h : Keeps a s) : Keeps a (refuseJoin cause s) := by
  unfold refuseJoin
  with_reducible repeat' first
     | (intro x; first | (have hx : Keeps a x := by (unfold x; repeat' first | assumption | apply keeps_raiseC | apply keeps_restRole | apply keeps_setPair | split)); clear_value x | (have _ : HostIf := x) | (have _ : Keys := x) | (have _ : Fwu := x) | clear_value x | skip)
     | assumption | apply keeps_raiseC | apply keeps_restRole | apply keeps_setPair | split | lift_lets

theorem keeps_acceptJoin {a : State} (z0 : Heartbeat) (s : State) (h : Keeps a s) : Keeps a (acceptJoin z0 s) := by
  unfold acceptJoin
  with_reducible repeat' first
     | (intro x; first | (have hx : Keeps a x := by (unfold x; repeat' first | assumption | apply keeps_raise | apply keeps_setPair | split)); clear_value x | (have _ : HostIf := x) | (have _ : Keys := x) | (have _ : Fwu := x) | clear_value x | skip)
     | assumption | apply keeps_raise | apply keeps_setPair | split | lift_lets

theorem keeps_resyncDone {a : State} (s : State) (h : Keeps a s) : Keeps a (resyncDone s) := by
  unfold resyncDone
  with_reducible repeat' first
     | (intro x; first | (have hx : Keeps a x := by (unfold x; repeat' first | assumption | apply keeps_raise | apply keeps_setPair | apply keeps_finishOpt | split)); clear_value x | (have _ : HostIf := x) | (have _ : Keys := x) | (have _ : Fwu := x) | clear_value x | skip)
     | assumption | apply keeps_raise | apply keeps_setPair | apply keeps_finishOpt | split | lift_lets

theorem keeps_followSynced {a : State} (old : Option Heartbeat) (z1 : Heartbeat) (s : State) (h : Keeps a s) : Keeps a (followSynced old z1 s) := by
  unfold followSynced
  with_reducible repeat' first
     | (intro x; first | (have hx : Keeps a x := by (unfold x; repeat' first | assumption | apply keeps_setPair | apply keeps_resyncDone | apply keeps_raise | split)); clear_value x | (have _ : HostIf := x) | (have _ : Keys := x) | (have _ : Fwu := x) | clear_value x | skip)
     | assumption | apply keeps_setPair | apply keeps_resyncDone | apply keeps_raise | split | lift_lets

theorem keeps_activeHears {a : State} (old : Option Heartbeat) (z1 : Heartbeat) (s : State) (h : Keeps a s) : Keeps a (activeHears old z1 s) := by
  unfold activeHears
  with_reducible repeat' first
     | (intro x; first | (have hx : Keeps a x := by (unfold x; repeat' first | assumption | apply keeps_acceptJoin | apply keeps_followSynced | apply keeps_ackMirrored | split)); clear_value x | (have _ : HostIf := x) | (have _ : Keys := x) | (have _ : Fwu := x) | clear_value x | skip)
     | assumption | apply keeps_acceptJoin | apply keeps_followSynced | apply keeps_ackMirrored | split | lift_lets

theorem keeps_standbyHears {a : State} (old : Option Heartbeat) (z1 : Heartbeat) (s : State) (h : Keeps a s) : Keeps a (standbyHears old z1 s) := by
  unfold standbyHears
  with_reducible repeat' first
     | (intro x; first | (have hx : Keeps a x := by (unfold x; repeat' first | assumption | apply keeps_refuseJoin | apply keeps_setPair | apply keeps_acceptJoin | apply keeps_startResync | split)); clear_value x | (have _ : HostIf := x) | (have _ : Keys := x) | (have _ : Fwu := x) | clear_value x | skip)
     | assumption | apply keeps_refuseJoin | apply keeps_setPair | apply keeps_acceptJoin | apply keeps_startResync | split
     | lift_lets

theorem keeps_execHeartbeatReceive {a : State} (z0 : Heartbeat) (s : State) (h : Keeps a s) : Goes a (execHeartbeatReceive z0 s) := by
  unfold execHeartbeatReceive
  (try intro x)
  apply goes_next
  repeat' first
     | (intro x; first | (have hx : Keeps a x := by (unfold x; repeat' first | with_reducible assumption | with_reducible apply keeps_rcAdd | with_reducible apply keeps_setPair | with_reducible apply keeps_raise | with_reducible apply keeps_activeHears | with_reducible apply keeps_standbyHears | split)); clear_value x | (have _ : HostIf := x) | (have _ : Keys := x) | (have _ : Fwu := x) | clear_value x | skip)
     | with_reducible assumption | with_reducible apply keeps_rcAdd | with_reducible apply keeps_setPair
     | with_reducible apply keeps_raise | with_reducible apply keeps_activeHears | with_reducible apply keeps_standbyHears
     | split | lift_lets

theorem keeps_execHeartbeatLost {a : State} (s : State) (h : Keeps a s) : Goes a (execHeartbeatLost s) := by
  unfold execHeartbeatLost
  (try intro x)
  apply goes_next
  repeat' first
     | (intro x; first | (have hx : Keeps a x := by (unfold x; repeat' first | with_reducible assumption | with_reducible apply keeps_rcAdd | with_reducible apply keeps_raise | with_reducible apply keeps_setPair | with_reducible apply keeps_endExchange | with_reducible apply keeps_dropPartner | split)); clear_value x | (have _ : HostIf := x) | (have _ : Keys := x) | (have _ : Fwu := x) | clear_value x | skip)
     | with_reducible assumption | with_reducible apply keeps_rcAdd | with_reducible apply keeps_raise
     | with_reducible apply keeps_setPair | with_reducible apply keeps_endExchange | with_reducible apply keeps_dropPartner
     | split | lift_lets

theorem keeps_republishSets {a : State} (y0 : List Nat) (y1 : State) (h : Keeps a y1) : Keeps a (republishSets y0 y1) := by
  induction y0 generalizing y1 with
  | nil =>
    unfold republishSets
    repeat' first
       | (intro x; first | (have hx : Keeps a x := by (unfold x; repeat' first | with_reducible assumption | with_reducible apply keeps_sendSet | split)); clear_value x | (have _ : HostIf := x) | (have _ : Keys := x) | (have _ : Fwu := x) | clear_value x | skip)
       | with_reducible assumption | with_reducible apply keeps_sendSet | split | lift_lets
  | cons x r ih =>
    unfold republishSets
    repeat' first
       | (intro x; first | (have hx : Keeps a x := by (unfold x; repeat' first | with_reducible assumption | with_reducible apply keeps_sendSet | with_reducible apply ih | split)); clear_value x | (have _ : HostIf := x) | (have _ : Keys := x) | (have _ : Fwu := x) | clear_value x | skip)
       | with_reducible assumption | with_reducible apply keeps_sendSet | with_reducible apply ih | split | lift_lets

theorem keeps_takeUp {a : State} (exchange : Bool) (s : State) (h : Keeps a s) : Keeps a (takeUp exchange s) := by
  unfold takeUp
  with_reducible repeat' first
     | (intro x; first | (have hx : Keeps a x := by (unfold x; repeat' first | assumption | apply keeps_endExchange | apply keeps_abortLoopback | apply keeps_setPair | apply keeps_raise | apply keeps_countFault | apply keeps_settlePins | apply keeps_resendLoops | apply keeps_republishSets | apply keeps_estTrigger | split)); clear_value x | (have _ : HostIf := x) | (have _ : Keys := x) | (have _ : Fwu := x) | clear_value x | skip)
     | assumption | apply keeps_endExchange | apply keeps_abortLoopback | apply keeps_setPair | apply keeps_raise
     | apply keeps_countFault | apply keeps_settlePins | apply keeps_resendLoops | apply keeps_republishSets
     | apply keeps_estTrigger | split | lift_lets

theorem keeps_execActiveNCheck {a : State} (s : State) (h : Keeps a s) : Goes a (execActiveNCheck s) := by
  unfold execActiveNCheck
  (try intro x)
  apply goes_next
  repeat' first
     | (intro x; first | (have hx : Keeps a x := by (unfold x; repeat' first | with_reducible assumption | with_reducible apply keeps_takeUp | with_reducible apply keeps_setPair | with_reducible apply keeps_countFault | with_reducible apply keeps_raise | split)); clear_value x | (have _ : HostIf := x) | (have _ : Keys := x) | (have _ : Fwu := x) | clear_value x | skip)
     | with_reducible assumption | with_reducible apply keeps_takeUp | with_reducible apply keeps_setPair
     | with_reducible apply keeps_countFault | with_reducible apply keeps_raise | split | lift_lets

theorem keeps_repeatAll {a : State} (s : State) (h : Keeps a s) : Keeps a (canRepeat 3 (canRepeat 2 (canRepeat 1 (canRepeat 0 s)))) :=
  keeps_canRepeat _ _ (keeps_canRepeat _ _ (keeps_canRepeat _ _ (keeps_canRepeat _ _ h)))

theorem keeps_execTakeUpControl {a : State} (s : State) (h : Keeps a s) : Goes a (execTakeUpControl s) := by
  unfold execTakeUpControl
  dsimp only
  refine ⟨_, rfl, ?_⟩
  split
  · with_reducible exact keeps_repeatAll _ (keeps_refreshModes _ (keeps_setPair _ s h))
  · exact h

end Sys2Proof.Laws
end

