-- ==== Sys2Proof/Laws/KeepsPairCmd.lean ====
section
/-! SUPPORT. Laws/KeepsPairCmd.lean: what each operation of Machine/PairCmd.lean keeps (Laws/Keeps.lean). -/

namespace Sys2Proof.Laws

set_option linter.all false

open Sys2Proof.Machine

theorem keeps_specPairStatus {a : State} (r : Req) (p : Bytes) (s : State) (h : Keeps a s) : Keeps a (specPairStatus.run r p s) := by
  unfold specPairStatus; dsimp only
  repeat' first
     | (intro x; first | (have hx : Keeps a x := by (unfold x; repeat' first | with_reducible assumption | with_reducible apply keeps_finishOk | split)); clear_value x | (have _ : HostIf := x) | (have _ : Keys := x) | (have _ : Fwu := x) | clear_value x | skip)
     | with_reducible assumption | with_reducible apply keeps_finishOk | split | lift_lets

theorem keeps_execCmdPairStatus {a : State} (r : Req) (s : State) (h : Keeps a s) : Goes a (execCmdPairStatus r s) :=
  goes_next (keeps_runCmd keeps_specPairStatus r h)

theorem keeps_specPairConfig {a : State} (r : Req) (p : Bytes) (s : State) (h : Keeps a s) : Keeps a (specPairConfig.run r p s) := by
  unfold specPairConfig; dsimp only
  repeat' first
     | (intro x; first | (have hx : Keeps a x := by (unfold x; repeat' first | with_reducible assumption | with_reducible apply keeps_finishOk | with_reducible apply keeps_setPair | split)); clear_value x | (have _ : HostIf := x) | (have _ : Keys := x) | (have _ : Fwu := x) | clear_value x | skip)
     | with_reducible assumption | with_reducible apply keeps_finishOk | with_reducible apply keeps_setPair | split | lift_lets

theorem keeps_execCmdPairConfig {a : State} (r : Req) (s : State) (h : Keeps a s) : Goes a (execCmdPairConfig r s) :=
  goes_next (keeps_runCmd keeps_specPairConfig r h)

theorem keeps_specFaultStatus {a : State} (r : Req) (p : Bytes) (s : State) (h : Keeps a s) : Keeps a (specFaultStatus.run r p s) := by
  unfold specFaultStatus; dsimp only
  repeat' first
     | (intro x; first | (have hx : Keeps a x := by (unfold x; repeat' first | with_reducible assumption | with_reducible apply keeps_finishOk | with_reducible apply keeps_takeFree | (with_reducible refine keeps_takeFree_eq (by assumption) ?_) | split)); clear_value x | (have _ : HostIf := x) | (have _ : Keys := x) | (have _ : Fwu := x) | clear_value x | skip)
     | with_reducible assumption | with_reducible apply keeps_finishOk | with_reducible apply keeps_takeFree
     | (with_reducible refine keeps_takeFree_eq (by assumption) ?_) | split | lift_lets

theorem keeps_execCmdFaultStatus {a : State} (r : Req) (s : State) (h : Keeps a s) : Goes a (execCmdFaultStatus r s) :=
  goes_next (keeps_runCmd keeps_specFaultStatus r h)

theorem keeps_askExchange {a : State} (drill : Bool) (r : Option Req) (s : State) (h : Keeps a s) : Keeps a (askExchange drill r s) := ⟨h.1, h.2⟩

theorem keeps_specSwitchover {a : State} (r : Req) (p : Bytes) (s : State) (h : Keeps a s) : Keeps a (specSwitchover.run r p s) := by
  unfold specSwitchover; dsimp only
  repeat' first
     | (intro x; first | (have hx : Keeps a x := by (unfold x; repeat' first | with_reducible assumption | with_reducible apply keeps_holdCmd | with_reducible apply keeps_askExchange | split)); clear_value x | (have _ : HostIf := x) | (have _ : Keys := x) | (have _ : Fwu := x) | clear_value x | skip)
     | with_reducible assumption | with_reducible apply keeps_holdCmd | with_reducible apply keeps_askExchange | split
     | lift_lets

theorem keeps_execCmdSwitchover {a : State} (r : Req) (s : State) (h : Keeps a s) : Goes a (execCmdSwitchover r s) :=
  goes_next (keeps_runCmd keeps_specSwitchover r h)

theorem keeps_specDrill {a : State} (r : Req) (p : Bytes) (s : State) (h : Keeps a s) : Keeps a (specDrill.run r p s) := by
  unfold specDrill; dsimp only
  repeat' first
     | (intro x; first | (have hx : Keeps a x := by (unfold x; repeat' first | with_reducible assumption | with_reducible apply keeps_holdCmd | with_reducible apply keeps_askExchange | split)); clear_value x | (have _ : HostIf := x) | (have _ : Keys := x) | (have _ : Fwu := x) | clear_value x | skip)
     | with_reducible assumption | with_reducible apply keeps_holdCmd | with_reducible apply keeps_askExchange | split
     | lift_lets

theorem keeps_execCmdDrill {a : State} (r : Req) (s : State) (h : Keeps a s) : Goes a (execCmdDrill r s) :=
  goes_next (keeps_runCmd keeps_specDrill r h)

theorem keeps_handOver {a : State} (x : Exchange) (gapUs : Nat) (s : State) (h : Keeps a s) : Keeps a (handOver x gapUs s) := by
  unfold handOver
  with_reducible repeat' first
     | (intro x; first | (have hx : Keeps a x := by (unfold x; repeat' first | assumption | apply keeps_sendMirror | apply keeps_raise | apply keeps_restRole | apply keeps_setPair | apply keeps_ackMirrored | apply keeps_finishOpt | split)); clear_value x | (have _ : HostIf := x) | (have _ : Keys := x) | (have _ : Fwu := x) | clear_value x | skip)
     | assumption | apply keeps_sendMirror | apply keeps_raise | apply keeps_restRole | apply keeps_setPair
     | apply keeps_ackMirrored | apply keeps_finishOpt | split | lift_lets

theorem keeps_execRoleExchange {a : State} (gapUs : Nat) (s : State) (h : Keeps a s) : Goes a (execRoleExchange gapUs s) := by
  unfold execRoleExchange
  (try intro x)
  apply goes_next
  repeat' first
     | (intro x; first | (have hx : Keeps a x := by (unfold x; repeat' first | with_reducible assumption | with_reducible apply keeps_endExchange | with_reducible apply keeps_handOver | split)); clear_value x | (have _ : HostIf := x) | (have _ : Keys := x) | (have _ : Fwu := x) | clear_value x | skip)
     | with_reducible assumption | with_reducible apply keeps_endExchange | with_reducible apply keeps_handOver | split
     | lift_lets

theorem keeps_execDrillStart {a : State} (s : State) (h : Keeps a s) : Goes a (execDrillStart s) := by
  unfold execDrillStart
  (try intro x)
  apply goes_next
  repeat' first
     | (intro x; first | (have hx : Keeps a x := by (unfold x; repeat' first | with_reducible assumption | with_reducible apply keeps_askExchange | split)); clear_value x | (have _ : HostIf := x) | (have _ : Keys := x) | (have _ : Fwu := x) | clear_value x | skip)
     | with_reducible assumption | with_reducible apply keeps_askExchange | split | lift_lets

theorem keeps_passDrill {a : State} (s : State) (h : Keeps a s) : Keeps a (passDrill s) := ⟨h.1, h.2⟩

theorem keeps_execDrillCheckDone {a : State} (res : PathCheck) (checkMs : Nat) (s : State) (h : Keeps a s) : Goes a (execDrillCheckDone res checkMs s) := by
  unfold execDrillCheckDone
  (try intro x)
  apply goes_next
  repeat' first
     | (intro x; first | (have hx : Keeps a x := by (unfold x; repeat' first | with_reducible assumption | with_reducible apply keeps_passDrill | with_reducible apply keeps_raise | with_reducible apply keeps_setPair | with_reducible apply keeps_fenceSelf | with_reducible apply keeps_countFault | with_reducible apply keeps_finishOpt | split)); clear_value x | (have _ : HostIf := x) | (have _ : Keys := x) | (have _ : Fwu := x) | clear_value x | skip)
     | with_reducible assumption | with_reducible apply keeps_passDrill | with_reducible apply keeps_raise
     | with_reducible apply keeps_setPair | with_reducible apply keeps_fenceSelf | with_reducible apply keeps_countFault
     | with_reducible apply keeps_finishOpt | split | lift_lets

theorem keeps_execDrillAgeHour {a : State} (s : State) (h : Keeps a s) : Goes a (execDrillAgeHour s) := by
  unfold execDrillAgeHour
  (try intro x)
  apply goes_next
  repeat' first
     | (intro x; first | (have hx : Keeps a x := by (unfold x; repeat' first | with_reducible assumption | with_reducible apply keeps_setPair | with_reducible apply keeps_raise | split)); clear_value x | (have _ : HostIf := x) | (have _ : Keys := x) | (have _ : Fwu := x) | clear_value x | skip)
     | with_reducible assumption | with_reducible apply keeps_setPair | with_reducible apply keeps_raise | split | lift_lets

theorem keeps_specPairResync {a : State} (r : Req) (p : Bytes) (s : State) (h : Keeps a s) : Keeps a (specPairResync.run r p s) := by
  unfold specPairResync; dsimp only
  repeat' first
     | (intro x; first | (have hx : Keeps a x := by (unfold x; repeat' first | with_reducible assumption | with_reducible apply keeps_setPair | with_reducible apply keeps_startResync | with_reducible apply keeps_holdCmd | split)); clear_value x | (have _ : HostIf := x) | (have _ : Keys := x) | (have _ : Fwu := x) | clear_value x | skip)
     | with_reducible assumption | with_reducible apply keeps_setPair | with_reducible apply keeps_startResync
     | with_reducible apply keeps_holdCmd | split | lift_lets

theorem keeps_execCmdPairResync {a : State} (r : Req) (s : State) (h : Keeps a s) : Goes a (execCmdPairResync r s) :=
  goes_next (keeps_runCmd keeps_specPairResync r h)

theorem keeps_endBistReq {a : State} (s : State) (h : Keeps a s) : Keeps a (endBistReq s) := by
  unfold endBistReq
  repeat' first | with_reducible assumption | with_reducible apply keeps_setPair | with_reducible apply keeps_finishOpt | split

theorem keeps_execSelfCheckDone {a : State} (res : SelfCheck) (s : State) (h : Keeps a s) : Goes a (execSelfCheckDone res s) := by
  unfold execSelfCheckDone
  (try intro x)
  apply goes_next
  repeat' first
     | (intro x; first | (have hx : Keeps a x := by (unfold x; repeat' first | with_reducible assumption | with_reducible apply keeps_endBistReq | with_reducible apply keeps_setPair | with_reducible apply keeps_fenceSelf | with_reducible apply keeps_raise | with_reducible apply keeps_startResync | split)); clear_value x | (have _ : HostIf := x) | (have _ : Keys := x) | (have _ : Fwu := x) | clear_value x | skip)
     | with_reducible assumption | with_reducible apply keeps_endBistReq | with_reducible apply keeps_setPair
     | with_reducible apply keeps_fenceSelf | with_reducible apply keeps_raise | with_reducible apply keeps_startResync | split
     | lift_lets

end Sys2Proof.Laws
end

