-- ==== Sys2Proof/Laws/KeepsReset.lean ====
section
/-! SUPPORT. Laws/KeepsReset.lean: what each operation of Machine/Reset.lean keeps (Laws/Keeps.lean). -/

namespace Sys2Proof.Laws

set_option linter.all false

open Sys2Proof.Machine
open Sys2Proof.Safety (lcReach transitionOk)

theorem keeps_mainDefaults {a : State} (s : State) (h : Keeps a s) : Keeps a (mainDefaults s) := by
  unfold mainDefaults
  refine keeps_resign _ _ ⟨fun _ => ⟨rfl, fun c hc => ?_⟩, fun j => ⟨fun o t root k w => ?_, (h.2.1 j).2⟩, fun i => ?_⟩
  · cases hc
  · obtain ⟨o', e, q⟩ := Option.map_eq_some_iff.mp k
    cases q
    exact (h.2.1 j).1 o' t root e w
  · exact h.2.2 i

theorem keeps_coldReset {a : State} (requested : Nat) (powerUp : Bool) (s : State) (h : Keeps a s) : Keeps a (coldReset requested powerUp s) := by
  unfold coldReset
  with_reducible repeat' first
     | (intro x; first | (have hx : Keeps a x := by (unfold x; repeat' first | assumption | apply keeps_mainDefaults | apply keeps_expireKeys | split)); clear_value x | (have _ : HostIf := x) | (have _ : Keys := x) | (have _ : Fwu := x) | clear_value x | skip)
     | assumption | apply keeps_mainDefaults | apply keeps_expireKeys | split | lift_lets

theorem keeps_specLcChange {a : State} (r : Req) (p : Bytes) (s : State) (h : Keeps a s) : Keeps a (specLcChange.run r p s) := by
  simp only [specLcChange]
  split
  · exact h
  · rename_i t b e
    refine keeps_startKeyOp _ _ _ _ (fun _ t' root k => ?_) h
    cases k
    exact transitionTo_reach e

theorem keeps_keyStep {a : State} (o : KeyOp) (s : State) (e : s.keys.op = some o) (h : Keeps a s) : Keeps a (keyStep o s) := by
  have hw : transitionOk a.keys.op a.keys.lc → ∀ t root, o.work = .transition t root → lcReach s.keys.lc t :=
    fun j t root k => (h.2.1 j).1 o t root e k
  unfold keyStep
  split
  · exact keeps_enterStage _ _ _ hw h
  · rename_i w st
    exact keeps_enterStage _ _ _ (fun _ t root k => by rw [w] at k; cases k) (keeps_commitSlots _ _ _ _ h)
  · exact keeps_finishOpt _ _ _ _ _ _ (keeps_restBrick _ _ (keeps_sealUpdate _ _ _ _ _ _ h))
  · refine keeps_enterStage _ _ _ (fun j t root k => ?_) (keeps_writeNewest _ _ (keeps_raise _ _ _ h))
    have q : ∀ d, (writeNewest 0xE4 (raise 0xE4 d s)).keys.lc = s.keys.lc := fun d =>
      congrArg (fun x => x.keys.lc) (reported_trans (reported_raise 0xE4 d s) (reported_writeNewest 0xE4 _)).rest
    rw [q]
    exact hw j t root k
  · rename_i t root w st
    have ho : ∀ o' t' r', s.keys.op = some o' → o'.work = .transition t' r' → t' = t := by
      intro o' t' r' n k
      rw [e] at n; cases n; rw [w] at k; cases k; rfl
    have k := keeps_enterState t root s (fun j => hw j t root w) ho h
    dsimp only
    split
    · rename_i hr
      refine keeps_enterStage _ _ _ (fun _ t' root' q => ?_) (keeps_fenceSelf _ k)
      rw [w] at q; cases q
      have f := ((keeps_fenceSelf _ (Keeps.refl (enterState t root s))).2.1
        (fun o' t' r' n q => (ho o' t' r' n q) ▸ lcReach_refl _)).2
      rcases f with f | f
      · rw [← f]; exact lcReach_refl _
      · exact absurd hr f.2.1
    · refine keeps_enterStage _ _ _ (fun _ t' root' q => ?_) k
      rw [w] at q; cases q
      exact lcReach_refl _
  · dsimp only
    exact keeps_openDebug _ (keeps_finishOpt _ _ _ _ _ _ (keeps_restBrick _ _ (keeps_noOp s.keys s rfl h)))

theorem keeps_keyTick {a : State} (s : State) (h : Keeps a s) : Keeps a (keyTick s) := by
  unfold keyTick
  split
  · exact h
  · rename_i e
    split
    · exact keeps_keyStep _ _ e h
    · exact h

theorem keeps_execCmdLcChange {a : State} (r : Req) (s : State) (h : Keeps a s) : Goes a (execCmdLcChange r s) :=
  goes_next (keeps_runCmd keeps_specLcChange r h)

theorem keeps_swapSlots {a : State} (st : SlotState) (s : State) (h : Keeps a s) : Keeps a (swapSlots st s) :=
  ⟨h.1, h.2.1, h.2.2⟩

theorem keeps_bootRevert {a : State} (cause : Nat) (s : State) (h : Keeps a s) : Keeps a (bootRevert cause s) := by
  unfold bootRevert
  repeat' first | with_reducible assumption | with_reducible apply keeps_raiseC | with_reducible apply keeps_swapSlots | split

theorem keeps_countTrialBoot {a : State} (s : State) (h : Keeps a s) : Keeps a (countTrialBoot s) := by
  unfold countTrialBoot
  repeat' first | exact ⟨h.1, h.2⟩ | assumption | with_reducible apply keeps_bootRevert | split

theorem keeps_releaseReset {a : State} (s : State) (h : Keeps a s) : Keeps a (releaseReset s) := by
  unfold releaseReset
  repeat' first | exact ⟨h.1, h.2⟩ | assumption | with_reducible apply keeps_countTrialBoot | split

theorem keeps_railsUp {a : State} (s : State) (h : Keeps a s) : Keeps a (railsUp s) := by
  unfold railsUp
  with_reducible repeat' first
     | (intro x; first | (have hx : Keeps a x := by (unfold x; repeat' first | assumption | apply keeps_releaseReset | apply keeps_coldReset | split)); clear_value x | (have _ : HostIf := x) | (have _ : Keys := x) | (have _ : Fwu := x) | clear_value x | skip)
     | assumption | apply keeps_releaseReset | apply keeps_coldReset | split | lift_lets

theorem keeps_railsOff {a : State} (s : State) (h : Keeps a s) : Keeps a (railsOff s) := by
  unfold railsOff
  repeat' first | exact ⟨h.1, h.2⟩ | assumption | with_reducible apply keeps_mainDefaults | split

theorem keeps_execRailSequence {a : State} (s : State) (h : Keeps a s) : Goes a (execRailSequence s) := by
  unfold execRailSequence
  (try intro x)
  apply goes_next
  repeat' first
     | (intro x; first | (have hx : Keeps a x := by (unfold x; repeat' first | with_reducible assumption | with_reducible apply keeps_railsUp | split)); clear_value x | (have _ : HostIf := x) | (have _ : Keys := x) | (have _ : Fwu := x) | clear_value x | skip)
     | with_reducible assumption | with_reducible apply keeps_railsUp | split | lift_lets

theorem keeps_execRailRetry {a : State} (s : State) (h : Keeps a s) : Goes a (execRailRetry s) := by
  unfold execRailRetry
  (try intro x)
  apply goes_next
  repeat' first
     | (intro x; first | (have hx : Keeps a x := by (unfold x; repeat' first | with_reducible assumption | with_reducible apply keeps_railsUp | split)); clear_value x | (have _ : HostIf := x) | (have _ : Keys := x) | (have _ : Fwu := x) | clear_value x | skip)
     | with_reducible assumption | with_reducible apply keeps_railsUp | split | lift_lets

theorem keeps_execRailFault {a : State} (rail : Fin 8) (s : State) (h : Keeps a s) : Goes a (execRailFault rail s) := by
  unfold execRailFault
  (try intro x)
  apply goes_next
  repeat' first
     | (intro x; first | (have hx : Keeps a x := by (unfold x; repeat' first | with_reducible assumption | with_reducible apply keeps_railsOff | with_reducible apply keeps_raise | split)); clear_value x | (have _ : HostIf := x) | (have _ : Keys := x) | (have _ : Fwu := x) | clear_value x | skip)
     | with_reducible assumption | with_reducible apply keeps_railsOff | with_reducible apply keeps_raise | split | lift_lets

theorem keeps_execVinOvervoltage {a : State} (s : State) (h : Keeps a s) : Goes a (execVinOvervoltage s) := by
  unfold execVinOvervoltage
  (try intro x)
  apply goes_next
  repeat' first
     | (intro x; first | (have hx : Keeps a x := by (unfold x; repeat' first | with_reducible assumption | with_reducible apply keeps_railsOff | with_reducible apply keeps_raise | split)); clear_value x | (have _ : HostIf := x) | (have _ : Keys := x) | (have _ : Fwu := x) | clear_value x | skip)
     | with_reducible assumption | with_reducible apply keeps_railsOff | with_reducible apply keeps_raise | split | lift_lets

theorem keeps_execMainWatchdog {a : State} (s : State) (h : Keeps a s) : Goes a (execMainWatchdog s) := by
  unfold execMainWatchdog
  (try intro x)
  apply goes_next
  repeat' first
     | (intro x; first | (have hx : Keeps a x := by (unfold x; repeat' first | with_reducible assumption | with_reducible apply keeps_raise | with_reducible apply keeps_railsOff | with_reducible apply keeps_releaseReset | with_reducible apply keeps_coldReset | split)); clear_value x | (have _ : HostIf := x) | (have _ : Keys := x) | (have _ : Fwu := x) | clear_value x | skip)
     | with_reducible assumption | with_reducible apply keeps_raise | with_reducible apply keeps_railsOff
     | with_reducible apply keeps_releaseReset | with_reducible apply keeps_coldReset | split | lift_lets

theorem keeps_execRstNAssert {a : State} (lowNs : Nat) (s : State) (h : Keeps a s) : Goes a (execRstNAssert lowNs s) := by
  unfold execRstNAssert
  (try intro x)
  apply goes_next
  repeat' first
     | (intro x; first | (have hx : Keeps a x := by (unfold x; repeat' first | with_reducible assumption | with_reducible apply keeps_coldReset | split)); clear_value x | (have _ : HostIf := x) | (have _ : Keys := x) | (have _ : Fwu := x) | clear_value x | skip)
     | with_reducible assumption | with_reducible apply keeps_coldReset | split | lift_lets

theorem keeps_execRstNRelease {a : State} (s : State) (h : Keeps a s) : Goes a (execRstNRelease s) := by
  unfold execRstNRelease
  (try intro x)
  apply goes_next
  repeat' first
     | (intro x; first | (have hx : Keeps a x := by (unfold x; repeat' first | with_reducible assumption | with_reducible apply keeps_releaseReset | split)); clear_value x | (have _ : HostIf := x) | (have _ : Keys := x) | (have _ : Fwu := x) | clear_value x | skip)
     | with_reducible assumption | with_reducible apply keeps_releaseReset | split | lift_lets

theorem keeps_execMainSideColdReset {a : State} (s : State) (h : Keeps a s) : Goes a (execMainSideColdReset s) := by
  unfold execMainSideColdReset
  (try intro x)
  apply goes_next
  repeat' first
     | (intro x; first | (have hx : Keeps a x := by (unfold x; repeat' first | with_reducible assumption | with_reducible apply keeps_releaseReset | with_reducible apply keeps_coldReset | split)); clear_value x | (have _ : HostIf := x) | (have _ : Keys := x) | (have _ : Fwu := x) | clear_value x | skip)
     | with_reducible assumption | with_reducible apply keeps_releaseReset | with_reducible apply keeps_coldReset | split
     | lift_lets

theorem keeps_execVstbyApplied {a : State} (slotId : Bool) (sba : BitVec 3) (s : State) (h : Keeps a s) : Goes a (execVstbyApplied slotId sba s) := by
  unfold execVstbyApplied
  (try intro x)
  apply goes_next
  repeat' first
     | (intro x; first | (have hx : Keeps a x := by (unfold x; repeat' first | with_reducible assumption | with_reducible apply keeps_railsOff | with_reducible apply keeps_raise | with_reducible apply keeps_recoverRecorder | split)); clear_value x | (have _ : HostIf := x) | (have _ : Keys := x) | (have _ : Fwu := x) | clear_value x | skip)
     | with_reducible assumption | with_reducible apply keeps_railsOff | with_reducible apply keeps_raise
     | with_reducible apply keeps_recoverRecorder | split | lift_lets

theorem keeps_execVbatSwitch {a : State} (s : State) (h : Keeps a s) : Goes a (execVbatSwitch s) := by
  unfold execVbatSwitch
  apply goes_next
  have k := keeps_railsOff s h
  revert k
  generalize railsOff s = x
  intro k
  split
  · refine ⟨fun _ => ⟨rfl, fun c hc => ?_⟩, k.2⟩
    cases hc
  · exact h

end Sys2Proof.Laws
end

