-- ==== Sys2Proof/Laws/KeepsClassCmd.lean ====
section
/-! SUPPORT. Laws/KeepsClassCmd.lean: what each operation of Machine/ClassCmd.lean keeps (Laws/Keeps.lean). -/

namespace Sys2Proof.Laws

set_option linter.all false

open Sys2Proof.Machine

theorem keeps_endShutdown {a : State} (r : Req) (s : State) (h : Keeps a s) : Keeps a (endShutdown r s) := by
  unfold endShutdown
  repeat' first | with_reducible assumption | with_reducible apply keeps_finishOk | with_reducible apply keeps_railsOff | split

theorem keeps_finalWrites {a : State} (r : Req) (s : State) (h : Keeps a s) : Keeps a (finalWrites r s) := by
  unfold finalWrites
  with_reducible repeat' first
     | (intro x; first | (have hx : Keeps a x := by (unfold x; repeat' first | assumption | apply keeps_saveRetain | apply keeps_saveTotals | apply keeps_endShutdown | split)); clear_value x | (have _ : HostIf := x) | (have _ : Keys := x) | (have _ : Fwu := x) | clear_value x | skip)
     | assumption | apply keeps_saveRetain | apply keeps_saveTotals | apply keeps_endShutdown | split | lift_lets

theorem keeps_shutdownStopped {a : State} (s : State) (h : Keeps a s) : Keeps a (shutdownStopped s) := by
  unfold shutdownStopped
  repeat' first | exact ⟨h.1, h.2⟩ | assumption | with_reducible apply keeps_finalWrites | split

theorem keeps_execRetainWriteDone {a : State} (s : State) (h : Keeps a s) : Goes a (execRetainWriteDone s) := by
  unfold execRetainWriteDone
  (try intro x)
  apply goes_next
  repeat' first
     | (intro x; first | (have hx : Keeps a x := by (unfold x; repeat' first | with_reducible assumption | with_reducible apply keeps_sealHalf | with_reducible apply keeps_endShutdown | with_reducible apply keeps_shutdownStopped | split)); clear_value x | (have _ : HostIf := x) | (have _ : Keys := x) | (have _ : Fwu := x) | clear_value x | skip)
     | with_reducible assumption | with_reducible apply keeps_sealHalf | with_reducible apply keeps_endShutdown
     | with_reducible apply keeps_shutdownStopped | split | lift_lets

theorem keeps_haltDone {a : State} (c : Nat) (s : State) (h : Keeps a s) : Keeps a (haltDone c s) := by
  unfold haltDone
  repeat' first | with_reducible assumption | with_reducible apply keeps_finishOpt | with_reducible apply keeps_setCls | split

theorem keeps_execClassUnitsStopped {a : State} (c : PClass) (s : State) (h : Keeps a s) : Goes a (execClassUnitsStopped c s) := by
  unfold execClassUnitsStopped
  (try intro x)
  apply goes_next
  repeat' first
     | (intro x; first | (have hx : Keeps a x := by (unfold x; repeat' first | with_reducible assumption | with_reducible apply keeps_shutdownStopped | with_reducible apply keeps_haltDone | split)); clear_value x | (have _ : HostIf := x) | (have _ : Keys := x) | (have _ : Fwu := x) | clear_value x | skip)
     | with_reducible assumption | with_reducible apply keeps_shutdownStopped | with_reducible apply keeps_haltDone | split
     | lift_lets

theorem keeps_specClassConfig {a : State} (r : Req) (p : Bytes) (s : State) (h : Keeps a s) : Keeps a (specClassConfig.run r p s) := by
  unfold specClassConfig; dsimp only
  repeat' first
     | (intro x; first | (have hx : Keeps a x := by (unfold x; repeat' first | with_reducible assumption | with_reducible apply keeps_planned | with_reducible apply keeps_finishOk | with_reducible apply keeps_setCls | split)); clear_value x | (have _ : HostIf := x) | (have _ : Keys := x) | (have _ : Fwu := x) | clear_value x | skip)
     | with_reducible assumption | with_reducible apply keeps_planned | with_reducible apply keeps_finishOk
     | with_reducible apply keeps_setCls | split | lift_lets

theorem keeps_execCmdClassConfig {a : State} (r : Req) (s : State) (h : Keeps a s) : Goes a (execCmdClassConfig r s) :=
  goes_next (keeps_runCmd keeps_specClassConfig r h)

theorem keeps_specClassStatus {a : State} (r : Req) (p : Bytes) (s : State) (h : Keeps a s) : Keeps a (specClassStatus.run r p s) := by
  unfold specClassStatus; dsimp only
  repeat' first
     | (intro x; first | (have hx : Keeps a x := by (unfold x; repeat' first | with_reducible assumption | with_reducible apply keeps_finishOk | split)); clear_value x | (have _ : HostIf := x) | (have _ : Keys := x) | (have _ : Fwu := x) | clear_value x | skip)
     | with_reducible assumption | with_reducible apply keeps_finishOk | split | lift_lets

theorem keeps_execCmdClassStatus {a : State} (r : Req) (s : State) (h : Keeps a s) : Goes a (execCmdClassStatus r s) :=
  goes_next (keeps_runCmd keeps_specClassStatus r h)

theorem keeps_specClassRestart {a : State} (r : Req) (p : Bytes) (s : State) (h : Keeps a s) : Keeps a (specClassRestart.run r p s) := by
  unfold specClassRestart; dsimp only
  repeat' first
     | (intro x; first | (have hx : Keeps a x := by (unfold x; repeat' first | with_reducible assumption | with_reducible apply keeps_holdCmd | with_reducible apply keeps_setCls | split)); clear_value x | (have _ : HostIf := x) | (have _ : Keys := x) | (have _ : Fwu := x) | clear_value x | skip)
     | with_reducible assumption | with_reducible apply keeps_holdCmd | with_reducible apply keeps_setCls | split | lift_lets

theorem keeps_execCmdClassRestart {a : State} (r : Req) (s : State) (h : Keeps a s) : Goes a (execCmdClassRestart r s) :=
  goes_next (keeps_runCmd keeps_specClassRestart r h)

theorem keeps_specClassHalt {a : State} (r : Req) (p : Bytes) (s : State) (h : Keeps a s) : Keeps a (specClassHalt.run r p s) := by
  unfold specClassHalt; dsimp only
  repeat' first
     | (intro x; first | (have hx : Keeps a x := by (unfold x; repeat' first | with_reducible assumption | with_reducible apply keeps_finishOk | with_reducible apply keeps_holdCmd | with_reducible apply keeps_setCls | with_reducible apply keeps_haltClass | split)); clear_value x | (have _ : HostIf := x) | (have _ : Keys := x) | (have _ : Fwu := x) | clear_value x | skip)
     | with_reducible assumption | with_reducible apply keeps_finishOk | with_reducible apply keeps_holdCmd
     | with_reducible apply keeps_setCls | with_reducible apply keeps_haltClass | split | lift_lets

theorem keeps_execCmdClassHalt {a : State} (r : Req) (s : State) (h : Keeps a s) : Goes a (execCmdClassHalt r s) :=
  goes_next (keeps_runCmd keeps_specClassHalt r h)

theorem keeps_specEngineStatus {a : State} (r : Req) (p : Bytes) (s : State) (h : Keeps a s) : Keeps a (specEngineStatus.run r p s) := by
  unfold specEngineStatus; dsimp only
  repeat' first
     | (intro x; first | (have hx : Keeps a x := by (unfold x; repeat' first | with_reducible assumption | with_reducible apply keeps_finishOk | split)); clear_value x | (have _ : HostIf := x) | (have _ : Keys := x) | (have _ : Fwu := x) | clear_value x | skip)
     | with_reducible assumption | with_reducible apply keeps_finishOk | split | lift_lets

theorem keeps_execCmdEngineStatus {a : State} (r : Req) (s : State) (h : Keeps a s) : Goes a (execCmdEngineStatus r s) :=
  goes_next (keeps_runCmd keeps_specEngineStatus r h)

theorem keeps_putSubs {a : State} (p : Bytes) (y1 : List Nat) (y2 : Nat) (y3 : State) (h : Keeps a y3) : Keeps a (putSubs p y1 y2 y3) := by
  induction y1 generalizing y2 y3 with
  | nil =>
    unfold putSubs
    repeat' first
       | (intro x; first | (have hx : Keeps a x := by (unfold x; repeat' first | with_reducible assumption | split)); clear_value x | (have _ : HostIf := x) | (have _ : Keys := x) | (have _ : Fwu := x) | clear_value x | skip)
       | with_reducible assumption | split | lift_lets
  | cons x r ih =>
    unfold putSubs
    repeat' first
       | (intro x; first | (have hx : Keeps a x := by (unfold x; repeat' first | with_reducible assumption | with_reducible apply ih | split)); clear_value x | (have _ : HostIf := x) | (have _ : Keys := x) | (have _ : Fwu := x) | clear_value x | skip)
       | with_reducible assumption | with_reducible apply ih | split | lift_lets

theorem keeps_specHistConfig {a : State} (r : Req) (p : Bytes) (s : State) (h : Keeps a s) : Keeps a (specHistConfig.run r p s) := by
  unfold specHistConfig; dsimp only
  repeat' first
     | (intro x; first | (have hx : Keeps a x := by (unfold x; repeat' first | with_reducible assumption | with_reducible apply keeps_finishOk | with_reducible apply keeps_putSubs | split)); clear_value x | (have _ : HostIf := x) | (have _ : Keys := x) | (have _ : Fwu := x) | clear_value x | skip)
     | with_reducible assumption | with_reducible apply keeps_finishOk | with_reducible apply keeps_putSubs | split | lift_lets

theorem keeps_execCmdHistConfig {a : State} (r : Req) (s : State) (h : Keeps a s) : Goes a (execCmdHistConfig r s) :=
  goes_next (keeps_runCmd keeps_specHistConfig r h)

theorem keeps_specHistRead {a : State} (r : Req) (p : Bytes) (s : State) (h : Keeps a s) : Keeps a (specHistRead.run r p s) := by
  unfold specHistRead; dsimp only
  repeat' first
     | (intro x; first | (have hx : Keeps a x := by (unfold x; repeat' first | with_reducible assumption | with_reducible apply keeps_finishOk | split)); clear_value x | (have _ : HostIf := x) | (have _ : Keys := x) | (have _ : Fwu := x) | clear_value x | skip)
     | with_reducible assumption | with_reducible apply keeps_finishOk | split | lift_lets

theorem keeps_execCmdHistRead {a : State} (r : Req) (s : State) (h : Keeps a s) : Goes a (execCmdHistRead r s) :=
  goes_next (keeps_runCmd keeps_specHistRead r h)

theorem keeps_specHistStatus {a : State} (r : Req) (p : Bytes) (s : State) (h : Keeps a s) : Keeps a (specHistStatus.run r p s) := by
  unfold specHistStatus; dsimp only
  repeat' first
     | (intro x; first | (have hx : Keeps a x := by (unfold x; repeat' first | with_reducible assumption | with_reducible apply keeps_finishOk | split)); clear_value x | (have _ : HostIf := x) | (have _ : Keys := x) | (have _ : Fwu := x) | clear_value x | skip)
     | with_reducible assumption | with_reducible apply keeps_finishOk | split | lift_lets

theorem keeps_execCmdHistStatus {a : State} (r : Req) (s : State) (h : Keeps a s) : Goes a (execCmdHistStatus r s) :=
  goes_next (keeps_runCmd keeps_specHistStatus r h)

end Sys2Proof.Laws
end

