-- ==== Sys2Proof/Laws/KeepsSettings.lean ====
section
/-! SUPPORT. Laws/KeepsSettings.lean: what each operation of Machine/Settings.lean keeps (Laws/Keeps.lean). -/

namespace Sys2Proof.Laws

set_option linter.all false

open Sys2Proof.Machine

theorem keeps_putCopy {a : State} (n : Nat) (r : SetRecord) (s : State) (h : Keeps a s) : Keeps a (putCopy n r s) := ⟨h.1, h.2⟩

theorem keeps_specSettingsStore {a : State} (ok : Bool) (r : Req) (p : Bytes) (s : State) (h : Keeps a s) :
    Keeps a ((specSettingsStore ok).run r p s) := by
  unfold specSettingsStore; dsimp only
  split
  · exact keeps_finish _ _ _ _ _ _ h
  · split
    · exact keeps_finish _ _ _ _ _ _ ⟨h.1, h.2⟩
    · exact keeps_finishOk _ _ _ _ (keeps_raise _ _ _ (keeps_putCopy _ _ _ h))

theorem keeps_execCmdSettingsStore {a : State} (r : Req) (ok : Bool) (s : State) (h : Keeps a s) : Goes a (execCmdSettingsStore r ok s) :=
  goes_next (keeps_runCmd (keeps_specSettingsStore ok) r h)

theorem keeps_specSettingsRead {a : State} (r : Req) (p : Bytes) (s : State) (h : Keeps a s) : Keeps a (specSettingsRead.run r p s) := by
  unfold specSettingsRead; dsimp only
  repeat' first
     | (intro x; first | (have hx : Keeps a x := by (unfold x; repeat' first | with_reducible assumption | with_reducible apply keeps_finish | with_reducible apply keeps_finishOk | split)); clear_value x | (have _ : HostIf := x) | (have _ : Keys := x) | (have _ : Fwu := x) | clear_value x | skip)
     | with_reducible assumption | with_reducible apply keeps_finish | with_reducible apply keeps_finishOk | split | lift_lets

theorem keeps_execCmdSettingsRead {a : State} (r : Req) (s : State) (h : Keeps a s) : Goes a (execCmdSettingsRead r s) :=
  goes_next (keeps_runCmd keeps_specSettingsRead r h)

theorem keeps_specRestartPolicy {a : State} (r : Req) (p : Bytes) (s : State) (h : Keeps a s) : Keeps a (specRestartPolicy.run r p s) := by
  unfold specRestartPolicy; dsimp only
  repeat' first
     | (intro x; first | (have hx : Keeps a x := by (unfold x; repeat' first | with_reducible assumption | with_reducible apply keeps_finishOk | split)); clear_value x | (have _ : HostIf := x) | (have _ : Keys := x) | (have _ : Fwu := x) | clear_value x | skip)
     | with_reducible assumption | with_reducible apply keeps_finishOk | split | lift_lets

theorem keeps_execCmdRestartPolicy {a : State} (r : Req) (s : State) (h : Keeps a s) : Goes a (execCmdRestartPolicy r s) :=
  goes_next (keeps_runCmd keeps_specRestartPolicy r h)

theorem keeps_migrateSettings {a : State} (s : State) (h : Keeps a s) : Keeps a (migrateSettings s) := by
  unfold migrateSettings
  repeat' first | exact ⟨h.1, h.2⟩ | assumption | with_reducible apply keeps_raise | with_reducible apply keeps_putCopy | split

end Sys2Proof.Laws
end

