-- ==== Sys2Proof/Laws/KeepsProgs.lean ====
section
/-! SUPPORT. Laws/KeepsProgs.lean: what each operation of Machine/Progs.lean keeps (Laws/Keeps.lean). -/

namespace Sys2Proof.Laws

set_option linter.all false

open Sys2Proof.Machine

theorem keeps_specProgLoad {a : State} (r : Req) (p : Bytes) (s : State) (h : Keeps a s) : Keeps a (specProgLoad.run r p s) := by
  unfold specProgLoad; dsimp only
  repeat' first
     | (intro x; first | (have hx : Keeps a x := by (unfold x; repeat' first | with_reducible assumption | with_reducible apply keeps_afterChecks | with_reducible apply keeps_finish | with_reducible apply keeps_raiseC | with_reducible apply keeps_finishOk | split)); clear_value x | (have _ : HostIf := x) | (have _ : Keys := x) | (have _ : Fwu := x) | clear_value x | skip)
     | with_reducible assumption | with_reducible apply keeps_afterChecks | with_reducible apply keeps_finish | with_reducible apply keeps_raiseC
     | with_reducible apply keeps_finishOk | split | lift_lets

theorem keeps_execCmdProgLoad {a : State} (r : Req) (s : State) (h : Keeps a s) : Goes a (execCmdProgLoad r s) :=
  goes_next (keeps_runCmd keeps_specProgLoad r h)

theorem keeps_specProgSwitch {a : State} (r : Req) (p : Bytes) (s : State) (h : Keeps a s) : Keeps a (specProgSwitch.run r p s) := by
  unfold specProgSwitch; dsimp only
  repeat' first
     | (intro x; first | (have hx : Keeps a x := by (unfold x; repeat' first | with_reducible assumption | with_reducible apply keeps_holdCmd | split)); clear_value x | (have _ : HostIf := x) | (have _ : Keys := x) | (have _ : Fwu := x) | clear_value x | skip)
     | with_reducible assumption | with_reducible apply keeps_holdCmd | split | lift_lets

theorem keeps_execCmdProgSwitch {a : State} (r : Req) (s : State) (h : Keeps a s) : Goes a (execCmdProgSwitch r s) :=
  goes_next (keeps_runCmd keeps_specProgSwitch r h)

theorem keeps_setSwitch {a : State} (f : ProgSwitch → ProgSwitch) (s : State) (h : Keeps a s) : Keeps a (setSwitch f s) := ⟨h.1, h.2⟩

theorem keeps_startPoints {a : State} (im : Image) (y1 : List PointDef) (y2 : State) (h : Keeps a y2) : Keeps a (startPoints im y1 y2) := by
  induction y1 generalizing y2 with
  | nil =>
    unfold startPoints
    repeat' first
       | (intro x; first | (have hx : Keeps a x := by (unfold x; repeat' first | with_reducible assumption | with_reducible apply keeps_putRec | split)); clear_value x | (have _ : HostIf := x) | (have _ : Keys := x) | (have _ : Fwu := x) | clear_value x | skip)
       | with_reducible assumption | with_reducible apply keeps_putRec | split | lift_lets
  | cons x r ih =>
    unfold startPoints
    repeat' first
       | (intro x; first | (have hx : Keeps a x := by (unfold x; repeat' first | with_reducible assumption | with_reducible apply keeps_putRec | with_reducible apply ih | split)); clear_value x | (have _ : HostIf := x) | (have _ : Keys := x) | (have _ : Fwu := x) | clear_value x | skip)
       | with_reducible assumption | with_reducible apply keeps_putRec | with_reducible apply ih | split | lift_lets

theorem keeps_judgeForces {a : State} (im : Image) (written : List Nat) (y2 : FMap Force) (y3 : State) (h : Keeps a y3) : Keeps a (judgeForces im written y2 y3) := by
  induction y2 generalizing y3 with
  | nil =>
    unfold judgeForces
    repeat' first
       | (intro x; first | (have hx : Keeps a x := by (unfold x; repeat' first | with_reducible assumption | with_reducible apply keeps_setSwitch | with_reducible apply keeps_raise | split)); clear_value x | (have _ : HostIf := x) | (have _ : Keys := x) | (have _ : Fwu := x) | clear_value x | skip)
       | with_reducible assumption | with_reducible apply keeps_setSwitch | with_reducible apply keeps_raise | split | lift_lets
  | cons x r ih =>
    unfold judgeForces
    repeat' first
       | (intro x; first | (have hx : Keeps a x := by (unfold x; repeat' first | with_reducible assumption | with_reducible apply keeps_setSwitch | with_reducible apply keeps_raise | with_reducible apply ih | split)); clear_value x | (have _ : HostIf := x) | (have _ : Keys := x) | (have _ : Fwu := x) | clear_value x | skip)
       | with_reducible assumption | with_reducible apply keeps_setSwitch | with_reducible apply keeps_raise
       | with_reducible apply ih | split | lift_lets

theorem keeps_orphanForces {a : State} (im : Image) (s : State) (h : Keeps a s) : Keeps a (orphanForces im s) := by
  unfold orphanForces
  repeat' first | exact ⟨h.1, h.2⟩ | assumption | with_reducible apply keeps_judgeForces | split

theorem keeps_coldStart {a : State} (s : State) (h : Keeps a s) : Keeps a (coldStart s) := by
  unfold coldStart
  with_reducible repeat' first
     | (intro x; first | (have hx : Keeps a x := by (unfold x; repeat' first | assumption | apply keeps_raise | apply keeps_estTrigger | split)); clear_value x | (have _ : HostIf := x) | (have _ : Keys := x) | (have _ : Fwu := x) | clear_value x | skip)
     | assumption | apply keeps_raise | apply keeps_estTrigger | split | lift_lets

theorem keeps_restoreVals {a : State} (im : Image) (asNone : Bool) (y2 : List RetainVal) (y3 : State) (h : Keeps a y3) : Keeps a (restoreVals im asNone y2 y3) := by
  induction y2 generalizing y3 with
  | nil =>
    unfold restoreVals
    repeat' first
       | (intro x; first | (have hx : Keeps a x := by (unfold x; repeat' first | with_reducible assumption | with_reducible apply keeps_putRec | with_reducible apply keeps_setSwitch | split)); clear_value x | (have _ : HostIf := x) | (have _ : Keys := x) | (have _ : Fwu := x) | clear_value x | skip)
       | with_reducible assumption | with_reducible apply keeps_putRec | with_reducible apply keeps_setSwitch | split
       | lift_lets
  | cons x r ih =>
    unfold restoreVals
    repeat' first
       | (intro x; first | (have hx : Keeps a x := by (unfold x; repeat' first | with_reducible assumption | with_reducible apply keeps_putRec | with_reducible apply keeps_setSwitch | with_reducible apply ih | split)); clear_value x | (have _ : HostIf := x) | (have _ : Keys := x) | (have _ : Fwu := x) | clear_value x | skip)
       | with_reducible assumption | with_reducible apply keeps_putRec | with_reducible apply keeps_setSwitch
       | with_reducible apply ih | split | lift_lets

theorem keeps_restoreLoops {a : State} (y0 : List MirrorChannel) (y1 : State) (h : Keeps a y1) : Keeps a (restoreLoops y0 y1) := by
  induction y0 generalizing y1 with
  | nil =>
    unfold restoreLoops
    repeat' first
       | (intro x; first | (have hx : Keeps a x := by (unfold x; repeat' first | with_reducible assumption | with_reducible apply keeps_restoreLoop | split)); clear_value x | (have _ : HostIf := x) | (have _ : Keys := x) | (have _ : Fwu := x) | clear_value x | skip)
       | with_reducible assumption | with_reducible apply keeps_restoreLoop | split | lift_lets
  | cons x r ih =>
    unfold restoreLoops
    repeat' first
       | (intro x; first | (have hx : Keeps a x := by (unfold x; repeat' first | with_reducible assumption | with_reducible apply keeps_restoreLoop | with_reducible apply ih | split)); clear_value x | (have _ : HostIf := x) | (have _ : Keys := x) | (have _ : Fwu := x) | clear_value x | skip)
       | with_reducible assumption | with_reducible apply keeps_restoreLoop | with_reducible apply ih | split | lift_lets

theorem keeps_warmStart {a : State} (im : Image) (z1 : RetHalf) (migration : Bool) (s : State) (h : Keeps a s) : Keeps a (warmStart im z1 migration s) := by
  unfold warmStart
  with_reducible repeat' first
     | (intro x; first | (have hx : Keeps a x := by (unfold x; repeat' first | assumption | apply keeps_restoreVals | apply keeps_orphanForces | apply keeps_settlePins | apply keeps_restoreLoops | split)); clear_value x | (have _ : HostIf := x) | (have _ : Keys := x) | (have _ : Fwu := x) | clear_value x | skip)
     | assumption | apply keeps_restoreVals | apply keeps_orphanForces | apply keeps_settlePins | apply keeps_restoreLoops
     | split | lift_lets

theorem keeps_migrateStores {a : State} (s : State) (h : Keeps a s) : Keeps a (migrateStores s) := by
  unfold migrateStores
  with_reducible repeat' first
     | (intro x; first | (have hx : Keeps a x := by (unfold x; repeat' first | assumption | apply keeps_migrateSettings | apply keeps_raise | split)); clear_value x | (have _ : HostIf := x) | (have _ : Keys := x) | (have _ : Fwu := x) | clear_value x | skip)
     | assumption | apply keeps_migrateSettings | apply keeps_raise | split | lift_lets

theorem keeps_startAt {a : State} (im : Image) (now : Nat) (s : State) (h : Keeps a s) : Keeps a (startAt im now s) := by
  unfold startAt
  with_reducible repeat' first
     | (intro x; first | (have hx : Keeps a x := by (unfold x; repeat' first | assumption | apply keeps_migrateStores | apply keeps_startPoints | apply keeps_warmStart | apply keeps_coldStart | apply keeps_setSwitch | apply keeps_setCls | apply keeps_fillPool | apply keeps_raise | split)); clear_value x | (have _ : HostIf := x) | (have _ : Keys := x) | (have _ : Fwu := x) | clear_value x | skip)
     | assumption | apply keeps_migrateStores | apply keeps_startPoints | apply keeps_warmStart | apply keeps_coldStart
     | apply keeps_setSwitch | apply keeps_setCls | apply keeps_fillPool | apply keeps_raise | split | lift_lets

theorem keeps_beginSwitch {a : State} (im : Image) (w : ProgSwitch) (s : State) (h : Keeps a s) : Keeps a (beginSwitch im w s) := by
  unfold beginSwitch
  with_reducible repeat' first
     | (intro x; first | (have hx : Keeps a x := by (unfold x; repeat' first | assumption | apply keeps_setSwitch | apply keeps_startAt | apply keeps_orphanForces | apply keeps_startPoints | split)); clear_value x | (have _ : HostIf := x) | (have _ : Keys := x) | (have _ : Fwu := x) | clear_value x | skip)
     | assumption | apply keeps_setSwitch | apply keeps_startAt | apply keeps_orphanForces | apply keeps_startPoints | split
     | lift_lets

theorem keeps_mapEntries {a : State} (c : Nat) (im : Image) (y2 : List RetainEntry) (y3 : State) (h : Keeps a y3) : Keeps a (mapEntries c im y2 y3) := by
  induction y2 generalizing y3 with
  | nil =>
    unfold mapEntries
    repeat' first
       | (intro x; first | (have hx : Keeps a x := by (unfold x; repeat' first | with_reducible assumption | with_reducible apply keeps_setSwitch | with_reducible apply keeps_putInst | with_reducible apply keeps_putRec | split)); clear_value x | (have _ : HostIf := x) | (have _ : Keys := x) | (have _ : Fwu := x) | clear_value x | skip)
       | with_reducible assumption | with_reducible apply keeps_setSwitch | with_reducible apply keeps_putInst
       | with_reducible apply keeps_putRec | split | lift_lets
  | cons x r ih =>
    unfold mapEntries
    repeat' first
       | (intro x; first | (have hx : Keeps a x := by (unfold x; repeat' first | with_reducible assumption | with_reducible apply keeps_setSwitch | with_reducible apply keeps_putInst | with_reducible apply keeps_putRec | with_reducible apply ih | split)); clear_value x | (have _ : HostIf := x) | (have _ : Keys := x) | (have _ : Fwu := x) | clear_value x | skip)
       | with_reducible assumption | with_reducible apply keeps_setSwitch | with_reducible apply keeps_putInst
       | with_reducible apply keeps_putRec | with_reducible apply ih | split | lift_lets

theorem keeps_putStaged {a : State} (c : Nat) (im : Image) (y2 : List (Nat × List W64 × Bool)) (y3 : State) (h : Keeps a y3) : Keeps a (putStaged c im y2 y3) := by
  induction y2 generalizing y3 with
  | nil =>
    unfold putStaged
    repeat' first
       | (intro x; first | (have hx : Keeps a x := by (unfold x; repeat' first | with_reducible assumption | with_reducible apply keeps_putInst | split)); clear_value x | (have _ : HostIf := x) | (have _ : Keys := x) | (have _ : Fwu := x) | clear_value x | skip)
       | with_reducible assumption | with_reducible apply keeps_putInst | split | lift_lets
  | cons x r ih =>
    unfold putStaged
    repeat' first
       | (intro x; first | (have hx : Keeps a x := by (unfold x; repeat' first | with_reducible assumption | with_reducible apply keeps_putInst | with_reducible apply ih | split)); clear_value x | (have _ : HostIf := x) | (have _ : Keys := x) | (have _ : Fwu := x) | clear_value x | skip)
       | with_reducible assumption | with_reducible apply keeps_putInst | with_reducible apply ih | split | lift_lets

theorem keeps_changeClass {a : State} (c : Nat) (im : Image) (w : ProgSwitch) (s : State) (h : Keeps a s) : Keeps a (changeClass c im w s) := by
  unfold changeClass
  with_reducible repeat' first
     | (intro x; first | (have hx : Keeps a x := by (unfold x; repeat' first | assumption | apply keeps_setSwitch | apply keeps_setCls | apply keeps_mapEntries | apply keeps_putStaged | split)); clear_value x | (have _ : HostIf := x) | (have _ : Keys := x) | (have _ : Fwu := x) | clear_value x | skip)
     | assumption | apply keeps_setSwitch | apply keeps_setCls | apply keeps_mapEntries | apply keeps_putStaged | split
     | lift_lets

theorem keeps_changeBackground {a : State} (im : Image) (w : ProgSwitch) (s : State) (h : Keeps a s) : Keeps a (changeBackground im w s) := by
  unfold changeBackground
  with_reducible repeat' first
     | (intro x; first | (have hx : Keeps a x := by (unfold x; repeat' first | assumption | apply keeps_changeClass | apply keeps_stopWork | split)); clear_value x | (have _ : HostIf := x) | (have _ : Keys := x) | (have _ : Fwu := x) | clear_value x | skip)
     | assumption | apply keeps_changeClass | apply keeps_stopWork | split | lift_lets

theorem keeps_endSwitch {a : State} (im : Image) (w : ProgSwitch) (s : State) (h : Keeps a s) : Keeps a (endSwitch im w s) := by
  unfold endSwitch
  repeat' first | exact ⟨h.1, h.2⟩ | assumption | with_reducible apply keeps_raise | with_reducible apply keeps_finishOk | split

theorem keeps_closeSwitch {a : State} (im : Image) (w : ProgSwitch) (s : State) (h : Keeps a s) : Keeps a (closeSwitch im w s) := by
  unfold closeSwitch changeBackground
  dsimp only
  split
  · exact keeps_endSwitch _ _ _ (keeps_changeClass _ _ _ _ (keeps_stopWork _ _ h))
  · exact keeps_changeClass _ _ _ _ (keeps_stopWork _ _ h)

theorem keeps_changeProgram {a : State} (c : Nat) (s : State) (h : Keeps a s) : Keeps a (changeProgram c s) := by
  unfold changeProgram
  with_reducible repeat' first
     | (intro x; first | (have hx : Keeps a x := by (unfold x; repeat' first | assumption | apply keeps_beginSwitch | apply keeps_changeClass | apply keeps_closeSwitch | split)); clear_value x | (have _ : HostIf := x) | (have _ : Keys := x) | (have _ : Fwu := x) | clear_value x | skip)
     | assumption | apply keeps_beginSwitch | apply keeps_changeClass | apply keeps_closeSwitch | split | lift_lets

theorem keeps_execProgSwitchInstant {a : State} (c : PClass) (s : State) (h : Keeps a s) : Goes a (execProgSwitchInstant c s) := by
  unfold execProgSwitchInstant
  (try intro x)
  apply goes_next
  repeat' first
     | (intro x; first | (have hx : Keeps a x := by (unfold x; repeat' first | with_reducible assumption | with_reducible apply keeps_startHeld | with_reducible apply keeps_changeProgram | split)); clear_value x | (have _ : HostIf := x) | (have _ : Keys := x) | (have _ : Fwu := x) | clear_value x | skip)
     | with_reducible assumption | with_reducible apply keeps_startHeld | with_reducible apply keeps_changeProgram | split
     | lift_lets

end Sys2Proof.Laws
end

