-- ==== Sys2Proof/Laws/KeepsSolverCmd.lean ====
section
/-! SUPPORT. Laws/KeepsSolverCmd.lean: what each operation of Machine/SolverCmd.lean keeps (Laws/Keeps.lean). -/

namespace Sys2Proof.Laws

set_option linter.all false

open Sys2Proof.Machine

theorem keeps_sendStops {a : State} (kinds : List Nat) (l : List StopRec) (s : State) (h : Keeps a s) : Keeps a (sendStops kinds l s) := by
  induction l generalizing s with
  | nil => exact keeps_sendMirror _ _ h
  | cons o r ih => exact ih _ (keeps_sendMirror _ _ (keeps_sendMirror _ _ h))

theorem keeps_dropStops {a : State} (kinds : List Nat) (s : State) (h : Keeps a s) : Keeps a (dropStops kinds s) := ⟨h.1, h.2⟩

theorem keeps_execSolverJobReturn {a : State} (host : Bool) (t : JobTiming) (s : State) (h : Keeps a s) : Goes a (execSolverJobReturn host t s) := by
  unfold execSolverJobReturn
  (try intro x)
  apply goes_next
  repeat' first
     | (intro x; first | (have hx : Keeps a x := by (unfold x; repeat' first | with_reducible assumption | with_reducible apply keeps_returnHost | with_reducible apply keeps_jobReturned | with_reducible apply keeps_returnMain | with_reducible apply keeps_sendStops | with_reducible apply keeps_dropStops | split)); clear_value x | (have _ : HostIf := x) | (have _ : Keys := x) | (have _ : Fwu := x) | clear_value x | skip)
     | with_reducible assumption | with_reducible apply keeps_returnHost | with_reducible apply keeps_jobReturned
     | with_reducible apply keeps_returnMain | with_reducible apply keeps_sendStops | with_reducible apply keeps_dropStops
     | split | lift_lets

theorem keeps_execFactorLimit {a : State} (s : State) (h : Keeps a s) : Goes a (execFactorLimit s) := by
  unfold execFactorLimit
  (try intro x)
  apply goes_next
  repeat' first
     | (intro x; first | (have hx : Keeps a x := by (unfold x; repeat' first | with_reducible assumption | split)); clear_value x | (have _ : HostIf := x) | (have _ : Keys := x) | (have _ : Fwu := x) | clear_value x | skip)
     | with_reducible assumption | split | lift_lets

theorem keeps_stopMain {a : State} (s : State) (h : Keeps a s) : Keeps a (stopMain s) := by
  unfold stopMain
  with_reducible repeat' first
     | (intro x; first | (have hx : Keeps a x := by (unfold x; repeat' first | assumption | apply keeps_jobReturned | apply keeps_abortMain | split)); clear_value x | (have _ : HostIf := x) | (have _ : Keys := x) | (have _ : Fwu := x) | clear_value x | skip)
     | assumption | apply keeps_jobReturned | apply keeps_abortMain | split | lift_lets

theorem keeps_stopOpt {a : State} (s : State) (h : Keeps a s) : Keeps a (stopOpt s) := by
  unfold stopOpt
  with_reducible repeat' first
     | (intro x; first | (have hx : Keeps a x := by (unfold x; repeat' first | assumption | apply keeps_jobReturned | apply keeps_abortOpt | split)); clear_value x | (have _ : HostIf := x) | (have _ : Keys := x) | (have _ : Fwu := x) | clear_value x | skip)
     | assumption | apply keeps_jobReturned | apply keeps_abortOpt | split | lift_lets

theorem keeps_releaseStart {a : State} (t : EstTrigger) (s : State) (h : Keeps a s) : Keeps a (releaseStart t s) := by
  unfold releaseStart
  repeat' first | exact ⟨h.1, h.2⟩ | assumption | with_reducible apply keeps_coldStart | split

theorem keeps_stopEst {a : State} (s : State) (h : Keeps a s) : Keeps a (stopEst s) := by
  unfold stopEst
  with_reducible repeat' first
     | (intro x; first | (have hx : Keeps a x := by (unfold x; repeat' first | assumption | apply keeps_releaseStart | apply keeps_abortEst | split)); clear_value x | (have _ : HostIf := x) | (have _ : Keys := x) | (have _ : Fwu := x) | clear_value x | skip)
     | assumption | apply keeps_releaseStart | apply keeps_abortEst | split | lift_lets

theorem keeps_solCtrl {a : State} (v : W32) (s : State) (h : Keeps a s) : Keeps a (solCtrl v s) := by
  unfold solCtrl
  with_reducible repeat' first
     | (intro x; first | (have hx : Keeps a x := by (unfold x; repeat' first | assumption | apply keeps_cfgSet | apply keeps_stopEst | apply keeps_stopOpt | apply keeps_abortHost | apply keeps_stopMain | split)); clear_value x | (have _ : HostIf := x) | (have _ : Keys := x) | (have _ : Fwu := x) | clear_value x | skip)
     | assumption | apply keeps_cfgSet | apply keeps_stopEst | apply keeps_stopOpt | apply keeps_abortHost
     | apply keeps_stopMain | split | lift_lets

theorem keeps_execSolCtrlEnable {a : State} (p : Port) (v : W32) (s : State) (h : Keeps a s) : Goes a (execSolCtrlEnable p v s) := by
  unfold execSolCtrlEnable
  (try intro x)
  apply goes_next
  repeat' first
     | (intro x; first | (have hx : Keeps a x := by (unfold x; repeat' first | with_reducible assumption | with_reducible apply keeps_ownWrite | with_reducible apply keeps_solCtrl | split)); clear_value x | (have _ : HostIf := x) | (have _ : Keys := x) | (have _ : Fwu := x) | clear_value x | skip)
     | with_reducible assumption | with_reducible apply keeps_ownWrite | with_reducible apply keeps_solCtrl | split | lift_lets

theorem keeps_specModelLoad {a : State} (r : Req) (p : Bytes) (s : State) (h : Keeps a s) : Keeps a (specModelLoad.run r p s) := by
  unfold specModelLoad; dsimp only
  repeat' first
     | (intro x; first | (have hx : Keeps a x := by (unfold x; repeat' first | with_reducible assumption | with_reducible apply keeps_afterChecks | with_reducible apply keeps_finish | with_reducible apply keeps_raiseC | with_reducible apply keeps_finishOk | split)); clear_value x | (have _ : HostIf := x) | (have _ : Keys := x) | (have _ : Fwu := x) | clear_value x | skip)
     | with_reducible assumption | with_reducible apply keeps_afterChecks | with_reducible apply keeps_finish | with_reducible apply keeps_raiseC
     | with_reducible apply keeps_finishOk | split | lift_lets

theorem keeps_execCmdModelLoad {a : State} (r : Req) (s : State) (h : Keeps a s) : Goes a (execCmdModelLoad r s) :=
  goes_next (keeps_runCmd keeps_specModelLoad r h)

theorem keeps_specModelSwitch {a : State} (r : Req) (p : Bytes) (s : State) (h : Keeps a s) : Keeps a (specModelSwitch.run r p s) := by
  unfold specModelSwitch; dsimp only
  repeat' first
     | (intro x; first | (have hx : Keeps a x := by (unfold x; repeat' first | with_reducible assumption | with_reducible apply keeps_holdCmd | split)); clear_value x | (have _ : HostIf := x) | (have _ : Keys := x) | (have _ : Fwu := x) | clear_value x | skip)
     | with_reducible assumption | with_reducible apply keeps_holdCmd | split | lift_lets

theorem keeps_execCmdModelSwitch {a : State} (r : Req) (s : State) (h : Keeps a s) : Goes a (execCmdModelSwitch r s) :=
  goes_next (keeps_runCmd keeps_specModelSwitch r h)

theorem keeps_execModelSwitchEffect {a : State} (s : State) (h : Keeps a s) : Goes a (execModelSwitchEffect s) := by
  unfold execModelSwitchEffect
  (try intro x)
  apply goes_next
  repeat' first
     | (intro x; first | (have hx : Keeps a x := by (unfold x; repeat' first | with_reducible assumption | with_reducible apply keeps_modelDue | split)); clear_value x | (have _ : HostIf := x) | (have _ : Keys := x) | (have _ : Fwu := x) | clear_value x | skip)
     | with_reducible assumption | with_reducible apply keeps_modelDue | split | lift_lets

theorem keeps_specSolverConfig {a : State} (r : Req) (p : Bytes) (s : State) (h : Keeps a s) : Keeps a (specSolverConfig.run r p s) := by
  unfold specSolverConfig; dsimp only
  repeat' first
     | (intro x; first | (have hx : Keeps a x := by (unfold x; repeat' first | with_reducible assumption | with_reducible apply keeps_finishOk | split)); clear_value x | (have _ : HostIf := x) | (have _ : Keys := x) | (have _ : Fwu := x) | clear_value x | skip)
     | with_reducible assumption | with_reducible apply keeps_finishOk | split | lift_lets

theorem keeps_execCmdSolverConfig {a : State} (r : Req) (s : State) (h : Keeps a s) : Goes a (execCmdSolverConfig r s) :=
  goes_next (keeps_runCmd keeps_specSolverConfig r h)

theorem keeps_specSolverRun {a : State} (r : Req) (p : Bytes) (s : State) (h : Keeps a s) : Keeps a (specSolverRun.run r p s) := by
  unfold specSolverRun; dsimp only
  repeat' first
     | (intro x; first | (have hx : Keeps a x := by (unfold x; repeat' first | with_reducible assumption | with_reducible apply keeps_holdCmd | with_reducible apply keeps_wakeHomes | with_reducible apply keeps_raiseIslands | split)); clear_value x | (have _ : HostIf := x) | (have _ : Keys := x) | (have _ : Fwu := x) | clear_value x | skip)
     | with_reducible assumption | with_reducible apply keeps_holdCmd | with_reducible apply keeps_wakeHomes
     | with_reducible apply keeps_raiseIslands | split | lift_lets

theorem keeps_execCmdSolverRun {a : State} (r : Req) (s : State) (h : Keeps a s) : Goes a (execCmdSolverRun r s) :=
  goes_next (keeps_runCmd keeps_specSolverRun r h)

theorem keeps_specSolverStatus {a : State} (r : Req) (p : Bytes) (s : State) (h : Keeps a s) : Keeps a (specSolverStatus.run r p s) := by
  unfold specSolverStatus; dsimp only
  repeat' first
     | (intro x; first | (have hx : Keeps a x := by (unfold x; repeat' first | with_reducible assumption | with_reducible apply keeps_finishOk | split)); clear_value x | (have _ : HostIf := x) | (have _ : Keys := x) | (have _ : Fwu := x) | clear_value x | skip)
     | with_reducible assumption | with_reducible apply keeps_finishOk | split | lift_lets

theorem keeps_execCmdSolverStatus {a : State} (r : Req) (s : State) (h : Keeps a s) : Goes a (execCmdSolverStatus r s) :=
  goes_next (keeps_runCmd keeps_specSolverStatus r h)

theorem keeps_specSolverAbort {a : State} (r : Req) (p : Bytes) (s : State) (h : Keeps a s) : Keeps a (specSolverAbort.run r p s) := by
  unfold specSolverAbort; dsimp only
  repeat' first
     | (intro x; first | (have hx : Keeps a x := by (unfold x; repeat' first | with_reducible assumption | with_reducible apply keeps_finishOk | with_reducible apply keeps_abortHost | split)); clear_value x | (have _ : HostIf := x) | (have _ : Keys := x) | (have _ : Fwu := x) | clear_value x | skip)
     | with_reducible assumption | with_reducible apply keeps_finishOk | with_reducible apply keeps_abortHost | split
     | lift_lets

theorem keeps_execCmdSolverAbort {a : State} (r : Req) (s : State) (h : Keeps a s) : Goes a (execCmdSolverAbort r s) :=
  goes_next (keeps_runCmd keeps_specSolverAbort r h)

end Sys2Proof.Laws
end

