-- ==== Sys2Proof/Laws/KeepsOptCmd.lean ====
section
/-! SUPPORT. Laws/KeepsOptCmd.lean: what each operation of Machine/OptCmd.lean keeps (Laws/Keeps.lean). -/

namespace Sys2Proof.Laws

set_option linter.all false

open Sys2Proof.Machine

theorem keeps_specOptProblemLoad {a : State} (r : Req) (p : Bytes) (s : State) (h : Keeps a s) : Keeps a (specOptProblemLoad.run r p s) := by
  unfold specOptProblemLoad; dsimp only
  repeat' first
     | (intro x; first | (have hx : Keeps a x := by (unfold x; repeat' first | with_reducible assumption | with_reducible apply keeps_afterChecks | with_reducible apply keeps_finish | with_reducible apply keeps_raiseC | with_reducible apply keeps_finishOk | split)); clear_value x | (have _ : HostIf := x) | (have _ : Keys := x) | (have _ : Fwu := x) | clear_value x | skip)
     | with_reducible assumption | with_reducible apply keeps_afterChecks | with_reducible apply keeps_finish | with_reducible apply keeps_raiseC
     | with_reducible apply keeps_finishOk | split | lift_lets

theorem keeps_execCmdOptProblemLoad {a : State} (r : Req) (s : State) (h : Keeps a s) : Goes a (execCmdOptProblemLoad r s) :=
  goes_next (keeps_runCmd keeps_specOptProblemLoad r h)

theorem keeps_specOptProblemSwitch {a : State} (r : Req) (p : Bytes) (s : State) (h : Keeps a s) : Keeps a (specOptProblemSwitch.run r p s) := by
  unfold specOptProblemSwitch; dsimp only
  repeat' first
     | (intro x; first | (have hx : Keeps a x := by (unfold x; repeat' first | with_reducible assumption | with_reducible apply keeps_holdCmd | split)); clear_value x | (have _ : HostIf := x) | (have _ : Keys := x) | (have _ : Fwu := x) | clear_value x | skip)
     | with_reducible assumption | with_reducible apply keeps_holdCmd | split | lift_lets

theorem keeps_execCmdOptProblemSwitch {a : State} (r : Req) (s : State) (h : Keeps a s) : Goes a (execCmdOptProblemSwitch r s) :=
  goes_next (keeps_runCmd keeps_specOptProblemSwitch r h)

theorem keeps_execProblemSwitchEffect {a : State} (s : State) (h : Keeps a s) : Goes a (execProblemSwitchEffect s) := by
  unfold execProblemSwitchEffect
  (try intro x)
  apply goes_next
  repeat' first
     | (intro x; first | (have hx : Keeps a x := by (unfold x; repeat' first | with_reducible assumption | with_reducible apply keeps_problemDue | split)); clear_value x | (have _ : HostIf := x) | (have _ : Keys := x) | (have _ : Fwu := x) | clear_value x | skip)
     | with_reducible assumption | with_reducible apply keeps_problemDue | split | lift_lets

theorem keeps_specOptConfig {a : State} (r : Req) (p : Bytes) (s : State) (h : Keeps a s) : Keeps a (specOptConfig.run r p s) := by
  unfold specOptConfig; dsimp only
  repeat' first
     | (intro x; first | (have hx : Keeps a x := by (unfold x; repeat' first | with_reducible assumption | with_reducible apply keeps_finishOk | split)); clear_value x | (have _ : HostIf := x) | (have _ : Keys := x) | (have _ : Fwu := x) | clear_value x | skip)
     | with_reducible assumption | with_reducible apply keeps_finishOk | split | lift_lets

theorem keeps_execCmdOptConfig {a : State} (r : Req) (s : State) (h : Keeps a s) : Goes a (execCmdOptConfig r s) :=
  goes_next (keeps_runCmd keeps_specOptConfig r h)

theorem keeps_specEstConfig {a : State} (r : Req) (p : Bytes) (s : State) (h : Keeps a s) : Keeps a (specEstConfig.run r p s) := by
  unfold specEstConfig; dsimp only
  repeat' first
     | (intro x; first | (have hx : Keeps a x := by (unfold x; repeat' first | with_reducible assumption | with_reducible apply keeps_finishOk | split)); clear_value x | (have _ : HostIf := x) | (have _ : Keys := x) | (have _ : Fwu := x) | clear_value x | skip)
     | with_reducible assumption | with_reducible apply keeps_finishOk | split | lift_lets

theorem keeps_execCmdEstConfig {a : State} (r : Req) (s : State) (h : Keeps a s) : Goes a (execCmdEstConfig r s) :=
  goes_next (keeps_runCmd keeps_specEstConfig r h)

theorem keeps_execOptJobIssue {a : State} (s : State) (h : Keeps a s) : Goes a (execOptJobIssue s) := by
  unfold execOptJobIssue
  (try intro x)
  apply goes_next
  repeat' first
     | (intro x; first | (have hx : Keeps a x := by (unfold x; repeat' first | with_reducible assumption | with_reducible apply keeps_wakeHomes | split)); clear_value x | (have _ : HostIf := x) | (have _ : Keys := x) | (have _ : Fwu := x) | clear_value x | skip)
     | with_reducible assumption | with_reducible apply keeps_wakeHomes | split | lift_lets

theorem keeps_optExpiry {a : State} (s : State) (h : Keeps a s) : Keeps a (optExpiry s) := by
  unfold optExpiry
  repeat' first | exact ⟨h.1, h.2⟩ | assumption | with_reducible apply keeps_jobReturned | split

theorem keeps_execOptJobReturn {a : State} (t : JobTiming) (s : State) (h : Keeps a s) : Goes a (execOptJobReturn t s) := by
  unfold execOptJobReturn
  (try intro x)
  apply goes_next
  repeat' first
     | (intro x; first | (have hx : Keeps a x := by (unfold x; repeat' first | with_reducible assumption | with_reducible apply keeps_jobReturned | with_reducible apply keeps_returnOpt | with_reducible apply keeps_sendStops | with_reducible apply keeps_dropStops | split)); clear_value x | (have _ : HostIf := x) | (have _ : Keys := x) | (have _ : Fwu := x) | clear_value x | skip)
     | with_reducible assumption | with_reducible apply keeps_jobReturned | with_reducible apply keeps_returnOpt
     | with_reducible apply keeps_sendStops | with_reducible apply keeps_dropStops | split | lift_lets

theorem keeps_specOptStatus {a : State} (r : Req) (p : Bytes) (s : State) (h : Keeps a s) : Keeps a (specOptStatus.run r p s) := by
  unfold specOptStatus; dsimp only
  repeat' first
     | (intro x; first | (have hx : Keeps a x := by (unfold x; repeat' first | with_reducible assumption | with_reducible apply keeps_finishOk | split)); clear_value x | (have _ : HostIf := x) | (have _ : Keys := x) | (have _ : Fwu := x) | clear_value x | skip)
     | with_reducible assumption | with_reducible apply keeps_finishOk | split | lift_lets

theorem keeps_execCmdOptStatus {a : State} (r : Req) (s : State) (h : Keeps a s) : Goes a (execCmdOptStatus r s) :=
  goes_next (keeps_runCmd keeps_specOptStatus r h)

theorem keeps_specPlanRead {a : State} (r : Req) (p : Bytes) (s : State) (h : Keeps a s) : Keeps a (specPlanRead.run r p s) := by
  unfold specPlanRead; dsimp only
  repeat' first
     | (intro x; first | (have hx : Keeps a x := by (unfold x; repeat' first | with_reducible assumption | with_reducible apply keeps_finishOk | split)); clear_value x | (have _ : HostIf := x) | (have _ : Keys := x) | (have _ : Fwu := x) | clear_value x | skip)
     | with_reducible assumption | with_reducible apply keeps_finishOk | split | lift_lets

theorem keeps_execCmdPlanRead {a : State} (r : Req) (s : State) (h : Keeps a s) : Goes a (execCmdPlanRead r s) :=
  goes_next (keeps_runCmd keeps_specPlanRead r h)

theorem keeps_specEstLoad {a : State} (r : Req) (p : Bytes) (s : State) (h : Keeps a s) : Keeps a (specEstLoad.run r p s) := by
  unfold specEstLoad; dsimp only
  repeat' first
     | (intro x; first | (have hx : Keeps a x := by (unfold x; repeat' first | with_reducible assumption | with_reducible apply keeps_afterChecks | with_reducible apply keeps_finish | with_reducible apply keeps_raiseC | with_reducible apply keeps_finishOk | split)); clear_value x | (have _ : HostIf := x) | (have _ : Keys := x) | (have _ : Fwu := x) | clear_value x | skip)
     | with_reducible assumption | with_reducible apply keeps_afterChecks | with_reducible apply keeps_finish | with_reducible apply keeps_raiseC
     | with_reducible apply keeps_finishOk | split | lift_lets

theorem keeps_execCmdEstLoad {a : State} (r : Req) (s : State) (h : Keeps a s) : Goes a (execCmdEstLoad r s) :=
  goes_next (keeps_runCmd keeps_specEstLoad r h)

theorem keeps_specEstRun {a : State} (r : Req) (p : Bytes) (s : State) (h : Keeps a s) : Keeps a (specEstRun.run r p s) := by
  unfold specEstRun; dsimp only
  repeat' first
     | (intro x; first | (have hx : Keeps a x := by (unfold x; repeat' first | with_reducible assumption | with_reducible apply keeps_holdCmd | with_reducible apply keeps_estTrigger | split)); clear_value x | (have _ : HostIf := x) | (have _ : Keys := x) | (have _ : Fwu := x) | clear_value x | skip)
     | with_reducible assumption | with_reducible apply keeps_holdCmd | with_reducible apply keeps_estTrigger | split
     | lift_lets

theorem keeps_execCmdEstRun {a : State} (r : Req) (s : State) (h : Keeps a s) : Goes a (execCmdEstRun r s) :=
  goes_next (keeps_runCmd keeps_specEstRun r h)

theorem keeps_dropWaiting {a : State} (s : State) (h : Keeps a s) : Keeps a (dropWaiting s) :=
  keeps_finishOpt _ _ _ _ _ _ (keeps_finishOpt _ _ _ _ _ _ ⟨h.1, h.2⟩)

theorem keeps_execEstRunStart {a : State} (s : State) (h : Keeps a s) : Goes a (execEstRunStart s) := by
  unfold execEstRunStart
  (try intro x)
  apply goes_next
  repeat' first
     | (intro x; first | (have hx : Keeps a x := by (unfold x; repeat' first | with_reducible assumption | with_reducible apply keeps_startEst | split)); clear_value x | (have _ : HostIf := x) | (have _ : Keys := x) | (have _ : Fwu := x) | clear_value x | skip)
     | with_reducible assumption | with_reducible apply keeps_startEst | with_reducible apply keeps_dropWaiting | split | lift_lets

theorem keeps_execEstRunReturn {a : State} (t : JobTiming) (s : State) (h : Keeps a s) : Goes a (execEstRunReturn t s) := by
  unfold execEstRunReturn
  (try intro x)
  apply goes_next
  repeat' first
     | (intro x; first | (have hx : Keeps a x := by (unfold x; repeat' first | with_reducible assumption | with_reducible apply keeps_returnEst | with_reducible apply keeps_releaseStart | with_reducible apply keeps_sendStops | with_reducible apply keeps_dropStops | split)); clear_value x | (have _ : HostIf := x) | (have _ : Keys := x) | (have _ : Fwu := x) | clear_value x | skip)
     | with_reducible assumption | with_reducible apply keeps_returnEst | with_reducible apply keeps_releaseStart
     | with_reducible apply keeps_sendStops | with_reducible apply keeps_dropStops | split | lift_lets

theorem keeps_specEstStatus {a : State} (r : Req) (p : Bytes) (s : State) (h : Keeps a s) : Keeps a (specEstStatus.run r p s) := by
  unfold specEstStatus; dsimp only
  repeat' first
     | (intro x; first | (have hx : Keeps a x := by (unfold x; repeat' first | with_reducible assumption | with_reducible apply keeps_finishOk | split)); clear_value x | (have _ : HostIf := x) | (have _ : Keys := x) | (have _ : Fwu := x) | clear_value x | skip)
     | with_reducible assumption | with_reducible apply keeps_finishOk | split | lift_lets

theorem keeps_execCmdEstStatus {a : State} (r : Req) (s : State) (h : Keeps a s) : Goes a (execCmdEstStatus r s) :=
  goes_next (keeps_runCmd keeps_specEstStatus r h)

end Sys2Proof.Laws
end

