-- ==== Sys2Proof/Laws/KeepsReplay.lean ====
section
/-! SUPPORT. Laws/KeepsReplay.lean: what each operation of Machine/Replay.lean keeps (Laws/Keeps.lean). -/

namespace Sys2Proof.Laws

set_option linter.all false

open Sys2Proof.Machine

theorem keeps_settleClass {a : State} (c : Nat) (s : State) (h : Keeps a s) : Keeps a (settleClass c s) := by
  unfold settleClass
  repeat' first | exact ⟨h.1, h.2⟩ | assumption | with_reducible apply keeps_setCls | split

theorem keeps_specLow {a : State} {op : Nat} {c : CmdSpec} (e : specLow op = some c) (r : Req) (p : Bytes) (s : State) (h : Keeps a s) :
    Keeps a (c.run r p s) := by
  unfold specLow at e
  split at e
  all_goals first
    | cases e
    | skip
  all_goals first
    | with_reducible exact keeps_specSettingsStore _ r p s h
    | with_reducible exact keeps_specRestartPolicy r p s h
    | with_reducible exact keeps_specClassConfig r p s h
    | with_reducible exact keeps_specClassRestart r p s h
    | with_reducible exact keeps_specClassHalt r p s h
    | with_reducible exact keeps_specProgLoad r p s h
    | with_reducible exact keeps_specProgSwitch r p s h
    | with_reducible exact keeps_specBudgetConfig r p s h
    | with_reducible exact keeps_specForceSet r p s h
    | with_reducible exact keeps_specForceClear r p s h
    | with_reducible exact keeps_specHistConfig r p s h
    | with_reducible exact keeps_specLoopConfig r p s h
    | with_reducible exact keeps_specLoopEnable r p s h
    | with_reducible exact keeps_specLoopAck r p s h

theorem keeps_specMid {a : State} {op : Nat} {c : CmdSpec} (e : specMid op = some c) (r : Req) (p : Bytes) (s : State) (h : Keeps a s) :
    Keeps a (c.run r p s) := by
  unfold specMid at e
  split at e
  all_goals first
    | cases e
    | skip
  all_goals first
    | with_reducible exact keeps_specModelLoad r p s h
    | with_reducible exact keeps_specModelSwitch r p s h
    | with_reducible exact keeps_specSolverConfig r p s h
    | with_reducible exact keeps_specOptProblemLoad r p s h
    | with_reducible exact keeps_specOptProblemSwitch r p s h
    | with_reducible exact keeps_specOptConfig r p s h
    | with_reducible exact keeps_specEstLoad r p s h
    | with_reducible exact keeps_specEstConfig r p s h
    | with_reducible exact keeps_specEstRun r p s h
    | with_reducible exact keeps_specMtrParamLoad r p s h
    | with_reducible exact keeps_specMtrParamSwitch r p s h
    | with_reducible exact keeps_specMtrParamRead r p s h
    | with_reducible exact keeps_specMtrEnable r p s h
    | with_reducible exact keeps_specMtrAdopt r p s h

theorem keeps_specHigh {a : State} {op : Nat} {c : CmdSpec} (e : specHigh op = some c) (r : Req) (p : Bytes) (s : State) (h : Keeps a s) :
    Keeps a (c.run r p s) := by
  unfold specHigh at e
  split at e
  all_goals first
    | cases e
    | skip
  all_goals first
    | with_reducible exact keeps_specRingConfig r p s h
    | with_reducible exact keeps_specStationConfig r p s h
    | with_reducible exact keeps_specDatasetConfig r p s h
    | with_reducible exact keeps_specLoopRoute r p s h
    | with_reducible exact keeps_specTripConfig r p s h
    | with_reducible exact keeps_specTripReset r p s h
    | with_reducible exact keeps_specTimeConfig r p s h
    | with_reducible exact keeps_specTimePort r p s h
    | with_reducible exact keeps_specTimeSelect r p s h
    | with_reducible exact keeps_specTimeSet r p s h
    | with_reducible exact keeps_specCanConfig r p s h
    | with_reducible exact keeps_specCanBuffer r p s h
    | with_reducible exact keeps_specPairConfig r p s h
    | with_reducible exact keeps_specPnlConfig r p s h

theorem keeps_specOf {a : State} {op : Nat} {c : CmdSpec} (e : specOf op = some c) (r : Req) (p : Bytes) (s : State) (h : Keeps a s) :
    Keeps a (c.run r p s) := by
  unfold specOf at e
  split at e
  · rename_i e1
    cases e
    exact keeps_specLow e1 r p s h
  · split at e
    · rename_i e1
      cases e
      exact keeps_specMid e1 r p s h
    · exact keeps_specHigh e r p s h

theorem keeps_replayRun {a : State} {op : Nat} {c : CmdSpec} (e1 : specOf op = some c) (b : Bytes) (s : State) (h : Keeps a s) :
    Keeps a (match c.length b, c.check (recordReq b) b s with
      | none, none => c.run (recordReq b) b s
      | none, some (st, _) => if st = stConflict then c.run (recordReq b) b s else s
      | some _, _ => s) := by
  split
  · exact keeps_specOf e1 _ _ _ h
  · split
    · exact keeps_specOf e1 _ _ _ h
    · exact h
  · exact h

theorem keeps_replayEntry {a : State} (e : Nat × Bytes) (s : State) (h : Keeps a s) : Keeps a (replayEntry e s) := by
  unfold replayEntry
  split
  · exact h
  · rename_i c e1
    dsimp only
    split
    · exact keeps_settleClass _ _ (keeps_replayRun e1 _ _ h)
    · exact keeps_replayRun e1 _ _ h

theorem keeps_replayEntries {a : State} (y0 : List (Nat × Bytes)) (y1 : State) (h : Keeps a y1) : Keeps a (replayEntries y0 y1) := by
  induction y0 generalizing y1 with
  | nil =>
    unfold replayEntries
    repeat' first
       | (intro x; first | (have hx : Keeps a x := by (unfold x; repeat' first | with_reducible assumption | with_reducible apply keeps_replayEntry | split)); clear_value x | (have _ : HostIf := x) | (have _ : Keys := x) | (have _ : Fwu := x) | clear_value x | skip)
       | with_reducible assumption | with_reducible apply keeps_replayEntry | split | lift_lets
  | cons x r ih =>
    unfold replayEntries
    repeat' first
       | (intro x; first | (have hx : Keeps a x := by (unfold x; repeat' first | with_reducible assumption | with_reducible apply keeps_replayEntry | with_reducible apply ih | split)); clear_value x | (have _ : HostIf := x) | (have _ : Keys := x) | (have _ : Fwu := x) | clear_value x | skip)
       | with_reducible assumption | with_reducible apply keeps_replayEntry | with_reducible apply ih | split | lift_lets

theorem keeps_settleReplay {a : State} (s : State) (h : Keeps a s) : Keeps a (settleReplay s) := by
  unfold settleReplay
  with_reducible repeat' first
     | (intro x; first | (have hx : Keeps a x := by (unfold x; repeat' first | assumption | apply keeps_applyBoundaries | apply keeps_setPair | apply keeps_settleClass | split)); clear_value x | (have _ : HostIf := x) | (have _ : Keys := x) | (have _ : Fwu := x) | clear_value x | skip)
     | assumption | apply keeps_applyBoundaries | apply keeps_setPair | apply keeps_settleClass | split | lift_lets



theorem keeps_replaySettings_eq {a t : State} {l : List (Nat × Bytes)} {s : State} (e : replaySettings l s = some t) (h : Keeps a s) :
    Keeps a t := by
  have k := keeps_settleReplay _ (keeps_replayEntries l s h)
  unfold replaySettings at e
  dsimp only at e
  split at e
  · cases e; exact k
  · cases e



theorem keeps_replayCopies_eq {a t : State} {l : List SetRecord} {s : State} (e : replayCopies l s = some t) (h : Keeps a s) : Keeps a t := by
  induction l with
  | nil => cases e
  | cons c r ih =>
    unfold replayCopies at e
    split at e
    · rename_i e1
      cases e
      exact keeps_replaySettings_eq e1 h
    · exact ih e

theorem keeps_replayAtBoot {a : State} (s : State) (h : Keeps a s) : Keeps a (replayAtBoot s) := by
  unfold replayAtBoot
  dsimp only
  split
  · rename_i e
    exact keeps_replayCopies_eq e h
  · exact ⟨h.1, h.2⟩

end Sys2Proof.Laws
end

