-- ==== Sys2Proof/Laws/KeepsShadow.lean ====
section
/-! SUPPORT. Laws/KeepsShadow.lean: what each operation of Machine/Shadow.lean keeps (Laws/Keeps.lean). -/

namespace Sys2Proof.Laws

set_option linter.all false

open Sys2Proof.Machine

theorem keeps_execSnapshotFillRequest {a : State} (st : BitVec 12) (seq : Nat) (s : State) (h : Keeps a s) : Goes a (execSnapshotFillRequest st seq s) := by
  unfold execSnapshotFillRequest
  (try intro x)
  apply goes_next
  repeat' first
     | (intro x; first | (have hx : Keeps a x := by (unfold x; repeat' first | with_reducible assumption | with_reducible apply keeps_emit | split)); clear_value x | (have _ : HostIf := x) | (have _ : Keys := x) | (have _ : Fwu := x) | clear_value x | skip)
     | with_reducible assumption | with_reducible apply keeps_emit | split | lift_lets

theorem keeps_closeFilled {a : State} (c : Nat) (s : State) (h : Keeps a s) : Keeps a (closeFilled c s) := by
  unfold closeFilled
  repeat' first | exact ⟨h.1, h.2⟩ | assumption | with_reducible apply keeps_closeSnapshot | split

theorem keeps_takeFill {a : State} (st : Nat) (seq : Nat) (l : List MirrorPoint) (y3 : List Nat) (y4 : State) (h : Keeps a y4) : Keeps a (takeFill st seq l y3 y4) := by
  induction y3 generalizing y4 with
  | nil =>
    unfold takeFill
    repeat' first
       | (intro x; first | (have hx : Keeps a x := by (unfold x; repeat' first | with_reducible assumption | with_reducible apply keeps_setCycle | with_reducible apply keeps_closeFilled | with_reducible apply keeps_setPair | split)); clear_value x | (have _ : HostIf := x) | (have _ : Keys := x) | (have _ : Fwu := x) | clear_value x | skip)
       | with_reducible assumption | with_reducible apply keeps_setCycle | with_reducible apply keeps_closeFilled
       | with_reducible apply keeps_setPair | split | lift_lets
  | cons x r ih =>
    unfold takeFill
    repeat' first
       | (intro x; first | (have hx : Keeps a x := by (unfold x; repeat' first | with_reducible assumption | with_reducible apply keeps_setCycle | with_reducible apply keeps_closeFilled | with_reducible apply keeps_setPair | with_reducible apply ih | split)); clear_value x | (have _ : HostIf := x) | (have _ : Keys := x) | (have _ : Fwu := x) | clear_value x | skip)
       | with_reducible assumption | with_reducible apply keeps_setCycle | with_reducible apply keeps_closeFilled
       | with_reducible apply keeps_setPair | with_reducible apply ih | split | lift_lets

theorem keeps_execSnapshotFillTimeout {a : State} (c' : PClass) (s : State) (h : Keeps a s) : Goes a (execSnapshotFillTimeout c' s) := by
  unfold execSnapshotFillTimeout
  (try intro x)
  apply goes_next
  repeat' first
     | (intro x; first | (have hx : Keeps a x := by (unfold x; repeat' first | with_reducible assumption | with_reducible apply keeps_setCycle | with_reducible apply keeps_closeSnapshot | with_reducible apply keeps_setPair | split)); clear_value x | (have _ : HostIf := x) | (have _ : Keys := x) | (have _ : Fwu := x) | clear_value x | skip)
     | with_reducible assumption | with_reducible apply keeps_setCycle | with_reducible apply keeps_closeSnapshot
     | with_reducible apply keeps_setPair | split | lift_lets

theorem keeps_takeHandover {a : State} (s : State) (h : Keeps a s) : Keeps a (takeHandover s) := by
  unfold takeHandover
  with_reducible repeat' first
     | (intro x; first | (have hx : Keeps a x := by (unfold x; repeat' first | assumption | apply keeps_takeUp | apply keeps_setPair | split)); clear_value x | (have _ : HostIf := x) | (have _ : Keys := x) | (have _ : Fwu := x) | clear_value x | skip)
     | assumption | apply keeps_takeUp | apply keeps_setPair | split | lift_lets

theorem keeps_applyRecord {a : State} (b : MirrorBody) (s : State) (h : Keeps a s) : Keeps a (applyRecord b s) := by
  cases b with
  | command op r n =>
    unfold applyRecord
    dsimp only
    split
    · rename_i e
      exact keeps_setPair _ _ (keeps_specOf e _ _ _ (keeps_setPair _ _ h))
    · exact h
  | jobEnd kinds => exact keeps_setPair _ _ h
  | mark c n stamp vec pts => exact keeps_startHeld _ _ (keeps_setPair _ _ h)
  | scale v => exact keeps_setPair _ _ h
  | stop kind step n cause factor retry => exact keeps_setPair _ _ h
  | output c n d sets => exact keeps_theirDigest _ _ _ _ (keeps_setPair _ _ h)
  | loop d l => exact keeps_takeLoops _ _ _ h
  | retain d crc => exact keeps_compareRetain _ (keeps_setPair _ _ h)
  | plan t0 =>
    unfold applyRecord
    dsimp only
    split
    · exact keeps_installPlan _ h
    · exact h
  | totals sets heat => exact keeps_totalsArrive _ _ _ h
  | handover =>
    unfold applyRecord
    dsimp only
    split
    · exact h
    · exact keeps_takeHandover _ h
  | fill st seq l => exact h

theorem keeps_takeReturn {a : State} (b : MirrorBody) (s : State) (h : Keeps a s) : Keeps a (takeReturn b s) := by
  unfold takeReturn
  with_reducible repeat' first
     | (intro x; first | (have hx : Keeps a x := by (unfold x; repeat' first | assumption | apply keeps_theirDigest | apply keeps_compareRetain | apply keeps_setPair | split)); clear_value x | (have _ : HostIf := x) | (have _ : Keys := x) | (have _ : Fwu := x) | clear_value x | skip)
     | assumption | apply keeps_theirDigest | apply keeps_compareRetain | apply keeps_setPair | split | lift_lets

theorem keeps_execMirrorRecord {a : State} (seq : Nat) (b : MirrorBody) (s : State) (h : Keeps a s) : Goes a (execMirrorRecord seq b s) := by
  unfold execMirrorRecord
  (try intro x)
  apply goes_next
  repeat' first
     | (intro x; first | (have hx : Keeps a x := by (unfold x; repeat' first | with_reducible assumption | with_reducible apply keeps_takeReturn | with_reducible apply keeps_takeFill | with_reducible apply keeps_applyRecord | with_reducible apply keeps_setPair | split)); clear_value x | (have _ : HostIf := x) | (have _ : Keys := x) | (have _ : Fwu := x) | clear_value x | skip)
     | with_reducible assumption | with_reducible apply keeps_takeReturn | with_reducible apply keeps_takeFill
     | with_reducible apply keeps_applyRecord | with_reducible apply keeps_setPair | split | lift_lets



theorem keeps_joinLoad_eq {a t : State} {b : Option Bytes} {bad : Bytes → State → Bool} {take : Bytes → State → State} {s : State}
    (e : joinLoad b bad take s = some t) (k : ∀ b s, Keeps a s → Keeps a (take b s)) (h : Keeps a s) : Keeps a t := by
  unfold joinLoad at e
  split at e
  · cases e; exact h
  · split at e
    · cases e
    · cases e; exact k _ _ h

theorem keeps_startClass {a : State} (im : Image) (c : Nat) (s : State) (h : Keeps a s) : Keeps a (startClass im c s) := ⟨h.1, h.2⟩

theorem keeps_joinImage {a : State} (b : Bytes) (s : State) (h : Keeps a s) : Keeps a (joinImage b s) := by
  unfold joinImage
  with_reducible repeat' first
     | (intro x; first | (have hx : Keeps a x := by (unfold x; repeat' first | assumption | apply keeps_sectionUsed | apply keeps_startPoints | apply keeps_startClass | split)); clear_value x | (have _ : HostIf := x) | (have _ : Keys := x) | (have _ : Fwu := x) | clear_value x | skip)
     | assumption | apply keeps_sectionUsed | apply keeps_startPoints | apply keeps_startClass | split | lift_lets

theorem keeps_joinModel {a : State} (b : Bytes) (s : State) (h : Keeps a s) : Keeps a (joinModel b s) :=
  have k := keeps_sectionUsed b _ s h
  ⟨k.1, k.2⟩

theorem keeps_joinTable {a : State} (b : Bytes) (s : State) (h : Keeps a s) : Keeps a (joinTable b s) :=
  have k := keeps_sectionUsed b _ s h
  ⟨k.1, k.2⟩

theorem keeps_joinProblem {a : State} (b : Bytes) (s : State) (h : Keeps a s) : Keeps a (joinProblem b s) :=
  have k := keeps_sectionUsed b (getLE b 52 4) s h
  ⟨k.1, k.2⟩

theorem keeps_joinParams {a : State} (b : Bytes) (s : State) (h : Keeps a s) : Keeps a (joinParams b s) :=
  have k := keeps_sectionUsed b _ s h
  ⟨k.1, k.2⟩



theorem keeps_joinLoads_eq {a t : State} {x : JoinCopy} {s : State} (e : joinLoads x s = some t) (h : Keeps a s) : Keeps a t := by
  unfold joinLoads at e
  split at e
  · cases e
  · rename_i e1
    have h1 := keeps_joinLoad_eq e1 (fun b s h => keeps_joinImage b s h) h
    split at e
    · cases e
    · rename_i e2
      have h2 := keeps_joinLoad_eq e2 (fun b s h => keeps_joinModel b s h) h1
      split at e
      · cases e
      · rename_i e3
        have h3 := keeps_joinLoad_eq e3 (fun b s h => keeps_joinTable b s h) h2
        split at e
        · cases e
        · rename_i e4
          have h4 := keeps_joinLoad_eq e4 (fun b s h => keeps_joinProblem b s h) h3
          split at e
          · cases e
          · rename_i e5
            exact keeps_replaySettings_eq e (keeps_joinLoad_eq e5 (fun b s h => keeps_joinParams b s h) h4)

theorem keeps_joinStates {a : State} (im : Image) (y1 : List (Nat × List W64 × Bool)) (y2 : State) (h : Keeps a y2) : Keeps a (joinStates im y1 y2) := by
  induction y1 generalizing y2 with
  | nil =>
    unfold joinStates
    repeat' first
       | (intro x; first | (have hx : Keeps a x := by (unfold x; repeat' first | with_reducible assumption | with_reducible apply keeps_putInst | split)); clear_value x | (have _ : HostIf := x) | (have _ : Keys := x) | (have _ : Fwu := x) | clear_value x | skip)
       | with_reducible assumption | with_reducible apply keeps_putInst | split | lift_lets
  | cons x r ih =>
    unfold joinStates
    repeat' first
       | (intro x; first | (have hx : Keeps a x := by (unfold x; repeat' first | with_reducible assumption | with_reducible apply keeps_putInst | with_reducible apply ih | split)); clear_value x | (have _ : HostIf := x) | (have _ : Keys := x) | (have _ : Fwu := x) | clear_value x | skip)
       | with_reducible assumption | with_reducible apply keeps_putInst | with_reducible apply ih | split | lift_lets

theorem keeps_joinPoints {a : State} (y0 : List MirrorPoint) (y1 : State) (h : Keeps a y1) : Keeps a (joinPoints y0 y1) := by
  induction y0 generalizing y1 with
  | nil =>
    unfold joinPoints
    repeat' first
       | (intro x; first | (have hx : Keeps a x := by (unfold x; repeat' first | with_reducible assumption | with_reducible apply keeps_putRec | split)); clear_value x | (have _ : HostIf := x) | (have _ : Keys := x) | (have _ : Fwu := x) | clear_value x | skip)
       | with_reducible assumption | with_reducible apply keeps_putRec | split | lift_lets
  | cons x r ih =>
    unfold joinPoints
    repeat' first
       | (intro x; first | (have hx : Keeps a x := by (unfold x; repeat' first | with_reducible assumption | with_reducible apply keeps_putRec | with_reducible apply ih | split)); clear_value x | (have _ : HostIf := x) | (have _ : Keys := x) | (have _ : Fwu := x) | clear_value x | skip)
       | with_reducible assumption | with_reducible apply keeps_putRec | with_reducible apply ih | split | lift_lets

theorem keeps_joinState {a : State} (x : JoinCopy) (s : State) (h : Keeps a s) : Keeps a (joinState x s) := by
  unfold joinState
  with_reducible repeat' first
     | (intro x; first | (have hx : Keeps a x := by (unfold x; repeat' first | assumption | apply keeps_joinStates | apply keeps_joinPoints | apply keeps_adoptTotals | apply keeps_adoptMirrors | apply keeps_raise | apply keeps_writeBlock | apply keeps_setPair | split)); clear_value x | (have _ : HostIf := x) | (have _ : Keys := x) | (have _ : Fwu := x) | clear_value x | skip)
     | assumption | apply keeps_joinStates | apply keeps_joinPoints | apply keeps_adoptTotals | apply keeps_adoptMirrors
     | apply keeps_raise | apply keeps_writeBlock | apply keeps_setPair | split | lift_lets

theorem keeps_failJoin {a : State} (s : State) (h : Keeps a s) : Keeps a (failJoin s) := by
  unfold failJoin
  with_reducible repeat' first
     | (intro x; first | (have hx : Keeps a x := by (unfold x; repeat' first | assumption | apply keeps_setPair | apply keeps_fenceSelf | split)); clear_value x | (have _ : HostIf := x) | (have _ : Keys := x) | (have _ : Fwu := x) | clear_value x | skip)
     | assumption | apply keeps_setPair | apply keeps_fenceSelf | split | lift_lets

theorem keeps_joinDone {a : State} (first : Bool) (syncMs : Nat) (s : State) (h : Keeps a s) : Keeps a (joinDone first syncMs s) := by
  unfold joinDone
  with_reducible repeat' first
     | (intro x; first | (have hx : Keeps a x := by (unfold x; repeat' first | assumption | apply keeps_setPair | apply keeps_raise | apply keeps_resyncDone | split)); clear_value x | (have _ : HostIf := x) | (have _ : Keys := x) | (have _ : Fwu := x) | clear_value x | skip)
     | assumption | apply keeps_setPair | apply keeps_raise | apply keeps_resyncDone | split | lift_lets

theorem keeps_execJoin {a : State} (x : JoinCopy) (s : State) (h : Keeps a s) : Goes a (execJoin x s) := by
  unfold execJoin
  (try intro x)
  apply goes_next
  repeat' first
     | (intro x; first | (have hx : Keeps a x := by (unfold x; repeat' first | with_reducible assumption | with_reducible apply keeps_refuseJoin | with_reducible apply keeps_failJoin | with_reducible apply keeps_joinState | with_reducible apply keeps_raise | with_reducible apply keeps_joinDone | (with_reducible refine keeps_joinLoads_eq (by assumption) ?_) | split)); clear_value x | (have _ : HostIf := x) | (have _ : Keys := x) | (have _ : Fwu := x) | clear_value x | skip)
     | with_reducible assumption | with_reducible apply keeps_refuseJoin | with_reducible apply keeps_failJoin
     | with_reducible apply keeps_joinState | with_reducible apply keeps_raise | with_reducible apply keeps_joinDone
     | (with_reducible refine keeps_joinLoads_eq (by assumption) ?_) | split | lift_lets

end Sys2Proof.Laws
end

