-- ==== Sys2Proof/Laws/KeepsBoot.lean ====
section
/-! SUPPORT. Laws/KeepsBoot.lean: what each operation of Machine/Boot.lean keeps (Laws/Keeps.lean). -/

namespace Sys2Proof.Laws

set_option linter.all false

open Sys2Proof.Machine



theorem keeps_loadSlot_eq {a t : State} {x : BootObs} {s : State} (e : loadSlot x s = some t) (h : Keeps a s) : Keeps a t := by
  unfold loadSlot at e
  have k := keeps_raise 0xE8 [0] s h
  split at e
  · cases e; exact h
  · dsimp only at e
    split at e
    · cases e
    · split at e
      · cases e; exact keeps_bootRevert _ _ k
      · cases e; exact keeps_swapSlots _ _ k

theorem keeps_fenceBricks {a : State} (y0 : List BrickId) (y1 : State) (h : Keeps a y1) : Keeps a (fenceBricks y0 y1) := by
  induction y0 generalizing y1 with
  | nil =>
    unfold fenceBricks
    repeat' first
       | (intro x; first | (have hx : Keeps a x := by (unfold x; repeat' first | with_reducible assumption | with_reducible apply keeps_fenceBrick | split)); clear_value x | (have _ : HostIf := x) | (have _ : Keys := x) | (have _ : Fwu := x) | clear_value x | skip)
       | with_reducible assumption | with_reducible apply keeps_fenceBrick | split | lift_lets
  | cons x r ih =>
    unfold fenceBricks
    repeat' first
       | (intro x; first | (have hx : Keeps a x := by (unfold x; repeat' first | with_reducible assumption | with_reducible apply keeps_fenceBrick | with_reducible apply ih | split)); clear_value x | (have _ : HostIf := x) | (have _ : Keys := x) | (have _ : Fwu := x) | clear_value x | skip)
       | with_reducible assumption | with_reducible apply keeps_fenceBrick | with_reducible apply ih | split | lift_lets

theorem keeps_selfTest {a : State} (x : BistObs) (s : State) (h : Keeps a s) : Keeps a (selfTest x s) := by
  unfold selfTest
  with_reducible repeat' first
     | (intro x; first | (have hx : Keeps a x := by (unfold x; repeat' first | assumption | apply keeps_fenceBricks | apply keeps_raise | apply keeps_moduleFault | split)); clear_value x | (have _ : HostIf := x) | (have _ : Keys := x) | (have _ : Fwu := x) | clear_value x | skip)
     | assumption | apply keeps_fenceBricks | apply keeps_raise | apply keeps_moduleFault | split | lift_lets

theorem keeps_bootMeter {a : State} (s : State) (h : Keeps a s) : Keeps a (bootMeter s) := by
  unfold bootMeter
  repeat' first | exact ⟨h.1, h.2⟩ | assumption | with_reducible apply keeps_startMeter | split

theorem keeps_bootEpochs {a : State} (s : State) (h : Keeps a s) : Keeps a (bootEpochs s) := by
  unfold bootEpochs
  repeat' first | with_reducible assumption | with_reducible apply keeps_advanceEpoch | split

theorem keeps_bootPanel {a : State} (s : State) (h : Keeps a s) : Keeps a (bootPanel s) := by
  unfold bootPanel
  repeat' first | exact ⟨h.1, h.2⟩ | assumption | with_reducible apply keeps_pnlRepair | split

theorem keeps_readyReq {a : State} (s : State) (h : Keeps a s) : Keeps a (readyReq s) := by
  unfold readyReq
  repeat' first | exact ⟨h.1, h.2⟩ | assumption | with_reducible apply keeps_finishOpt | split

theorem keeps_bootWith {a : State} (x : BootObs) (s : State) (h : Keeps a s) : Keeps a (bootWith x s) := by
  unfold bootWith
  with_reducible repeat' first
     | (intro x; first | (have hx : Keeps a x := by (unfold x; repeat' first | assumption | apply keeps_startTime | apply keeps_bootEpochs | apply keeps_recoverJournal | apply keeps_selfTest | apply keeps_bootPanel | apply keeps_bootMeter | apply keeps_replayAtBoot | apply keeps_fillPool | apply keeps_readyReq | apply keeps_decideRole | split)); clear_value x | (have _ : HostIf := x) | (have _ : Keys := x) | (have _ : Fwu := x) | clear_value x | skip)
     | assumption | apply keeps_startTime | apply keeps_bootEpochs | apply keeps_recoverJournal | apply keeps_selfTest
     | apply keeps_bootPanel | apply keeps_bootMeter | apply keeps_replayAtBoot | apply keeps_fillPool | apply keeps_readyReq
     | apply keeps_decideRole | split | lift_lets

theorem keeps_execBootComplete {a : State} (x : BootObs) (s : State) (h : Keeps a s) : Goes a (execBootComplete x s) := by
  unfold execBootComplete
  (try intro x)
  apply goes_next
  with_reducible repeat' first
     | (intro x; first | (have hx : Keeps a x := by (unfold x; repeat' first | assumption | apply keeps_bootWith | apply keeps_railsOff | apply keeps_raise | (refine keeps_loadSlot_eq (by assumption) ?_) | split)); clear_value x | (have _ : HostIf := x) | (have _ : Keys := x) | (have _ : Fwu := x) | clear_value x | skip)
     | assumption | apply keeps_bootWith | apply keeps_railsOff | apply keeps_raise
     | (refine keeps_loadSlot_eq (by assumption) ?_) | split | lift_lets

theorem keeps_fenceForced {a : State} (s : State) (h : Keeps a s) : Keeps a (fenceForced s) := by
  unfold fenceForced
  repeat' first | with_reducible assumption | with_reducible apply keeps_fenceSelf | split

theorem keeps_specRestart {a : State} (r : Req) (p : Bytes) (s : State) (h : Keeps a s) : Keeps a (specRestart.run r p s) := by
  unfold specRestart; dsimp only
  with_reducible repeat' first
     | (intro x; first | (have hx : Keeps a x := by (unfold x; repeat' first | assumption | apply keeps_fenceForced | apply keeps_finishOk | split)); clear_value x | (have _ : HostIf := x) | (have _ : Keys := x) | (have _ : Fwu := x) | clear_value x | skip)
     | assumption | apply keeps_fenceForced | apply keeps_finishOk | split | lift_lets

theorem keeps_execCmdRestart {a : State} (r : Req) (s : State) (h : Keeps a s) : Goes a (execCmdRestart r s) :=
  goes_next (keeps_runCmd keeps_specRestart r h)

theorem keeps_orderlyOff {a : State} (r : Req) (s : State) (h : Keeps a s) : Keeps a (orderlyOff r s) := by
  unfold orderlyOff
  with_reducible repeat' first
     | (intro x; first | (have hx : Keeps a x := by (unfold x; repeat' first | assumption | apply keeps_haltAll | apply keeps_fenceForced | apply keeps_shutdownStopped | apply keeps_holdCmd | apply keeps_finishOk | split)); clear_value x | (have _ : HostIf := x) | (have _ : Keys := x) | (have _ : Fwu := x) | clear_value x | skip)
     | assumption | apply keeps_haltAll | apply keeps_fenceForced | apply keeps_shutdownStopped | apply keeps_holdCmd
     | apply keeps_finishOk | split | lift_lets

theorem keeps_powerOn {a : State} (r : Req) (s : State) (h : Keeps a s) : Keeps a (powerOn r s) := by
  unfold powerOn
  repeat' first | with_reducible assumption | with_reducible apply keeps_finishOk | with_reducible apply keeps_holdCmd | split

theorem keeps_immediateOff {a : State} (r : Req) (s : State) (h : Keeps a s) : Keeps a (immediateOff r s) := by
  unfold immediateOff
  with_reducible repeat' first
     | (intro x; first | (have hx : Keeps a x := by (unfold x; repeat' first | assumption | apply keeps_railsOff | apply keeps_finishOk | apply keeps_fenceForced | split)); clear_value x | (have _ : HostIf := x) | (have _ : Keys := x) | (have _ : Fwu := x) | clear_value x | skip)
     | assumption | apply keeps_railsOff | apply keeps_finishOk | apply keeps_fenceForced | split | lift_lets

theorem keeps_specMainPower {a : State} (r : Req) (p : Bytes) (s : State) (h : Keeps a s) : Keeps a (specMainPower.run r p s) := by
  unfold specMainPower; dsimp only
  repeat' first
     | (intro x; first | (have hx : Keeps a x := by (unfold x; repeat' first | with_reducible assumption | with_reducible apply keeps_orderlyOff | with_reducible apply keeps_powerOn | with_reducible apply keeps_immediateOff | split)); clear_value x | (have _ : HostIf := x) | (have _ : Keys := x) | (have _ : Fwu := x) | clear_value x | skip)
     | with_reducible assumption | with_reducible apply keeps_orderlyOff | with_reducible apply keeps_powerOn
     | with_reducible apply keeps_immediateOff | split | lift_lets

theorem keeps_execCmdMainPower {a : State} (r : Req) (s : State) (h : Keeps a s) : Goes a (execCmdMainPower r s) :=
  goes_next (keeps_runCmd keeps_specMainPower r h)

theorem keeps_execPfwFall {a : State} (s : State) (h : Keeps a s) : Goes a (execPfwFall s) := by
  unfold execPfwFall
  (try intro x)
  apply goes_next
  repeat' first
     | (intro x; first | (have hx : Keeps a x := by (unfold x; repeat' first | with_reducible assumption | with_reducible apply keeps_raise | with_reducible apply keeps_railsOff | with_reducible apply keeps_interruptUpdates | with_reducible apply keeps_flushMeter | split)); clear_value x | (have _ : HostIf := x) | (have _ : Keys := x) | (have _ : Fwu := x) | clear_value x | skip)
     | with_reducible assumption | with_reducible apply keeps_raise | with_reducible apply keeps_railsOff
     | with_reducible apply keeps_interruptUpdates | with_reducible apply keeps_flushMeter | split | lift_lets

theorem keeps_execPfwRise {a : State} (s : State) (h : Keeps a s) : Goes a (execPfwRise s) := by
  unfold execPfwRise
  (try intro x)
  apply goes_next
  repeat' first
     | (intro x; first | (have hx : Keeps a x := by (unfold x; repeat' first | with_reducible assumption | with_reducible apply keeps_resumeMeter | with_reducible apply keeps_raise | with_reducible apply keeps_pnlRepair | split)); clear_value x | (have _ : HostIf := x) | (have _ : Keys := x) | (have _ : Fwu := x) | clear_value x | skip)
     | with_reducible assumption | with_reducible apply keeps_resumeMeter | with_reducible apply keeps_raise
     | with_reducible apply keeps_pnlRepair | split | lift_lets

end Sys2Proof.Laws
end

