-- ==== Sys2Proof/Laws/KeepsFaultRows.lean ====
section
/-! SUPPORT. Laws/KeepsFaultRows.lean: what each operation of Machine/FaultRows.lean keeps (Laws/Keeps.lean). -/

namespace Sys2Proof.Laws

set_option linter.all false

open Sys2Proof.Machine

theorem keeps_countCorrected {a : State} (p : MortarPacket) (s : State) (h : Keeps a s) : Keeps a (countCorrected p s) := by
  unfold countCorrected
  with_reducible repeat' first
     | (intro x; first | (have hx : Keeps a x := by (unfold x; repeat' first | assumption | apply keeps_countFault | apply keeps_setCrossing | split)); clear_value x | (have _ : HostIf := x) | (have _ : Keys := x) | (have _ : Fwu := x) | clear_value x | skip)
     | assumption | apply keeps_countFault | apply keeps_setCrossing | split | lift_lets

theorem keeps_discardPacket {a : State} (p : MortarPacket) (s : State) (h : Keeps a s) : Keeps a (discardPacket p s) := by
  unfold discardPacket
  with_reducible repeat' first
     | (intro x; first | (have hx : Keeps a x := by (unfold x; repeat' first | assumption | apply keeps_setBrick | apply keeps_countFault | apply keeps_setCrossing | apply keeps_fenceBrick | apply keeps_mortarRespond | apply keeps_emit | split)); clear_value x | (have _ : HostIf := x) | (have _ : Keys := x) | (have _ : Fwu := x) | clear_value x | skip)
     | assumption | apply keeps_setBrick | apply keeps_countFault | apply keeps_setCrossing | apply keeps_fenceBrick
     | apply keeps_mortarRespond | apply keeps_emit | split | lift_lets

theorem keeps_packetCrosses {a : State} (p : MortarPacket) (s : State) (h : Keeps a s) : Keeps a (packetCrosses p s) := by
  unfold packetCrosses
  with_reducible repeat' first
     | (intro x; first | (have hx : Keeps a x := by (unfold x; repeat' first | assumption | apply keeps_mortarRespond | apply keeps_countCorrected | apply keeps_discardPacket | apply keeps_mortarDeliver | apply keeps_setBrick | split)); clear_value x | (have _ : HostIf := x) | (have _ : Keys := x) | (have _ : Fwu := x) | clear_value x | skip)
     | assumption | apply keeps_mortarRespond | apply keeps_countCorrected | apply keeps_discardPacket
     | apply keeps_mortarDeliver | apply keeps_setBrick | split | lift_lets

theorem keeps_packetsCross {a : State} (y0 : List MortarPacket) (y1 : State) (h : Keeps a y1) : Keeps a (packetsCross y0 y1) := by
  induction y0 generalizing y1 with
  | nil =>
    unfold packetsCross
    repeat' first
       | (intro x; first | (have hx : Keeps a x := by (unfold x; repeat' first | with_reducible assumption | with_reducible apply keeps_setCrossing | with_reducible apply keeps_packetCrosses | split)); clear_value x | (have _ : HostIf := x) | (have _ : Keys := x) | (have _ : Fwu := x) | clear_value x | skip)
       | with_reducible assumption | with_reducible apply keeps_setCrossing | with_reducible apply keeps_packetCrosses | split
       | lift_lets
  | cons x r ih =>
    unfold packetsCross
    repeat' first
       | (intro x; first | (have hx : Keeps a x := by (unfold x; repeat' first | with_reducible assumption | with_reducible apply keeps_setCrossing | with_reducible apply keeps_packetCrosses | with_reducible apply ih | split)); clear_value x | (have _ : HostIf := x) | (have _ : Keys := x) | (have _ : Fwu := x) | clear_value x | skip)
       | with_reducible assumption | with_reducible apply keeps_setCrossing | with_reducible apply keeps_packetCrosses
       | with_reducible apply ih | split | lift_lets

theorem keeps_servePort {a : State} (b : Nat) (n : Nat) (s : State) (h : Keeps a s) : Keeps a (servePort b n s) := by
  unfold servePort
  with_reducible repeat' first
     | (intro x; first | (have hx : Keeps a x := by (unfold x; repeat' first | assumption | apply keeps_packetsCross | apply keeps_setBrick | apply keeps_setCrossing | split)); clear_value x | (have _ : HostIf := x) | (have _ : Keys := x) | (have _ : Fwu := x) | clear_value x | skip)
     | assumption | apply keeps_packetsCross | apply keeps_setBrick | apply keeps_setCrossing | split | lift_lets

theorem keeps_servePorts {a : State} (b : Nat) (y1 : List Nat) (y2 : State) (h : Keeps a y2) : Keeps a (servePorts b y1 y2) := by
  induction y1 generalizing y2 with
  | nil =>
    unfold servePorts
    repeat' first
       | (intro x; first | (have hx : Keeps a x := by (unfold x; repeat' first | with_reducible assumption | with_reducible apply keeps_servePort | split)); clear_value x | (have _ : HostIf := x) | (have _ : Keys := x) | (have _ : Fwu := x) | clear_value x | skip)
       | with_reducible assumption | with_reducible apply keeps_servePort | split | lift_lets
  | cons x r ih =>
    unfold servePorts
    repeat' first
       | (intro x; first | (have hx : Keeps a x := by (unfold x; repeat' first | with_reducible assumption | with_reducible apply keeps_servePort | with_reducible apply ih | split)); clear_value x | (have _ : HostIf := x) | (have _ : Keys := x) | (have _ : Fwu := x) | clear_value x | skip)
       | with_reducible assumption | with_reducible apply keeps_servePort | with_reducible apply ih | split | lift_lets

theorem keeps_startWatchdog {a : State} (b : Nat) (n : Nat) (s : State) (h : Keeps a s) : Keeps a (startWatchdog b n s) := by
  unfold startWatchdog
  repeat' first | exact ⟨h.1, h.2⟩ | assumption | with_reducible apply keeps_setCrossing | split

theorem keeps_startWatchdogs {a : State} (b : Nat) (y1 : List Nat) (y2 : State) (h : Keeps a y2) : Keeps a (startWatchdogs b y1 y2) := by
  induction y1 generalizing y2 with
  | nil =>
    unfold startWatchdogs
    repeat' first
       | (intro x; first | (have hx : Keeps a x := by (unfold x; repeat' first | with_reducible assumption | with_reducible apply keeps_startWatchdog | split)); clear_value x | (have _ : HostIf := x) | (have _ : Keys := x) | (have _ : Fwu := x) | clear_value x | skip)
       | with_reducible assumption | with_reducible apply keeps_startWatchdog | split | lift_lets
  | cons x r ih =>
    unfold startWatchdogs
    repeat' first
       | (intro x; first | (have hx : Keeps a x := by (unfold x; repeat' first | with_reducible assumption | with_reducible apply keeps_startWatchdog | with_reducible apply ih | split)); clear_value x | (have _ : HostIf := x) | (have _ : Keys := x) | (have _ : Fwu := x) | clear_value x | skip)
       | with_reducible assumption | with_reducible apply keeps_startWatchdog | with_reducible apply ih | split | lift_lets

theorem keeps_mortarArrive {a : State} (p : MortarPacket) (s : State) (h : Keeps a s) : Keeps a (mortarArrive p s) := by
  unfold mortarArrive
  with_reducible repeat' first
     | (intro x; first | (have hx : Keeps a x := by (unfold x; repeat' first | assumption | apply keeps_setCrossing | apply keeps_wakeBrick | apply keeps_servePort | apply keeps_startWatchdog | split)); clear_value x | (have _ : HostIf := x) | (have _ : Keys := x) | (have _ : Fwu := x) | clear_value x | skip)
     | assumption | apply keeps_setCrossing | apply keeps_wakeBrick | apply keeps_servePort | apply keeps_startWatchdog | split
     | lift_lets

theorem keeps_noteSent {a : State} (p : MortarPacket) (s : State) (h : Keeps a s) : Keeps a (noteSent p s) := by
  unfold noteSent
  with_reducible repeat' first
     | (intro x; first | (have hx : Keeps a x := by (unfold x; repeat' first | assumption | apply keeps_setBrick | split)); clear_value x | (have _ : HostIf := x) | (have _ : Keys := x) | (have _ : Fwu := x) | clear_value x | skip)
     | assumption | apply keeps_setBrick | split | lift_lets

theorem keeps_execMortarPacket {a : State} (p : MortarPacket) (s : State) (h : Keeps a s) : Goes a (execMortarPacket p s) := by
  unfold execMortarPacket
  (try intro x)
  apply goes_next
  repeat' first
     | (intro x; first | (have hx : Keeps a x := by (unfold x; repeat' first | with_reducible assumption | with_reducible apply keeps_raise | with_reducible apply keeps_mortarRespond | with_reducible apply keeps_setBrick | with_reducible apply keeps_mortarArrive | with_reducible apply keeps_noteSent | split)); clear_value x | (have _ : HostIf := x) | (have _ : Keys := x) | (have _ : Fwu := x) | clear_value x | skip)
     | with_reducible assumption | with_reducible apply keeps_raise | with_reducible apply keeps_mortarRespond
     | with_reducible apply keeps_setBrick | with_reducible apply keeps_mortarArrive | with_reducible apply keeps_noteSent
     | split | lift_lets

theorem keeps_execHandshakeWatchdog {a : State} (b : BrickId) (s : State) (h : Keeps a s) : Goes a (execHandshakeWatchdog b s) := by
  unfold execHandshakeWatchdog
  (try intro x)
  apply goes_next
  repeat' first
     | (intro x; first | (have hx : Keeps a x := by (unfold x; repeat' first | with_reducible assumption | with_reducible apply keeps_fenceBrick | split)); clear_value x | (have _ : HostIf := x) | (have _ : Keys := x) | (have _ : Fwu := x) | clear_value x | skip)
     | with_reducible assumption | with_reducible apply keeps_fenceBrick | split | lift_lets

theorem keeps_execClockPresenceExpiry {a : State} (b : BrickId) (s : State) (h : Keeps a s) : Goes a (execClockPresenceExpiry b s) := by
  unfold execClockPresenceExpiry
  (try intro x)
  apply goes_next
  repeat' first
     | (intro x; first | (have hx : Keeps a x := by (unfold x; repeat' first | with_reducible assumption | with_reducible apply keeps_fenceBrick | split)); clear_value x | (have _ : HostIf := x) | (have _ : Keys := x) | (have _ : Fwu := x) | clear_value x | skip)
     | with_reducible assumption | with_reducible apply keeps_fenceBrick | split | lift_lets

theorem keeps_execTransitionTimerExpiry {a : State} (b : BrickId) (s : State) (h : Keeps a s) : Goes a (execTransitionTimerExpiry b s) := by
  unfold execTransitionTimerExpiry
  (try intro x)
  apply goes_next
  repeat' first
     | (intro x; first | (have hx : Keeps a x := by (unfold x; repeat' first | with_reducible assumption | with_reducible apply keeps_fenceBrick | split)); clear_value x | (have _ : HostIf := x) | (have _ : Keys := x) | (have _ : Fwu := x) | clear_value x | skip)
     | with_reducible assumption | with_reducible apply keeps_fenceBrick | split | lift_lets

theorem keeps_execTransitionComplete {a : State} (t : SwitchTiming) (s : State) (h : Keeps a s) : Goes a (execTransitionComplete t s) := by
  unfold execTransitionComplete
  (try intro x)
  apply goes_next
  repeat' first
     | (intro x; first | (have hx : Keeps a x := by (unfold x; repeat' first | with_reducible assumption | with_reducible apply keeps_setBrick | with_reducible apply keeps_servePorts | with_reducible apply keeps_startWatchdogs | split)); clear_value x | (have _ : HostIf := x) | (have _ : Keys := x) | (have _ : Fwu := x) | clear_value x | skip)
     | with_reducible assumption | with_reducible apply keeps_setBrick | with_reducible apply keeps_servePorts
     | with_reducible apply keeps_startWatchdogs | split | lift_lets

theorem keeps_thermalLimit {a : State} (t4 : Int) (s : State) (h : Keeps a s) : Keeps a (thermalLimit t4 s) := by
  unfold thermalLimit
  with_reducible repeat' first
     | (intro x; first | (have hx : Keeps a x := by (unfold x; repeat' first | assumption | apply keeps_raise | split)); clear_value x | (have _ : HostIf := x) | (have _ : Keys := x) | (have _ : Fwu := x) | clear_value x | skip)
     | assumption | apply keeps_raise | split | lift_lets

theorem keeps_execTempSample {a : State} (t4 : Int) (s : State) (h : Keeps a s) : Goes a (execTempSample t4 s) := by
  unfold execTempSample
  (try intro x)
  apply goes_next
  repeat' first
     | (intro x; first | (have hx : Keeps a x := by (unfold x; repeat' first | with_reducible assumption | with_reducible apply keeps_thermalLimit | with_reducible apply keeps_rowFault | with_reducible apply keeps_raise | split)); clear_value x | (have _ : HostIf := x) | (have _ : Keys := x) | (have _ : Fwu := x) | clear_value x | skip)
     | with_reducible assumption | with_reducible apply keeps_thermalLimit | with_reducible apply keeps_rowFault
     | with_reducible apply keeps_raise | split | lift_lets

theorem keeps_execCanCheck {a : State} (n : Fin 4) (ok : Bool) (missed : Nat) (s : State) (h : Keeps a s) : Goes a (execCanCheck n ok missed s) := by
  unfold execCanCheck
  (try intro x)
  apply goes_next
  repeat' first
     | (intro x; first | (have hx : Keeps a x := by (unfold x; repeat' first | with_reducible assumption | with_reducible apply keeps_setCan | with_reducible apply keeps_rcAdd | with_reducible apply keeps_rowFault | with_reducible apply keeps_raise | split)); clear_value x | (have _ : HostIf := x) | (have _ : Keys := x) | (have _ : Fwu := x) | clear_value x | skip)
     | with_reducible assumption | with_reducible apply keeps_setCan | with_reducible apply keeps_rcAdd
     | with_reducible apply keeps_rowFault | with_reducible apply keeps_raise | split | lift_lets

theorem keeps_execDramError {a : State} (k : MemErr) (s : State) (h : Keeps a s) : Goes a (execDramError k s) := by
  unfold execDramError
  (try intro x)
  apply goes_next
  repeat' first
     | (intro x; first | (have hx : Keeps a x := by (unfold x; repeat' first | with_reducible assumption | with_reducible apply keeps_raise | with_reducible apply keeps_countFault | with_reducible apply keeps_rowFault | split)); clear_value x | (have _ : HostIf := x) | (have _ : Keys := x) | (have _ : Fwu := x) | clear_value x | skip)
     | with_reducible assumption | with_reducible apply keeps_raise | with_reducible apply keeps_countFault
     | with_reducible apply keeps_rowFault | split | lift_lets

theorem keeps_loseMram {a : State} (p : MramPlace) (s : State) (h : Keeps a s) : Keeps a (loseMram p s) := by
  unfold loseMram
  repeat' first | exact ⟨h.1, h.2⟩ | assumption | split

theorem keeps_execMramError {a : State} (k : MemErr) (p : MramPlace) (s : State) (h : Keeps a s) : Goes a (execMramError k p s) := by
  unfold execMramError
  (try intro x)
  apply goes_next
  repeat' first
     | (intro x; first | (have hx : Keeps a x := by (unfold x; repeat' first | with_reducible assumption | with_reducible apply keeps_raise | with_reducible apply keeps_countFault | with_reducible apply keeps_loseMram | split)); clear_value x | (have _ : HostIf := x) | (have _ : Keys := x) | (have _ : Fwu := x) | clear_value x | skip)
     | with_reducible assumption | with_reducible apply keeps_raise | with_reducible apply keeps_countFault
     | with_reducible apply keeps_loseMram | split | lift_lets

theorem keeps_execLockstepDisagreement {a : State} (s : State) (h : Keeps a s) : Goes a (execLockstepDisagreement s) := by
  unfold execLockstepDisagreement
  (try intro x)
  apply goes_next
  repeat' first
     | (intro x; first | (have hx : Keeps a x := by (unfold x; repeat' first | with_reducible assumption | with_reducible apply keeps_rowFault | split)); clear_value x | (have _ : HostIf := x) | (have _ : Keys := x) | (have _ : Fwu := x) | clear_value x | skip)
     | with_reducible assumption | with_reducible apply keeps_rowFault | split | lift_lets

theorem keeps_upsetRegs {a : State} (y0 : List (W16 × W32)) (y1 : State) (h : Keeps a y1) : Keeps a (upsetRegs y0 y1) := by
  induction y0 generalizing y1 with
  | nil =>
    unfold upsetRegs
    repeat' first
       | (intro x; first | (have hx : Keeps a x := by (unfold x; repeat' first | with_reducible assumption | with_reducible apply keeps_cfgPoke | split)); clear_value x | (have _ : HostIf := x) | (have _ : Keys := x) | (have _ : Fwu := x) | clear_value x | skip)
       | with_reducible assumption | with_reducible apply keeps_cfgPoke | split | lift_lets
  | cons x r ih =>
    unfold upsetRegs
    repeat' first
       | (intro x; first | (have hx : Keeps a x := by (unfold x; repeat' first | with_reducible assumption | with_reducible apply keeps_cfgPoke | with_reducible apply ih | split)); clear_value x | (have _ : HostIf := x) | (have _ : Keys := x) | (have _ : Fwu := x) | clear_value x | skip)
       | with_reducible assumption | with_reducible apply keeps_cfgPoke | with_reducible apply ih | split | lift_lets

theorem keeps_sweepBlocks {a : State} (y0 : List Nat) (y1 : State) (h : Keeps a y1) : Keeps a (sweepBlocks y0 y1) := by
  induction y0 generalizing y1 with
  | nil =>
    unfold sweepBlocks
    repeat' first
       | (intro x; first | (have hx : Keeps a x := by (unfold x; repeat' first | with_reducible assumption | with_reducible apply keeps_rowFault | with_reducible apply keeps_raise | split)); clear_value x | (have _ : HostIf := x) | (have _ : Keys := x) | (have _ : Fwu := x) | clear_value x | skip)
       | with_reducible assumption | with_reducible apply keeps_rowFault | with_reducible apply keeps_raise | split | lift_lets
  | cons x r ih =>
    unfold sweepBlocks
    repeat' first
       | (intro x; first | (have hx : Keeps a x := by (unfold x; repeat' first | with_reducible assumption | with_reducible apply keeps_rowFault | with_reducible apply keeps_raise | with_reducible apply ih | split)); clear_value x | (have _ : HostIf := x) | (have _ : Keys := x) | (have _ : Fwu := x) | clear_value x | skip)
       | with_reducible assumption | with_reducible apply keeps_rowFault | with_reducible apply keeps_raise
       | with_reducible apply ih | split | lift_lets

theorem keeps_execSignatureSweep {a : State} (upsets : List (W16 × W32)) (s : State) (h : Keeps a s) : Goes a (execSignatureSweep upsets s) := by
  unfold execSignatureSweep
  (try intro x)
  apply goes_next
  repeat' first
     | (intro x; first | (have hx : Keeps a x := by (unfold x; repeat' first | with_reducible assumption | with_reducible apply keeps_upsetRegs | with_reducible apply keeps_sweepBlocks | split)); clear_value x | (have _ : HostIf := x) | (have _ : Keys := x) | (have _ : Fwu := x) | clear_value x | skip)
     | with_reducible assumption | with_reducible apply keeps_upsetRegs | with_reducible apply keeps_sweepBlocks | split
     | lift_lets

end Sys2Proof.Laws
end

