-- ==== Sys2Proof/Laws/KeepsFirmware.lean ====
section
/-! SUPPORT. Laws/KeepsFirmware.lean: what each operation of Machine/Firmware.lean keeps (Laws/Keeps.lean). -/

namespace Sys2Proof.Laws

set_option linter.all false

open Sys2Proof.Machine

theorem keeps_setFwu {a : State} (f : Fwu → Fwu) (s : State) (hf : ∀ w, (f w).minSvn = w.minSvn) (h : Keeps a s) : Keeps a (setFwu f s) :=
  ⟨h.1, h.2.1, fun i => by rw [setFwu, hf]; exact h.2.2 i⟩

theorem keeps_setSession {a : State} (f : Session → Session) (s : State) (h : Keeps a s) : Keeps a (setSession f s) := ⟨h.1, h.2⟩

theorem keeps_putIdle {a : State} (x : FwSlot) (st : SlotState) (s : State) (h : Keeps a s) : Keeps a (putIdle x st s) := by
  refine keeps_setFwu _ s (fun w => ?_) h
  split <;> rfl

theorem keeps_stopBuild {a : State} (s : State) (h : Keeps a s) : Keeps a (stopBuild s) := by
  unfold stopBuild
  with_reducible repeat' first
     | (intro x; first | (have hx : Keeps a x := by (unfold x; repeat' first | assumption | apply keeps_finishOpt | apply keeps_setFwu | split)); clear_value x | (have _ : HostIf := x) | (have _ : Keys := x) | (have _ : Fwu := x) | clear_value x | skip)
     | assumption | apply keeps_finishOpt | apply keeps_setFwu | rfl | (show (_ : List Nat) = _; rfl) | split | lift_lets

theorem keeps_breakSession {a : State} (s : State) (h : Keeps a s) : Keeps a (breakSession s) := by
  unfold breakSession
  repeat' first | with_reducible assumption | with_reducible apply keeps_raise | with_reducible apply keeps_stopBuild | split

theorem keeps_specFwuOpen {a : State} (r : Req) (p : Bytes) (s : State) (h : Keeps a s) : Keeps a (specFwuOpen.run r p s) := by
  unfold specFwuOpen; dsimp only
  repeat' first
     | (intro x; first | (have hx : Keeps a x := by (unfold x; repeat' first | with_reducible assumption | with_reducible apply keeps_raise | with_reducible apply keeps_setFwu | with_reducible apply keeps_breakSession | with_reducible apply keeps_finishOk | split)); clear_value x | (have _ : HostIf := x) | (have _ : Keys := x) | (have _ : Fwu := x) | clear_value x | skip)
     | with_reducible assumption | with_reducible apply keeps_raise | with_reducible apply keeps_setFwu
     | with_reducible apply keeps_breakSession | with_reducible apply keeps_finishOk | rfl | (show (_ : List Nat) = _; rfl)
     | split | lift_lets

theorem keeps_execCmdFwuOpen {a : State} (r : Req) (s : State) (h : Keeps a s) : Goes a (execCmdFwuOpen r s) :=
  goes_next (keeps_runCmd keeps_specFwuOpen r h)

theorem keeps_specFwuData {a : State} (r : Req) (p : Bytes) (s : State) (h : Keeps a s) : Keeps a (specFwuData.run r p s) := by
  unfold specFwuData; dsimp only
  repeat' first
     | (intro x; first | (have hx : Keeps a x := by (unfold x; repeat' first | with_reducible assumption | with_reducible apply keeps_setSession | with_reducible apply keeps_finishOk | split)); clear_value x | (have _ : HostIf := x) | (have _ : Keys := x) | (have _ : Fwu := x) | clear_value x | skip)
     | with_reducible assumption | with_reducible apply keeps_setSession | with_reducible apply keeps_finishOk | split
     | lift_lets

theorem keeps_execCmdFwuData {a : State} (r : Req) (s : State) (h : Keeps a s) : Goes a (execCmdFwuData r s) :=
  goes_next (keeps_runCmd keeps_specFwuData r h)

theorem keeps_failVerify {a : State} (check : Nat) (req : Option Req) (s : State) (h : Keeps a s) : Keeps a (failVerify check req s) := by
  unfold failVerify
  with_reducible repeat' first
     | (intro x; first | (have hx : Keeps a x := by (unfold x; repeat' first | assumption | apply keeps_setSession | apply keeps_raise | apply keeps_setFwu | apply keeps_finishOpt | split)); clear_value x | (have _ : HostIf := x) | (have _ : Keys := x) | (have _ : Fwu := x) | clear_value x | skip)
     | assumption | apply keeps_setSession | apply keeps_raise | apply keeps_setFwu | apply keeps_finishOpt | rfl
     | (show (_ : List Nat) = _; rfl) | split | lift_lets

theorem keeps_finishBuild {a : State} (b : Build) (x : Session) (s : State) (h : Keeps a s) : Keeps a (finishBuild b x s) := by
  unfold finishBuild
  with_reducible repeat' first
     | (intro x; first | (have hx : Keeps a x := by (unfold x; repeat' first | assumption | apply keeps_failVerify | apply keeps_putIdle | apply keeps_setSession | apply keeps_setFwu | apply keeps_finishOpt | split)); clear_value x | (have _ : HostIf := x) | (have _ : Keys := x) | (have _ : Fwu := x) | clear_value x | skip)
     | assumption | apply keeps_failVerify | apply keeps_putIdle | apply keeps_setSession | apply keeps_setFwu
     | apply keeps_finishOpt | rfl | (show (_ : List Nat) = _; rfl) | split | lift_lets

theorem keeps_buildTick {a : State} (s : State) (h : Keeps a s) : Keeps a (buildTick s) := by
  unfold buildTick
  split
  · rename_i b x _ _
    split
    · have k := keeps_setFwu (fun w => { w with
        build := some { b with blocks := b.blocks + 1, from' := s.refNs }, progress := (b.blocks + 1, b.total) }) s (fun _ => rfl) h
      dsimp only
      split
      · exact keeps_finishBuild _ _ _ k
      · exact k
    · exact h
  · exact h

theorem keeps_specFwuVerify {a : State} (r : Req) (p : Bytes) (s : State) (h : Keeps a s) : Keeps a (specFwuVerify.run r p s) := by
  unfold specFwuVerify; dsimp only
  repeat' first
     | (intro x; first | (have hx : Keeps a x := by (unfold x; repeat' first | with_reducible assumption | with_reducible apply keeps_afterChecks | with_reducible apply keeps_holdCmd | with_reducible apply keeps_setFwu | with_reducible apply keeps_failVerify | with_reducible apply keeps_setSession | with_reducible apply keeps_putIdle | split)); clear_value x | (have _ : HostIf := x) | (have _ : Keys := x) | (have _ : Fwu := x) | clear_value x | skip)
     | with_reducible assumption | with_reducible apply keeps_afterChecks | with_reducible apply keeps_holdCmd | with_reducible apply keeps_setFwu
     | with_reducible apply keeps_failVerify | with_reducible apply keeps_setSession | with_reducible apply keeps_putIdle | rfl
     | (show (_ : List Nat) = _; rfl) | split | lift_lets

theorem keeps_execCmdFwuVerify {a : State} (r : Req) (s : State) (h : Keeps a s) : Goes a (execCmdFwuVerify r s) :=
  goes_next (keeps_runCmd keeps_specFwuVerify r h)

theorem keeps_execFwuBuildResume {a : State} (s : State) (h : Keeps a s) : Goes a (execFwuBuildResume s) := by
  unfold execFwuBuildResume
  (try intro x)
  apply goes_next
  repeat' first
     | (intro x; first | (have hx : Keeps a x := by (unfold x; repeat' first | with_reducible assumption | with_reducible apply keeps_raise | with_reducible apply keeps_setFwu | split)); clear_value x | (have _ : HostIf := x) | (have _ : Keys := x) | (have _ : Fwu := x) | clear_value x | skip)
     | with_reducible assumption | with_reducible apply keeps_raise | with_reducible apply keeps_setFwu | rfl
     | (show (_ : List Nat) = _; rfl) | split | lift_lets

theorem keeps_askActivation {a : State} (req : Option Req) (s : State) (h : Keeps a s) : Keeps a (askActivation req s) := by
  unfold askActivation
  have k := keeps_setFwu (fun w => { w with activate := some { req := req, inPlace := !activeSynced s } }) s (fun _ => rfl) h
  dsimp only
  split
  · exact keeps_askExchange _ _ _ k
  · exact k

theorem keeps_specFwuActivate {a : State} (r : Req) (p : Bytes) (s : State) (h : Keeps a s) : Keeps a (specFwuActivate.run r p s) := by
  unfold specFwuActivate; dsimp only
  repeat' first
     | (intro x; first | (have hx : Keeps a x := by (unfold x; repeat' first | with_reducible assumption | with_reducible apply keeps_holdCmd | with_reducible apply keeps_askActivation | split)); clear_value x | (have _ : HostIf := x) | (have _ : Keys := x) | (have _ : Fwu := x) | clear_value x | skip)
     | with_reducible assumption | with_reducible apply keeps_holdCmd | with_reducible apply keeps_askActivation | split
     | lift_lets

theorem keeps_execCmdFwuActivate {a : State} (r : Req) (s : State) (h : Keeps a s) : Goes a (execCmdFwuActivate r s) :=
  goes_next (keeps_runCmd keeps_specFwuActivate r h)

theorem keeps_pauseClass {a : State} (c : Nat) (s : State) (h : Keeps a s) : Keeps a (pauseClass c s) := by
  unfold pauseClass
  repeat' first | with_reducible assumption | with_reducible apply keeps_stopClass | with_reducible apply keeps_setCls | split

theorem keeps_beginPause {a : State} (s : State) (h : Keeps a s) : Keeps a (beginPause s) := by
  unfold beginPause
  with_reducible repeat' first
     | (intro x; first | (have hx : Keeps a x := by (unfold x; repeat' first | assumption | apply keeps_stopEst | apply keeps_abortHost | apply keeps_pauseClass | split)); clear_value x | (have _ : HostIf := x) | (have _ : Keys := x) | (have _ : Fwu := x) | clear_value x | skip)
     | assumption | apply keeps_stopEst | apply keeps_abortHost | apply keeps_pauseClass | split | lift_lets

theorem keeps_commitActivation {a : State} (old : W32) (new' : W32) (s : State) (h : Keeps a s) : Keeps a (commitActivation old new' s) := by
  unfold commitActivation
  with_reducible repeat' first
     | (intro x; first | (have hx : Keeps a x := by (unfold x; repeat' first | assumption | apply keeps_swapSlots | apply keeps_setFwu | apply keeps_writeNewest | apply keeps_raise | split)); clear_value x | (have _ : HostIf := x) | (have _ : Keys := x) | (have _ : Fwu := x) | clear_value x | skip)
     | assumption | apply keeps_swapSlots | apply keeps_setFwu | apply keeps_writeNewest | apply keeps_raise | rfl
     | (show (_ : List Nat) = _; rfl) | split | lift_lets

theorem keeps_commitRevert {a : State} (s : State) (h : Keeps a s) : Keeps a (commitRevert s) := by
  unfold commitRevert
  with_reducible repeat' first
     | (intro x; first | (have hx : Keeps a x := by (unfold x; repeat' first | assumption | apply keeps_setFwu | apply keeps_swapSlots | apply keeps_writeNewest | apply keeps_raiseC | split)); clear_value x | (have _ : HostIf := x) | (have _ : Keys := x) | (have _ : Fwu := x) | clear_value x | skip)
     | assumption | apply keeps_setFwu | apply keeps_swapSlots | apply keeps_writeNewest | apply keeps_raiseC | rfl
     | (show (_ : List Nat) = _; rfl) | split | lift_lets

theorem keeps_takePanelTables {a : State} (s : State) (h : Keeps a s) : Keeps a (takePanelTables s) := ⟨h.1, h.2⟩

theorem keeps_takeMeter {a : State} (old : W32) (s : State) (h : Keeps a s) : Keeps a (takeMeter old s) := by
  unfold takeMeter
  with_reducible repeat' first
     | (intro x; first | (have hx : Keeps a x := by (unfold x; repeat' first | assumption | apply keeps_writeNewest | apply keeps_raise | split)); clear_value x | (have _ : HostIf := x) | (have _ : Keys := x) | (have _ : Fwu := x) | clear_value x | skip)
     | assumption | apply keeps_writeNewest | apply keeps_raise | split | lift_lets

theorem keeps_takeComponents {a : State} (oldMeter : W32) (s : State) (h : Keeps a s) : Keeps a (takeComponents oldMeter s) := by
  unfold takeComponents
  with_reducible repeat' first
     | (intro x; first | (have hx : Keeps a x := by (unfold x; repeat' first | assumption | apply keeps_takeMeter | apply keeps_takePanelTables | apply keeps_migrateStores | split)); clear_value x | (have _ : HostIf := x) | (have _ : Keys := x) | (have _ : Fwu := x) | clear_value x | skip)
     | assumption | apply keeps_takeMeter | apply keeps_takePanelTables | apply keeps_migrateStores | split | lift_lets

theorem keeps_pairAfter {a : State} (apart : Bool) (s : State) (h : Keeps a s) : Keeps a (pairAfter apart s) := by
  unfold pairAfter
  with_reducible repeat' first
     | (intro x; first | (have hx : Keeps a x := by (unfold x; repeat' first | assumption | apply keeps_raiseC | apply keeps_restRole | apply keeps_dropPartner | apply keeps_startResync | apply keeps_raise | split)); clear_value x | (have _ : HostIf := x) | (have _ : Keys := x) | (have _ : Fwu := x) | clear_value x | skip)
     | assumption | apply keeps_raiseC | apply keeps_restRole | apply keeps_dropPartner | apply keeps_startResync
     | apply keeps_raise | split | lift_lets

theorem keeps_liveActivation {a : State} (x : Activation) (m : Manifest) (p : Nat) (s : State) (h : Keeps a s) :
    Keeps a (liveActivation x m p s) := by
  have k := keeps_beginPause _ (keeps_setFwu (fun w => { w with activate := none }) s (fun _ => rfl) h)
  unfold liveActivation
  dsimp only
  generalize beginPause (setFwu (fun w => { w with activate := none }) s) = y at *
  have k2 : Keeps a (if x.req.isSome = true then commitActivation (((runSlot s).manifest.map (·.release)).getD 0) m.release y else commitRevert y) := by
    split
    · exact keeps_commitActivation _ _ _ k
    · exact keeps_commitRevert _ k
  generalize (if x.req.isSome = true then commitActivation (((runSlot s).manifest.map (·.release)).getD 0) m.release y else commitRevert y) = z at *
  have k3 := keeps_pairAfter (levelsApart m s) _ (keeps_takeComponents (meterVersion s) _ k2)
  generalize pairAfter (levelsApart m s) (takeComponents (meterVersion s) z) = q at *
  split
  · exact keeps_setFwu _ _ (fun _ => rfl) k3
  · exact keeps_finishOpt _ _ _ _ _ _ k3

theorem keeps_dropActivation {a : State} (z0 : Activation) (s : State) (h : Keeps a s) : Keeps a (dropActivation z0 s) := by
  unfold dropActivation
  with_reducible repeat' first
     | (intro x; first | (have hx : Keeps a x := by (unfold x; repeat' first | assumption | apply keeps_finishOpt | apply keeps_setFwu | split)); clear_value x | (have _ : HostIf := x) | (have _ : Keys := x) | (have _ : Fwu := x) | clear_value x | skip)
     | assumption | apply keeps_finishOpt | apply keeps_setFwu | rfl | (show (_ : List Nat) = _; rfl) | split | lift_lets

theorem keeps_execFwuLiveActivation {a : State} (pauseUs : Nat) (s : State) (h : Keeps a s) : Goes a (execFwuLiveActivation pauseUs s) := by
  unfold execFwuLiveActivation
  (try intro x)
  apply goes_next
  repeat' first
     | (intro x; first | (have hx : Keeps a x := by (unfold x; repeat' first | with_reducible assumption | with_reducible apply keeps_dropActivation | with_reducible apply keeps_liveActivation | split)); clear_value x | (have _ : HostIf := x) | (have _ : Keys := x) | (have _ : Fwu := x) | clear_value x | skip)
     | with_reducible assumption | with_reducible apply keeps_dropActivation | with_reducible apply keeps_liveActivation | split
     | lift_lets

theorem keeps_execFwuTrialTimeout {a : State} (s : State) (h : Keeps a s) : Goes a (execFwuTrialTimeout s) := by
  unfold execFwuTrialTimeout
  (try intro x)
  apply goes_next
  repeat' first
     | (intro x; first | (have hx : Keeps a x := by (unfold x; repeat' first | with_reducible assumption | with_reducible apply keeps_askActivation | split)); clear_value x | (have _ : HostIf := x) | (have _ : Keys := x) | (have _ : Fwu := x) | clear_value x | skip)
     | with_reducible assumption | with_reducible apply keeps_askActivation | split | lift_lets

theorem keeps_execTrialSecondsWrite {a : State} (s : State) (h : Keeps a s) : Goes a (execTrialSecondsWrite s) := by
  unfold execTrialSecondsWrite
  (try intro x)
  apply goes_next
  repeat' first
     | (intro x; first | (have hx : Keeps a x := by (unfold x; repeat' first | with_reducible assumption | with_reducible apply keeps_setFwu | split)); clear_value x | (have _ : HostIf := x) | (have _ : Keys := x) | (have _ : Fwu := x) | clear_value x | skip)
     | with_reducible assumption | with_reducible apply keeps_setFwu | rfl | (show (_ : List Nat) = _; rfl) | split | lift_lets

theorem keeps_sealRaised {a : State} (y0 : List (Nat × Nat × Nat)) (y1 : State) (h : Keeps a y1) : Keeps a (sealRaised y0 y1) := by
  induction y0 generalizing y1 with
  | nil =>
    unfold sealRaised
    repeat' first
       | (intro x; first | (have hx : Keeps a x := by (unfold x; repeat' first | with_reducible assumption | with_reducible apply keeps_writeNewest | with_reducible apply keeps_raise | split)); clear_value x | (have _ : HostIf := x) | (have _ : Keys := x) | (have _ : Fwu := x) | clear_value x | skip)
       | with_reducible assumption | with_reducible apply keeps_writeNewest | with_reducible apply keeps_raise | split
       | lift_lets
  | cons x r ih =>
    unfold sealRaised
    repeat' first
       | (intro x; first | (have hx : Keeps a x := by (unfold x; repeat' first | with_reducible assumption | with_reducible apply keeps_writeNewest | with_reducible apply keeps_raise | with_reducible apply ih | split)); clear_value x | (have _ : HostIf := x) | (have _ : Keys := x) | (have _ : Fwu := x) | clear_value x | skip)
       | with_reducible assumption | with_reducible apply keeps_writeNewest | with_reducible apply keeps_raise
       | with_reducible apply ih | split | lift_lets

theorem lget_confirm (f : Nat → Nat) (l : List Nat) (k i : Nat) :
    lget l i 0 ≤ lget ((indexed k l).map fun (j, lo) => Nat.max lo (f j)) i 0 := by
  induction l generalizing k i with
  | nil => simp [indexed, lget]
  | cons x r ih =>
    cases i with
    | zero => exact Nat.le_max_left _ _
    | succ i => exact ih (k + 1) i

theorem minSvn_le_confirmed (s : State) (i : Nat) : lget s.fwu.minSvn i 0 ≤ lget (confirmedSvns s) i 0 := by
  unfold confirmedSvns
  split
  · exact Nat.le_refl _
  · rename_i m _
    exact lget_confirm (fun i => lget (m.comps.map (·.svn)) i 0) s.fwu.minSvn 0 i

theorem keeps_raiseMin {a s : State} {w : Fwu} (e : w.minSvn = confirmedSvns s) (h : Keeps a s) : Keeps a { s with fwu := w } :=
  ⟨h.1, h.2.1, fun i => Nat.le_trans (h.2.2 i) (by show _ ≤ lget w.minSvn i 0; rw [e]; exact minSvn_le_confirmed s i)⟩

theorem keeps_specFwuConfirm {a : State} (r : Req) (p : Bytes) (s : State) (h : Keeps a s) : Keeps a (specFwuConfirm.run r p s) := by
  unfold specFwuConfirm
  dsimp only
  exact keeps_finishOk _ _ _ _ (keeps_sealRaised _ _ (keeps_writeNewest _ _ (keeps_raise _ _ _ (keeps_raiseMin rfl h))))

theorem keeps_execCmdFwuConfirm {a : State} (r : Req) (s : State) (h : Keeps a s) : Goes a (execCmdFwuConfirm r s) :=
  goes_next (keeps_runCmd keeps_specFwuConfirm r h)

theorem keeps_specFwuClose {a : State} (r : Req) (p : Bytes) (s : State) (h : Keeps a s) : Keeps a (specFwuClose.run r p s) := by
  unfold specFwuClose; dsimp only
  repeat' first
     | (intro x; first | (have hx : Keeps a x := by (unfold x; repeat' first | with_reducible assumption | with_reducible apply keeps_finishOk | with_reducible apply keeps_setFwu | with_reducible apply keeps_stopBuild | split)); clear_value x | (have _ : HostIf := x) | (have _ : Keys := x) | (have _ : Fwu := x) | clear_value x | skip)
     | with_reducible assumption | with_reducible apply keeps_finishOk | with_reducible apply keeps_setFwu
     | with_reducible apply keeps_stopBuild | rfl | (show (_ : List Nat) = _; rfl) | split | lift_lets

theorem keeps_execCmdFwuClose {a : State} (r : Req) (s : State) (h : Keeps a s) : Goes a (execCmdFwuClose r s) :=
  goes_next (keeps_runCmd keeps_specFwuClose r h)

theorem keeps_specFwuStatus {a : State} (r : Req) (p : Bytes) (s : State) (h : Keeps a s) : Keeps a (specFwuStatus.run r p s) := by
  unfold specFwuStatus; dsimp only
  repeat' first
     | (intro x; first | (have hx : Keeps a x := by (unfold x; repeat' first | with_reducible assumption | with_reducible apply keeps_finishOk | split)); clear_value x | (have _ : HostIf := x) | (have _ : Keys := x) | (have _ : Fwu := x) | clear_value x | skip)
     | with_reducible assumption | with_reducible apply keeps_finishOk | split | lift_lets

theorem keeps_execCmdFwuStatus {a : State} (r : Req) (s : State) (h : Keeps a s) : Goes a (execCmdFwuStatus r s) :=
  goes_next (keeps_runCmd keeps_specFwuStatus r h)

end Sys2Proof.Laws
end

