-- ==== Sys2Proof/Laws/KeepsTransport.lean ====
section
/-! SUPPORT. Laws/KeepsTransport.lean: what each operation of Machine/Transport.lean keeps (Laws/Keeps.lean). -/

namespace Sys2Proof.Laws

set_option linter.all false

open Sys2Proof.Machine

theorem keeps_acceptReq {a : State} (w : Waiting) (s : State) (h : Keeps a s) : Keeps a (acceptReq w s) := ⟨h.1, h.2⟩

theorem keeps_rejectEvent {a : State} (slot : Nat) (port : Nat) (status : Nat) (s : State) (h : Keeps a s) : Keeps a (rejectEvent slot port status s) := by
  unfold rejectEvent
  repeat' first | exact ⟨h.1, h.2⟩ | assumption | with_reducible apply keeps_raise | split

theorem keeps_checkSlot {a : State} (n : Fin 64) (s : State) (h : Keeps a s) : Keeps a (checkSlot n s) := by
  unfold checkSlot
  with_reducible repeat' first
     | (intro x; first | (have hx : Keeps a x := by (unfold x; repeat' first | assumption | apply keeps_slotRespond | apply keeps_emit | apply keeps_rejectEvent | apply keeps_acceptReq | apply keeps_setSlot | split)); clear_value x | (have _ : HostIf := x) | (have _ : Keys := x) | (have _ : Fwu := x) | clear_value x | skip)
     | assumption | apply keeps_slotRespond | apply keeps_emit | apply keeps_rejectEvent | apply keeps_acceptReq
     | apply keeps_setSlot | split | lift_lets

theorem keeps_ringDoorbell {a : State} (v : W32) (s : State) (h : Keeps a s) : Keeps a (ringDoorbell v s) := by
  unfold ringDoorbell
  with_reducible repeat' first
     | (intro x; first | (have hx : Keeps a x := by (unfold x; repeat' first | assumption | apply keeps_checkSlot | apply keeps_rejectEvent | split)); clear_value x | (have _ : HostIf := x) | (have _ : Keys := x) | (have _ : Fwu := x) | clear_value x | skip)
     | assumption | apply keeps_checkSlot | apply keeps_rejectEvent | split | lift_lets

theorem keeps_execHifDoorbell {a : State} (v : W32) (s : State) (h : Keeps a s) : Goes a (execHifDoorbell v s) := by
  unfold execHifDoorbell
  (try intro x)
  apply goes_next
  repeat' first
     | (intro x; first | (have hx : Keeps a x := by (unfold x; repeat' first | with_reducible assumption | with_reducible apply keeps_ownWrite | with_reducible apply keeps_ringDoorbell | split)); clear_value x | (have _ : HostIf := x) | (have _ : Keys := x) | (have _ : Fwu := x) | clear_value x | skip)
     | with_reducible assumption | with_reducible apply keeps_ownWrite | with_reducible apply keeps_ringDoorbell | split
     | lift_lets

theorem keeps_dropBar2 {a : State} (off : Nat) (cause : Nat) (write : Bool) (s : State) (h : Keeps a s) : Keeps a (dropBar2 off cause write s) := by
  unfold dropBar2
  repeat' first | with_reducible assumption | with_reducible apply keeps_raiseAccess | with_reducible apply keeps_rcAdd | split

theorem slotWrite_wf (off : Nat) (be : BitVec 4) (v : W32) (n : Nat) {m : List Host.Cell} (w : Memory.wf m) :
    Memory.wf (slotWrite off be v n m) := by
  induction n with
  | zero => exact w
  | succ n ih =>
    unfold slotWrite
    dsimp only
    split
    · exact memWrite_wf _ _ ih
    · exact ih

theorem keeps_slotWrite {a s : State} (off : Nat) (be : BitVec 4) (v : W32) (n : Nat) (h : Keeps a s) :
    Keeps a { s with host := { s.host with mem := slotWrite off be v n s.host.mem } } :=
  ⟨fun w => slotWrite_wf off be v n (h.1 w), h.2⟩

theorem keeps_bar2Write {a : State} (off : Nat) (be : BitVec 4) (v : W32) (s : State) (h : Keeps a s) : Keeps a (bar2Write off be v s) := by
  unfold bar2Write
  split
  · exact h
  · split
    · dsimp only
      split
      · exact keeps_dropBar2 _ _ _ _ (keeps_takeFree_eq rfl h)
      · exact keeps_slotWrite _ _ _ _ h
    · split
      · exact h
      · exact keeps_dropBar2 _ _ _ _ h

theorem keeps_bar2Read {a : State} (off : Nat) (be : BitVec 4) (s : State) (h : Keeps a s) : Keeps a (bar2Read off be s) := by
  unfold bar2Read
  repeat' first | exact ⟨h.1, h.2⟩ | assumption | with_reducible apply keeps_emit | with_reducible apply keeps_dropBar2 | split

theorem keeps_execBar2Access {a : State} (write : Bool) (offset : Nat) (be : BitVec 4) (v : W32) (s : State) (h : Keeps a s) : Goes a (execBar2Access write offset be v s) := by
  unfold execBar2Access
  (try intro x)
  apply goes_next
  repeat' first
     | (intro x; first | (have hx : Keeps a x := by (unfold x; repeat' first | with_reducible assumption | with_reducible apply keeps_bar2Write | with_reducible apply keeps_bar2Read | split)); clear_value x | (have _ : HostIf := x) | (have _ : Keys := x) | (have _ : Fwu := x) | clear_value x | skip)
     | with_reducible assumption | with_reducible apply keeps_bar2Write | with_reducible apply keeps_bar2Read | split
     | lift_lets

theorem keeps_idleSlots {a : State} (s : State) (h : Keeps a s) : Keeps a (idleSlots s) := ⟨h.1, h.2⟩

theorem keeps_execHostLinkDown {a : State} (kind : LinkDownKind) (s : State) (h : Keeps a s) : Goes a (execHostLinkDown kind s) := by
  unfold execHostLinkDown
  (try intro x)
  apply goes_next
  repeat' first
     | (intro x; first | (have hx : Keeps a x := by (unfold x; repeat' first | with_reducible assumption | with_reducible apply keeps_idleSlots | with_reducible apply keeps_raise | split)); clear_value x | (have _ : HostIf := x) | (have _ : Keys := x) | (have _ : Fwu := x) | clear_value x | skip)
     | with_reducible assumption | with_reducible apply keeps_idleSlots | with_reducible apply keeps_raise | split | lift_lets

theorem keeps_execHostLinkUp {a : State} (s : State) (h : Keeps a s) : Goes a (execHostLinkUp s) := by
  unfold execHostLinkUp
  (try intro x)
  apply goes_next
  repeat' first
     | (intro x; first | (have hx : Keeps a x := by (unfold x; repeat' first | with_reducible assumption | with_reducible apply keeps_raise | split)); clear_value x | (have _ : HostIf := x) | (have _ : Keys := x) | (have _ : Fwu := x) | clear_value x | skip)
     | with_reducible assumption | with_reducible apply keeps_raise | split | lift_lets

theorem keeps_fragError {a : State} (cause : Nat) (s : State) (h : Keeps a s) : Keeps a (fragError cause s) := by
  unfold fragError
  repeat' first | exact ⟨h.1, h.2⟩ | assumption | with_reducible apply keeps_raise | with_reducible apply keeps_rcAdd | split

theorem keeps_abandon {a : State} (cause : Nat) (s : State) (h : Keeps a s) : Keeps a (abandon cause s) := by
  induction cause generalizing s with
  | zero =>
    unfold abandon
    repeat' first
       | (intro x; first | (have hx : Keeps a x := by (unfold x; repeat' first | with_reducible assumption | with_reducible apply keeps_fragError | split)); clear_value x | (have _ : HostIf := x) | (have _ : Keys := x) | (have _ : Fwu := x) | clear_value x | skip)
       | with_reducible assumption | with_reducible apply keeps_fragError | split | lift_lets
  | succ x ih =>
    unfold abandon
    repeat' first
       | (intro x; first | (have hx : Keeps a x := by (unfold x; repeat' first | with_reducible assumption | with_reducible apply keeps_fragError | with_reducible apply ih | split)); clear_value x | (have _ : HostIf := x) | (have _ : Keys := x) | (have _ : Fwu := x) | clear_value x | skip)
       | with_reducible assumption | with_reducible apply keeps_fragError | with_reducible apply ih | split | lift_lets

theorem keeps_sbComplete {a : State} (s : State) (h : Keeps a s) : Keeps a (sbComplete s) := by
  unfold sbComplete
  with_reducible repeat' first
     | (intro x; first | (have hx : Keeps a x := by (unfold x; repeat' first | assumption | apply keeps_abandon | apply keeps_sbRespond | apply keeps_emit | apply keeps_rejectEvent | apply keeps_acceptReq | split)); clear_value x | (have _ : HostIf := x) | (have _ : Keys := x) | (have _ : Fwu := x) | clear_value x | skip)
     | assumption | apply keeps_abandon | apply keeps_sbRespond | apply keeps_emit | apply keeps_rejectEvent
     | apply keeps_acceptReq | split | lift_lets

theorem keeps_takeFragment {a : State} (last : Bool) (offset : Nat) (data : Bytes) (s : State) (h : Keeps a s) : Keeps a (takeFragment last offset data s) := by
  unfold takeFragment
  with_reducible repeat' first
     | (intro x; first | (have hx : Keeps a x := by (unfold x; repeat' first | assumption | apply keeps_abandon | apply keeps_sbComplete | split)); clear_value x | (have _ : HostIf := x) | (have _ : Keys := x) | (have _ : Fwu := x) | clear_value x | skip)
     | assumption | apply keeps_abandon | apply keeps_sbComplete | split | lift_lets

theorem keeps_fragment {a : State} (flags : Byte) (offset : Nat) (data : Bytes) (s : State) (h : Keeps a s) : Keeps a (fragment flags offset data s) := by
  induction offset generalizing s with
  | zero =>
    unfold fragment
    repeat' first
       | (intro x; first | (have hx : Keeps a x := by (unfold x; repeat' first | with_reducible assumption | with_reducible apply keeps_fragError | with_reducible apply keeps_takeFragment | with_reducible apply keeps_abandon | split)); clear_value x | (have _ : HostIf := x) | (have _ : Keys := x) | (have _ : Fwu := x) | clear_value x | skip)
       | with_reducible assumption | with_reducible apply keeps_fragError | with_reducible apply keeps_takeFragment
       | with_reducible apply keeps_abandon | split | lift_lets
  | succ x ih =>
    unfold fragment
    repeat' first
       | (intro x; first | (have hx : Keeps a x := by (unfold x; repeat' first | with_reducible assumption | with_reducible apply keeps_fragError | with_reducible apply keeps_takeFragment | with_reducible apply keeps_abandon | with_reducible apply ih | split)); clear_value x | (have _ : HostIf := x) | (have _ : Keys := x) | (have _ : Fwu := x) | clear_value x | skip)
       | with_reducible assumption | with_reducible apply keeps_fragError | with_reducible apply keeps_takeFragment
       | with_reducible apply keeps_abandon | with_reducible apply ih | split | lift_lets

theorem keeps_execFragWrite {a : State} (flags : Byte) (offset : W16) (data : Bytes) (pecOk : Bool) (s : State) (h : Keeps a s) : Goes a (execFragWrite flags offset data pecOk s) := by
  unfold execFragWrite
  (try intro x)
  apply goes_next
  repeat' first
     | (intro x; first | (have hx : Keeps a x := by (unfold x; repeat' first | with_reducible assumption | with_reducible apply keeps_fragment | with_reducible apply keeps_emit | with_reducible apply keeps_raise | with_reducible apply keeps_rcAdd | split)); clear_value x | (have _ : HostIf := x) | (have _ : Keys := x) | (have _ : Fwu := x) | clear_value x | skip)
     | with_reducible assumption | with_reducible apply keeps_fragment | with_reducible apply keeps_emit
     | with_reducible apply keeps_raise | with_reducible apply keeps_rcAdd | split | lift_lets

theorem keeps_execFragRead {a : State} (offset : W16) (_pecOk : Bool) (s : State) (h : Keeps a s) : Goes a (execFragRead offset _pecOk s) := by
  unfold execFragRead
  (try intro x)
  apply goes_next
  repeat' first
     | (intro x; first | (have hx : Keeps a x := by (unfold x; repeat' first | with_reducible assumption | with_reducible apply keeps_emit | split)); clear_value x | (have _ : HostIf := x) | (have _ : Keys := x) | (have _ : Fwu := x) | clear_value x | skip)
     | with_reducible assumption | with_reducible apply keeps_emit | split | lift_lets

theorem keeps_execSbStatus {a : State} (s : State) (h : Keeps a s) : Goes a (execSbStatus s) := by
  unfold execSbStatus
  (try intro x)
  apply goes_next
  repeat' first
     | (intro x; first | (have hx : Keeps a x := by (unfold x; repeat' first | with_reducible assumption | with_reducible apply keeps_emit | split)); clear_value x | (have _ : HostIf := x) | (have _ : Keys := x) | (have _ : Fwu := x) | clear_value x | skip)
     | with_reducible assumption | with_reducible apply keeps_emit | split | lift_lets

theorem keeps_execSbmReassemblyTimeout {a : State} (s : State) (h : Keeps a s) : Goes a (execSbmReassemblyTimeout s) := by
  unfold execSbmReassemblyTimeout
  (try intro x)
  apply goes_next
  repeat' first
     | (intro x; first | (have hx : Keeps a x := by (unfold x; repeat' first | with_reducible assumption | with_reducible apply keeps_abandon | split)); clear_value x | (have _ : HostIf := x) | (have _ : Keys := x) | (have _ : Fwu := x) | clear_value x | skip)
     | with_reducible assumption | with_reducible apply keeps_abandon | split | lift_lets

theorem keeps_execAlertResponseRead {a : State} (s : State) (h : Keeps a s) : Goes a (execAlertResponseRead s) := by
  unfold execAlertResponseRead
  (try intro x)
  apply goes_next
  repeat' first
     | (intro x; first | (have hx : Keeps a x := by (unfold x; repeat' first | with_reducible assumption | with_reducible apply keeps_emit | split)); clear_value x | (have _ : HostIf := x) | (have _ : Keys := x) | (have _ : Fwu := x) | clear_value x | skip)
     | with_reducible assumption | with_reducible apply keeps_emit | split | lift_lets

end Sys2Proof.Laws
end

