-- ==== Sys2Proof/Laws/KeepsRegWrite.lean ====
section
/-! SUPPORT. Laws/KeepsRegWrite.lean: what each operation of Machine/RegWrite.lean keeps (Laws/Keeps.lean). -/

namespace Sys2Proof.Laws

set_option linter.all false

open Sys2Proof.Machine

theorem keeps_resignAll {a : State} (y0 : List Block) (y1 : State) (h : Keeps a y1) : Keeps a (resignAll y0 y1) := by
  induction y0 generalizing y1 with
  | nil =>
    unfold resignAll
    repeat' first
       | (intro x; first | (have hx : Keeps a x := by (unfold x; repeat' first | with_reducible assumption | with_reducible apply keeps_resign | split)); clear_value x | (have _ : HostIf := x) | (have _ : Keys := x) | (have _ : Fwu := x) | clear_value x | skip)
       | with_reducible assumption | with_reducible apply keeps_resign | split | lift_lets
  | cons x r ih =>
    unfold resignAll
    repeat' first
       | (intro x; first | (have hx : Keeps a x := by (unfold x; repeat' first | with_reducible assumption | with_reducible apply keeps_resign | with_reducible apply ih | split)); clear_value x | (have _ : HostIf := x) | (have _ : Keys := x) | (have _ : Fwu := x) | clear_value x | skip)
       | with_reducible assumption | with_reducible apply keeps_resign | with_reducible apply ih | split | lift_lets

theorem keeps_sendVectors {a : State} (y0 : List Nat) (y1 : State) (h : Keeps a y1) : Keeps a (sendVectors y0 y1) := by
  induction y0 generalizing y1 with
  | nil =>
    unfold sendVectors
    repeat' first
       | (intro x; first | (have hx : Keeps a x := by (unfold x; repeat' first | with_reducible assumption | with_reducible apply keeps_sendVector | split)); clear_value x | (have _ : HostIf := x) | (have _ : Keys := x) | (have _ : Fwu := x) | clear_value x | skip)
       | with_reducible assumption | with_reducible apply keeps_sendVector | split | lift_lets
  | cons x r ih =>
    unfold sendVectors
    repeat' first
       | (intro x; first | (have hx : Keeps a x := by (unfold x; repeat' first | with_reducible assumption | with_reducible apply keeps_sendVector | with_reducible apply ih | split)); clear_value x | (have _ : HostIf := x) | (have _ : Keys := x) | (have _ : Fwu := x) | clear_value x | skip)
       | with_reducible assumption | with_reducible apply keeps_sendVector | with_reducible apply ih | split | lift_lets

theorem keeps_openMessages {a : State} (s : State) (h : Keeps a s) : Keeps a (openMessages s) := by
  unfold openMessages
  repeat' first | exact ⟨h.1, h.2⟩ | assumption | with_reducible apply keeps_sendVectors | split

theorem keeps_sigOff {a : State} (s : State) (h : Keeps a s) : Keeps a (sigOff s) := by
  unfold sigOff
  repeat' first | exact ⟨h.1, h.2⟩ | assumption | with_reducible apply keeps_raise | split

theorem keeps_sigOn {a : State} (s : State) (h : Keeps a s) : Keeps a (sigOn s) := by
  unfold sigOn
  repeat' first | with_reducible assumption | with_reducible apply keeps_resignAll | with_reducible apply keeps_raise | split

theorem keeps_applyHifCtrl {a : State} (p : Port) (v : W32) (s : State) (h : Keeps a s) : Keeps a (applyHifCtrl p v s) := by
  unfold applyHifCtrl
  with_reducible repeat' first
     | (intro x; first | (have hx : Keeps a x := by (unfold x; repeat' first | assumption | apply keeps_dropAccess | apply keeps_cfgSet | apply keeps_sigOff | apply keeps_sigOn | apply keeps_openMessages | split)); clear_value x | (have _ : HostIf := x) | (have _ : Keys := x) | (have _ : Fwu := x) | clear_value x | skip)
     | assumption | apply keeps_dropAccess | apply keeps_cfgSet | apply keeps_sigOff | apply keeps_sigOn
     | apply keeps_openMessages | split | lift_lets

theorem keeps_applyLock {a : State} (off : Nat) (v : W32) (s : State) (h : Keeps a s) : Keeps a (applyLock off v s) := by
  unfold applyLock
  with_reducible repeat' first
     | (intro x; first | (have hx : Keeps a x := by (unfold x; repeat' first | assumption | apply keeps_raise | apply keeps_cfgSet | split)); clear_value x | (have _ : HostIf := x) | (have _ : Keys := x) | (have _ : Fwu := x) | clear_value x | skip)
     | assumption | apply keeps_raise | apply keeps_cfgSet | split | lift_lets

theorem keeps_applyEvtPend {a : State} (n : Nat) (v : W32) (s : State) (h : Keeps a s) : Keeps a (applyEvtPend n v s) := ⟨h.1, h.2⟩

theorem keeps_applyRoute {a : State} (off : Nat) (v : W32) (s : State) (h : Keeps a s) : Keeps a (applyRoute off v s) := by
  unfold applyRoute
  repeat' first | with_reducible assumption | with_reducible apply keeps_alertSettle | with_reducible apply keeps_cfgSet | split

theorem keeps_applyCmpl {a : State} (hi : Bool) (v : W32) (s : State) (h : Keeps a s) : Keeps a (applyCmpl hi v s) := ⟨h.1, h.2⟩

theorem keeps_applyMsix {a : State} (off : Nat) (v : W32) (s : State) (h : Keeps a s) : Keeps a (applyMsix off v s) := by
  unfold applyMsix
  with_reducible repeat' first
     | (intro x; first | (have hx : Keeps a x := by (unfold x; repeat' first | assumption | apply keeps_cfgSet | apply keeps_msixSend | split)); clear_value x | (have _ : HostIf := x) | (have _ : Keys := x) | (have _ : Fwu := x) | clear_value x | skip)
     | assumption | apply keeps_cfgSet | apply keeps_msixSend | split | lift_lets

theorem keeps_applySbmCtrl {a : State} (v : W32) (s : State) (h : Keeps a s) : Keeps a (applySbmCtrl v s) := by
  unfold applySbmCtrl
  with_reducible repeat' first
     | (intro x; first | (have hx : Keeps a x := by (unfold x; repeat' first | assumption | apply keeps_cfgSet | apply keeps_alertSettle | split)); clear_value x | (have _ : HostIf := x) | (have _ : Keys := x) | (have _ : Fwu := x) | clear_value x | skip)
     | assumption | apply keeps_cfgSet | apply keeps_alertSettle | split | lift_lets

theorem keeps_applyPairCtrl {a : State} (v : W32) (s : State) (h : Keeps a s) : Keeps a (applyPairCtrl v s) := by
  unfold applyPairCtrl
  with_reducible repeat' first
     | (intro x; first | (have hx : Keeps a x := by (unfold x; repeat' first | assumption | apply keeps_cfgSet | apply keeps_raise | split)); clear_value x | (have _ : HostIf := x) | (have _ : Keys := x) | (have _ : Fwu := x) | clear_value x | skip)
     | assumption | apply keeps_cfgSet | apply keeps_raise | split | lift_lets

theorem keeps_applyBgt {a : State} (off : Nat) (v : W32) (s : State) (h : Keeps a s) : Keeps a (applyBgt off v s) := by
  unfold applyBgt
  with_reducible repeat' first
     | (intro x; first | (have hx : Keeps a x := by (unfold x; repeat' first | assumption | apply keeps_settleCfgErr | apply keeps_cfgSet | split)); clear_value x | (have _ : HostIf := x) | (have _ : Keys := x) | (have _ : Fwu := x) | clear_value x | skip)
     | assumption | apply keeps_settleCfgErr | apply keeps_cfgSet | split | lift_lets

theorem keeps_applyCan {a : State} (n : Nat) (k : Nat) (off : Nat) (v : W32) (s : State) (h : Keeps a s) : Keeps a (applyCan n k off v s) := by
  unfold applyCan
  with_reducible repeat' first
     | (intro x; first | (have hx : Keeps a x := by (unfold x; repeat' first | assumption | apply keeps_applyCanWindow | apply keeps_applyCanCtrl | apply keeps_applyCanTiming | apply keeps_clearNd | apply keeps_requestHost | apply keeps_cancelBufs | split)); clear_value x | (have _ : HostIf := x) | (have _ : Keys := x) | (have _ : Fwu := x) | clear_value x | skip)
     | assumption | apply keeps_applyCanWindow | apply keeps_applyCanCtrl | apply keeps_applyCanTiming | apply keeps_clearNd
     | apply keeps_requestHost | apply keeps_cancelBufs | split | lift_lets

theorem keeps_applyIn {a : State} (p : Port) (base : Nat) (off : Nat) (v : W32) (s : State) (h : Keeps a s) : Keeps a (applyIn p base off v s) := by
  unfold applyIn
  with_reducible repeat' first
     | (intro x; first | (have hx : Keeps a x := by (unfold x; repeat' first | assumption | apply keeps_applyHifCtrl | apply keeps_ringDoorbell | apply keeps_applyCmpl | apply keeps_applyEvtPend | apply keeps_cfgSet | apply keeps_applyRoute | apply keeps_applyBgt | apply keeps_solCtrl | apply keeps_applyPtpCtrl | apply keeps_applyRtcFlags | apply keeps_applyRtc | apply keeps_applyRecSeek | apply keeps_applyPairCtrl | apply keeps_applySbmCtrl | apply keeps_applyCan | apply keeps_applyMsix | split)); clear_value x | (have _ : HostIf := x) | (have _ : Keys := x) | (have _ : Fwu := x) | clear_value x | skip)
     | assumption | apply keeps_applyHifCtrl | apply keeps_ringDoorbell | apply keeps_applyCmpl | apply keeps_applyEvtPend
     | apply keeps_cfgSet | apply keeps_applyRoute | apply keeps_applyBgt | apply keeps_solCtrl | apply keeps_applyPtpCtrl
     | apply keeps_applyRtcFlags | apply keeps_applyRtc | apply keeps_applyRecSeek | apply keeps_applyPairCtrl
     | apply keeps_applySbmCtrl | apply keeps_applyCan | apply keeps_applyMsix | split | lift_lets

theorem keeps_applyReg {a : State} (p : Port) (off : Nat) (v : W32) (s : State) (h : Keeps a s) : Keeps a (applyReg p off v s) := by
  unfold applyReg
  repeat' first | with_reducible assumption | with_reducible apply keeps_applyLock | with_reducible apply keeps_applyIn | split

theorem keeps_applyDws {a : State} (p : Port) (y1 : List (Nat × W32)) (y2 : State) (h : Keeps a y2) : Keeps a (applyDws p y1 y2) := by
  induction y1 generalizing y2 with
  | nil =>
    unfold applyDws
    repeat' first
       | (intro x; first | (have hx : Keeps a x := by (unfold x; repeat' first | with_reducible assumption | with_reducible apply keeps_applyReg | split)); clear_value x | (have _ : HostIf := x) | (have _ : Keys := x) | (have _ : Fwu := x) | clear_value x | skip)
       | with_reducible assumption | with_reducible apply keeps_applyReg | split | lift_lets
  | cons x r ih =>
    unfold applyDws
    repeat' first
       | (intro x; first | (have hx : Keeps a x := by (unfold x; repeat' first | with_reducible assumption | with_reducible apply keeps_applyReg | with_reducible apply ih | split)); clear_value x | (have _ : HostIf := x) | (have _ : Keys := x) | (have _ : Fwu := x) | clear_value x | skip)
       | with_reducible assumption | with_reducible apply keeps_applyReg | with_reducible apply ih | split | lift_lets

theorem keeps_judgeDws {a : State} (p : Port) (busy : Bool) (l : List (Nat × BitVec 4 × W32)) (s : State) (h : Keeps a s) :
    Keeps a (judgeDws p busy l s).2 := by
  induction l generalizing s with
  | nil => exact h
  | cons x r ih =>
    obtain ⟨off, be, v⟩ := x
    unfold judgeDws
    split
    · exact ih s h
    · exact ih _ (keeps_dropAccess _ _ _ _ _ h)
    · exact ih s h

theorem keeps_postWrite {a : State} (p : Port) (b : Block) (l : List (Nat × W32)) (s : State) (h : Keeps a s) : Keeps a (postWrite p b l s) := by
  unfold postWrite
  repeat' first | exact ⟨h.1, h.2⟩ | assumption | with_reducible apply keeps_reachBrick | split

theorem keeps_postDws {a : State} (p : Port) (b : Block) (l : List (Nat × BitVec 4 × W32)) (s : State) (h : Keeps a s) :
    Keeps a (postDws p b l s) :=
  keeps_postWrite _ _ _ _ (keeps_judgeDws _ _ _ _ h)

theorem keeps_writeDw {a : State} (p : Port) (off : Nat) (be : BitVec 4) (v : W32) (s : State) (h : Keeps a s) : Keeps a (writeDw p off be v s) := by
  unfold writeDw
  with_reducible repeat' first
     | (intro x; first | (have hx : Keeps a x := by (unfold x; repeat' first | assumption | apply keeps_postDws | apply keeps_dropAccess | apply keeps_applyReg | split)); clear_value x | (have _ : HostIf := x) | (have _ : Keys := x) | (have _ : Fwu := x) | clear_value x | skip)
     | assumption | apply keeps_postDws | apply keeps_dropAccess | apply keeps_applyReg | split | lift_lets

theorem keeps_writeDws {a : State} (p : Port) (off : Nat) (l : List (BitVec 4 × W32)) (s : State) (h : Keeps a s) :
    Keeps a (writeDws p off l s) := by
  induction l generalizing off s with
  | nil => exact h
  | cons x r ih =>
    unfold writeDws
    exact ih _ _ (keeps_writeDw _ _ _ _ _ h)

theorem keeps_writeRequest {a : State} (p : Port) (off : Nat) (dws : List (BitVec 4 × W32)) (s : State) (h : Keeps a s) : Keeps a (writeRequest p off dws s) := by
  unfold writeRequest
  repeat' first | with_reducible assumption | with_reducible apply keeps_postDws | with_reducible apply keeps_writeDws | split

theorem keeps_execRegisterWrite {a : State} (p : Port) (offset : W16) (dws : List (BitVec 4 × W32)) (s : State) (h : Keeps a s) : Goes a (execRegisterWrite p offset dws s) := by
  unfold execRegisterWrite
  (try intro x)
  apply goes_next
  repeat' first
     | (intro x; first | (have hx : Keeps a x := by (unfold x; repeat' first | with_reducible assumption | with_reducible apply keeps_writeRequest | split)); clear_value x | (have _ : HostIf := x) | (have _ : Keys := x) | (have _ : Fwu := x) | clear_value x | skip)
     | with_reducible assumption | with_reducible apply keeps_writeRequest | split | lift_lets

theorem keeps_settlePosted {a : State} (base : Nat) (s : State) (h : Keeps a s) : Keeps a (settlePosted base s) := by
  unfold settlePosted
  with_reducible repeat' first
     | (intro x; first | (have hx : Keeps a x := by (unfold x; repeat' first | assumption | apply keeps_applyDws | split)); clear_value x | (have _ : HostIf := x) | (have _ : Keys := x) | (have _ : Fwu := x) | clear_value x | skip)
     | assumption | apply keeps_applyDws | split | lift_lets

theorem keeps_execPostedWriteApplied {a : State} (base : W16) (s : State) (h : Keeps a s) : Goes a (execPostedWriteApplied base s) := by
  unfold execPostedWriteApplied
  (try intro x)
  apply goes_next
  repeat' first
     | (intro x; first | (have hx : Keeps a x := by (unfold x; repeat' first | with_reducible assumption | with_reducible apply keeps_settlePosted | split)); clear_value x | (have _ : HostIf := x) | (have _ : Keys := x) | (have _ : Fwu := x) | clear_value x | skip)
     | with_reducible assumption | with_reducible apply keeps_settlePosted | split | lift_lets

theorem keeps_execSigEnClear {a : State} (p : Port) (v : W32) (s : State) (h : Keeps a s) : Goes a (execSigEnClear p v s) := by
  unfold execSigEnClear
  (try intro x)
  apply goes_next
  repeat' first
     | (intro x; first | (have hx : Keeps a x := by (unfold x; repeat' first | with_reducible assumption | with_reducible apply keeps_ownWrite | with_reducible apply keeps_applyHifCtrl | split)); clear_value x | (have _ : HostIf := x) | (have _ : Keys := x) | (have _ : Fwu := x) | clear_value x | skip)
     | with_reducible assumption | with_reducible apply keeps_ownWrite | with_reducible apply keeps_applyHifCtrl | split
     | lift_lets

theorem keeps_execSigEnSet {a : State} (p : Port) (v : W32) (s : State) (h : Keeps a s) : Goes a (execSigEnSet p v s) := by
  unfold execSigEnSet
  (try intro x)
  apply goes_next
  repeat' first
     | (intro x; first | (have hx : Keeps a x := by (unfold x; repeat' first | with_reducible assumption | with_reducible apply keeps_ownWrite | with_reducible apply keeps_applyHifCtrl | split)); clear_value x | (have _ : HostIf := x) | (have _ : Keys := x) | (have _ : Fwu := x) | clear_value x | skip)
     | with_reducible assumption | with_reducible apply keeps_ownWrite | with_reducible apply keeps_applyHifCtrl | split
     | lift_lets

theorem keeps_execEvtMsgEnSet {a : State} (p : Port) (v : W32) (s : State) (h : Keeps a s) : Goes a (execEvtMsgEnSet p v s) := by
  unfold execEvtMsgEnSet
  (try intro x)
  apply goes_next
  repeat' first
     | (intro x; first | (have hx : Keeps a x := by (unfold x; repeat' first | with_reducible assumption | with_reducible apply keeps_ownWrite | with_reducible apply keeps_applyHifCtrl | split)); clear_value x | (have _ : HostIf := x) | (have _ : Keys := x) | (have _ : Fwu := x) | clear_value x | skip)
     | with_reducible assumption | with_reducible apply keeps_ownWrite | with_reducible apply keeps_applyHifCtrl | split
     | lift_lets

theorem keeps_execLockBitSet {a : State} (p : Port) (offset : W16) (v : W32) (s : State) (h : Keeps a s) : Goes a (execLockBitSet p offset v s) := by
  unfold execLockBitSet
  (try intro x)
  apply goes_next
  repeat' first
     | (intro x; first | (have hx : Keeps a x := by (unfold x; repeat' first | with_reducible assumption | with_reducible apply keeps_ownWrite | with_reducible apply keeps_applyLock | split)); clear_value x | (have _ : HostIf := x) | (have _ : Keys := x) | (have _ : Fwu := x) | clear_value x | skip)
     | with_reducible assumption | with_reducible apply keeps_ownWrite | with_reducible apply keeps_applyLock | split
     | lift_lets

theorem keeps_execEvtPendClear {a : State} (p : Port) (n : Fin 8) (v : W32) (s : State) (h : Keeps a s) : Goes a (execEvtPendClear p n v s) := by
  unfold execEvtPendClear
  (try intro x)
  apply goes_next
  repeat' first
     | (intro x; first | (have hx : Keeps a x := by (unfold x; repeat' first | with_reducible assumption | with_reducible apply keeps_ownWrite | with_reducible apply keeps_applyEvtPend | split)); clear_value x | (have _ : HostIf := x) | (have _ : Keys := x) | (have _ : Fwu := x) | clear_value x | skip)
     | with_reducible assumption | with_reducible apply keeps_ownWrite | with_reducible apply keeps_applyEvtPend | split
     | lift_lets

theorem keeps_execHifCmplClear {a : State} (p : Port) (hi : Bool) (v : W32) (s : State) (h : Keeps a s) : Goes a (execHifCmplClear p hi v s) := by
  unfold execHifCmplClear
  (try intro x)
  apply goes_next
  repeat' first
     | (intro x; first | (have hx : Keeps a x := by (unfold x; repeat' first | with_reducible assumption | with_reducible apply keeps_ownWrite | with_reducible apply keeps_applyCmpl | split)); clear_value x | (have _ : HostIf := x) | (have _ : Keys := x) | (have _ : Fwu := x) | clear_value x | skip)
     | with_reducible assumption | with_reducible apply keeps_ownWrite | with_reducible apply keeps_applyCmpl | split
     | lift_lets

theorem keeps_execEvtRouteWrite {a : State} (p : Port) (n : Fin 256) (v : W32) (s : State) (h : Keeps a s) : Goes a (execEvtRouteWrite p n v s) := by
  unfold execEvtRouteWrite
  (try intro x)
  apply goes_next
  repeat' first
     | (intro x; first | (have hx : Keeps a x := by (unfold x; repeat' first | with_reducible assumption | with_reducible apply keeps_ownWrite | with_reducible apply keeps_applyRoute | split)); clear_value x | (have _ : HostIf := x) | (have _ : Keys := x) | (have _ : Fwu := x) | clear_value x | skip)
     | with_reducible assumption | with_reducible apply keeps_ownWrite | with_reducible apply keeps_applyRoute | split
     | lift_lets

theorem keeps_execLoopCtrlRun {a : State} (p : Port) (v : W32) (s : State) (h : Keeps a s) : Goes a (execLoopCtrlRun p v s) := by
  unfold execLoopCtrlRun
  (try intro x)
  apply goes_next
  repeat' first
     | (intro x; first | (have hx : Keeps a x := by (unfold x; repeat' first | with_reducible assumption | with_reducible apply keeps_ownWrite | with_reducible apply keeps_cfgSet | split)); clear_value x | (have _ : HostIf := x) | (have _ : Keys := x) | (have _ : Fwu := x) | clear_value x | skip)
     | with_reducible assumption | with_reducible apply keeps_ownWrite | with_reducible apply keeps_cfgSet | split | lift_lets

theorem keeps_execPairCtrlWrite {a : State} (p : Port) (v : W32) (s : State) (h : Keeps a s) : Goes a (execPairCtrlWrite p v s) := by
  unfold execPairCtrlWrite
  (try intro x)
  apply goes_next
  repeat' first
     | (intro x; first | (have hx : Keeps a x := by (unfold x; repeat' first | with_reducible assumption | with_reducible apply keeps_ownWrite | with_reducible apply keeps_applyPairCtrl | split)); clear_value x | (have _ : HostIf := x) | (have _ : Keys := x) | (have _ : Fwu := x) | clear_value x | skip)
     | with_reducible assumption | with_reducible apply keeps_ownWrite | with_reducible apply keeps_applyPairCtrl | split
     | lift_lets

theorem keeps_specEcho {a : State} (r : Req) (p : Bytes) (s : State) (h : Keeps a s) : Keeps a (specEcho.run r p s) := by
  unfold specEcho; dsimp only
  repeat' first
     | (intro x; first | (have hx : Keeps a x := by (unfold x; repeat' first | with_reducible assumption | with_reducible apply keeps_finishOk | split)); clear_value x | (have _ : HostIf := x) | (have _ : Keys := x) | (have _ : Fwu := x) | clear_value x | skip)
     | with_reducible assumption | with_reducible apply keeps_finishOk | split | lift_lets

theorem keeps_execCmdEcho {a : State} (r : Req) (s : State) (h : Keeps a s) : Goes a (execCmdEcho r s) :=
  goes_next (keeps_runCmd keeps_specEcho r h)

theorem keeps_specDeviceInfo {a : State} (r : Req) (p : Bytes) (s : State) (h : Keeps a s) : Keeps a (specDeviceInfo.run r p s) := by
  unfold specDeviceInfo; dsimp only
  repeat' first
     | (intro x; first | (have hx : Keeps a x := by (unfold x; repeat' first | with_reducible assumption | with_reducible apply keeps_finishOk | split)); clear_value x | (have _ : HostIf := x) | (have _ : Keys := x) | (have _ : Fwu := x) | clear_value x | skip)
     | with_reducible assumption | with_reducible apply keeps_finishOk | split | lift_lets

theorem keeps_execCmdDeviceInfo {a : State} (r : Req) (s : State) (h : Keeps a s) : Goes a (execCmdDeviceInfo r s) :=
  goes_next (keeps_runCmd keeps_specDeviceInfo r h)

theorem keeps_readRegs {a : State} (p : Port) (off n : Nat) (s : State) (h : Keeps a s) : Keeps a (readRegs p off n s).2 := by
  induction n generalizing off s with
  | zero => exact h
  | succ n ih =>
    unfold readRegs
    exact ih _ _ (keeps_readDw _ _ _ _ h)

theorem keeps_specRegRead {a : State} (r : Req) (p : Bytes) (s : State) (h : Keeps a s) : Keeps a (specRegRead.run r p s) := by
  unfold specRegRead; dsimp only
  exact keeps_finishOk _ _ _ _ (keeps_readRegs _ _ _ _ h)

theorem keeps_execCmdRegRead {a : State} (r : Req) (s : State) (h : Keeps a s) : Goes a (execCmdRegRead r s) :=
  goes_next (keeps_runCmd keeps_specRegRead r h)

theorem keeps_writeOne {a : State} (p : Port) (off : Nat) (v : W32) (s : State) (h : Keeps a s) : Keeps a (writeOne p off v s).2 := by
  unfold writeOne
  repeat' first
     | (intro x; first | (have hx : Keeps a x := by (unfold x; repeat' first | with_reducible assumption | with_reducible apply keeps_settlePosted | with_reducible apply keeps_dropAccess | with_reducible apply keeps_reachBrick | with_reducible apply keeps_applyReg | split)); clear_value x | (have _ : HostIf := x) | (have _ : Keys := x) | (have _ : Fwu := x) | clear_value x | skip)
     | with_reducible assumption | with_reducible apply keeps_settlePosted | with_reducible apply keeps_dropAccess
     | with_reducible apply keeps_reachBrick | with_reducible apply keeps_applyReg | split | lift_lets

theorem keeps_writeOne_eq {a t : State} {p : Port} {off : Nat} {v : W32} {s : State} {z : _} (e : writeOne p off v s = (z, t)) (h : Keeps a s) : Keeps a t := by
  have k := keeps_writeOne p off v s h
  rw [e] at k; exact k

theorem keeps_writeMany {a : State} (p : Port) (off k : Nat) (l : List Nat) (s : State) (h : Keeps a s) :
    Keeps a (writeMany p off k l s).2.2 := by
  induction l generalizing off k s with
  | nil => exact h
  | cons v r ih =>
    unfold writeMany
    have k := keeps_writeOne p off (BitVec.ofNat 32 v) s h
    split
    · rename_i e
      rw [e] at k
      exact ih _ _ _ k
    · rename_i e
      rw [e] at k
      exact k

theorem keeps_specRegWrite {a : State} (r : Req) (p : Bytes) (s : State) (h : Keeps a s) : Keeps a (specRegWrite.run r p s) := by
  unfold specRegWrite; dsimp only
  have k := keeps_writeMany (originPort r.origin) (getLE p 0 4) 0 ((upto (getLE p 4 2)).map fun i => getLE p (8 + 4 * i) 4) s h
  split
  · rename_i e
    rw [e] at k
    exact keeps_finishOk _ _ _ _ k
  · rename_i e
    rw [e] at k
    exact keeps_finish _ _ _ _ _ _ k

theorem keeps_execCmdRegWrite {a : State} (r : Req) (s : State) (h : Keeps a s) : Goes a (execCmdRegWrite r s) :=
  goes_next (keeps_runCmd keeps_specRegWrite r h)

theorem keeps_specEventRead {a : State} (r : Req) (p : Bytes) (s : State) (h : Keeps a s) : Keeps a (specEventRead.run r p s) := by
  unfold specEventRead; dsimp only
  repeat' first
     | (intro x; first | (have hx : Keeps a x := by (unfold x; repeat' first | with_reducible assumption | with_reducible apply keeps_finishOk | split)); clear_value x | (have _ : HostIf := x) | (have _ : Keys := x) | (have _ : Fwu := x) | clear_value x | skip)
     | with_reducible assumption | with_reducible apply keeps_finishOk | split | lift_lets

theorem keeps_execCmdEventRead {a : State} (r : Req) (s : State) (h : Keeps a s) : Goes a (execCmdEventRead r s) :=
  goes_next (keeps_runCmd keeps_specEventRead r h)

theorem keeps_clearPending {a : State} (p : Port) (mask : BitVec 256) (s : State) (h : Keeps a s) : Keeps a (clearPending p mask s) := by
  unfold clearPending
  repeat' first | exact ⟨h.1, h.2⟩ | assumption | with_reducible apply keeps_alertSettle | split

theorem keeps_specEventClear {a : State} (r : Req) (p : Bytes) (s : State) (h : Keeps a s) : Keeps a (specEventClear.run r p s) := by
  unfold specEventClear; dsimp only
  repeat' first
     | (intro x; first | (have hx : Keeps a x := by (unfold x; repeat' first | with_reducible assumption | with_reducible apply keeps_finishOk | with_reducible apply keeps_clearPending | split)); clear_value x | (have _ : HostIf := x) | (have _ : Keys := x) | (have _ : Fwu := x) | clear_value x | skip)
     | with_reducible assumption | with_reducible apply keeps_finishOk | with_reducible apply keeps_clearPending | split
     | lift_lets

theorem keeps_execCmdEventClear {a : State} (r : Req) (s : State) (h : Keeps a s) : Goes a (execCmdEventClear r s) :=
  goes_next (keeps_runCmd keeps_specEventClear r h)

end Sys2Proof.Laws
end

