-- ==== Sys2Proof/Laws/KeepsStarts.lean ====
section
/-! SUPPORT. Laws/KeepsStarts.lean: what each operation of Machine/Starts.lean keeps (Laws/Keeps.lean). -/

namespace Sys2Proof.Laws

set_option linter.all false

open Sys2Proof.Machine

theorem keeps_changesAt {a : State} (t : Nat) (y1 : List Nat) (y2 : State) (h : Keeps a y2) : Keeps a (changesAt t y1 y2) := by
  induction y1 generalizing y2 with
  | nil =>
    unfold changesAt
    repeat' first
       | (intro x; first | (have hx : Keeps a x := by (unfold x; repeat' first | with_reducible assumption | with_reducible apply keeps_changeProgram | split)); clear_value x | (have _ : HostIf := x) | (have _ : Keys := x) | (have _ : Fwu := x) | clear_value x | skip)
       | with_reducible assumption | with_reducible apply keeps_changeProgram | split | lift_lets
  | cons x r ih =>
    unfold changesAt
    repeat' first
       | (intro x; first | (have hx : Keeps a x := by (unfold x; repeat' first | with_reducible assumption | with_reducible apply keeps_changeProgram | with_reducible apply ih | split)); clear_value x | (have _ : HostIf := x) | (have _ : Keys := x) | (have _ : Fwu := x) | clear_value x | skip)
       | with_reducible assumption | with_reducible apply keeps_changeProgram | with_reducible apply ih | split | lift_lets

theorem keeps_startHelds {a : State} (y0 : List Nat) (y1 : State) (h : Keeps a y1) : Keeps a (startHelds y0 y1) := by
  induction y0 generalizing y1 with
  | nil =>
    unfold startHelds
    repeat' first
       | (intro x; first | (have hx : Keeps a x := by (unfold x; repeat' first | with_reducible assumption | with_reducible apply keeps_startHeld | split)); clear_value x | (have _ : HostIf := x) | (have _ : Keys := x) | (have _ : Fwu := x) | clear_value x | skip)
       | with_reducible assumption | with_reducible apply keeps_startHeld | split | lift_lets
  | cons x r ih =>
    unfold startHelds
    repeat' first
       | (intro x; first | (have hx : Keeps a x := by (unfold x; repeat' first | with_reducible assumption | with_reducible apply keeps_startHeld | with_reducible apply ih | split)); clear_value x | (have _ : HostIf := x) | (have _ : Keys := x) | (have _ : Fwu := x) | clear_value x | skip)
       | with_reducible assumption | with_reducible apply keeps_startHeld | with_reducible apply ih | split | lift_lets

theorem keeps_mainBoundary {a : State} (t : Nat) (s : State) (h : Keeps a s) : Keeps a (mainBoundary t s) := by
  unfold mainBoundary
  with_reducible repeat' first
     | (intro x; first | (have hx : Keeps a x := by (unfold x; repeat' first | assumption | apply keeps_setCls | apply keeps_modelDue | apply keeps_sendLoops | apply keeps_installPlan | apply keeps_trajectoryWrite | split)); clear_value x | (have _ : HostIf := x) | (have _ : Keys := x) | (have _ : Fwu := x) | clear_value x | skip)
     | assumption | apply keeps_setCls | apply keeps_modelDue | apply keeps_sendLoops | apply keeps_installPlan
     | apply keeps_trajectoryWrite | split | lift_lets

theorem keeps_beforeMarks {a : State} (t : Nat) (s : State) (h : Keeps a s) : Keeps a (beforeMarks t s) := by
  unfold beforeMarks
  with_reducible repeat' first
     | (intro x; first | (have hx : Keeps a x := by (unfold x; repeat' first | assumption | apply keeps_changesAt | apply keeps_forcesDue | apply keeps_problemDue | apply keeps_mainBoundary | split)); clear_value x | (have _ : HostIf := x) | (have _ : Keys := x) | (have _ : Fwu := x) | clear_value x | skip)
     | assumption | apply keeps_changesAt | apply keeps_forcesDue | apply keeps_problemDue | apply keeps_mainBoundary | split
     | lift_lets

theorem keeps_noteSwitchCount {a : State} (c : Nat) (t : Nat) (s : State) (h : Keeps a s) : Keeps a (noteSwitchCount c t s) := by
  unfold noteSwitchCount
  repeat' first | exact ⟨h.1, h.2⟩ | assumption | split

theorem keeps_countMark {a : State} (c t : Nat) (onTime : Bool) (f : ClassSt → ClassSt) (s : State) (h : Keeps a s) :
    Keeps a (if onTime = true then periodStart c t (noteSwitchCount c t (setCls c f s)) else noteSwitchCount c t (setCls c f s)) := by
  split
  · exact keeps_periodStart _ _ _ (keeps_noteSwitchCount _ _ _ (keeps_setCls _ _ _ h))
  · exact keeps_noteSwitchCount _ _ _ (keeps_setCls _ _ _ h)

theorem keeps_countStart {a : State} (c t : Nat) (onTime : Bool) (s : State) (h : Keeps a s) : Keeps a (countStart c t onTime s) :=
  iteInduction (motive := Keeps a) (fun _ => h) (fun _ => keeps_countMark _ _ _ _ _ h)

theorem keeps_marksAt {a : State} (t : Nat) (y1 : List Nat) (y2 : State) (h : Keeps a y2) : Keeps a (marksAt t y1 y2) := by
  induction y1 generalizing y2 with
  | nil =>
    unfold marksAt
    repeat' first
       | (intro x; first | (have hx : Keeps a x := by (unfold x; repeat' first | with_reducible assumption | with_reducible apply keeps_countStart | split)); clear_value x | (have _ : HostIf := x) | (have _ : Keys := x) | (have _ : Fwu := x) | clear_value x | skip)
       | with_reducible assumption | with_reducible apply keeps_countStart | split | lift_lets
  | cons x r ih =>
    unfold marksAt
    repeat' first
       | (intro x; first | (have hx : Keeps a x := by (unfold x; repeat' first | with_reducible assumption | with_reducible apply keeps_countStart | with_reducible apply ih | split)); clear_value x | (have _ : HostIf := x) | (have _ : Keys := x) | (have _ : Fwu := x) | clear_value x | skip)
       | with_reducible assumption | with_reducible apply keeps_countStart | with_reducible apply ih | split | lift_lets

theorem keeps_adoptCfgs {a : State} (now : Nat) (y1 : List Nat) (y2 : State) (h : Keeps a y2) : Keeps a (adoptCfgs now y1 y2) := by
  induction y1 generalizing y2 with
  | nil =>
    unfold adoptCfgs
    repeat' first
       | (intro x; first | (have hx : Keeps a x := by (unfold x; repeat' first | with_reducible assumption | with_reducible apply keeps_adoptClassCfg | split)); clear_value x | (have _ : HostIf := x) | (have _ : Keys := x) | (have _ : Fwu := x) | clear_value x | skip)
       | with_reducible assumption | with_reducible apply keeps_adoptClassCfg | split | lift_lets
  | cons x r ih =>
    unfold adoptCfgs
    repeat' first
       | (intro x; first | (have hx : Keeps a x := by (unfold x; repeat' first | with_reducible assumption | with_reducible apply keeps_adoptClassCfg | with_reducible apply ih | split)); clear_value x | (have _ : HostIf := x) | (have _ : Keys := x) | (have _ : Fwu := x) | clear_value x | skip)
       | with_reducible assumption | with_reducible apply keeps_adoptClassCfg | with_reducible apply ih | split | lift_lets

theorem keeps_execClassPeriodStart {a : State} (c' : PClass) (s : State) (h : Keeps a s) : Goes a (execClassPeriodStart c' s) := by
  unfold execClassPeriodStart
  (try intro x)
  apply goes_next
  repeat' first
     | (intro x; first | (have hx : Keeps a x := by (unfold x; repeat' first | with_reducible assumption | with_reducible apply keeps_adoptCfgs | with_reducible apply keeps_marksAt | with_reducible apply keeps_startHelds | with_reducible apply keeps_beforeMarks | with_reducible apply keeps_countStart | split)); clear_value x | (have _ : HostIf := x) | (have _ : Keys := x) | (have _ : Fwu := x) | clear_value x | skip)
     | with_reducible assumption | with_reducible apply keeps_adoptCfgs | with_reducible apply keeps_marksAt
     | with_reducible apply keeps_startHelds | with_reducible apply keeps_beforeMarks | with_reducible apply keeps_countStart
     | split | lift_lets

end Sys2Proof.Laws
end

