-- ==== Sys2Proof/Laws/KeepsTest.lean ====
section
/-! SUPPORT. Laws/KeepsTest.lean: what each operation of Machine/Test.lean keeps (Laws/Keeps.lean). -/

namespace Sys2Proof.Laws

set_option linter.all false

open Sys2Proof.Machine

theorem keeps_enterTest {a : State} (s : State) (h : Keeps a s) : Keeps a (enterTest s) := by
  unfold enterTest
  with_reducible repeat' first
     | (intro x; first | (have hx : Keeps a x := by (unfold x; repeat' first | assumption | apply keeps_haltAll | apply keeps_setPair | apply keeps_raise | apply keeps_dropPaths | split)); clear_value x | (have _ : HostIf := x) | (have _ : Keys := x) | (have _ : Fwu := x) | clear_value x | skip)
     | assumption | apply keeps_haltAll | apply keeps_setPair | apply keeps_raise | apply keeps_dropPaths | split | lift_lets

theorem keeps_specTestEnter {a : State} (r : Req) (p : Bytes) (s : State) (h : Keeps a s) : Keeps a (specTestEnter.run r p s) := by
  unfold specTestEnter; dsimp only
  repeat' first | with_reducible assumption | with_reducible apply keeps_finishOk | with_reducible apply keeps_enterTest | split

theorem keeps_execCmdTestEnter {a : State} (r : Req) (s : State) (h : Keeps a s) : Goes a (execCmdTestEnter r s) :=
  goes_next (keeps_runCmd keeps_specTestEnter r h)

theorem keeps_specTestExit {a : State} (r : Req) (p : Bytes) (s : State) (h : Keeps a s) : Keeps a (specTestExit.run r p s) := by
  unfold specTestExit; dsimp only
  repeat' first
     | (intro x; first | (have hx : Keeps a x := by (unfold x; repeat' first | with_reducible assumption | with_reducible apply keeps_raise | with_reducible apply keeps_abortLoopback | with_reducible apply keeps_finishOk | split)); clear_value x | (have _ : HostIf := x) | (have _ : Keys := x) | (have _ : Fwu := x) | clear_value x | skip)
     | with_reducible assumption | with_reducible apply keeps_raise | with_reducible apply keeps_abortLoopback
     | with_reducible apply keeps_finishOk | split | lift_lets

theorem keeps_execCmdTestExit {a : State} (r : Req) (s : State) (h : Keeps a s) : Goes a (execCmdTestExit r s) :=
  goes_next (keeps_runCmd keeps_specTestExit r h)

theorem keeps_specLoopback {a : State} (r : Req) (p : Bytes) (s : State) (h : Keeps a s) : Keeps a (specLoopback.run r p s) := by
  unfold specLoopback; dsimp only
  repeat' first
     | (intro x; first | (have hx : Keeps a x := by (unfold x; repeat' first | with_reducible assumption | with_reducible apply keeps_finish | with_reducible apply keeps_raise | with_reducible apply keeps_holdCmd | split)); clear_value x | (have _ : HostIf := x) | (have _ : Keys := x) | (have _ : Fwu := x) | clear_value x | skip)
     | with_reducible assumption | with_reducible apply keeps_finish | with_reducible apply keeps_raise
     | with_reducible apply keeps_holdCmd | split | lift_lets

theorem keeps_execCmdLoopback {a : State} (r : Req) (s : State) (h : Keeps a s) : Goes a (execCmdLoopback r s) :=
  goes_next (keeps_runCmd keeps_specLoopback r h)

theorem keeps_execLoopbackEnd {a : State} (x : LoopResult) (s : State) (h : Keeps a s) : Goes a (execLoopbackEnd x s) := by
  unfold execLoopbackEnd
  (try intro x)
  apply goes_next
  repeat' first
     | (intro x; first | (have hx : Keeps a x := by (unfold x; repeat' first | with_reducible assumption | with_reducible apply keeps_rcAdd | with_reducible apply keeps_startNext | with_reducible apply keeps_raise | with_reducible apply keeps_finishOk | split)); clear_value x | (have _ : HostIf := x) | (have _ : Keys := x) | (have _ : Fwu := x) | clear_value x | skip)
     | with_reducible assumption | with_reducible apply keeps_rcAdd | with_reducible apply keeps_startNext
     | with_reducible apply keeps_raise | with_reducible apply keeps_finishOk | split | lift_lets

theorem keeps_specBistRun {a : State} (x : BistObs) (r : Req) (p : Bytes) (s : State) (h : Keeps a s) :
    Keeps a ((specBistRun x).run r p s) := by
  unfold specBistRun
  dsimp only
  split
  · have k := keeps_setPair (fun x => { x with selfCheck := true, bistReq := some r }) s h
    exact keeps_holdCmd _ _ _ ⟨k.1, k.2⟩
  · have k := keeps_selfTest x s h
    exact keeps_finishOk _ _ _ _ ⟨k.1, k.2⟩

theorem keeps_execCmdBistRun {a : State} (r : Req) (x : BistObs) (s : State) (h : Keeps a s) : Goes a (execCmdBistRun r x s) :=
  goes_next (keeps_runCmd (keeps_specBistRun x) r h)

theorem keeps_specBistStatus {a : State} (r : Req) (p : Bytes) (s : State) (h : Keeps a s) : Keeps a (specBistStatus.run r p s) := by
  unfold specBistStatus; dsimp only
  repeat' first
     | (intro x; first | (have hx : Keeps a x := by (unfold x; repeat' first | with_reducible assumption | with_reducible apply keeps_finishOk | split)); clear_value x | (have _ : HostIf := x) | (have _ : Keys := x) | (have _ : Fwu := x) | clear_value x | skip)
     | with_reducible assumption | with_reducible apply keeps_finishOk | split | lift_lets

theorem keeps_execCmdBistStatus {a : State} (r : Req) (s : State) (h : Keeps a s) : Goes a (execCmdBistStatus r s) :=
  goes_next (keeps_runCmd keeps_specBistStatus r h)

end Sys2Proof.Laws
end

