-- ==== Sys2Proof/Laws/KeepsTick.lean ====
section
/-! SUPPORT. Laws/KeepsTick.lean: what each operation of Machine/Tick.lean keeps (Laws/Keeps.lean). -/

namespace Sys2Proof.Laws

set_option linter.all false

open Sys2Proof.Machine

theorem keeps_resyncTimeout {a : State} (s : State) (h : Keeps a s) : Keeps a (resyncTimeout s) := by
  unfold resyncTimeout
  repeat' first | exact ⟨h.1, h.2⟩ | assumption | with_reducible apply keeps_finish | split

theorem keeps_powerTimeout {a : State} (s : State) (h : Keeps a s) : Keeps a (powerTimeout s) := by
  unfold powerTimeout
  repeat' first | exact ⟨h.1, h.2⟩ | assumption | with_reducible apply keeps_finish | split

theorem keeps_passNano {a : State} (s : State) (h : Keeps a s) : Keeps a (passNano s) := by
  unfold passNano
  with_reducible repeat' first
     | (intro x; first | (have hx : Keeps a x := by (unfold x; repeat' first | assumption | apply keeps_optExpiry | apply keeps_portsTick | apply keeps_samplingTick | apply keeps_powerTimeout | apply keeps_resyncTimeout | apply keeps_buildTick | apply keeps_keyTick | apply keeps_calNano | split)); clear_value x | (have _ : HostIf := x) | (have _ : Keys := x) | (have _ : Fwu := x) | clear_value x | skip)
     | assumption | apply keeps_optExpiry | apply keeps_portsTick | apply keeps_samplingTick | apply keeps_powerTimeout
     | apply keeps_resyncTimeout | apply keeps_buildTick | apply keeps_keyTick | apply keeps_calNano | split | lift_lets

end Sys2Proof.Laws
end

