-- ==== Sys2Proof/Laws/KeepsExec.lean ====
section
/-! SUPPORT. Laws/KeepsExec.lean: what each command of Instr keeps (Laws/Keeps.lean). -/

namespace Sys2Proof.Laws

set_option linter.all false

open Sys2Proof.Machine

/-- Every command goes on to a state it keeps. -/
theorem keeps_exec {a : State} (c : Instr) (s : State) (h : Keeps a s) : Goes a (exec c s) := by
  cases c with
  | cmdEcho r => exact keeps_execCmdEcho r _ h
  | cmdDeviceInfo r => exact keeps_execCmdDeviceInfo r _ h
  | cmdRegRead r => exact keeps_execCmdRegRead r _ h
  | cmdRegWrite r => exact keeps_execCmdRegWrite r _ h
  | cmdEventRead r => exact keeps_execCmdEventRead r _ h
  | cmdEventClear r => exact keeps_execCmdEventClear r _ h
  | cmdRestart r => exact keeps_execCmdRestart r _ h
  | cmdMainPower r => exact keeps_execCmdMainPower r _ h
  | cmdSettingsStore r readBackOk => exact keeps_execCmdSettingsStore r readBackOk _ h
  | cmdSettingsRead r => exact keeps_execCmdSettingsRead r _ h
  | cmdRestartPolicy r => exact keeps_execCmdRestartPolicy r _ h
  | cmdClassConfig r => exact keeps_execCmdClassConfig r _ h
  | cmdClassStatus r => exact keeps_execCmdClassStatus r _ h
  | cmdClassRestart r => exact keeps_execCmdClassRestart r _ h
  | cmdClassHalt r => exact keeps_execCmdClassHalt r _ h
  | cmdProgLoad r => exact keeps_execCmdProgLoad r _ h
  | cmdProgSwitch r => exact keeps_execCmdProgSwitch r _ h
  | progSwitchInstant cls => exact keeps_execProgSwitchInstant cls _ h
  | cmdEngineStatus r => exact keeps_execCmdEngineStatus r _ h
  | cmdBudgetConfig r => exact keeps_execCmdBudgetConfig r _ h
  | cmdBudgetStatus r => exact keeps_execCmdBudgetStatus r _ h
  | cmdPointRead r => exact keeps_execCmdPointRead r _ h
  | cmdForceSet r => exact keeps_execCmdForceSet r _ h
  | cmdForceClear r => exact keeps_execCmdForceClear r _ h
  | forceEffect => exact keeps_execForceEffect _ h
  | cmdForceList r => exact keeps_execCmdForceList r _ h
  | cmdHistConfig r => exact keeps_execCmdHistConfig r _ h
  | cmdHistRead r => exact keeps_execCmdHistRead r _ h
  | cmdHistStatus r => exact keeps_execCmdHistStatus r _ h
  | cmdLoopConfig r => exact keeps_execCmdLoopConfig r _ h
  | cmdLoopRead r => exact keeps_execCmdLoopRead r _ h
  | cmdLoopEnable r => exact keeps_execCmdLoopEnable r _ h
  | cmdLoopAck r => exact keeps_execCmdLoopAck r _ h
  | cmdLoopStatus r => exact keeps_execCmdLoopStatus r _ h
  | cmdModelLoad r => exact keeps_execCmdModelLoad r _ h
  | cmdModelSwitch r => exact keeps_execCmdModelSwitch r _ h
  | modelSwitchEffect => exact keeps_execModelSwitchEffect _ h
  | cmdSolverConfig r => exact keeps_execCmdSolverConfig r _ h
  | cmdSolverRun r => exact keeps_execCmdSolverRun r _ h
  | cmdSolverStatus r => exact keeps_execCmdSolverStatus r _ h
  | cmdSolverAbort r => exact keeps_execCmdSolverAbort r _ h
  | cmdOptProblemLoad r => exact keeps_execCmdOptProblemLoad r _ h
  | cmdOptProblemSwitch r => exact keeps_execCmdOptProblemSwitch r _ h
  | problemSwitchEffect => exact keeps_execProblemSwitchEffect _ h
  | cmdOptConfig r => exact keeps_execCmdOptConfig r _ h
  | cmdOptStatus r => exact keeps_execCmdOptStatus r _ h
  | cmdPlanRead r => exact keeps_execCmdPlanRead r _ h
  | cmdEstLoad r => exact keeps_execCmdEstLoad r _ h
  | cmdEstConfig r => exact keeps_execCmdEstConfig r _ h
  | cmdEstRun r => exact keeps_execCmdEstRun r _ h
  | cmdEstStatus r => exact keeps_execCmdEstStatus r _ h
  | cmdMtrParamLoad r => exact keeps_execCmdMtrParamLoad r _ h
  | cmdMtrParamSwitch r => exact keeps_execCmdMtrParamSwitch r _ h
  | mtrParamEffect => exact keeps_execMtrParamEffect _ h
  | cmdMtrParamRead r => exact keeps_execCmdMtrParamRead r _ h
  | cmdMtrTotals r => exact keeps_execCmdMtrTotals r _ h
  | cmdMtrIntervals r => exact keeps_execCmdMtrIntervals r _ h
  | cmdMtrEnable r => exact keeps_execCmdMtrEnable r _ h
  | cmdMtrAdopt r => exact keeps_execCmdMtrAdopt r _ h
  | cmdRingConfig r => exact keeps_execCmdRingConfig r _ h
  | cmdStationConfig r => exact keeps_execCmdStationConfig r _ h
  | cmdDatasetConfig r => exact keeps_execCmdDatasetConfig r _ h
  | cmdLoopRoute r => exact keeps_execCmdLoopRoute r _ h
  | cmdTripConfig r => exact keeps_execCmdTripConfig r _ h
  | cmdTripReset r => exact keeps_execCmdTripReset r _ h
  | cmdRingStatus r => exact keeps_execCmdRingStatus r _ h
  | cmdStationStatus r => exact keeps_execCmdStationStatus r _ h
  | mainBoundaryConfigApply => exact keeps_execMainBoundaryConfigApply _ h
  | cmdTimeConfig r => exact keeps_execCmdTimeConfig r _ h
  | cmdTimePort r => exact keeps_execCmdTimePort r _ h
  | cmdTimeSelect r => exact keeps_execCmdTimeSelect r _ h
  | cmdTimeStatus r => exact keeps_execCmdTimeStatus r _ h
  | cmdTimeSet r => exact keeps_execCmdTimeSet r _ h
  | cmdCanConfig r => exact keeps_execCmdCanConfig r _ h
  | cmdCanBuffer r => exact keeps_execCmdCanBuffer r _ h
  | cmdCanCancel r => exact keeps_execCmdCanCancel r _ h
  | cmdCanRecover r => exact keeps_execCmdCanRecover r _ h
  | cmdCanStatus r => exact keeps_execCmdCanStatus r _ h
  | cmdPairStatus r => exact keeps_execCmdPairStatus r _ h
  | cmdPairConfig r => exact keeps_execCmdPairConfig r _ h
  | cmdSwitchover r => exact keeps_execCmdSwitchover r _ h
  | cmdDrill r => exact keeps_execCmdDrill r _ h
  | cmdPairResync r => exact keeps_execCmdPairResync r _ h
  | cmdFaultStatus r => exact keeps_execCmdFaultStatus r _ h
  | cmdRecRead r => exact keeps_execCmdRecRead r _ h
  | cmdRecCursor r => exact keeps_execCmdRecCursor r _ h
  | cmdRecClear r => exact keeps_execCmdRecClear r _ h
  | recClearDone => exact keeps_execRecClearDone _ h
  | cmdRtcRead r => exact keeps_execCmdRtcRead r _ h
  | cmdRtcSet r => exact keeps_execCmdRtcSet r _ h
  | cmdRtcAdjust r => exact keeps_execCmdRtcAdjust r _ h
  | cmdRtcAlarm r => exact keeps_execCmdRtcAlarm r _ h
  | cmdPnlConfig r => exact keeps_execCmdPnlConfig r _ h
  | cmdPnlWrite r => exact keeps_execCmdPnlWrite r _ h
  | cmdPnlUpdate r => exact keeps_execCmdPnlUpdate r _ h
  | cmdPnlStatus r => exact keeps_execCmdPnlStatus r _ h
  | cmdKeyUpdate r => exact keeps_execCmdKeyUpdate r _ h
  | cmdKeyStatus r => exact keeps_execCmdKeyStatus r _ h
  | cmdIdentity r => exact keeps_execCmdIdentity r _ h
  | cmdLcChange r => exact keeps_execCmdLcChange r _ h
  | cmdFwuOpen r => exact keeps_execCmdFwuOpen r _ h
  | cmdFwuData r => exact keeps_execCmdFwuData r _ h
  | cmdFwuVerify r => exact keeps_execCmdFwuVerify r _ h
  | cmdFwuActivate r => exact keeps_execCmdFwuActivate r _ h
  | fwuLiveActivation pauseUs => exact keeps_execFwuLiveActivation pauseUs _ h
  | cmdFwuConfirm r => exact keeps_execCmdFwuConfirm r _ h
  | cmdFwuClose r => exact keeps_execCmdFwuClose r _ h
  | cmdFwuStatus r => exact keeps_execCmdFwuStatus r _ h
  | fwuBuildResume => exact keeps_execFwuBuildResume _ h
  | fwuTrialTimeout => exact keeps_execFwuTrialTimeout _ h
  | cmdTestEnter r => exact keeps_execCmdTestEnter r _ h
  | cmdTestExit r => exact keeps_execCmdTestExit r _ h
  | cmdLoopback r => exact keeps_execCmdLoopback r _ h
  | loopbackEnd res => exact keeps_execLoopbackEnd res _ h
  | cmdBistRun r obs => exact keeps_execCmdBistRun r obs _ h
  | cmdBistStatus r => exact keeps_execCmdBistStatus r _ h
  | hifDoorbell val => exact keeps_execHifDoorbell val _ h
  | fragWrite flags offset data pecOk => exact keeps_execFragWrite flags offset data pecOk _ h
  | fragRead offset pecOk => exact keeps_execFragRead offset pecOk _ h
  | sbStatus => exact keeps_execSbStatus _ h
  | sbmReassemblyTimeout => exact keeps_execSbmReassemblyTimeout _ h
  | alertResponseRead => exact keeps_execAlertResponseRead _ h
  | hostLinkDown kind => exact keeps_execHostLinkDown kind _ h
  | hostLinkUp => exact keeps_execHostLinkUp _ h
  | bar2Access write offset be val => exact keeps_execBar2Access write offset be val _ h
  | registerWrite port offset dws => exact keeps_execRegisterWrite port offset dws _ h
  | postedWriteApplied base => exact keeps_execPostedWriteApplied base _ h
  | readClearRegister port offset be => exact keeps_execReadClearRegister port offset be _ h
  | latchingLoRead port offset be => exact keeps_execLatchingLoRead port offset be _ h
  | ptpTimeLoRead port => exact keeps_execPtpTimeLoRead port _ h
  | rtcT0Read port => exact keeps_execRtcT0Read port _ h
  | rtcT1Read port => exact keeps_execRtcT1Read port _ h
  | rtcFreezeTimeout port => exact keeps_execRtcFreezeTimeout port _ h
  | rtcApplySet port val => exact keeps_execRtcApplySet port val _ h
  | rtcFlagsClear port val => exact keeps_execRtcFlagsClear port val _ h
  | recSeek port val => exact keeps_execRecSeek port val _ h
  | recData0Read port => exact keeps_execRecData0Read port _ h
  | recData15Read port => exact keeps_execRecData15Read port _ h
  | sigEnClear port val => exact keeps_execSigEnClear port val _ h
  | sigEnSet port val => exact keeps_execSigEnSet port val _ h
  | evtMsgEnSet port val => exact keeps_execEvtMsgEnSet port val _ h
  | lockBitSet port offset val => exact keeps_execLockBitSet port offset val _ h
  | evtPendClear port n val => exact keeps_execEvtPendClear port n val _ h
  | hifCmplClear port hi val => exact keeps_execHifCmplClear port hi val _ h
  | evtRouteWrite port n val => exact keeps_execEvtRouteWrite port n val _ h
  | loopCtrlRun port val => exact keeps_execLoopCtrlRun port val _ h
  | solCtrlEnable port val => exact keeps_execSolCtrlEnable port val _ h
  | ringCtrlEnable port val => exact keeps_execRingCtrlEnable port val _ h
  | ringEtypeWrite port val => exact keeps_execRingEtypeWrite port val _ h
  | ptpCtrlWrite port val => exact keeps_execPtpCtrlWrite port val _ h
  | canModeWrite port n val => exact keeps_execCanModeWrite port n val _ h
  | canBitTimingWrite port n data val => exact keeps_execCanBitTimingWrite port n data val _ h
  | canTxreq port n hi val => exact keeps_execCanTxreq port n hi val _ h
  | canCancel port n hi val => exact keeps_execCanCancel port n hi val _ h
  | canNdClear port n hi val => exact keeps_execCanNdClear port n hi val _ h
  | pairCtrlWrite port val => exact keeps_execPairCtrlWrite port val _ h
  | pnlCtrlEnable port val => exact keeps_execPnlCtrlEnable port val _ h
  | bgtConfigWrite port offset val => exact keeps_execBgtConfigWrite port offset val _ h
  | evtHoldoffExpiry vector => exact keeps_execEvtHoldoffExpiry vector _ h
  | recWrite => exact keeps_execRecWrite _ h
  | signatureSweep upsets => exact keeps_execSignatureSweep upsets _ h
  | mortarPacket pkt => exact keeps_execMortarPacket pkt _ h
  | handshakeWatchdog b => exact keeps_execHandshakeWatchdog b _ h
  | clockPresenceExpiry b => exact keeps_execClockPresenceExpiry b _ h
  | transitionTimerExpiry b => exact keeps_execTransitionTimerExpiry b _ h
  | brickBank b => exact keeps_execBrickBank b _ h
  | brickWake b => exact keeps_execBrickWake b _ h
  | transitionComplete t => exact keeps_execTransitionComplete t _ h
  | classPeriodStart cls => exact keeps_execClassPeriodStart cls _ h
  | markAck cls b => exact keeps_execMarkAck cls b _ h
  | snapshotTimeout cls => exact keeps_execSnapshotTimeout cls _ h
  | feederPush => exact keeps_execFeederPush _ h
  | engineWake e => exact keeps_execEngineWake e _ h
  | stealRequest thief victim cls => exact keeps_execStealRequest thief victim cls _ h
  | stealGrant thief => exact keeps_execStealGrant thief _ h
  | unitComplete e obs => exact keeps_execUnitComplete e obs _ h
  | resultHash e => exact keeps_execResultHash e _ h
  | stagingCopyDone cls unit => exact keeps_execStagingCopyDone cls unit _ h
  | engineHung e => exact keeps_execEngineHung e _ h
  | engineCheck e => exact keeps_execEngineCheck e _ h
  | cycleDeadline cls => exact keeps_execCycleDeadline cls _ h
  | cycleAbandon cls => exact keeps_execCycleAbandon cls _ h
  | classUnitsStopped cls => exact keeps_execClassUnitsStopped cls _ h
  | governorTick baseCharge => exact keeps_execGovernorTick baseCharge _ h
  | tempSample t4 => exact keeps_execTempSample t4 _ h
  | slowForced => exact keeps_execSlowForced _ h
  | solverJobReturn host res => exact keeps_execSolverJobReturn host res _ h
  | factorLimit => exact keeps_execFactorLimit _ h
  | optJobIssue => exact keeps_execOptJobIssue _ h
  | optJobReturn res => exact keeps_execOptJobReturn res _ h
  | estRunStart => exact keeps_execEstRunStart _ h
  | estRunReturn res => exact keeps_execEstRunReturn res _ h
  | retainWriteDone => exact keeps_execRetainWriteDone _ h
  | loopMsTick evalUs left => exact keeps_execLoopMsTick evalUs left _ h
  | loopFeExpiry ch => exact keeps_execLoopFeExpiry ch _ h
  | mspFrame n slots => exact keeps_execMspFrame n slots _ h
  | meterPortLoss n => exact keeps_execMeterPortLoss n _ h
  | zcTimeout n => exact keeps_execZcTimeout n _ h
  | pulseEdge n levels => exact keeps_execPulseEdge n levels _ h
  | tbusRead reads => exact keeps_execTbusRead reads _ h
  | heatStep => exact keeps_execHeatStep _ h
  | totalsSave => exact keeps_execTotalsSave _ h
  | intervalClose => exact keeps_execIntervalClose _ h
  | inputDataset ring knama => exact keeps_execInputDataset ring knama _ h
  | tripReq ring knama => exact keeps_execTripReq ring knama _ h
  | hsrFrameForward port frame => exact keeps_execHsrFrameForward port frame _ h
  | linkCheckSend port => exact keeps_execLinkCheckSend port _ h
  | linkCheckReceive port => exact keeps_execLinkCheckReceive port _ h
  | linkEcho port => exact keeps_execLinkEcho port _ h
  | portLinkLoss port => exact keeps_execPortLinkLoss port _ h
  | supervisionFrameSend port => exact keeps_execSupervisionFrameSend port _ h
  | nodeForgotten ring src => exact keeps_execNodeForgotten ring src _ h
  | duplicateEntryExpiry ring src => exact keeps_execDuplicateEntryExpiry ring src _ h
  | stationAbsent station => exact keeps_execStationAbsent station _ h
  | ptpMessage port msg => exact keeps_execPtpMessage port msg _ h
  | syncSend d port => exact keeps_execSyncSend d port _ h
  | announceSend d port => exact keeps_execAnnounceSend d port _ h
  | ppsEdge => exact keeps_execPpsEdge _ h
  | todMessage msg => exact keeps_execTodMessage msg _ h
  | domainHoldover d => exact keeps_execDomainHoldover d _ h
  | deviceTimeUpdate => exact keeps_execDeviceTimeUpdate _ h
  | domainRevert => exact keeps_execDomainRevert _ h
  | canFrameReceive n frame => exact keeps_execCanFrameReceive n frame _ h
  | canTxComplete n => exact keeps_execCanTxComplete n _ h
  | canTxError n kind => exact keeps_execCanTxError n kind _ h
  | canBusOn n => exact keeps_execCanBusOn n _ h
  | canIntegrate n => exact keeps_execCanIntegrate n _ h
  | canRxTimeout n buf => exact keeps_execCanRxTimeout n buf _ h
  | canCheck n ok missed => exact keeps_execCanCheck n ok missed _ h
  | heartbeatSend => exact keeps_execHeartbeatSend _ h
  | heartbeatReceive hb => exact keeps_execHeartbeatReceive hb _ h
  | heartbeatLost => exact keeps_execHeartbeatLost _ h
  | activeNCheck => exact keeps_execActiveNCheck _ h
  | takeUpControl => exact keeps_execTakeUpControl _ h
  | pairLinkDown => exact keeps_execPairLinkDown _ h
  | pairLaneLoss lane => exact keeps_execPairLaneLoss lane _ h
  | mirrorRecord seq body => exact keeps_execMirrorRecord seq body _ h
  | snapshotFillRequest station seq => exact keeps_execSnapshotFillRequest station seq _ h
  | snapshotFillTimeout cls => exact keeps_execSnapshotFillTimeout cls _ h
  | selfCheckDone res => exact keeps_execSelfCheckDone res _ h
  | slot1ClaimTimeout => exact keeps_execSlot1ClaimTimeout _ h
  | partnerPresentChange present => exact keeps_execPartnerPresentChange present _ h
  | join copy => exact keeps_execJoin copy _ h
  | roleExchange gapUs => exact keeps_execRoleExchange gapUs _ h
  | drillStart => exact keeps_execDrillStart _ h
  | drillCheckDone res checkMs => exact keeps_execDrillCheckDone res checkMs _ h
  | drillAgeHour => exact keeps_execDrillAgeHour _ h
  | dramError kind => exact keeps_execDramError kind _ h
  | mramError kind place => exact keeps_execMramError kind place _ h
  | lockstepDisagreement => exact keeps_execLockstepDisagreement _ h
  | vstbyApplied slotId sba => exact keeps_execVstbyApplied slotId sba _ h
  | backupPowerUp => exact keeps_execBackupPowerUp _ h
  | railSequence => exact keeps_execRailSequence _ h
  | railFault rail => exact keeps_execRailFault rail _ h
  | railRetry => exact keeps_execRailRetry _ h
  | vinOvervoltage => exact keeps_execVinOvervoltage _ h
  | bootComplete obs => exact keeps_execBootComplete obs _ h
  | mainWatchdog => exact keeps_execMainWatchdog _ h
  | rstNAssert lowNs => exact keeps_execRstNAssert lowNs _ h
  | rstNRelease => exact keeps_execRstNRelease _ h
  | pfwFall => exact keeps_execPfwFall _ h
  | pfwRise => exact keeps_execPfwRise _ h
  | vbatSwitch => exact keeps_execVbatSwitch _ h
  | vbatMeasure millivolt => exact keeps_execVbatMeasure millivolt _ h
  | oscStopDetect => exact keeps_execOscStopDetect _ h
  | rtcSecond => exact keeps_execRtcSecond _ h
  | rtcAlarm n => exact keeps_execRtcAlarm n _ h
  | pnlFrame => exact keeps_execPnlFrame _ h
  | pnlBiasCheck outOfLimits => exact keeps_execPnlBiasCheck outOfLimits _ h
  | pnlBiasRetry ok => exact keeps_execPnlBiasRetry ok _ h
  | pnlBiasOff => exact keeps_execPnlBiasOff _ h
  | pnlCrcCheck upsets => exact keeps_execPnlCrcCheck upsets _ h
  | pairLinkUp lane => exact keeps_execPairLinkUp lane _ h
  | activeNChange low => exact keeps_execActiveNChange low _ h
  | delayReqSend d port => exact keeps_execDelayReqSend d port _ h
  | canRxBusError n => exact keeps_execCanRxBusError n _ h
  | oscRestart => exact keeps_execOscRestart _ h
  | trialSecondsWrite => exact keeps_execTrialSecondsWrite _ h
  | mainSideColdReset => exact keeps_execMainSideColdReset _ h

end Sys2Proof.Laws
end

