-- ==== Sys2Proof/Laws/Maps.lean ====
section
/-! SUPPORT. Laws/Maps.lean: reading finite maps and slot memory after a write (R389): the written key reads as written, every
other key as before. -/

namespace Sys2Proof.Laws

open Sys2Proof.Machine

/-! ### Maps -/

@[simp] theorem fget_fset_same {α : Type} (m : FMap α) (i : Nat) (x : α) : fget (fset m i x) i = some x := by
  induction m with
  | nil => simp [fset, fget]
  | cons e r ih =>
    obtain ⟨k, v⟩ := e
    unfold fset
    split
    · next h => simp [fget, h]
    · split
      · simp [fget]
      · next h _ => simp [fget, h, ih]

theorem fget_fset_other {α : Type} (m : FMap α) {i j : Nat} (x : α) (h : j ≠ i) : fget (fset m i x) j = fget m j := by
  induction m with
  | nil => simp [fset, fget, h]
  | cons e r ih =>
    obtain ⟨k, v⟩ := e
    unfold fset
    split
    · next hk => subst hk; simp [fget, h]
    · split
      · simp [fget, h]
      · simp only [fget, ih]

theorem fget_ferase_other {α : Type} (m : FMap α) {i j : Nat} (h : j ≠ i) : fget (ferase m i) j = fget m j := by
  induction m with
  | nil => rfl
  | cons e r ih =>
    obtain ⟨k, v⟩ := e
    unfold ferase
    split
    · next hk => subst hk; simp [fget, h]
    · simp only [fget, ih]

theorem fget_none_of_lt {α : Type} {m : FMap α} {i : Nat} (h : ∀ e ∈ m, i < e.1) : fget m i = none := by
  induction m with
  | nil => rfl
  | cons e r ih =>
    obtain ⟨k, v⟩ := e
    have := h (k, v) List.mem_cons_self
    have hk : i ≠ k := by simp only at this; omega
    simp only [fget, hk, if_false]
    exact ih fun e he => h e (List.mem_cons_of_mem _ he)

theorem fget_ferase_same {α : Type} {m : FMap α} (i : Nat) (h : fwf m = true) : fget (ferase m i) i = none := by
  induction m with
  | nil => rfl
  | cons e r ih =>
    obtain ⟨k, v⟩ := e
    obtain ⟨h1, h2⟩ := (fwf_cons k v r).1 h
    unfold ferase
    split
    · next hk => subst hk; exact fget_none_of_lt h1
    · next hk => simp only [fget, hk, if_false]; exact ih h2

theorem fgetD_fput_same {α : Type} [DecidableEq α] {m : FMap α} (i : Nat) (x d : α) (h : fwf m = true) :
    fgetD (fput m i x d) i d = x := by
  unfold fput
  split
  · next hx => simp [fgetD, fget_ferase_same i h, hx]
  · simp [fgetD]

/-- A value other than the default is read back from any map. -/
theorem fgetD_fput_listed {α : Type} [DecidableEq α] (m : FMap α) (i : Nat) {x d : α} (h : x ≠ d) :
    fgetD (fput m i x d) i d = x := by
  simp [fput, h, fgetD]

theorem fgetD_fput_other {α : Type} [DecidableEq α] (m : FMap α) {i j : Nat} (x d e : α) (h : j ≠ i) :
    fgetD (fput m i x d) j e = fgetD m j e := by
  unfold fput
  split
  · simp [fgetD, fget_ferase_other m h]
  · simp [fgetD, fget_fset_other m x h]

/-! ### Slot memory -/

theorem memRead_memWrite_same {m : List Host.Cell} (a : Nat) (b : Byte) (h : Memory.wf m) : memRead (memWrite m a b) a = b :=
  fgetD_fput_same a b 0 h.1

theorem memRead_memWrite_other (m : List Host.Cell) {a c : Nat} (b : Byte) (h : c ≠ a) :
    memRead (memWrite m a b) c = memRead m c :=
  fgetD_fput_other m b 0 0 h

theorem memRead_memWriteBytes_outside (m : List Host.Cell) (a : Nat) (l : Bytes) {c : Nat} (h : c < a ∨ a + l.length ≤ c) :
    memRead (memWriteBytes m a l) c = memRead m c := by
  induction l generalizing m a with
  | nil => rfl
  | cons b r ih =>
    simp only [List.length_cons] at h
    unfold memWriteBytes
    rw [ih _ _ (by omega), memRead_memWrite_other m b (by omega)]

theorem memReadBytes_memWriteBytes {m : List Host.Cell} (a : Nat) (l : Bytes) (h : Memory.wf m) :
    memReadBytes (memWriteBytes m a l) a l.length = l := by
  induction l generalizing m a with
  | nil => rfl
  | cons b r ih =>
    simp only [List.length_cons, memReadBytes, memWriteBytes]
    rw [ih (a + 1) (memWrite_wf a b h), memRead_memWriteBytes_outside _ _ _ (by omega), memRead_memWrite_same a b h]

theorem memReadBytes_append (m : List Host.Cell) (a i k : Nat) :
    memReadBytes m a (i + k) = memReadBytes m a i ++ memReadBytes m (a + i) k := by
  induction i generalizing a with
  | zero => simp [memReadBytes]
  | succ i ih =>
    rw [Nat.add_right_comm]
    simp only [memReadBytes, List.cons_append, ih (a + 1)]
    rw [Nat.add_right_comm a 1 i, Nat.add_assoc a i 1]

@[simp] theorem memReadBytes_length (m : List Host.Cell) (a n : Nat) : (memReadBytes m a n).length = n := by
  induction n generalizing a with
  | zero => rfl
  | succ n ih => simp [memReadBytes, ih]

@[simp] theorem putLE_length (n v : Nat) : (putLE n v).length = n := by
  induction n generalizing v with
  | zero => rfl
  | succ n ih => simp [putLE, ih]

/-- A response packet is its data and 24 bytes of header and trailer (R386). -/
theorem responsePacket_length (op : Nat) (tag : W16) (origin st d : Nat) (data : Bytes) :
    (responsePacket op tag origin st d data).length = data.length + 24 := by
  simp [responsePacket]; omega

end Sys2Proof.Laws
end

