-- ==== Sys2Proof/Laws/SameClock.lean ====
section
/-! SUPPORT. Laws/SameClock.lean: what a nanosecond on an empty queue may set off leaves reference time and device time as they are. -/

namespace Sys2Proof.Laws

set_option linter.all false

open Sys2Proof.Machine

/-- Reference time and device time are the same. -/
abbrev SameClock (a b : State) : Prop := b.refNs = a.refNs ∧ b.time.dev = a.time.dev

theorem clock_emit {a : State} (o : Out) (s : State) (h : SameClock a s) : SameClock a (emit o s) := ⟨h.1, h.2⟩

theorem clock_setBrick {a : State} (b : Nat) (f : Brick → Brick) (s : State) (h : SameClock a s) : SameClock a (setBrick b f s) := ⟨h.1, h.2⟩

theorem clock_wakeBrick {a : State} (b : Nat) (s : State) (h : SameClock a s) : SameClock a (wakeBrick b s) := ⟨h.1, h.2⟩

theorem clock_rcAdd {a : State} (off : Nat) (n : Nat) (s : State) (h : SameClock a s) : SameClock a (rcAdd off n s) := ⟨h.1, h.2⟩

theorem clock_msixSend {a : State} (v : Nat) (s : State) (h : SameClock a s) : SameClock a (msixSend v s) := by
  unfold msixSend
  repeat' first | exact ⟨h.1, h.2⟩ | assumption | with_reducible apply clock_emit | split

theorem clock_sendVector {a : State} (v : Nat) (s : State) (h : SameClock a s) : SameClock a (sendVector v s) := by
  unfold sendVector
  repeat' first | exact ⟨h.1, h.2⟩ | assumption | with_reducible apply clock_msixSend | split

theorem clock_messageDue {a : State} (v : Nat) (s : State) (h : SameClock a s) : SameClock a (messageDue v s) := by
  unfold messageDue
  repeat' first | exact ⟨h.1, h.2⟩ | assumption | with_reducible apply clock_sendVector | split

theorem clock_dropRecord {a : State} (e : EventRec) (s : State) (h : SameClock a s) : SameClock a (dropRecord e s) := ⟨h.1, h.2⟩

theorem clock_queueRecord {a : State} (e : EventRec) (s : State) (h : SameClock a s) : SameClock a (queueRecord e s) := by
  unfold queueRecord
  with_reducible repeat' first
     | (intro x; first | (have hx : SameClock a x := by (unfold x; repeat' first | assumption | apply clock_dropRecord | apply clock_messageDue | split)); clear_value x | (have _ : TimeSt := x) | clear_value x | skip)
     | assumption | apply clock_dropRecord | apply clock_messageDue | split | lift_lets

theorem clock_raiseC {a : State} (src : Nat) (params : List Int) (code : Nat) (s : State) (h : SameClock a s) : SameClock a (raiseC src params code s) := by
  unfold raiseC
  with_reducible repeat' first
     | (intro x; first | (have hx : SameClock a x := by (unfold x; repeat' first | assumption | apply clock_queueRecord | apply clock_messageDue | split)); clear_value x | (have _ : TimeSt := x) | clear_value x | skip)
     | assumption | apply clock_queueRecord | apply clock_messageDue | split | lift_lets

theorem clock_raise {a : State} (src : Nat) (params : List Int) (s : State) (h : SameClock a s) : SameClock a (raise src params s) := by
  induction src generalizing s with
  | zero =>
    unfold raise
    repeat' first
       | (intro x; first | (have hx : SameClock a x := by (unfold x; repeat' first | with_reducible assumption | with_reducible apply clock_raiseC | split)); clear_value x | (have _ : TimeSt := x) | clear_value x | skip)
       | with_reducible assumption | with_reducible apply clock_raiseC | split | lift_lets
  | succ x ih =>
    unfold raise
    repeat' first
       | (intro x; first | (have hx : SameClock a x := by (unfold x; repeat' first | with_reducible assumption | with_reducible apply clock_raiseC | with_reducible apply ih | split)); clear_value x | (have _ : TimeSt := x) | clear_value x | skip)
       | with_reducible assumption | with_reducible apply clock_raiseC | with_reducible apply ih | split | lift_lets

theorem clock_countFault {a : State} (row : Nat) (s : State) (h : SameClock a s) : SameClock a (countFault row s) := ⟨h.1, h.2⟩

theorem clock_sendMirror {a : State} (body : MirrorBody) (s : State) (h : SameClock a s) : SameClock a (sendMirror body s) := by
  unfold sendMirror
  repeat' first | exact ⟨h.1, h.2⟩ | assumption | with_reducible apply clock_emit | split

theorem clock_slotRespond {a : State} (n op : Nat) (tag : W16) (status detail : Nat) (data : Bytes) (s : State) (h : SameClock a s) :
    SameClock a (slotRespond n op tag status detail data s) := by
  unfold slotRespond setSlot
  apply clock_msixSend
  exact ⟨h.1, h.2⟩

theorem clock_sbRespond {a : State} (op : Nat) (tag : W16) (status : Nat) (detail : Nat) (data : Bytes) (s : State) (h : SameClock a s) : SameClock a (sbRespond op tag status detail data s) := ⟨h.1, h.2⟩

theorem clock_respond {a : State} (op : Nat) (r : Req) (status : Nat) (detail : Nat) (data : Bytes) (s : State) (h : SameClock a s) : SameClock a (respond op r status detail data s) := by
  unfold respond
  with_reducible repeat' first
     | (intro x; first | (have hx : SameClock a x := by (unfold x; repeat' first | assumption | apply clock_slotRespond | apply clock_emit | apply clock_sbRespond | split)); clear_value x | (have _ : TimeSt := x) | clear_value x | skip)
     | assumption | apply clock_slotRespond | apply clock_emit | apply clock_sbRespond | split | lift_lets

theorem clock_remember {a : State} (op : Nat) (body : Bytes) (s : State) (h : SameClock a s) : SameClock a (remember op body s) := ⟨h.1, h.2⟩

theorem clock_finish {a : State} (op : Nat) (r : Req) (status : Nat) (detail : Nat) (data : Bytes) (s : State) (h : SameClock a s) : SameClock a (finish op r status detail data s) := by
  unfold finish
  with_reducible repeat' first
     | (intro x; first | (have hx : SameClock a x := by (unfold x; repeat' first | assumption | apply clock_raise | apply clock_remember | apply clock_respond | split)); clear_value x | (have _ : TimeSt := x) | clear_value x | skip)
     | assumption | apply clock_raise | apply clock_remember | apply clock_respond | split | lift_lets

theorem clock_finishOpt {a : State} (op : Nat) (r : Option Req) (status : Nat) (detail : Nat) (data : Bytes) (s : State) (h : SameClock a s) : SameClock a (finishOpt op r status detail data s) := by
  unfold finishOpt
  repeat' first | exact ⟨h.1, h.2⟩ | assumption | with_reducible apply clock_finish | split

theorem clock_putRec {a : State} (id : Nat) (r : PointRec) (s : State) (h : SameClock a s) : SameClock a (putRec id r s) := ⟨h.1, h.2⟩

theorem clock_setCls {a : State} (c : Nat) (f : ClassSt → ClassSt) (s : State) (h : SameClock a s) : SameClock a (setCls c f s) := ⟨h.1, h.2⟩

theorem clock_setCan {a : State} (n : Nat) (f : CanCtl → CanCtl) (s : State) (h : SameClock a s) : SameClock a (setCan n f s) := ⟨h.1, h.2⟩

theorem clock_setOscStop {a : State} (s : State) (h : SameClock a s) : SameClock a (setOscStop s) := by
  unfold setOscStop
  with_reducible repeat' first
     | (intro x; first | (have hx : SameClock a x := by (unfold x; repeat' first | assumption | apply clock_raise | split)); clear_value x | (have _ : TimeSt := x) | clear_value x | skip)
     | assumption | apply clock_raise | split | lift_lets

theorem clock_releaseMain {a : State} (s : State) (h : SameClock a s) : SameClock a (releaseMain s) := by
  unfold releaseMain
  repeat' first | exact ⟨h.1, h.2⟩ | assumption | split

theorem clock_fireAlarm {a : State} (n : Nat) (cause : Nat) (s : State) (h : SameClock a s) : SameClock a (fireAlarm n cause s) := by
  unfold fireAlarm
  with_reducible repeat' first
     | (intro x; first | (have hx : SameClock a x := by (unfold x; repeat' first | assumption | apply clock_raiseC | apply clock_releaseMain | split)); clear_value x | (have _ : TimeSt := x) | clear_value x | skip)
     | assumption | apply clock_raiseC | apply clock_releaseMain | split | lift_lets

theorem clock_passAlarms {a : State} (old : Nat) (new : Nat) (y2 : List Nat) (y3 : State) (h : SameClock a y3) : SameClock a (passAlarms old new y2 y3) := by
  induction y2 generalizing y3 with
  | nil =>
    unfold passAlarms
    repeat' first
       | (intro x; first | (have hx : SameClock a x := by (unfold x; repeat' first | with_reducible assumption | with_reducible apply clock_fireAlarm | split)); clear_value x | (have _ : TimeSt := x) | clear_value x | skip)
       | with_reducible assumption | with_reducible apply clock_fireAlarm | split | lift_lets
  | cons x r ih =>
    unfold passAlarms
    repeat' first
       | (intro x; first | (have hx : SameClock a x := by (unfold x; repeat' first | with_reducible assumption | with_reducible apply clock_fireAlarm | with_reducible apply ih | split)); clear_value x | (have _ : TimeSt := x) | clear_value x | skip)
       | with_reducible assumption | with_reducible apply clock_fireAlarm | with_reducible apply ih | split | lift_lets

theorem clock_calTick {a : State} (s : State) (h : SameClock a s) : SameClock a (calTick s) := by
  unfold calTick
  with_reducible repeat' first
     | (intro x; first | (have hx : SameClock a x := by (unfold x; repeat' first | assumption | apply clock_setOscStop | apply clock_passAlarms | split)); clear_value x | (have _ : TimeSt := x) | clear_value x | skip)
     | assumption | apply clock_setOscStop | apply clock_passAlarms | split | lift_lets

theorem clock_crystalTick {a : State} (s : State) (h : SameClock a s) : SameClock a (crystalTick s) := by
  unfold crystalTick
  with_reducible repeat' first
     | (intro x; first | (have hx : SameClock a x := by (unfold x; repeat' first | assumption | apply clock_calTick | split)); clear_value x | (have _ : TimeSt := x) | clear_value x | skip)
     | assumption | apply clock_calTick | split | lift_lets

theorem clock_calNano {a : State} (s : State) (h : SameClock a s) : SameClock a (calNano s) := by
  unfold calNano
  with_reducible repeat' first
     | (intro x; first | (have hx : SameClock a x := by (unfold x; repeat' first | assumption | apply clock_crystalTick | split)); clear_value x | (have _ : TimeSt := x) | clear_value x | skip)
     | assumption | apply clock_crystalTick | split | lift_lets

theorem clock_setEpoch {a : State} (n : Nat) (e : Nat) (s : State) (h : SameClock a s) : SameClock a (setEpoch n e s) := ⟨h.1, h.2⟩

theorem clock_setBuf {a : State} (n : Nat) (b : Nat) (f : CanBuf → CanBuf) (s : State) (h : SameClock a s) : SameClock a (setBuf n b f s) := ⟨h.1, h.2⟩

theorem clock_setPort {a : State} (p : Nat) (f : RingPort → RingPort) (s : State) (h : SameClock a s) : SameClock a (setPort p f s) := ⟨h.1, h.2⟩

theorem clock_setDom {a : State} (i : Fin 2) (f : Domain → Domain) (s : State) (h : SameClock a s) : SameClock a (setDom i f s) := by
  unfold setDom
  repeat' first | exact ⟨h.1, h.2⟩ | assumption | split

theorem clock_setPtp {a : State} (i : Fin 2) (p : Nat) (f : PtpPort → PtpPort) (s : State) (h : SameClock a s) : SameClock a (setPtp i p f s) := by
  unfold setPtp
  repeat' first | exact ⟨h.1, h.2⟩ | assumption | with_reducible apply clock_setDom | split

theorem clock_setTx {a : State} (p : Nat) (f : PortTx → PortTx) (s : State) (h : SameClock a s) : SameClock a (setTx p f s) := ⟨h.1, h.2⟩

theorem clock_startFrame {a : State} (p : Nat) (o : Out) (s : State) (h : SameClock a s) : SameClock a (startFrame p o s) := ⟨h.1, h.2⟩

theorem clock_leaveLater {a : State} (p : Nat) (o : Out) (s : State) (h : SameClock a s) : SameClock a (leaveLater p o s).2 := by
  unfold leaveLater
  repeat' first
     | (intro x; first | (have hx : SameClock a x := by (unfold x; repeat' first | with_reducible assumption | with_reducible apply clock_setPort | with_reducible apply clock_setPtp | split)); clear_value x | (have _ : TimeSt := x) | clear_value x | skip)
     | with_reducible assumption | with_reducible apply clock_setPort | with_reducible apply clock_setPtp | split | lift_lets

theorem clock_leaveLater_eq {a t : State} {p : Nat} {o : Out} {s : State} {z : _} (e : leaveLater p o s = (z, t)) (h : SameClock a s) : SameClock a t := by
  have k := clock_leaveLater p o s h
  rw [e] at k; exact k

theorem clock_serveRing {a : State} (p : Nat) (s : State) (h : SameClock a s) : SameClock a (serveRing p s) := by
  unfold serveRing
  with_reducible repeat' first
     | (intro x; first | (have hx : SameClock a x := by (unfold x; repeat' first | assumption | apply clock_setTx | apply clock_startFrame | apply clock_leaveLater | (refine clock_leaveLater_eq (by assumption) ?_) | split)); clear_value x | (have _ : TimeSt := x) | clear_value x | skip)
     | assumption | apply clock_setTx | apply clock_startFrame | apply clock_leaveLater
     | (refine clock_leaveLater_eq (by assumption) ?_) | split | lift_lets

theorem clock_portSend {a : State} (p : Nat) (prec : Nat) (o : Out) (s : State) (h : SameClock a s) : SameClock a (portSend p prec o s) := by
  unfold portSend
  with_reducible repeat' first
     | (intro x; first | (have hx : SameClock a x := by (unfold x; repeat' first | assumption | apply clock_startFrame | apply clock_setTx | split)); clear_value x | (have _ : TimeSt := x) | clear_value x | skip)
     | assumption | apply clock_startFrame | apply clock_setTx | split | lift_lets

theorem clock_serveRings {a : State} (y0 : List Nat) (y1 : State) (h : SameClock a y1) : SameClock a (serveRings y0 y1) := by
  induction y0 generalizing y1 with
  | nil =>
    unfold serveRings
    repeat' first
       | (intro x; first | (have hx : SameClock a x := by (unfold x; repeat' first | with_reducible assumption | with_reducible apply clock_serveRing | split)); clear_value x | (have _ : TimeSt := x) | clear_value x | skip)
       | with_reducible assumption | with_reducible apply clock_serveRing | split | lift_lets
  | cons x r ih =>
    unfold serveRings
    repeat' first
       | (intro x; first | (have hx : SameClock a x := by (unfold x; repeat' first | with_reducible assumption | with_reducible apply clock_serveRing | with_reducible apply ih | split)); clear_value x | (have _ : TimeSt := x) | clear_value x | skip)
       | with_reducible assumption | with_reducible apply clock_serveRing | with_reducible apply ih | split | lift_lets

theorem clock_portsTick {a : State} (s : State) (h : SameClock a s) : SameClock a (portsTick s) := by
  unfold portsTick
  repeat' first | with_reducible assumption | with_reducible apply clock_serveRings | split

theorem clock_setRing {a : State} (n : Nat) (f : Ring → Ring) (s : State) (h : SameClock a s) : SameClock a (setRing n f s) := ⟨h.1, h.2⟩

theorem clock_setStation {a : State} (n : Nat) (f : Station → Station) (s : State) (h : SameClock a s) : SameClock a (setStation n f s) := ⟨h.1, h.2⟩

theorem clock_advanceEpoch {a : State} (n : Nat) (s : State) (h : SameClock a s) : SameClock a (advanceEpoch n s) := by
  unfold advanceEpoch
  with_reducible repeat' first
     | (intro x; first | (have hx : SameClock a x := by (unfold x; repeat' first | assumption | apply clock_setEpoch | apply clock_raise | apply clock_setRing | split)); clear_value x | (have _ : TimeSt := x) | clear_value x | skip)
     | assumption | apply clock_setEpoch | apply clock_raise | apply clock_setRing | split | lift_lets

theorem clock_takeHsrSeq {a : State} (n : Nat) (s : State) (h : SameClock a s) : SameClock a (takeHsrSeq n s) := by
  unfold takeHsrSeq
  exact clock_setRing _ _ _ h

theorem clock_sendBoth {a : State} (n : Nat) (prec : Nat) (f : Nat → Out) (s : State) (h : SameClock a s) : SameClock a (sendBoth n prec f s) := by
  unfold sendBoth
  with_reducible repeat' first
     | (intro x; first | (have hx : SameClock a x := by (unfold x; repeat' first | assumption | apply clock_portSend | split)); clear_value x | (have _ : TimeSt := x) | clear_value x | skip)
     | assumption | apply clock_portSend | split | lift_lets

theorem clock_sendKnama {a : State} (kind : Nat) (stationNo : Nat) (dataset : Nat) (time : Nat) (hold : Nat) (count : Nat) (body : Bytes) (s : State) (h : SameClock a s) : SameClock a (sendKnama kind stationNo dataset time hold count body s) := by
  unfold sendKnama
  with_reducible repeat' first
     | (intro x; first | (have hx : SameClock a x := by (unfold x; repeat' first | assumption | apply clock_advanceEpoch | apply clock_takeHsrSeq | apply clock_rcAdd | apply clock_sendBoth | split)); clear_value x | (have _ : TimeSt := x) | clear_value x | skip)
     | assumption | apply clock_advanceEpoch | apply clock_takeHsrSeq | apply clock_rcAdd | apply clock_sendBoth | split | lift_lets

theorem clock_sendOutput {a : State} (stationNo : Nat) (dataset : Nat) (time : Nat) (hold : Nat) (body : Bytes) (s : State) (h : SameClock a s) : SameClock a (sendOutput stationNo dataset time hold body s) := by
  unfold sendOutput
  with_reducible repeat' first
     | (intro x; first | (have hx : SameClock a x := by (unfold x; repeat' first | assumption | apply clock_setStation | apply clock_sendKnama | split)); clear_value x | (have _ : TimeSt := x) | clear_value x | skip)
     | assumption | apply clock_setStation | apply clock_sendKnama | split | lift_lets

theorem clock_sendSet {a : State} (time : Nat) (y1 : List (Nat × Nat × Bytes)) (y2 : State) (h : SameClock a y2) : SameClock a (sendSet time y1 y2) := by
  induction y1 generalizing y2 with
  | nil =>
    unfold sendSet
    repeat' first
       | (intro x; first | (have hx : SameClock a x := by (unfold x; repeat' first | with_reducible assumption | with_reducible apply clock_sendOutput | split)); clear_value x | (have _ : TimeSt := x) | clear_value x | skip)
       | with_reducible assumption | with_reducible apply clock_sendOutput | split | lift_lets
  | cons x r ih =>
    unfold sendSet
    repeat' first
       | (intro x; first | (have hx : SameClock a x := by (unfold x; repeat' first | with_reducible assumption | with_reducible apply clock_sendOutput | with_reducible apply ih | split)); clear_value x | (have _ : TimeSt := x) | clear_value x | skip)
       | with_reducible assumption | with_reducible apply clock_sendOutput | with_reducible apply ih | split | lift_lets

theorem clock_publishClass {a : State} (c : Nat) (time : Nat) (s : State) (h : SameClock a s) : SameClock a (publishClass c time s) := by
  unfold publishClass
  with_reducible repeat' first
     | (intro x; first | (have hx : SameClock a x := by (unfold x; repeat' first | assumption | apply clock_sendSet | split)); clear_value x | (have _ : TimeSt := x) | clear_value x | skip)
     | assumption | apply clock_sendSet | split | lift_lets

theorem clock_startNext {a : State} (n : Nat) (s : State) (h : SameClock a s) : SameClock a (startNext n s) := by
  simp only [startNext]
  split
  · cases firstToSend (canCtl s n).bufs with
    | none => exact h
    | some q => exact clock_emit _ _ (clock_setCan _ _ _ (clock_setBuf _ _ _ _ h))
  · exact h

theorem clock_requestFrame {a : State} (n : Nat) (b : Nat) (f : CanPend) (s : State) (h : SameClock a s) : SameClock a (requestFrame n b f s) := by
  unfold requestFrame
  with_reducible repeat' first
     | (intro x; first | (have hx : SameClock a x := by (unfold x; repeat' first | assumption | apply clock_rcAdd | apply clock_startNext | apply clock_setBuf | split)); clear_value x | (have _ : TimeSt := x) | clear_value x | skip)
     | assumption | apply clock_rcAdd | apply clock_startNext | apply clock_setBuf | split | lift_lets

theorem clock_fillBuffer {a : State} (n : Nat) (b : Nat) (data : Bytes) (s : State) (h : SameClock a s) : SameClock a (fillBuffer n b data s) := by
  unfold fillBuffer
  with_reducible repeat' first
     | (intro x; first | (have hx : SameClock a x := by (unfold x; repeat' first | assumption | apply clock_setBuf | apply clock_requestFrame | split)); clear_value x | (have _ : TimeSt := x) | clear_value x | skip)
     | assumption | apply clock_setBuf | apply clock_requestFrame | split | lift_lets

theorem clock_fillBuffers {a : State} (n : Nat) (c : Nat) (y2 : List (Nat × CanBuf)) (y3 : State) (h : SameClock a y3) : SameClock a (fillBuffers n c y2 y3) := by
  induction y2 generalizing y3 with
  | nil =>
    unfold fillBuffers
    repeat' first
       | (intro x; first | (have hx : SameClock a x := by (unfold x; repeat' first | with_reducible assumption | with_reducible apply clock_fillBuffer | split)); clear_value x | (have _ : TimeSt := x) | clear_value x | skip)
       | with_reducible assumption | with_reducible apply clock_fillBuffer | split | lift_lets
  | cons x r ih =>
    unfold fillBuffers
    repeat' first
       | (intro x; first | (have hx : SameClock a x := by (unfold x; repeat' first | with_reducible assumption | with_reducible apply clock_fillBuffer | with_reducible apply ih | split)); clear_value x | (have _ : TimeSt := x) | clear_value x | skip)
       | with_reducible assumption | with_reducible apply clock_fillBuffer | with_reducible apply ih | split | lift_lets

theorem clock_canPublish {a : State} (c : Nat) (s : State) (h : SameClock a s) : SameClock a (canPublish c s) := by
  unfold canPublish
  split
  · exact clock_fillBuffers _ _ _ _ (clock_fillBuffers _ _ _ _ (clock_fillBuffers _ _ _ _ (clock_fillBuffers _ _ _ _ h)))
  · exact h

theorem clock_latchLoops {a : State} (c : Nat) (s : State) (h : SameClock a s) : SameClock a (latchLoops c s) := by
  unfold latchLoops
  repeat' first | exact ⟨h.1, h.2⟩ | assumption | split

theorem clock_saveRetain {a : State} (final : Bool) (stamp : Nat) (s : State) (h : SameClock a s) : SameClock a (saveRetain final stamp s) := by
  unfold saveRetain
  repeat' first | exact ⟨h.1, h.2⟩ | assumption | split

theorem clock_setEngine {a : State} (e : Nat) (f : Engine → Engine) (s : State) (h : SameClock a s) : SameClock a (setEngine e f s) := ⟨h.1, h.2⟩

theorem clock_orderPoint {a : State} (b : Nat) (p : Fin 5) (s : State) (h : SameClock a s) : SameClock a (orderPoint b p s) := by
  unfold orderPoint
  with_reducible repeat' first
     | (intro x; first | (have hx : SameClock a x := by (unfold x; repeat' first | assumption | apply clock_setBrick | split)); clear_value x | (have _ : TimeSt := x) | clear_value x | skip)
     | assumption | apply clock_setBrick | split | lift_lets

theorem clock_raiseDeadline {a : State} (b : Nat) (s : State) (h : SameClock a s) : SameClock a (raiseDeadline b s) := by
  unfold raiseDeadline
  repeat' first | exact ⟨h.1, h.2⟩ | assumption | with_reducible apply clock_orderPoint | split

theorem clock_setPair {a : State} (f : Pair → Pair) (s : State) (h : SameClock a s) : SameClock a (setPair f s) := ⟨h.1, h.2⟩

theorem clock_mismatch {a : State} (row : Nat) (s : State) (h : SameClock a s) : SameClock a (mismatch row s) := by
  induction row generalizing s with
  | zero =>
    unfold mismatch
    repeat' first
       | (intro x; first | (have hx : SameClock a x := by (unfold x; repeat' first | with_reducible assumption | with_reducible apply clock_rcAdd | with_reducible apply clock_countFault | with_reducible apply clock_setPair | split)); clear_value x | (have _ : TimeSt := x) | clear_value x | skip)
       | with_reducible assumption | with_reducible apply clock_rcAdd | with_reducible apply clock_countFault
       | with_reducible apply clock_setPair | split | lift_lets
  | succ x ih =>
    unfold mismatch
    repeat' first
       | (intro x; first | (have hx : SameClock a x := by (unfold x; repeat' first | with_reducible assumption | with_reducible apply clock_rcAdd | with_reducible apply clock_countFault | with_reducible apply clock_setPair | with_reducible apply ih | split)); clear_value x | (have _ : TimeSt := x) | clear_value x | skip)
       | with_reducible assumption | with_reducible apply clock_rcAdd | with_reducible apply clock_countFault
       | with_reducible apply clock_setPair | with_reducible apply ih | split | lift_lets

theorem clock_startResync {a : State} (s : State) (h : SameClock a s) : SameClock a (startResync s) := by
  unfold startResync
  repeat' first | exact ⟨h.1, h.2⟩ | assumption | with_reducible apply clock_raise | with_reducible apply clock_setPair | split

theorem clock_noteLag {a : State} (own : OutDigest) (their : OutDigest) (active : List OutDigest) (s : State) (h : SameClock a s) : SameClock a (noteLag own their active s) := by
  unfold noteLag
  with_reducible repeat' first
     | (intro x; first | (have hx : SameClock a x := by (unfold x; repeat' first | assumption | apply clock_setPair | apply clock_raise | apply clock_startResync | split)); clear_value x | (have _ : TimeSt := x) | clear_value x | skip)
     | assumption | apply clock_setPair | apply clock_raise | apply clock_startResync | split | lift_lets

theorem clock_compareDigest {a : State} (own : OutDigest) (their : OutDigest) (s : State) (h : SameClock a s) : SameClock a (compareDigest own their s) := by
  unfold compareDigest
  with_reducible repeat' first
     | (intro x; first | (have hx : SameClock a x := by (unfold x; repeat' first | assumption | apply clock_setPair | apply clock_mismatch | apply clock_raise | split)); clear_value x | (have _ : TimeSt := x) | clear_value x | skip)
     | assumption | apply clock_setPair | apply clock_mismatch | apply clock_raise | split | lift_lets

theorem clock_compareAll {a : State} (y0 : List OutDigest) (y1 : State) (h : SameClock a y1) : SameClock a (compareAll y0 y1) := by
  induction y0 generalizing y1 with
  | nil =>
    unfold compareAll
    repeat' first
       | (intro x; first | (have hx : SameClock a x := by (unfold x; repeat' first | with_reducible assumption | with_reducible apply clock_noteLag | with_reducible apply clock_setPair | with_reducible apply clock_compareDigest | split)); clear_value x | (have _ : TimeSt := x) | clear_value x | skip)
       | with_reducible assumption | with_reducible apply clock_noteLag | with_reducible apply clock_setPair
       | with_reducible apply clock_compareDigest | split | lift_lets
  | cons x r ih =>
    unfold compareAll
    repeat' first
       | (intro x; first | (have hx : SameClock a x := by (unfold x; repeat' first | with_reducible assumption | with_reducible apply clock_noteLag | with_reducible apply clock_setPair | with_reducible apply clock_compareDigest | with_reducible apply ih | split)); clear_value x | (have _ : TimeSt := x) | clear_value x | skip)
       | with_reducible assumption | with_reducible apply clock_noteLag | with_reducible apply clock_setPair
       | with_reducible apply clock_compareDigest | with_reducible apply ih | split | lift_lets

theorem clock_ownDigest {a : State} (c : Nat) (cycle : W32) (digest : W64) (s : State) (h : SameClock a s) : SameClock a (ownDigest c cycle digest s) := by
  unfold ownDigest
  repeat' first | with_reducible assumption | with_reducible apply clock_setPair | with_reducible apply clock_compareAll | split

theorem clock_sendDigest {a : State} (c : Fin 4) (cycle : W32) (digest : W64) (set : List (Nat × Nat × Bytes)) (notCompared : Bool) (s : State) (h : SameClock a s) : SameClock a (sendDigest c cycle digest set notCompared s) := by
  unfold sendDigest
  with_reducible repeat' first
     | (intro x; first | (have hx : SameClock a x := by (unfold x; repeat' first | assumption | apply clock_rcAdd | apply clock_setPair | apply clock_sendMirror | apply clock_emit | apply clock_ownDigest | split)); clear_value x | (have _ : TimeSt := x) | clear_value x | skip)
     | assumption | apply clock_rcAdd | apply clock_setPair | apply clock_sendMirror | apply clock_emit | apply clock_ownDigest
     | split | lift_lets

theorem clock_compareRetain {a : State} (s : State) (h : SameClock a s) : SameClock a (compareRetain s) := by
  unfold compareRetain
  with_reducible repeat' first
     | (intro x; first | (have hx : SameClock a x := by (unfold x; repeat' first | assumption | apply clock_setPair | apply clock_mismatch | apply clock_raise | split)); clear_value x | (have _ : TimeSt := x) | clear_value x | skip)
     | assumption | apply clock_setPair | apply clock_mismatch | apply clock_raise | split | lift_lets

theorem clock_retainCommit {a : State} (stamp : Nat) (s : State) (h : SameClock a s) : SameClock a (retainCommit stamp s) := by
  unfold retainCommit
  with_reducible repeat' first
     | (intro x; first | (have hx : SameClock a x := by (unfold x; repeat' first | assumption | apply clock_sendMirror | apply clock_emit | apply clock_setPair | apply clock_saveRetain | apply clock_compareRetain | split)); clear_value x | (have _ : TimeSt := x) | clear_value x | skip)
     | assumption | apply clock_sendMirror | apply clock_emit | apply clock_setPair | apply clock_saveRetain
     | apply clock_compareRetain | split | lift_lets

theorem clock_histPut {a : State} (r : HistRec) (s : State) (h : SameClock a s) : SameClock a (histPut r s) := ⟨h.1, h.2⟩

theorem clock_setSub {a : State} (i : Nat) (z1 : HistSub) (s : State) (h : SameClock a s) : SameClock a (setSub i z1 s) := ⟨h.1, h.2⟩

theorem clock_sampleSub {a : State} (stamp : Nat) (safe : Bool) (i : Nat) (s : State) (h : SameClock a s) : SameClock a (sampleSub stamp safe i s) := by
  unfold sampleSub
  with_reducible repeat' first
     | (intro x; first | (have hx : SameClock a x := by (unfold x; repeat' first | assumption | apply clock_histPut | apply clock_setSub | split)); clear_value x | (have _ : TimeSt := x) | clear_value x | skip)
     | assumption | apply clock_histPut | apply clock_setSub | split | lift_lets

theorem clock_sampleSubs {a : State} (stamp : Nat) (safe : Bool) (y2 : List Nat) (y3 : State) (h : SameClock a y3) : SameClock a (sampleSubs stamp safe y2 y3) := by
  induction y2 generalizing y3 with
  | nil =>
    unfold sampleSubs
    repeat' first
       | (intro x; first | (have hx : SameClock a x := by (unfold x; repeat' first | with_reducible assumption | with_reducible apply clock_sampleSub | split)); clear_value x | (have _ : TimeSt := x) | clear_value x | skip)
       | with_reducible assumption | with_reducible apply clock_sampleSub | split | lift_lets
  | cons x r ih =>
    unfold sampleSubs
    repeat' first
       | (intro x; first | (have hx : SameClock a x := by (unfold x; repeat' first | with_reducible assumption | with_reducible apply clock_sampleSub | with_reducible apply ih | split)); clear_value x | (have _ : TimeSt := x) | clear_value x | skip)
       | with_reducible assumption | with_reducible apply clock_sampleSub | with_reducible apply ih | split | lift_lets

theorem clock_endSampling {a : State} (s : State) (h : SameClock a s) : SameClock a (endSampling s) := by
  unfold endSampling
  repeat' first | exact ⟨h.1, h.2⟩ | assumption | with_reducible apply clock_sampleSubs | split

theorem clock_sampleHist {a : State} (stamp : Nat) (safe : Bool) (s : State) (h : SameClock a s) : SameClock a (sampleHist stamp safe s) := ⟨h.1, h.2⟩

theorem clock_samplingTick {a : State} (s : State) (h : SameClock a s) : SameClock a (samplingTick s) := by
  unfold samplingTick
  repeat' first | exact ⟨h.1, h.2⟩ | assumption | with_reducible apply clock_endSampling | split

theorem clock_setLine {a : State} (x : Entry) (f : LedgerLine → LedgerLine) (s : State) (h : SameClock a s) : SameClock a (setLine x f s) := ⟨h.1, h.2⟩

theorem clock_pushTo {a : State} (e : Nat) (x : Entry) (s : State) (h : SameClock a s) : SameClock a (pushTo e x s) := by
  unfold pushTo
  with_reducible repeat' first
     | (intro x; first | (have hx : SameClock a x := by (unfold x; repeat' first | assumption | apply clock_setEngine | apply clock_setLine | apply clock_raiseDeadline | apply clock_wakeBrick | split)); clear_value x | (have _ : TimeSt := x) | clear_value x | skip)
     | assumption | apply clock_setEngine | apply clock_setLine | apply clock_raiseDeadline | apply clock_wakeBrick | split
     | lift_lets

theorem clock_pushEntry {a : State} (x : Entry) (s : State) (h : SameClock a s) : SameClock a (pushEntry x s) := by
  unfold pushEntry
  repeat' first | exact ⟨h.1, h.2⟩ | assumption | with_reducible apply clock_pushTo | split

theorem clock_issueEntry {a : State} (x : Entry) (s : State) (h : SameClock a s) : SameClock a (issueEntry x s) := by
  unfold issueEntry
  repeat' first | exact ⟨h.1, h.2⟩ | assumption | with_reducible apply clock_pushEntry | split

theorem clock_issueUnit {a : State} (c : Nat) (n : Nat) (u : Nat) (e : UnitEntry) (s : State) (h : SameClock a s) : SameClock a (issueUnit c n u e s) := by
  unfold issueUnit
  repeat' first | exact ⟨h.1, h.2⟩ | assumption | with_reducible apply clock_issueEntry | split

theorem clock_issueUnits {a : State} (c : Nat) (n : Nat) (im : Image) (y3 : List Nat) (y4 : State) (h : SameClock a y4) : SameClock a (issueUnits c n im y3 y4) := by
  induction y3 generalizing y4 with
  | nil =>
    unfold issueUnits
    repeat' first
       | (intro x; first | (have hx : SameClock a x := by (unfold x; repeat' first | with_reducible assumption | with_reducible apply clock_issueUnit | split)); clear_value x | (have _ : TimeSt := x) | clear_value x | skip)
       | with_reducible assumption | with_reducible apply clock_issueUnit | split | lift_lets
  | cons x r ih =>
    unfold issueUnits
    repeat' first
       | (intro x; first | (have hx : SameClock a x := by (unfold x; repeat' first | with_reducible assumption | with_reducible apply clock_issueUnit | with_reducible apply ih | split)); clear_value x | (have _ : TimeSt := x) | clear_value x | skip)
       | with_reducible assumption | with_reducible apply clock_issueUnit | with_reducible apply ih | split | lift_lets

theorem clock_commitWrites {a : State} (isLate : Bool) (y1 : List (Nat × PointRec)) (y2 : State) (h : SameClock a y2) : SameClock a (commitWrites isLate y1 y2) := by
  induction y1 generalizing y2 with
  | nil =>
    unfold commitWrites
    repeat' first
       | (intro x; first | (have hx : SameClock a x := by (unfold x; repeat' first | with_reducible assumption | with_reducible apply clock_putRec | split)); clear_value x | (have _ : TimeSt := x) | clear_value x | skip)
       | with_reducible assumption | with_reducible apply clock_putRec | split | lift_lets
  | cons x r ih =>
    unfold commitWrites
    repeat' first
       | (intro x; first | (have hx : SameClock a x := by (unfold x; repeat' first | with_reducible assumption | with_reducible apply clock_putRec | with_reducible apply ih | split)); clear_value x | (have _ : TimeSt := x) | clear_value x | skip)
       | with_reducible assumption | with_reducible apply clock_putRec | with_reducible apply ih | split | lift_lets

theorem clock_publishCommit {a : State} (c : Fin 4) (y : Cycle) (s : State) (h : SameClock a s) : SameClock a (publishCommit c y s) := by
  unfold publishCommit
  with_reducible repeat' first
     | (intro x; first | (have hx : SameClock a x := by (unfold x; repeat' first | assumption | apply clock_canPublish | apply clock_latchLoops | apply clock_publishClass | apply clock_sendDigest | split)); clear_value x | (have _ : TimeSt := x) | clear_value x | skip)
     | assumption | apply clock_canPublish | apply clock_latchLoops | apply clock_publishClass | apply clock_sendDigest | split
     | lift_lets

theorem clock_activationDone {a : State} (c : Nat) (s : State) (h : SameClock a s) : SameClock a (activationDone c s) := by
  unfold activationDone
  repeat' first | exact ⟨h.1, h.2⟩ | assumption | with_reducible apply clock_finishOpt | split

theorem clock_commitDone {a : State} (c : Nat) (was : ClassSt) (s : State) (h : SameClock a s) : SameClock a (commitDone c was s) := by
  unfold commitDone
  with_reducible repeat' first
     | (intro x; first | (have hx : SameClock a x := by (unfold x; repeat' first | assumption | apply clock_raise | apply clock_finishOpt | apply clock_setCls | split)); clear_value x | (have _ : TimeSt := x) | clear_value x | skip)
     | assumption | apply clock_raise | apply clock_finishOpt | apply clock_setCls | split | lift_lets

theorem clock_issueBackground {a : State} (s : State) (h : SameClock a s) : SameClock a (issueBackground s) := by
  unfold issueBackground
  repeat' first | exact ⟨h.1, h.2⟩ | assumption | with_reducible apply clock_issueUnits | split

theorem clock_commitCycle {a : State} (c : Nat) (s : State) (h : SameClock a s) : SameClock a (commitCycle c s) := by
  unfold commitCycle
  with_reducible repeat' first
     | (intro x; first | (have hx : SameClock a x := by (unfold x; repeat' first | assumption | apply clock_commitWrites | apply clock_setCls | apply clock_activationDone | apply clock_commitDone | apply clock_publishCommit | apply clock_retainCommit | apply clock_sampleHist | apply clock_issueBackground | split)); clear_value x | (have _ : TimeSt := x) | clear_value x | skip)
     | assumption | apply clock_commitWrites | apply clock_setCls | apply clock_activationDone | apply clock_commitDone
     | apply clock_publishCommit | apply clock_retainCommit | apply clock_sampleHist | apply clock_issueBackground | split | lift_lets

theorem clock_setCycle {a : State} (c : Nat) (f : Cycle → Cycle) (s : State) (h : SameClock a s) : SameClock a (setCycle c f s) := ⟨h.1, h.2⟩

theorem clock_openCourse {a : State} (c : Nat) (y1 : Nat) (y2 : Nat) (y3 : State) (h : SameClock a y3) : SameClock a (openCourse c y1 y2 y3) := by
  induction y1 generalizing y2 y3 with
  | zero =>
    unfold openCourse
    repeat' first
       | (intro x; first | (have hx : SameClock a x := by (unfold x; repeat' first | with_reducible assumption | with_reducible apply clock_setCycle | with_reducible apply clock_commitCycle | with_reducible apply clock_issueUnits | split)); clear_value x | (have _ : TimeSt := x) | clear_value x | skip)
       | with_reducible assumption | with_reducible apply clock_setCycle | with_reducible apply clock_commitCycle
       | with_reducible apply clock_issueUnits | split | lift_lets
  | succ x ih =>
    unfold openCourse
    repeat' first
       | (intro x; first | (have hx : SameClock a x := by (unfold x; repeat' first | with_reducible assumption | with_reducible apply clock_setCycle | with_reducible apply clock_commitCycle | with_reducible apply clock_issueUnits | with_reducible apply ih | split)); clear_value x | (have _ : TimeSt := x) | clear_value x | skip)
       | with_reducible assumption | with_reducible apply clock_setCycle | with_reducible apply clock_commitCycle
       | with_reducible apply clock_issueUnits | with_reducible apply ih | split | lift_lets

theorem clock_releaseFrom {a : State} (c : Nat) (n : Nat) (s : State) (h : SameClock a s) : SameClock a (releaseFrom c n s) := by
  unfold releaseFrom
  repeat' first | exact ⟨h.1, h.2⟩ | assumption | with_reducible apply clock_openCourse | split

theorem clock_jobReturned {a : State} (c : Nat) (s : State) (h : SameClock a s) : SameClock a (jobReturned c s) := by
  unfold jobReturned
  with_reducible repeat' first
     | (intro x; first | (have hx : SameClock a x := by (unfold x; repeat' first | assumption | apply clock_setCycle | apply clock_commitCycle | apply clock_releaseFrom | split)); clear_value x | (have _ : TimeSt := x) | clear_value x | skip)
     | assumption | apply clock_setCycle | apply clock_commitCycle | apply clock_releaseFrom | split | lift_lets

theorem clock_optExpiry {a : State} (s : State) (h : SameClock a s) : SameClock a (optExpiry s) := by
  unfold optExpiry
  repeat' first | exact ⟨h.1, h.2⟩ | assumption | with_reducible apply clock_jobReturned | split

theorem clock_setFwu {a : State} (f : Fwu → Fwu) (s : State) (h : SameClock a s) : SameClock a (setFwu f s) := ⟨h.1, h.2⟩

theorem clock_setSession {a : State} (f : Session → Session) (s : State) (h : SameClock a s) : SameClock a (setSession f s) := ⟨h.1, h.2⟩

theorem clock_putIdle {a : State} (x : FwSlot) (st : SlotState) (s : State) (h : SameClock a s) : SameClock a (putIdle x st s) :=
  clock_setFwu _ s h

theorem clock_failVerify {a : State} (check : Nat) (req : Option Req) (s : State) (h : SameClock a s) : SameClock a (failVerify check req s) := by
  unfold failVerify
  with_reducible repeat' first
     | (intro x; first | (have hx : SameClock a x := by (unfold x; repeat' first | assumption | apply clock_setSession | apply clock_raise | apply clock_setFwu | apply clock_finishOpt | split)); clear_value x | (have _ : TimeSt := x) | clear_value x | skip)
     | assumption | apply clock_setSession | apply clock_raise | apply clock_setFwu | apply clock_finishOpt | rfl
     | (show (_ : List Nat) = _; rfl) | split | lift_lets

theorem clock_finishBuild {a : State} (b : Build) (x : Session) (s : State) (h : SameClock a s) : SameClock a (finishBuild b x s) := by
  unfold finishBuild
  with_reducible repeat' first
     | (intro x; first | (have hx : SameClock a x := by (unfold x; repeat' first | assumption | apply clock_failVerify | apply clock_putIdle | apply clock_setSession | apply clock_setFwu | apply clock_finishOpt | split)); clear_value x | (have _ : TimeSt := x) | clear_value x | skip)
     | assumption | apply clock_failVerify | apply clock_putIdle | apply clock_setSession | apply clock_setFwu
     | apply clock_finishOpt | rfl | (show (_ : List Nat) = _; rfl) | split | lift_lets

theorem clock_buildTick {a : State} (s : State) (h : SameClock a s) : SameClock a (buildTick s) := by
  unfold buildTick
  split
  · rename_i b x _ _
    split
    · have k := clock_setFwu (fun w => { w with
        build := some { b with blocks := b.blocks + 1, from' := s.refNs }, progress := (b.blocks + 1, b.total) }) s h
      dsimp only
      split
      · exact clock_finishBuild _ _ _ k
      · exact k
    · exact h
  · exact h

theorem clock_resyncTimeout {a : State} (s : State) (h : SameClock a s) : SameClock a (resyncTimeout s) := by
  unfold resyncTimeout
  repeat' first | exact ⟨h.1, h.2⟩ | assumption | with_reducible apply clock_finish | split

theorem clock_powerTimeout {a : State} (s : State) (h : SameClock a s) : SameClock a (powerTimeout s) := by
  unfold powerTimeout
  repeat' first | exact ⟨h.1, h.2⟩ | assumption | with_reducible apply clock_finish | split

end Sys2Proof.Laws
end

