-- ==== Sys2Proof/Laws/State.lean ====
section
/-! SUPPORT. Laws/State.lean: the fields of State after each small update, so that no proof unfolds a record update. -/

namespace Sys2Proof.Laws

open Sys2Proof.Machine

section
variable (s : State)

/-! emit changes emitted only. -/

@[simp] theorem emit_free (o : Out) : (emit o s).free = s.free := rfl
@[simp] theorem emit_refNs (o : Out) : (emit o s).refNs = s.refNs := rfl
@[simp] theorem emit_power (o : Out) : (emit o s).power = s.power := rfl
@[simp] theorem emit_regs (o : Out) : (emit o s).regs = s.regs := rfl
@[simp] theorem emit_evt (o : Out) : (emit o s).evt = s.evt := rfl
@[simp] theorem emit_host (o : Out) : (emit o s).host = s.host := rfl
@[simp] theorem emit_sb (o : Out) : (emit o s).sb = s.sb := rfl
@[simp] theorem emit_stores (o : Out) : (emit o s).stores = s.stores := rfl
@[simp] theorem emit_bricks (o : Out) : (emit o s).bricks = s.bricks := rfl
@[simp] theorem emit_budget (o : Out) : (emit o s).budget = s.budget := rfl
@[simp] theorem emit_classes (o : Out) : (emit o s).classes = s.classes := rfl
@[simp] theorem emit_points (o : Out) : (emit o s).points = s.points := rfl
@[simp] theorem emit_defs (o : Out) : (emit o s).defs = s.defs := rfl
@[simp] theorem emit_forces (o : Out) : (emit o s).forces = s.forces := rfl
@[simp] theorem emit_forceQ (o : Out) : (emit o s).forceQ = s.forceQ := rfl
@[simp] theorem emit_hist (o : Out) : (emit o s).hist = s.hist := rfl
@[simp] theorem emit_progLoad (o : Out) : (emit o s).progLoad = s.progLoad := rfl
@[simp] theorem emit_progNext (o : Out) : (emit o s).progNext = s.progNext := rfl
@[simp] theorem emit_program (o : Out) : (emit o s).program = s.program := rfl
@[simp] theorem emit_switch (o : Out) : (emit o s).switch = s.switch := rfl
@[simp] theorem emit_solveDeadline (o : Out) : (emit o s).solveDeadline = s.solveDeadline := rfl
@[simp] theorem emit_engines (o : Out) : (emit o s).engines = s.engines := rfl
@[simp] theorem emit_work (o : Out) : (emit o s).work = s.work := rfl
@[simp] theorem emit_loops (o : Out) : (emit o s).loops = s.loops := rfl
@[simp] theorem emit_loopMs (o : Out) : (emit o s).loopMs = s.loopMs := rfl
@[simp] theorem emit_loopLeft (o : Out) : (emit o s).loopLeft = s.loopLeft := rfl
@[simp] theorem emit_loopEvals (o : Out) : (emit o s).loopEvals = s.loopEvals := rfl
@[simp] theorem emit_loopMaxLoad (o : Out) : (emit o s).loopMaxLoad = s.loopMaxLoad := rfl
@[simp] theorem emit_solver (o : Out) : (emit o s).solver = s.solver := rfl
@[simp] theorem emit_opt (o : Out) : (emit o s).opt = s.opt := rfl
@[simp] theorem emit_est (o : Out) : (emit o s).est = s.est := rfl
@[simp] theorem emit_meter (o : Out) : (emit o s).meter = s.meter := rfl
@[simp] theorem emit_rings (o : Out) : (emit o s).rings = s.rings := rfl
@[simp] theorem emit_ringTx (o : Out) : (emit o s).ringTx = s.ringTx := rfl
@[simp] theorem emit_time (o : Out) : (emit o s).time = s.time := rfl
@[simp] theorem emit_can (o : Out) : (emit o s).can = s.can := rfl
@[simp] theorem emit_boundary (o : Out) : (emit o s).boundary = s.boundary := rfl
@[simp] theorem emit_pair (o : Out) : (emit o s).pair = s.pair := rfl
@[simp] theorem emit_test (o : Out) : (emit o s).test = s.test := rfl
@[simp] theorem emit_rtc (o : Out) : (emit o s).rtc = s.rtc := rfl
@[simp] theorem emit_recorder (o : Out) : (emit o s).recorder = s.recorder := rfl
@[simp] theorem emit_panel (o : Out) : (emit o s).panel = s.panel := rfl
@[simp] theorem emit_keys (o : Out) : (emit o s).keys = s.keys := rfl
@[simp] theorem emit_fwu (o : Out) : (emit o s).fwu = s.fwu := rfl
@[simp] theorem emit_pending (o : Out) : (emit o s).pending = s.pending := rfl

/-! takeAccepted changes host only. -/

@[simp] theorem takeAccepted_free (op : Nat) (r : Req) : (takeAccepted op r s).free = s.free := rfl
@[simp] theorem takeAccepted_refNs (op : Nat) (r : Req) : (takeAccepted op r s).refNs = s.refNs := rfl
@[simp] theorem takeAccepted_emitted (op : Nat) (r : Req) : (takeAccepted op r s).emitted = s.emitted := rfl
@[simp] theorem takeAccepted_power (op : Nat) (r : Req) : (takeAccepted op r s).power = s.power := rfl
@[simp] theorem takeAccepted_regs (op : Nat) (r : Req) : (takeAccepted op r s).regs = s.regs := rfl
@[simp] theorem takeAccepted_evt (op : Nat) (r : Req) : (takeAccepted op r s).evt = s.evt := rfl
@[simp] theorem takeAccepted_sb (op : Nat) (r : Req) : (takeAccepted op r s).sb = s.sb := rfl
@[simp] theorem takeAccepted_stores (op : Nat) (r : Req) : (takeAccepted op r s).stores = s.stores := rfl
@[simp] theorem takeAccepted_bricks (op : Nat) (r : Req) : (takeAccepted op r s).bricks = s.bricks := rfl
@[simp] theorem takeAccepted_budget (op : Nat) (r : Req) : (takeAccepted op r s).budget = s.budget := rfl
@[simp] theorem takeAccepted_classes (op : Nat) (r : Req) : (takeAccepted op r s).classes = s.classes := rfl
@[simp] theorem takeAccepted_points (op : Nat) (r : Req) : (takeAccepted op r s).points = s.points := rfl
@[simp] theorem takeAccepted_defs (op : Nat) (r : Req) : (takeAccepted op r s).defs = s.defs := rfl
@[simp] theorem takeAccepted_forces (op : Nat) (r : Req) : (takeAccepted op r s).forces = s.forces := rfl
@[simp] theorem takeAccepted_forceQ (op : Nat) (r : Req) : (takeAccepted op r s).forceQ = s.forceQ := rfl
@[simp] theorem takeAccepted_hist (op : Nat) (r : Req) : (takeAccepted op r s).hist = s.hist := rfl
@[simp] theorem takeAccepted_progLoad (op : Nat) (r : Req) : (takeAccepted op r s).progLoad = s.progLoad := rfl
@[simp] theorem takeAccepted_progNext (op : Nat) (r : Req) : (takeAccepted op r s).progNext = s.progNext := rfl
@[simp] theorem takeAccepted_program (op : Nat) (r : Req) : (takeAccepted op r s).program = s.program := rfl
@[simp] theorem takeAccepted_switch (op : Nat) (r : Req) : (takeAccepted op r s).switch = s.switch := rfl
@[simp] theorem takeAccepted_solveDeadline (op : Nat) (r : Req) : (takeAccepted op r s).solveDeadline = s.solveDeadline := rfl
@[simp] theorem takeAccepted_engines (op : Nat) (r : Req) : (takeAccepted op r s).engines = s.engines := rfl
@[simp] theorem takeAccepted_work (op : Nat) (r : Req) : (takeAccepted op r s).work = s.work := rfl
@[simp] theorem takeAccepted_loops (op : Nat) (r : Req) : (takeAccepted op r s).loops = s.loops := rfl
@[simp] theorem takeAccepted_loopMs (op : Nat) (r : Req) : (takeAccepted op r s).loopMs = s.loopMs := rfl
@[simp] theorem takeAccepted_loopLeft (op : Nat) (r : Req) : (takeAccepted op r s).loopLeft = s.loopLeft := rfl
@[simp] theorem takeAccepted_loopEvals (op : Nat) (r : Req) : (takeAccepted op r s).loopEvals = s.loopEvals := rfl
@[simp] theorem takeAccepted_loopMaxLoad (op : Nat) (r : Req) : (takeAccepted op r s).loopMaxLoad = s.loopMaxLoad := rfl
@[simp] theorem takeAccepted_solver (op : Nat) (r : Req) : (takeAccepted op r s).solver = s.solver := rfl
@[simp] theorem takeAccepted_opt (op : Nat) (r : Req) : (takeAccepted op r s).opt = s.opt := rfl
@[simp] theorem takeAccepted_est (op : Nat) (r : Req) : (takeAccepted op r s).est = s.est := rfl
@[simp] theorem takeAccepted_meter (op : Nat) (r : Req) : (takeAccepted op r s).meter = s.meter := rfl
@[simp] theorem takeAccepted_rings (op : Nat) (r : Req) : (takeAccepted op r s).rings = s.rings := rfl
@[simp] theorem takeAccepted_ringTx (op : Nat) (r : Req) : (takeAccepted op r s).ringTx = s.ringTx := rfl
@[simp] theorem takeAccepted_time (op : Nat) (r : Req) : (takeAccepted op r s).time = s.time := rfl
@[simp] theorem takeAccepted_can (op : Nat) (r : Req) : (takeAccepted op r s).can = s.can := rfl
@[simp] theorem takeAccepted_boundary (op : Nat) (r : Req) : (takeAccepted op r s).boundary = s.boundary := rfl
@[simp] theorem takeAccepted_pair (op : Nat) (r : Req) : (takeAccepted op r s).pair = s.pair := rfl
@[simp] theorem takeAccepted_test (op : Nat) (r : Req) : (takeAccepted op r s).test = s.test := rfl
@[simp] theorem takeAccepted_rtc (op : Nat) (r : Req) : (takeAccepted op r s).rtc = s.rtc := rfl
@[simp] theorem takeAccepted_recorder (op : Nat) (r : Req) : (takeAccepted op r s).recorder = s.recorder := rfl
@[simp] theorem takeAccepted_panel (op : Nat) (r : Req) : (takeAccepted op r s).panel = s.panel := rfl
@[simp] theorem takeAccepted_keys (op : Nat) (r : Req) : (takeAccepted op r s).keys = s.keys := rfl
@[simp] theorem takeAccepted_fwu (op : Nat) (r : Req) : (takeAccepted op r s).fwu = s.fwu := rfl
@[simp] theorem takeAccepted_pending (op : Nat) (r : Req) : (takeAccepted op r s).pending = s.pending := rfl

/-! holdCmd changes host only. -/

@[simp] theorem holdCmd_free (op : Nat) (r : Req) : (holdCmd op r s).free = s.free := rfl
@[simp] theorem holdCmd_refNs (op : Nat) (r : Req) : (holdCmd op r s).refNs = s.refNs := rfl
@[simp] theorem holdCmd_emitted (op : Nat) (r : Req) : (holdCmd op r s).emitted = s.emitted := rfl
@[simp] theorem holdCmd_power (op : Nat) (r : Req) : (holdCmd op r s).power = s.power := rfl
@[simp] theorem holdCmd_regs (op : Nat) (r : Req) : (holdCmd op r s).regs = s.regs := rfl
@[simp] theorem holdCmd_evt (op : Nat) (r : Req) : (holdCmd op r s).evt = s.evt := rfl
@[simp] theorem holdCmd_sb (op : Nat) (r : Req) : (holdCmd op r s).sb = s.sb := rfl
@[simp] theorem holdCmd_stores (op : Nat) (r : Req) : (holdCmd op r s).stores = s.stores := rfl
@[simp] theorem holdCmd_bricks (op : Nat) (r : Req) : (holdCmd op r s).bricks = s.bricks := rfl
@[simp] theorem holdCmd_budget (op : Nat) (r : Req) : (holdCmd op r s).budget = s.budget := rfl
@[simp] theorem holdCmd_classes (op : Nat) (r : Req) : (holdCmd op r s).classes = s.classes := rfl
@[simp] theorem holdCmd_points (op : Nat) (r : Req) : (holdCmd op r s).points = s.points := rfl
@[simp] theorem holdCmd_defs (op : Nat) (r : Req) : (holdCmd op r s).defs = s.defs := rfl
@[simp] theorem holdCmd_forces (op : Nat) (r : Req) : (holdCmd op r s).forces = s.forces := rfl
@[simp] theorem holdCmd_forceQ (op : Nat) (r : Req) : (holdCmd op r s).forceQ = s.forceQ := rfl
@[simp] theorem holdCmd_hist (op : Nat) (r : Req) : (holdCmd op r s).hist = s.hist := rfl
@[simp] theorem holdCmd_progLoad (op : Nat) (r : Req) : (holdCmd op r s).progLoad = s.progLoad := rfl
@[simp] theorem holdCmd_progNext (op : Nat) (r : Req) : (holdCmd op r s).progNext = s.progNext := rfl
@[simp] theorem holdCmd_program (op : Nat) (r : Req) : (holdCmd op r s).program = s.program := rfl
@[simp] theorem holdCmd_switch (op : Nat) (r : Req) : (holdCmd op r s).switch = s.switch := rfl
@[simp] theorem holdCmd_solveDeadline (op : Nat) (r : Req) : (holdCmd op r s).solveDeadline = s.solveDeadline := rfl
@[simp] theorem holdCmd_engines (op : Nat) (r : Req) : (holdCmd op r s).engines = s.engines := rfl
@[simp] theorem holdCmd_work (op : Nat) (r : Req) : (holdCmd op r s).work = s.work := rfl
@[simp] theorem holdCmd_loops (op : Nat) (r : Req) : (holdCmd op r s).loops = s.loops := rfl
@[simp] theorem holdCmd_loopMs (op : Nat) (r : Req) : (holdCmd op r s).loopMs = s.loopMs := rfl
@[simp] theorem holdCmd_loopLeft (op : Nat) (r : Req) : (holdCmd op r s).loopLeft = s.loopLeft := rfl
@[simp] theorem holdCmd_loopEvals (op : Nat) (r : Req) : (holdCmd op r s).loopEvals = s.loopEvals := rfl
@[simp] theorem holdCmd_loopMaxLoad (op : Nat) (r : Req) : (holdCmd op r s).loopMaxLoad = s.loopMaxLoad := rfl
@[simp] theorem holdCmd_solver (op : Nat) (r : Req) : (holdCmd op r s).solver = s.solver := rfl
@[simp] theorem holdCmd_opt (op : Nat) (r : Req) : (holdCmd op r s).opt = s.opt := rfl
@[simp] theorem holdCmd_est (op : Nat) (r : Req) : (holdCmd op r s).est = s.est := rfl
@[simp] theorem holdCmd_meter (op : Nat) (r : Req) : (holdCmd op r s).meter = s.meter := rfl
@[simp] theorem holdCmd_rings (op : Nat) (r : Req) : (holdCmd op r s).rings = s.rings := rfl
@[simp] theorem holdCmd_ringTx (op : Nat) (r : Req) : (holdCmd op r s).ringTx = s.ringTx := rfl
@[simp] theorem holdCmd_time (op : Nat) (r : Req) : (holdCmd op r s).time = s.time := rfl
@[simp] theorem holdCmd_can (op : Nat) (r : Req) : (holdCmd op r s).can = s.can := rfl
@[simp] theorem holdCmd_boundary (op : Nat) (r : Req) : (holdCmd op r s).boundary = s.boundary := rfl
@[simp] theorem holdCmd_pair (op : Nat) (r : Req) : (holdCmd op r s).pair = s.pair := rfl
@[simp] theorem holdCmd_test (op : Nat) (r : Req) : (holdCmd op r s).test = s.test := rfl
@[simp] theorem holdCmd_rtc (op : Nat) (r : Req) : (holdCmd op r s).rtc = s.rtc := rfl
@[simp] theorem holdCmd_recorder (op : Nat) (r : Req) : (holdCmd op r s).recorder = s.recorder := rfl
@[simp] theorem holdCmd_panel (op : Nat) (r : Req) : (holdCmd op r s).panel = s.panel := rfl
@[simp] theorem holdCmd_keys (op : Nat) (r : Req) : (holdCmd op r s).keys = s.keys := rfl
@[simp] theorem holdCmd_fwu (op : Nat) (r : Req) : (holdCmd op r s).fwu = s.fwu := rfl
@[simp] theorem holdCmd_pending (op : Nat) (r : Req) : (holdCmd op r s).pending = s.pending := rfl

/-! setSlot changes host only. -/

@[simp] theorem setSlot_free (n : Nat) (x : Slot) : (setSlot n x s).free = s.free := rfl
@[simp] theorem setSlot_refNs (n : Nat) (x : Slot) : (setSlot n x s).refNs = s.refNs := rfl
@[simp] theorem setSlot_emitted (n : Nat) (x : Slot) : (setSlot n x s).emitted = s.emitted := rfl
@[simp] theorem setSlot_power (n : Nat) (x : Slot) : (setSlot n x s).power = s.power := rfl
@[simp] theorem setSlot_regs (n : Nat) (x : Slot) : (setSlot n x s).regs = s.regs := rfl
@[simp] theorem setSlot_evt (n : Nat) (x : Slot) : (setSlot n x s).evt = s.evt := rfl
@[simp] theorem setSlot_sb (n : Nat) (x : Slot) : (setSlot n x s).sb = s.sb := rfl
@[simp] theorem setSlot_stores (n : Nat) (x : Slot) : (setSlot n x s).stores = s.stores := rfl
@[simp] theorem setSlot_bricks (n : Nat) (x : Slot) : (setSlot n x s).bricks = s.bricks := rfl
@[simp] theorem setSlot_budget (n : Nat) (x : Slot) : (setSlot n x s).budget = s.budget := rfl
@[simp] theorem setSlot_classes (n : Nat) (x : Slot) : (setSlot n x s).classes = s.classes := rfl
@[simp] theorem setSlot_points (n : Nat) (x : Slot) : (setSlot n x s).points = s.points := rfl
@[simp] theorem setSlot_defs (n : Nat) (x : Slot) : (setSlot n x s).defs = s.defs := rfl
@[simp] theorem setSlot_forces (n : Nat) (x : Slot) : (setSlot n x s).forces = s.forces := rfl
@[simp] theorem setSlot_forceQ (n : Nat) (x : Slot) : (setSlot n x s).forceQ = s.forceQ := rfl
@[simp] theorem setSlot_hist (n : Nat) (x : Slot) : (setSlot n x s).hist = s.hist := rfl
@[simp] theorem setSlot_progLoad (n : Nat) (x : Slot) : (setSlot n x s).progLoad = s.progLoad := rfl
@[simp] theorem setSlot_progNext (n : Nat) (x : Slot) : (setSlot n x s).progNext = s.progNext := rfl
@[simp] theorem setSlot_program (n : Nat) (x : Slot) : (setSlot n x s).program = s.program := rfl
@[simp] theorem setSlot_switch (n : Nat) (x : Slot) : (setSlot n x s).switch = s.switch := rfl
@[simp] theorem setSlot_solveDeadline (n : Nat) (x : Slot) : (setSlot n x s).solveDeadline = s.solveDeadline := rfl
@[simp] theorem setSlot_engines (n : Nat) (x : Slot) : (setSlot n x s).engines = s.engines := rfl
@[simp] theorem setSlot_work (n : Nat) (x : Slot) : (setSlot n x s).work = s.work := rfl
@[simp] theorem setSlot_loops (n : Nat) (x : Slot) : (setSlot n x s).loops = s.loops := rfl
@[simp] theorem setSlot_loopMs (n : Nat) (x : Slot) : (setSlot n x s).loopMs = s.loopMs := rfl
@[simp] theorem setSlot_loopLeft (n : Nat) (x : Slot) : (setSlot n x s).loopLeft = s.loopLeft := rfl
@[simp] theorem setSlot_loopEvals (n : Nat) (x : Slot) : (setSlot n x s).loopEvals = s.loopEvals := rfl
@[simp] theorem setSlot_loopMaxLoad (n : Nat) (x : Slot) : (setSlot n x s).loopMaxLoad = s.loopMaxLoad := rfl
@[simp] theorem setSlot_solver (n : Nat) (x : Slot) : (setSlot n x s).solver = s.solver := rfl
@[simp] theorem setSlot_opt (n : Nat) (x : Slot) : (setSlot n x s).opt = s.opt := rfl
@[simp] theorem setSlot_est (n : Nat) (x : Slot) : (setSlot n x s).est = s.est := rfl
@[simp] theorem setSlot_meter (n : Nat) (x : Slot) : (setSlot n x s).meter = s.meter := rfl
@[simp] theorem setSlot_rings (n : Nat) (x : Slot) : (setSlot n x s).rings = s.rings := rfl
@[simp] theorem setSlot_ringTx (n : Nat) (x : Slot) : (setSlot n x s).ringTx = s.ringTx := rfl
@[simp] theorem setSlot_time (n : Nat) (x : Slot) : (setSlot n x s).time = s.time := rfl
@[simp] theorem setSlot_can (n : Nat) (x : Slot) : (setSlot n x s).can = s.can := rfl
@[simp] theorem setSlot_boundary (n : Nat) (x : Slot) : (setSlot n x s).boundary = s.boundary := rfl
@[simp] theorem setSlot_pair (n : Nat) (x : Slot) : (setSlot n x s).pair = s.pair := rfl
@[simp] theorem setSlot_test (n : Nat) (x : Slot) : (setSlot n x s).test = s.test := rfl
@[simp] theorem setSlot_rtc (n : Nat) (x : Slot) : (setSlot n x s).rtc = s.rtc := rfl
@[simp] theorem setSlot_recorder (n : Nat) (x : Slot) : (setSlot n x s).recorder = s.recorder := rfl
@[simp] theorem setSlot_panel (n : Nat) (x : Slot) : (setSlot n x s).panel = s.panel := rfl
@[simp] theorem setSlot_keys (n : Nat) (x : Slot) : (setSlot n x s).keys = s.keys := rfl
@[simp] theorem setSlot_fwu (n : Nat) (x : Slot) : (setSlot n x s).fwu = s.fwu := rfl
@[simp] theorem setSlot_pending (n : Nat) (x : Slot) : (setSlot n x s).pending = s.pending := rfl

/-! setBrick changes bricks only. -/

@[simp] theorem setBrick_free (b : Nat) (f : Brick → Brick) : (setBrick b f s).free = s.free := rfl
@[simp] theorem setBrick_refNs (b : Nat) (f : Brick → Brick) : (setBrick b f s).refNs = s.refNs := rfl
@[simp] theorem setBrick_emitted (b : Nat) (f : Brick → Brick) : (setBrick b f s).emitted = s.emitted := rfl
@[simp] theorem setBrick_power (b : Nat) (f : Brick → Brick) : (setBrick b f s).power = s.power := rfl
@[simp] theorem setBrick_regs (b : Nat) (f : Brick → Brick) : (setBrick b f s).regs = s.regs := rfl
@[simp] theorem setBrick_evt (b : Nat) (f : Brick → Brick) : (setBrick b f s).evt = s.evt := rfl
@[simp] theorem setBrick_host (b : Nat) (f : Brick → Brick) : (setBrick b f s).host = s.host := rfl
@[simp] theorem setBrick_sb (b : Nat) (f : Brick → Brick) : (setBrick b f s).sb = s.sb := rfl
@[simp] theorem setBrick_stores (b : Nat) (f : Brick → Brick) : (setBrick b f s).stores = s.stores := rfl
@[simp] theorem setBrick_budget (b : Nat) (f : Brick → Brick) : (setBrick b f s).budget = s.budget := rfl
@[simp] theorem setBrick_classes (b : Nat) (f : Brick → Brick) : (setBrick b f s).classes = s.classes := rfl
@[simp] theorem setBrick_points (b : Nat) (f : Brick → Brick) : (setBrick b f s).points = s.points := rfl
@[simp] theorem setBrick_defs (b : Nat) (f : Brick → Brick) : (setBrick b f s).defs = s.defs := rfl
@[simp] theorem setBrick_forces (b : Nat) (f : Brick → Brick) : (setBrick b f s).forces = s.forces := rfl
@[simp] theorem setBrick_forceQ (b : Nat) (f : Brick → Brick) : (setBrick b f s).forceQ = s.forceQ := rfl
@[simp] theorem setBrick_hist (b : Nat) (f : Brick → Brick) : (setBrick b f s).hist = s.hist := rfl
@[simp] theorem setBrick_progLoad (b : Nat) (f : Brick → Brick) : (setBrick b f s).progLoad = s.progLoad := rfl
@[simp] theorem setBrick_progNext (b : Nat) (f : Brick → Brick) : (setBrick b f s).progNext = s.progNext := rfl
@[simp] theorem setBrick_program (b : Nat) (f : Brick → Brick) : (setBrick b f s).program = s.program := rfl
@[simp] theorem setBrick_switch (b : Nat) (f : Brick → Brick) : (setBrick b f s).switch = s.switch := rfl
@[simp] theorem setBrick_solveDeadline (b : Nat) (f : Brick → Brick) : (setBrick b f s).solveDeadline = s.solveDeadline := rfl
@[simp] theorem setBrick_engines (b : Nat) (f : Brick → Brick) : (setBrick b f s).engines = s.engines := rfl
@[simp] theorem setBrick_work (b : Nat) (f : Brick → Brick) : (setBrick b f s).work = s.work := rfl
@[simp] theorem setBrick_loops (b : Nat) (f : Brick → Brick) : (setBrick b f s).loops = s.loops := rfl
@[simp] theorem setBrick_loopMs (b : Nat) (f : Brick → Brick) : (setBrick b f s).loopMs = s.loopMs := rfl
@[simp] theorem setBrick_loopLeft (b : Nat) (f : Brick → Brick) : (setBrick b f s).loopLeft = s.loopLeft := rfl
@[simp] theorem setBrick_loopEvals (b : Nat) (f : Brick → Brick) : (setBrick b f s).loopEvals = s.loopEvals := rfl
@[simp] theorem setBrick_loopMaxLoad (b : Nat) (f : Brick → Brick) : (setBrick b f s).loopMaxLoad = s.loopMaxLoad := rfl
@[simp] theorem setBrick_solver (b : Nat) (f : Brick → Brick) : (setBrick b f s).solver = s.solver := rfl
@[simp] theorem setBrick_opt (b : Nat) (f : Brick → Brick) : (setBrick b f s).opt = s.opt := rfl
@[simp] theorem setBrick_est (b : Nat) (f : Brick → Brick) : (setBrick b f s).est = s.est := rfl
@[simp] theorem setBrick_meter (b : Nat) (f : Brick → Brick) : (setBrick b f s).meter = s.meter := rfl
@[simp] theorem setBrick_rings (b : Nat) (f : Brick → Brick) : (setBrick b f s).rings = s.rings := rfl
@[simp] theorem setBrick_ringTx (b : Nat) (f : Brick → Brick) : (setBrick b f s).ringTx = s.ringTx := rfl
@[simp] theorem setBrick_time (b : Nat) (f : Brick → Brick) : (setBrick b f s).time = s.time := rfl
@[simp] theorem setBrick_can (b : Nat) (f : Brick → Brick) : (setBrick b f s).can = s.can := rfl
@[simp] theorem setBrick_boundary (b : Nat) (f : Brick → Brick) : (setBrick b f s).boundary = s.boundary := rfl
@[simp] theorem setBrick_pair (b : Nat) (f : Brick → Brick) : (setBrick b f s).pair = s.pair := rfl
@[simp] theorem setBrick_test (b : Nat) (f : Brick → Brick) : (setBrick b f s).test = s.test := rfl
@[simp] theorem setBrick_rtc (b : Nat) (f : Brick → Brick) : (setBrick b f s).rtc = s.rtc := rfl
@[simp] theorem setBrick_recorder (b : Nat) (f : Brick → Brick) : (setBrick b f s).recorder = s.recorder := rfl
@[simp] theorem setBrick_panel (b : Nat) (f : Brick → Brick) : (setBrick b f s).panel = s.panel := rfl
@[simp] theorem setBrick_keys (b : Nat) (f : Brick → Brick) : (setBrick b f s).keys = s.keys := rfl
@[simp] theorem setBrick_fwu (b : Nat) (f : Brick → Brick) : (setBrick b f s).fwu = s.fwu := rfl
@[simp] theorem setBrick_pending (b : Nat) (f : Brick → Brick) : (setBrick b f s).pending = s.pending := rfl

/-! setCls changes classes only. -/

@[simp] theorem setCls_free (c : Nat) (f : ClassSt → ClassSt) : (setCls c f s).free = s.free := rfl
@[simp] theorem setCls_refNs (c : Nat) (f : ClassSt → ClassSt) : (setCls c f s).refNs = s.refNs := rfl
@[simp] theorem setCls_emitted (c : Nat) (f : ClassSt → ClassSt) : (setCls c f s).emitted = s.emitted := rfl
@[simp] theorem setCls_power (c : Nat) (f : ClassSt → ClassSt) : (setCls c f s).power = s.power := rfl
@[simp] theorem setCls_regs (c : Nat) (f : ClassSt → ClassSt) : (setCls c f s).regs = s.regs := rfl
@[simp] theorem setCls_evt (c : Nat) (f : ClassSt → ClassSt) : (setCls c f s).evt = s.evt := rfl
@[simp] theorem setCls_host (c : Nat) (f : ClassSt → ClassSt) : (setCls c f s).host = s.host := rfl
@[simp] theorem setCls_sb (c : Nat) (f : ClassSt → ClassSt) : (setCls c f s).sb = s.sb := rfl
@[simp] theorem setCls_stores (c : Nat) (f : ClassSt → ClassSt) : (setCls c f s).stores = s.stores := rfl
@[simp] theorem setCls_bricks (c : Nat) (f : ClassSt → ClassSt) : (setCls c f s).bricks = s.bricks := rfl
@[simp] theorem setCls_budget (c : Nat) (f : ClassSt → ClassSt) : (setCls c f s).budget = s.budget := rfl
@[simp] theorem setCls_points (c : Nat) (f : ClassSt → ClassSt) : (setCls c f s).points = s.points := rfl
@[simp] theorem setCls_defs (c : Nat) (f : ClassSt → ClassSt) : (setCls c f s).defs = s.defs := rfl
@[simp] theorem setCls_forces (c : Nat) (f : ClassSt → ClassSt) : (setCls c f s).forces = s.forces := rfl
@[simp] theorem setCls_forceQ (c : Nat) (f : ClassSt → ClassSt) : (setCls c f s).forceQ = s.forceQ := rfl
@[simp] theorem setCls_hist (c : Nat) (f : ClassSt → ClassSt) : (setCls c f s).hist = s.hist := rfl
@[simp] theorem setCls_progLoad (c : Nat) (f : ClassSt → ClassSt) : (setCls c f s).progLoad = s.progLoad := rfl
@[simp] theorem setCls_progNext (c : Nat) (f : ClassSt → ClassSt) : (setCls c f s).progNext = s.progNext := rfl
@[simp] theorem setCls_program (c : Nat) (f : ClassSt → ClassSt) : (setCls c f s).program = s.program := rfl
@[simp] theorem setCls_switch (c : Nat) (f : ClassSt → ClassSt) : (setCls c f s).switch = s.switch := rfl
@[simp] theorem setCls_solveDeadline (c : Nat) (f : ClassSt → ClassSt) : (setCls c f s).solveDeadline = s.solveDeadline := rfl
@[simp] theorem setCls_engines (c : Nat) (f : ClassSt → ClassSt) : (setCls c f s).engines = s.engines := rfl
@[simp] theorem setCls_work (c : Nat) (f : ClassSt → ClassSt) : (setCls c f s).work = s.work := rfl
@[simp] theorem setCls_loops (c : Nat) (f : ClassSt → ClassSt) : (setCls c f s).loops = s.loops := rfl
@[simp] theorem setCls_loopMs (c : Nat) (f : ClassSt → ClassSt) : (setCls c f s).loopMs = s.loopMs := rfl
@[simp] theorem setCls_loopLeft (c : Nat) (f : ClassSt → ClassSt) : (setCls c f s).loopLeft = s.loopLeft := rfl
@[simp] theorem setCls_loopEvals (c : Nat) (f : ClassSt → ClassSt) : (setCls c f s).loopEvals = s.loopEvals := rfl
@[simp] theorem setCls_loopMaxLoad (c : Nat) (f : ClassSt → ClassSt) : (setCls c f s).loopMaxLoad = s.loopMaxLoad := rfl
@[simp] theorem setCls_solver (c : Nat) (f : ClassSt → ClassSt) : (setCls c f s).solver = s.solver := rfl
@[simp] theorem setCls_opt (c : Nat) (f : ClassSt → ClassSt) : (setCls c f s).opt = s.opt := rfl
@[simp] theorem setCls_est (c : Nat) (f : ClassSt → ClassSt) : (setCls c f s).est = s.est := rfl
@[simp] theorem setCls_meter (c : Nat) (f : ClassSt → ClassSt) : (setCls c f s).meter = s.meter := rfl
@[simp] theorem setCls_rings (c : Nat) (f : ClassSt → ClassSt) : (setCls c f s).rings = s.rings := rfl
@[simp] theorem setCls_ringTx (c : Nat) (f : ClassSt → ClassSt) : (setCls c f s).ringTx = s.ringTx := rfl
@[simp] theorem setCls_time (c : Nat) (f : ClassSt → ClassSt) : (setCls c f s).time = s.time := rfl
@[simp] theorem setCls_can (c : Nat) (f : ClassSt → ClassSt) : (setCls c f s).can = s.can := rfl
@[simp] theorem setCls_boundary (c : Nat) (f : ClassSt → ClassSt) : (setCls c f s).boundary = s.boundary := rfl
@[simp] theorem setCls_pair (c : Nat) (f : ClassSt → ClassSt) : (setCls c f s).pair = s.pair := rfl
@[simp] theorem setCls_test (c : Nat) (f : ClassSt → ClassSt) : (setCls c f s).test = s.test := rfl
@[simp] theorem setCls_rtc (c : Nat) (f : ClassSt → ClassSt) : (setCls c f s).rtc = s.rtc := rfl
@[simp] theorem setCls_recorder (c : Nat) (f : ClassSt → ClassSt) : (setCls c f s).recorder = s.recorder := rfl
@[simp] theorem setCls_panel (c : Nat) (f : ClassSt → ClassSt) : (setCls c f s).panel = s.panel := rfl
@[simp] theorem setCls_keys (c : Nat) (f : ClassSt → ClassSt) : (setCls c f s).keys = s.keys := rfl
@[simp] theorem setCls_fwu (c : Nat) (f : ClassSt → ClassSt) : (setCls c f s).fwu = s.fwu := rfl
@[simp] theorem setCls_pending (c : Nat) (f : ClassSt → ClassSt) : (setCls c f s).pending = s.pending := rfl

/-! setChan changes loops only. -/

@[simp] theorem setChan_free (n : Nat) (f : Channel → Channel) : (setChan n f s).free = s.free := rfl
@[simp] theorem setChan_refNs (n : Nat) (f : Channel → Channel) : (setChan n f s).refNs = s.refNs := rfl
@[simp] theorem setChan_emitted (n : Nat) (f : Channel → Channel) : (setChan n f s).emitted = s.emitted := rfl
@[simp] theorem setChan_power (n : Nat) (f : Channel → Channel) : (setChan n f s).power = s.power := rfl
@[simp] theorem setChan_regs (n : Nat) (f : Channel → Channel) : (setChan n f s).regs = s.regs := rfl
@[simp] theorem setChan_evt (n : Nat) (f : Channel → Channel) : (setChan n f s).evt = s.evt := rfl
@[simp] theorem setChan_host (n : Nat) (f : Channel → Channel) : (setChan n f s).host = s.host := rfl
@[simp] theorem setChan_sb (n : Nat) (f : Channel → Channel) : (setChan n f s).sb = s.sb := rfl
@[simp] theorem setChan_stores (n : Nat) (f : Channel → Channel) : (setChan n f s).stores = s.stores := rfl
@[simp] theorem setChan_bricks (n : Nat) (f : Channel → Channel) : (setChan n f s).bricks = s.bricks := rfl
@[simp] theorem setChan_budget (n : Nat) (f : Channel → Channel) : (setChan n f s).budget = s.budget := rfl
@[simp] theorem setChan_classes (n : Nat) (f : Channel → Channel) : (setChan n f s).classes = s.classes := rfl
@[simp] theorem setChan_points (n : Nat) (f : Channel → Channel) : (setChan n f s).points = s.points := rfl
@[simp] theorem setChan_defs (n : Nat) (f : Channel → Channel) : (setChan n f s).defs = s.defs := rfl
@[simp] theorem setChan_forces (n : Nat) (f : Channel → Channel) : (setChan n f s).forces = s.forces := rfl
@[simp] theorem setChan_forceQ (n : Nat) (f : Channel → Channel) : (setChan n f s).forceQ = s.forceQ := rfl
@[simp] theorem setChan_hist (n : Nat) (f : Channel → Channel) : (setChan n f s).hist = s.hist := rfl
@[simp] theorem setChan_progLoad (n : Nat) (f : Channel → Channel) : (setChan n f s).progLoad = s.progLoad := rfl
@[simp] theorem setChan_progNext (n : Nat) (f : Channel → Channel) : (setChan n f s).progNext = s.progNext := rfl
@[simp] theorem setChan_program (n : Nat) (f : Channel → Channel) : (setChan n f s).program = s.program := rfl
@[simp] theorem setChan_switch (n : Nat) (f : Channel → Channel) : (setChan n f s).switch = s.switch := rfl
@[simp] theorem setChan_solveDeadline (n : Nat) (f : Channel → Channel) : (setChan n f s).solveDeadline = s.solveDeadline := rfl
@[simp] theorem setChan_engines (n : Nat) (f : Channel → Channel) : (setChan n f s).engines = s.engines := rfl
@[simp] theorem setChan_work (n : Nat) (f : Channel → Channel) : (setChan n f s).work = s.work := rfl
@[simp] theorem setChan_loopMs (n : Nat) (f : Channel → Channel) : (setChan n f s).loopMs = s.loopMs := rfl
@[simp] theorem setChan_loopLeft (n : Nat) (f : Channel → Channel) : (setChan n f s).loopLeft = s.loopLeft := rfl
@[simp] theorem setChan_loopEvals (n : Nat) (f : Channel → Channel) : (setChan n f s).loopEvals = s.loopEvals := rfl
@[simp] theorem setChan_loopMaxLoad (n : Nat) (f : Channel → Channel) : (setChan n f s).loopMaxLoad = s.loopMaxLoad := rfl
@[simp] theorem setChan_solver (n : Nat) (f : Channel → Channel) : (setChan n f s).solver = s.solver := rfl
@[simp] theorem setChan_opt (n : Nat) (f : Channel → Channel) : (setChan n f s).opt = s.opt := rfl
@[simp] theorem setChan_est (n : Nat) (f : Channel → Channel) : (setChan n f s).est = s.est := rfl
@[simp] theorem setChan_meter (n : Nat) (f : Channel → Channel) : (setChan n f s).meter = s.meter := rfl
@[simp] theorem setChan_rings (n : Nat) (f : Channel → Channel) : (setChan n f s).rings = s.rings := rfl
@[simp] theorem setChan_ringTx (n : Nat) (f : Channel → Channel) : (setChan n f s).ringTx = s.ringTx := rfl
@[simp] theorem setChan_time (n : Nat) (f : Channel → Channel) : (setChan n f s).time = s.time := rfl
@[simp] theorem setChan_can (n : Nat) (f : Channel → Channel) : (setChan n f s).can = s.can := rfl
@[simp] theorem setChan_boundary (n : Nat) (f : Channel → Channel) : (setChan n f s).boundary = s.boundary := rfl
@[simp] theorem setChan_pair (n : Nat) (f : Channel → Channel) : (setChan n f s).pair = s.pair := rfl
@[simp] theorem setChan_test (n : Nat) (f : Channel → Channel) : (setChan n f s).test = s.test := rfl
@[simp] theorem setChan_rtc (n : Nat) (f : Channel → Channel) : (setChan n f s).rtc = s.rtc := rfl
@[simp] theorem setChan_recorder (n : Nat) (f : Channel → Channel) : (setChan n f s).recorder = s.recorder := rfl
@[simp] theorem setChan_panel (n : Nat) (f : Channel → Channel) : (setChan n f s).panel = s.panel := rfl
@[simp] theorem setChan_keys (n : Nat) (f : Channel → Channel) : (setChan n f s).keys = s.keys := rfl
@[simp] theorem setChan_fwu (n : Nat) (f : Channel → Channel) : (setChan n f s).fwu = s.fwu := rfl
@[simp] theorem setChan_pending (n : Nat) (f : Channel → Channel) : (setChan n f s).pending = s.pending := rfl

/-! setPair changes pair only. -/

@[simp] theorem setPair_free (f : Pair → Pair) : (setPair f s).free = s.free := rfl
@[simp] theorem setPair_refNs (f : Pair → Pair) : (setPair f s).refNs = s.refNs := rfl
@[simp] theorem setPair_emitted (f : Pair → Pair) : (setPair f s).emitted = s.emitted := rfl
@[simp] theorem setPair_power (f : Pair → Pair) : (setPair f s).power = s.power := rfl
@[simp] theorem setPair_regs (f : Pair → Pair) : (setPair f s).regs = s.regs := rfl
@[simp] theorem setPair_evt (f : Pair → Pair) : (setPair f s).evt = s.evt := rfl
@[simp] theorem setPair_host (f : Pair → Pair) : (setPair f s).host = s.host := rfl
@[simp] theorem setPair_sb (f : Pair → Pair) : (setPair f s).sb = s.sb := rfl
@[simp] theorem setPair_stores (f : Pair → Pair) : (setPair f s).stores = s.stores := rfl
@[simp] theorem setPair_bricks (f : Pair → Pair) : (setPair f s).bricks = s.bricks := rfl
@[simp] theorem setPair_budget (f : Pair → Pair) : (setPair f s).budget = s.budget := rfl
@[simp] theorem setPair_classes (f : Pair → Pair) : (setPair f s).classes = s.classes := rfl
@[simp] theorem setPair_points (f : Pair → Pair) : (setPair f s).points = s.points := rfl
@[simp] theorem setPair_defs (f : Pair → Pair) : (setPair f s).defs = s.defs := rfl
@[simp] theorem setPair_forces (f : Pair → Pair) : (setPair f s).forces = s.forces := rfl
@[simp] theorem setPair_forceQ (f : Pair → Pair) : (setPair f s).forceQ = s.forceQ := rfl
@[simp] theorem setPair_hist (f : Pair → Pair) : (setPair f s).hist = s.hist := rfl
@[simp] theorem setPair_progLoad (f : Pair → Pair) : (setPair f s).progLoad = s.progLoad := rfl
@[simp] theorem setPair_progNext (f : Pair → Pair) : (setPair f s).progNext = s.progNext := rfl
@[simp] theorem setPair_program (f : Pair → Pair) : (setPair f s).program = s.program := rfl
@[simp] theorem setPair_switch (f : Pair → Pair) : (setPair f s).switch = s.switch := rfl
@[simp] theorem setPair_solveDeadline (f : Pair → Pair) : (setPair f s).solveDeadline = s.solveDeadline := rfl
@[simp] theorem setPair_engines (f : Pair → Pair) : (setPair f s).engines = s.engines := rfl
@[simp] theorem setPair_work (f : Pair → Pair) : (setPair f s).work = s.work := rfl
@[simp] theorem setPair_loops (f : Pair → Pair) : (setPair f s).loops = s.loops := rfl
@[simp] theorem setPair_loopMs (f : Pair → Pair) : (setPair f s).loopMs = s.loopMs := rfl
@[simp] theorem setPair_loopLeft (f : Pair → Pair) : (setPair f s).loopLeft = s.loopLeft := rfl
@[simp] theorem setPair_loopEvals (f : Pair → Pair) : (setPair f s).loopEvals = s.loopEvals := rfl
@[simp] theorem setPair_loopMaxLoad (f : Pair → Pair) : (setPair f s).loopMaxLoad = s.loopMaxLoad := rfl
@[simp] theorem setPair_solver (f : Pair → Pair) : (setPair f s).solver = s.solver := rfl
@[simp] theorem setPair_opt (f : Pair → Pair) : (setPair f s).opt = s.opt := rfl
@[simp] theorem setPair_est (f : Pair → Pair) : (setPair f s).est = s.est := rfl
@[simp] theorem setPair_meter (f : Pair → Pair) : (setPair f s).meter = s.meter := rfl
@[simp] theorem setPair_rings (f : Pair → Pair) : (setPair f s).rings = s.rings := rfl
@[simp] theorem setPair_ringTx (f : Pair → Pair) : (setPair f s).ringTx = s.ringTx := rfl
@[simp] theorem setPair_time (f : Pair → Pair) : (setPair f s).time = s.time := rfl
@[simp] theorem setPair_can (f : Pair → Pair) : (setPair f s).can = s.can := rfl
@[simp] theorem setPair_boundary (f : Pair → Pair) : (setPair f s).boundary = s.boundary := rfl
@[simp] theorem setPair_test (f : Pair → Pair) : (setPair f s).test = s.test := rfl
@[simp] theorem setPair_rtc (f : Pair → Pair) : (setPair f s).rtc = s.rtc := rfl
@[simp] theorem setPair_recorder (f : Pair → Pair) : (setPair f s).recorder = s.recorder := rfl
@[simp] theorem setPair_panel (f : Pair → Pair) : (setPair f s).panel = s.panel := rfl
@[simp] theorem setPair_keys (f : Pair → Pair) : (setPair f s).keys = s.keys := rfl
@[simp] theorem setPair_fwu (f : Pair → Pair) : (setPair f s).fwu = s.fwu := rfl
@[simp] theorem setPair_pending (f : Pair → Pair) : (setPair f s).pending = s.pending := rfl

/-! setFwu changes fwu only. -/

@[simp] theorem setFwu_free (f : Fwu → Fwu) : (setFwu f s).free = s.free := rfl
@[simp] theorem setFwu_refNs (f : Fwu → Fwu) : (setFwu f s).refNs = s.refNs := rfl
@[simp] theorem setFwu_emitted (f : Fwu → Fwu) : (setFwu f s).emitted = s.emitted := rfl
@[simp] theorem setFwu_power (f : Fwu → Fwu) : (setFwu f s).power = s.power := rfl
@[simp] theorem setFwu_regs (f : Fwu → Fwu) : (setFwu f s).regs = s.regs := rfl
@[simp] theorem setFwu_evt (f : Fwu → Fwu) : (setFwu f s).evt = s.evt := rfl
@[simp] theorem setFwu_host (f : Fwu → Fwu) : (setFwu f s).host = s.host := rfl
@[simp] theorem setFwu_sb (f : Fwu → Fwu) : (setFwu f s).sb = s.sb := rfl
@[simp] theorem setFwu_stores (f : Fwu → Fwu) : (setFwu f s).stores = s.stores := rfl
@[simp] theorem setFwu_bricks (f : Fwu → Fwu) : (setFwu f s).bricks = s.bricks := rfl
@[simp] theorem setFwu_budget (f : Fwu → Fwu) : (setFwu f s).budget = s.budget := rfl
@[simp] theorem setFwu_classes (f : Fwu → Fwu) : (setFwu f s).classes = s.classes := rfl
@[simp] theorem setFwu_points (f : Fwu → Fwu) : (setFwu f s).points = s.points := rfl
@[simp] theorem setFwu_defs (f : Fwu → Fwu) : (setFwu f s).defs = s.defs := rfl
@[simp] theorem setFwu_forces (f : Fwu → Fwu) : (setFwu f s).forces = s.forces := rfl
@[simp] theorem setFwu_forceQ (f : Fwu → Fwu) : (setFwu f s).forceQ = s.forceQ := rfl
@[simp] theorem setFwu_hist (f : Fwu → Fwu) : (setFwu f s).hist = s.hist := rfl
@[simp] theorem setFwu_progLoad (f : Fwu → Fwu) : (setFwu f s).progLoad = s.progLoad := rfl
@[simp] theorem setFwu_progNext (f : Fwu → Fwu) : (setFwu f s).progNext = s.progNext := rfl
@[simp] theorem setFwu_program (f : Fwu → Fwu) : (setFwu f s).program = s.program := rfl
@[simp] theorem setFwu_switch (f : Fwu → Fwu) : (setFwu f s).switch = s.switch := rfl
@[simp] theorem setFwu_solveDeadline (f : Fwu → Fwu) : (setFwu f s).solveDeadline = s.solveDeadline := rfl
@[simp] theorem setFwu_engines (f : Fwu → Fwu) : (setFwu f s).engines = s.engines := rfl
@[simp] theorem setFwu_work (f : Fwu → Fwu) : (setFwu f s).work = s.work := rfl
@[simp] theorem setFwu_loops (f : Fwu → Fwu) : (setFwu f s).loops = s.loops := rfl
@[simp] theorem setFwu_loopMs (f : Fwu → Fwu) : (setFwu f s).loopMs = s.loopMs := rfl
@[simp] theorem setFwu_loopLeft (f : Fwu → Fwu) : (setFwu f s).loopLeft = s.loopLeft := rfl
@[simp] theorem setFwu_loopEvals (f : Fwu → Fwu) : (setFwu f s).loopEvals = s.loopEvals := rfl
@[simp] theorem setFwu_loopMaxLoad (f : Fwu → Fwu) : (setFwu f s).loopMaxLoad = s.loopMaxLoad := rfl
@[simp] theorem setFwu_solver (f : Fwu → Fwu) : (setFwu f s).solver = s.solver := rfl
@[simp] theorem setFwu_opt (f : Fwu → Fwu) : (setFwu f s).opt = s.opt := rfl
@[simp] theorem setFwu_est (f : Fwu → Fwu) : (setFwu f s).est = s.est := rfl
@[simp] theorem setFwu_meter (f : Fwu → Fwu) : (setFwu f s).meter = s.meter := rfl
@[simp] theorem setFwu_rings (f : Fwu → Fwu) : (setFwu f s).rings = s.rings := rfl
@[simp] theorem setFwu_ringTx (f : Fwu → Fwu) : (setFwu f s).ringTx = s.ringTx := rfl
@[simp] theorem setFwu_time (f : Fwu → Fwu) : (setFwu f s).time = s.time := rfl
@[simp] theorem setFwu_can (f : Fwu → Fwu) : (setFwu f s).can = s.can := rfl
@[simp] theorem setFwu_boundary (f : Fwu → Fwu) : (setFwu f s).boundary = s.boundary := rfl
@[simp] theorem setFwu_pair (f : Fwu → Fwu) : (setFwu f s).pair = s.pair := rfl
@[simp] theorem setFwu_test (f : Fwu → Fwu) : (setFwu f s).test = s.test := rfl
@[simp] theorem setFwu_rtc (f : Fwu → Fwu) : (setFwu f s).rtc = s.rtc := rfl
@[simp] theorem setFwu_recorder (f : Fwu → Fwu) : (setFwu f s).recorder = s.recorder := rfl
@[simp] theorem setFwu_panel (f : Fwu → Fwu) : (setFwu f s).panel = s.panel := rfl
@[simp] theorem setFwu_keys (f : Fwu → Fwu) : (setFwu f s).keys = s.keys := rfl
@[simp] theorem setFwu_pending (f : Fwu → Fwu) : (setFwu f s).pending = s.pending := rfl

/-! setCan changes can only. -/

@[simp] theorem setCan_free (n : Nat) (f : CanCtl → CanCtl) : (setCan n f s).free = s.free := rfl
@[simp] theorem setCan_refNs (n : Nat) (f : CanCtl → CanCtl) : (setCan n f s).refNs = s.refNs := rfl
@[simp] theorem setCan_emitted (n : Nat) (f : CanCtl → CanCtl) : (setCan n f s).emitted = s.emitted := rfl
@[simp] theorem setCan_power (n : Nat) (f : CanCtl → CanCtl) : (setCan n f s).power = s.power := rfl
@[simp] theorem setCan_regs (n : Nat) (f : CanCtl → CanCtl) : (setCan n f s).regs = s.regs := rfl
@[simp] theorem setCan_evt (n : Nat) (f : CanCtl → CanCtl) : (setCan n f s).evt = s.evt := rfl
@[simp] theorem setCan_host (n : Nat) (f : CanCtl → CanCtl) : (setCan n f s).host = s.host := rfl
@[simp] theorem setCan_sb (n : Nat) (f : CanCtl → CanCtl) : (setCan n f s).sb = s.sb := rfl
@[simp] theorem setCan_stores (n : Nat) (f : CanCtl → CanCtl) : (setCan n f s).stores = s.stores := rfl
@[simp] theorem setCan_bricks (n : Nat) (f : CanCtl → CanCtl) : (setCan n f s).bricks = s.bricks := rfl
@[simp] theorem setCan_budget (n : Nat) (f : CanCtl → CanCtl) : (setCan n f s).budget = s.budget := rfl
@[simp] theorem setCan_classes (n : Nat) (f : CanCtl → CanCtl) : (setCan n f s).classes = s.classes := rfl
@[simp] theorem setCan_points (n : Nat) (f : CanCtl → CanCtl) : (setCan n f s).points = s.points := rfl
@[simp] theorem setCan_defs (n : Nat) (f : CanCtl → CanCtl) : (setCan n f s).defs = s.defs := rfl
@[simp] theorem setCan_forces (n : Nat) (f : CanCtl → CanCtl) : (setCan n f s).forces = s.forces := rfl
@[simp] theorem setCan_forceQ (n : Nat) (f : CanCtl → CanCtl) : (setCan n f s).forceQ = s.forceQ := rfl
@[simp] theorem setCan_hist (n : Nat) (f : CanCtl → CanCtl) : (setCan n f s).hist = s.hist := rfl
@[simp] theorem setCan_progLoad (n : Nat) (f : CanCtl → CanCtl) : (setCan n f s).progLoad = s.progLoad := rfl
@[simp] theorem setCan_progNext (n : Nat) (f : CanCtl → CanCtl) : (setCan n f s).progNext = s.progNext := rfl
@[simp] theorem setCan_program (n : Nat) (f : CanCtl → CanCtl) : (setCan n f s).program = s.program := rfl
@[simp] theorem setCan_switch (n : Nat) (f : CanCtl → CanCtl) : (setCan n f s).switch = s.switch := rfl
@[simp] theorem setCan_solveDeadline (n : Nat) (f : CanCtl → CanCtl) : (setCan n f s).solveDeadline = s.solveDeadline := rfl
@[simp] theorem setCan_engines (n : Nat) (f : CanCtl → CanCtl) : (setCan n f s).engines = s.engines := rfl
@[simp] theorem setCan_work (n : Nat) (f : CanCtl → CanCtl) : (setCan n f s).work = s.work := rfl
@[simp] theorem setCan_loops (n : Nat) (f : CanCtl → CanCtl) : (setCan n f s).loops = s.loops := rfl
@[simp] theorem setCan_loopMs (n : Nat) (f : CanCtl → CanCtl) : (setCan n f s).loopMs = s.loopMs := rfl
@[simp] theorem setCan_loopLeft (n : Nat) (f : CanCtl → CanCtl) : (setCan n f s).loopLeft = s.loopLeft := rfl
@[simp] theorem setCan_loopEvals (n : Nat) (f : CanCtl → CanCtl) : (setCan n f s).loopEvals = s.loopEvals := rfl
@[simp] theorem setCan_loopMaxLoad (n : Nat) (f : CanCtl → CanCtl) : (setCan n f s).loopMaxLoad = s.loopMaxLoad := rfl
@[simp] theorem setCan_solver (n : Nat) (f : CanCtl → CanCtl) : (setCan n f s).solver = s.solver := rfl
@[simp] theorem setCan_opt (n : Nat) (f : CanCtl → CanCtl) : (setCan n f s).opt = s.opt := rfl
@[simp] theorem setCan_est (n : Nat) (f : CanCtl → CanCtl) : (setCan n f s).est = s.est := rfl
@[simp] theorem setCan_meter (n : Nat) (f : CanCtl → CanCtl) : (setCan n f s).meter = s.meter := rfl
@[simp] theorem setCan_rings (n : Nat) (f : CanCtl → CanCtl) : (setCan n f s).rings = s.rings := rfl
@[simp] theorem setCan_ringTx (n : Nat) (f : CanCtl → CanCtl) : (setCan n f s).ringTx = s.ringTx := rfl
@[simp] theorem setCan_time (n : Nat) (f : CanCtl → CanCtl) : (setCan n f s).time = s.time := rfl
@[simp] theorem setCan_boundary (n : Nat) (f : CanCtl → CanCtl) : (setCan n f s).boundary = s.boundary := rfl
@[simp] theorem setCan_pair (n : Nat) (f : CanCtl → CanCtl) : (setCan n f s).pair = s.pair := rfl
@[simp] theorem setCan_test (n : Nat) (f : CanCtl → CanCtl) : (setCan n f s).test = s.test := rfl
@[simp] theorem setCan_rtc (n : Nat) (f : CanCtl → CanCtl) : (setCan n f s).rtc = s.rtc := rfl
@[simp] theorem setCan_recorder (n : Nat) (f : CanCtl → CanCtl) : (setCan n f s).recorder = s.recorder := rfl
@[simp] theorem setCan_panel (n : Nat) (f : CanCtl → CanCtl) : (setCan n f s).panel = s.panel := rfl
@[simp] theorem setCan_keys (n : Nat) (f : CanCtl → CanCtl) : (setCan n f s).keys = s.keys := rfl
@[simp] theorem setCan_fwu (n : Nat) (f : CanCtl → CanCtl) : (setCan n f s).fwu = s.fwu := rfl
@[simp] theorem setCan_pending (n : Nat) (f : CanCtl → CanCtl) : (setCan n f s).pending = s.pending := rfl

/-! rcAdd changes regs only. -/

@[simp] theorem rcAdd_free (off n : Nat) : (rcAdd off n s).free = s.free := rfl
@[simp] theorem rcAdd_refNs (off n : Nat) : (rcAdd off n s).refNs = s.refNs := rfl
@[simp] theorem rcAdd_emitted (off n : Nat) : (rcAdd off n s).emitted = s.emitted := rfl
@[simp] theorem rcAdd_power (off n : Nat) : (rcAdd off n s).power = s.power := rfl
@[simp] theorem rcAdd_evt (off n : Nat) : (rcAdd off n s).evt = s.evt := rfl
@[simp] theorem rcAdd_host (off n : Nat) : (rcAdd off n s).host = s.host := rfl
@[simp] theorem rcAdd_sb (off n : Nat) : (rcAdd off n s).sb = s.sb := rfl
@[simp] theorem rcAdd_stores (off n : Nat) : (rcAdd off n s).stores = s.stores := rfl
@[simp] theorem rcAdd_bricks (off n : Nat) : (rcAdd off n s).bricks = s.bricks := rfl
@[simp] theorem rcAdd_budget (off n : Nat) : (rcAdd off n s).budget = s.budget := rfl
@[simp] theorem rcAdd_classes (off n : Nat) : (rcAdd off n s).classes = s.classes := rfl
@[simp] theorem rcAdd_points (off n : Nat) : (rcAdd off n s).points = s.points := rfl
@[simp] theorem rcAdd_defs (off n : Nat) : (rcAdd off n s).defs = s.defs := rfl
@[simp] theorem rcAdd_forces (off n : Nat) : (rcAdd off n s).forces = s.forces := rfl
@[simp] theorem rcAdd_forceQ (off n : Nat) : (rcAdd off n s).forceQ = s.forceQ := rfl
@[simp] theorem rcAdd_hist (off n : Nat) : (rcAdd off n s).hist = s.hist := rfl
@[simp] theorem rcAdd_progLoad (off n : Nat) : (rcAdd off n s).progLoad = s.progLoad := rfl
@[simp] theorem rcAdd_progNext (off n : Nat) : (rcAdd off n s).progNext = s.progNext := rfl
@[simp] theorem rcAdd_program (off n : Nat) : (rcAdd off n s).program = s.program := rfl
@[simp] theorem rcAdd_switch (off n : Nat) : (rcAdd off n s).switch = s.switch := rfl
@[simp] theorem rcAdd_solveDeadline (off n : Nat) : (rcAdd off n s).solveDeadline = s.solveDeadline := rfl
@[simp] theorem rcAdd_engines (off n : Nat) : (rcAdd off n s).engines = s.engines := rfl
@[simp] theorem rcAdd_work (off n : Nat) : (rcAdd off n s).work = s.work := rfl
@[simp] theorem rcAdd_loops (off n : Nat) : (rcAdd off n s).loops = s.loops := rfl
@[simp] theorem rcAdd_loopMs (off n : Nat) : (rcAdd off n s).loopMs = s.loopMs := rfl
@[simp] theorem rcAdd_loopLeft (off n : Nat) : (rcAdd off n s).loopLeft = s.loopLeft := rfl
@[simp] theorem rcAdd_loopEvals (off n : Nat) : (rcAdd off n s).loopEvals = s.loopEvals := rfl
@[simp] theorem rcAdd_loopMaxLoad (off n : Nat) : (rcAdd off n s).loopMaxLoad = s.loopMaxLoad := rfl
@[simp] theorem rcAdd_solver (off n : Nat) : (rcAdd off n s).solver = s.solver := rfl
@[simp] theorem rcAdd_opt (off n : Nat) : (rcAdd off n s).opt = s.opt := rfl
@[simp] theorem rcAdd_est (off n : Nat) : (rcAdd off n s).est = s.est := rfl
@[simp] theorem rcAdd_meter (off n : Nat) : (rcAdd off n s).meter = s.meter := rfl
@[simp] theorem rcAdd_rings (off n : Nat) : (rcAdd off n s).rings = s.rings := rfl
@[simp] theorem rcAdd_ringTx (off n : Nat) : (rcAdd off n s).ringTx = s.ringTx := rfl
@[simp] theorem rcAdd_time (off n : Nat) : (rcAdd off n s).time = s.time := rfl
@[simp] theorem rcAdd_can (off n : Nat) : (rcAdd off n s).can = s.can := rfl
@[simp] theorem rcAdd_boundary (off n : Nat) : (rcAdd off n s).boundary = s.boundary := rfl
@[simp] theorem rcAdd_pair (off n : Nat) : (rcAdd off n s).pair = s.pair := rfl
@[simp] theorem rcAdd_test (off n : Nat) : (rcAdd off n s).test = s.test := rfl
@[simp] theorem rcAdd_rtc (off n : Nat) : (rcAdd off n s).rtc = s.rtc := rfl
@[simp] theorem rcAdd_recorder (off n : Nat) : (rcAdd off n s).recorder = s.recorder := rfl
@[simp] theorem rcAdd_panel (off n : Nat) : (rcAdd off n s).panel = s.panel := rfl
@[simp] theorem rcAdd_keys (off n : Nat) : (rcAdd off n s).keys = s.keys := rfl
@[simp] theorem rcAdd_fwu (off n : Nat) : (rcAdd off n s).fwu = s.fwu := rfl
@[simp] theorem rcAdd_pending (off n : Nat) : (rcAdd off n s).pending = s.pending := rfl

/-! countFault changes pair only. -/

@[simp] theorem countFault_free (row : Nat) : (countFault row s).free = s.free := rfl
@[simp] theorem countFault_refNs (row : Nat) : (countFault row s).refNs = s.refNs := rfl
@[simp] theorem countFault_emitted (row : Nat) : (countFault row s).emitted = s.emitted := rfl
@[simp] theorem countFault_power (row : Nat) : (countFault row s).power = s.power := rfl
@[simp] theorem countFault_regs (row : Nat) : (countFault row s).regs = s.regs := rfl
@[simp] theorem countFault_evt (row : Nat) : (countFault row s).evt = s.evt := rfl
@[simp] theorem countFault_host (row : Nat) : (countFault row s).host = s.host := rfl
@[simp] theorem countFault_sb (row : Nat) : (countFault row s).sb = s.sb := rfl
@[simp] theorem countFault_stores (row : Nat) : (countFault row s).stores = s.stores := rfl
@[simp] theorem countFault_bricks (row : Nat) : (countFault row s).bricks = s.bricks := rfl
@[simp] theorem countFault_budget (row : Nat) : (countFault row s).budget = s.budget := rfl
@[simp] theorem countFault_classes (row : Nat) : (countFault row s).classes = s.classes := rfl
@[simp] theorem countFault_points (row : Nat) : (countFault row s).points = s.points := rfl
@[simp] theorem countFault_defs (row : Nat) : (countFault row s).defs = s.defs := rfl
@[simp] theorem countFault_forces (row : Nat) : (countFault row s).forces = s.forces := rfl
@[simp] theorem countFault_forceQ (row : Nat) : (countFault row s).forceQ = s.forceQ := rfl
@[simp] theorem countFault_hist (row : Nat) : (countFault row s).hist = s.hist := rfl
@[simp] theorem countFault_progLoad (row : Nat) : (countFault row s).progLoad = s.progLoad := rfl
@[simp] theorem countFault_progNext (row : Nat) : (countFault row s).progNext = s.progNext := rfl
@[simp] theorem countFault_program (row : Nat) : (countFault row s).program = s.program := rfl
@[simp] theorem countFault_switch (row : Nat) : (countFault row s).switch = s.switch := rfl
@[simp] theorem countFault_solveDeadline (row : Nat) : (countFault row s).solveDeadline = s.solveDeadline := rfl
@[simp] theorem countFault_engines (row : Nat) : (countFault row s).engines = s.engines := rfl
@[simp] theorem countFault_work (row : Nat) : (countFault row s).work = s.work := rfl
@[simp] theorem countFault_loops (row : Nat) : (countFault row s).loops = s.loops := rfl
@[simp] theorem countFault_loopMs (row : Nat) : (countFault row s).loopMs = s.loopMs := rfl
@[simp] theorem countFault_loopLeft (row : Nat) : (countFault row s).loopLeft = s.loopLeft := rfl
@[simp] theorem countFault_loopEvals (row : Nat) : (countFault row s).loopEvals = s.loopEvals := rfl
@[simp] theorem countFault_loopMaxLoad (row : Nat) : (countFault row s).loopMaxLoad = s.loopMaxLoad := rfl
@[simp] theorem countFault_solver (row : Nat) : (countFault row s).solver = s.solver := rfl
@[simp] theorem countFault_opt (row : Nat) : (countFault row s).opt = s.opt := rfl
@[simp] theorem countFault_est (row : Nat) : (countFault row s).est = s.est := rfl
@[simp] theorem countFault_meter (row : Nat) : (countFault row s).meter = s.meter := rfl
@[simp] theorem countFault_rings (row : Nat) : (countFault row s).rings = s.rings := rfl
@[simp] theorem countFault_ringTx (row : Nat) : (countFault row s).ringTx = s.ringTx := rfl
@[simp] theorem countFault_time (row : Nat) : (countFault row s).time = s.time := rfl
@[simp] theorem countFault_can (row : Nat) : (countFault row s).can = s.can := rfl
@[simp] theorem countFault_boundary (row : Nat) : (countFault row s).boundary = s.boundary := rfl
@[simp] theorem countFault_test (row : Nat) : (countFault row s).test = s.test := rfl
@[simp] theorem countFault_rtc (row : Nat) : (countFault row s).rtc = s.rtc := rfl
@[simp] theorem countFault_recorder (row : Nat) : (countFault row s).recorder = s.recorder := rfl
@[simp] theorem countFault_panel (row : Nat) : (countFault row s).panel = s.panel := rfl
@[simp] theorem countFault_keys (row : Nat) : (countFault row s).keys = s.keys := rfl
@[simp] theorem countFault_fwu (row : Nat) : (countFault row s).fwu = s.fwu := rfl
@[simp] theorem countFault_pending (row : Nat) : (countFault row s).pending = s.pending := rfl

/-! What the changed field becomes. -/

@[simp] theorem emit_emitted (o : Out) : (emit o s).emitted = o :: s.emitted := rfl
@[simp] theorem setPair_pair (f : Pair → Pair) : (setPair f s).pair = f s.pair := rfl
@[simp] theorem setFwu_fwu (f : Fwu → Fwu) : (setFwu f s).fwu = f s.fwu := rfl
@[simp] theorem setSlot_mem (n : Nat) (x : Slot) : (setSlot n x s).host.mem = s.host.mem := rfl
@[simp] theorem takeAccepted_slots (op : Nat) (r : Req) : (takeAccepted op r s).host.slots = s.host.slots := rfl
@[simp] theorem takeAccepted_mem (op : Nat) (r : Req) : (takeAccepted op r s).host.mem = s.host.mem := rfl
@[simp] theorem takeFree_state : (takeFree s).2 = { s with free := s.free + 1 } := rfl
@[simp] theorem takeFree_value : (takeFree s).1 = Config.freeValue s.free := rfl

end

end Sys2Proof.Laws
end

