-- ==== Sys2Proof/WellFormed.lean ====
section
/-! DEFINITION. WellFormed.lean: the operands a command may carry. A word the manual gives a width is a bit vector
or a bounded number in Syntax.lean; what a type does not bound is checked here. -/

namespace Sys2Proof

/-- A request: at most 4 072 payload bytes (R386). -/
def Req.wf (r : Req) : Bool := decide (r.payload.length ≤ 4072)

/-- A register offset addresses a doubleword of BAR0 (R363). -/
def offsetWf (off : W16) : Bool := decide (off.toNat % 4 = 0)

/-- A mortar packet: 0 to 8 payload flits, LEN of them where LEN is valid, and no more flits in error than it has (R10,
R11, R18). -/
def MortarPacket.wf (p : MortarPacket) : Bool :=
  let len := p.header.toNat / 2 ^ 14 % 16
  decide (p.payload.length ≤ 8) && (decide (8 < len) || decide (p.payload.length = len)) &&
    decide (p.singleErrors ≤ p.payload.length + 1)

/-- A transition's timing: the clock switches within 12 µs, and the engines stall for at most 2 µs (R101). -/
def SwitchTiming.wf (t : SwitchTiming) : Bool := decide (t.switched ≤ 12000) && decide (t.stall ≤ 2000)

/-- A CAN frame: at most 64 data bytes; a base identifier has 11 bits; a classic frame has at most 8 bytes; an FD frame
is no remote frame (R341). -/
def CanFrame.wf (f : CanFrame) : Bool :=
  decide (f.data.length ≤ 64) && (f.ide || decide (f.ident.toNat < 2048)) && (f.fdf || decide (f.data.length ≤ 8)) &&
  !(f.fdf && f.rtr)

/-- A command whose operands the manual admits as such. A command that is not well formed still has its meaning: the
meanings are total. -/
def Instr.wf : Instr → Bool
  | .cmdEcho r => r.wf
  | .cmdDeviceInfo r => r.wf
  | .cmdRegRead r => r.wf
  | .cmdRegWrite r => r.wf
  | .cmdEventRead r => r.wf
  | .cmdEventClear r => r.wf
  | .cmdRestart r => r.wf
  | .cmdMainPower r => r.wf
  | .cmdSettingsStore r _ => r.wf
  | .cmdSettingsRead r => r.wf
  | .cmdRestartPolicy r => r.wf
  | .cmdClassConfig r => r.wf
  | .cmdClassStatus r => r.wf
  | .cmdClassRestart r => r.wf
  | .cmdClassHalt r => r.wf
  | .cmdProgLoad r => r.wf
  | .cmdProgSwitch r => r.wf
  | .progSwitchInstant _ => true
  | .cmdEngineStatus r => r.wf
  | .cmdBudgetConfig r => r.wf
  | .cmdBudgetStatus r => r.wf
  | .cmdPointRead r => r.wf
  | .cmdForceSet r => r.wf
  | .cmdForceClear r => r.wf
  | .forceEffect => true
  | .cmdForceList r => r.wf
  | .cmdHistConfig r => r.wf
  | .cmdHistRead r => r.wf
  | .cmdHistStatus r => r.wf
  | .cmdLoopConfig r => r.wf
  | .cmdLoopRead r => r.wf
  | .cmdLoopEnable r => r.wf
  | .cmdLoopAck r => r.wf
  | .cmdLoopStatus r => r.wf
  | .cmdModelLoad r => r.wf
  | .cmdModelSwitch r => r.wf
  | .modelSwitchEffect => true
  | .cmdSolverConfig r => r.wf
  | .cmdSolverRun r => r.wf
  | .cmdSolverStatus r => r.wf
  | .cmdSolverAbort r => r.wf
  | .cmdOptProblemLoad r => r.wf
  | .cmdOptProblemSwitch r => r.wf
  | .problemSwitchEffect => true
  | .cmdOptConfig r => r.wf
  | .cmdOptStatus r => r.wf
  | .cmdPlanRead r => r.wf
  | .cmdEstLoad r => r.wf
  | .cmdEstConfig r => r.wf
  | .cmdEstRun r => r.wf
  | .cmdEstStatus r => r.wf
  | .cmdMtrParamLoad r => r.wf
  | .cmdMtrParamSwitch r => r.wf
  | .mtrParamEffect => true
  | .cmdMtrParamRead r => r.wf
  | .cmdMtrTotals r => r.wf
  | .cmdMtrIntervals r => r.wf
  | .cmdMtrEnable r => r.wf
  | .cmdMtrAdopt r => r.wf
  | .cmdRingConfig r => r.wf
  | .cmdStationConfig r => r.wf
  | .cmdDatasetConfig r => r.wf
  | .cmdLoopRoute r => r.wf
  | .cmdTripConfig r => r.wf
  | .cmdTripReset r => r.wf
  | .cmdRingStatus r => r.wf
  | .cmdStationStatus r => r.wf
  | .mainBoundaryConfigApply => true
  | .cmdTimeConfig r => r.wf
  | .cmdTimePort r => r.wf
  | .cmdTimeSelect r => r.wf
  | .cmdTimeStatus r => r.wf
  | .cmdTimeSet r => r.wf
  | .cmdCanConfig r => r.wf
  | .cmdCanBuffer r => r.wf
  | .cmdCanCancel r => r.wf
  | .cmdCanRecover r => r.wf
  | .cmdCanStatus r => r.wf
  | .cmdPairStatus r => r.wf
  | .cmdPairConfig r => r.wf
  | .cmdSwitchover r => r.wf
  | .cmdDrill r => r.wf
  | .cmdPairResync r => r.wf
  | .cmdFaultStatus r => r.wf
  | .cmdRecRead r => r.wf
  | .cmdRecCursor r => r.wf
  | .cmdRecClear r => r.wf
  | .recClearDone => true
  | .cmdRtcRead r => r.wf
  | .cmdRtcSet r => r.wf
  | .cmdRtcAdjust r => r.wf
  | .cmdRtcAlarm r => r.wf
  | .cmdPnlConfig r => r.wf
  | .cmdPnlWrite r => r.wf
  | .cmdPnlUpdate r => r.wf
  | .cmdPnlStatus r => r.wf
  | .cmdKeyUpdate r => r.wf
  | .cmdKeyStatus r => r.wf
  | .cmdIdentity r => r.wf
  | .cmdLcChange r => r.wf
  | .cmdFwuOpen r => r.wf
  | .cmdFwuData r => r.wf
  | .cmdFwuVerify r => r.wf
  | .cmdFwuActivate r => r.wf
  | .fwuLiveActivation _ => true
  | .cmdFwuConfirm r => r.wf
  | .cmdFwuClose r => r.wf
  | .cmdFwuStatus r => r.wf
  | .fwuBuildResume => true
  | .fwuTrialTimeout => true
  | .cmdTestEnter r => r.wf
  | .cmdTestExit r => r.wf
  | .cmdLoopback r => r.wf
  | .loopbackEnd _ => true
  | .cmdBistRun r _ => r.wf
  | .cmdBistStatus r => r.wf
  | .hifDoorbell _ => true
  | .fragWrite _ _ d _ => decide (1 ≤ d.length) && decide (d.length ≤ 251)
  | .fragRead _ _ => true
  | .sbStatus => true
  | .sbmReassemblyTimeout => true
  | .alertResponseRead => true
  | .hostLinkDown _ => true
  | .hostLinkUp => true
  | .bar2Access _ off _ _ => decide (off % 4 = 0) && decide (off < 0x80000)
  | .registerWrite _ off dws => offsetWf off && decide (0 < dws.length) && decide (dws.length ≤ 32)
  | .postedWriteApplied base => offsetWf base
  | .readClearRegister _ off _ => offsetWf off
  | .latchingLoRead _ off _ => offsetWf off
  | .ptpTimeLoRead _ => true
  | .rtcT0Read _ => true
  | .rtcT1Read _ => true
  | .rtcFreezeTimeout _ => true
  | .rtcApplySet _ _ => true
  | .rtcFlagsClear _ _ => true
  | .recSeek _ _ => true
  | .recData0Read _ => true
  | .recData15Read _ => true
  | .sigEnClear _ _ => true
  | .sigEnSet _ _ => true
  | .evtMsgEnSet _ _ => true
  | .lockBitSet _ off _ => offsetWf off
  | .evtPendClear _ _ _ => true
  | .hifCmplClear _ _ _ => true
  | .evtRouteWrite _ _ _ => true
  | .loopCtrlRun _ _ => true
  | .solCtrlEnable _ _ => true
  | .ringCtrlEnable _ _ => true
  | .ringEtypeWrite _ _ => true
  | .ptpCtrlWrite _ _ => true
  | .canModeWrite _ _ _ => true
  | .canBitTimingWrite _ _ _ _ => true
  | .canTxreq _ _ _ _ => true
  | .canCancel _ _ _ _ => true
  | .canNdClear _ _ _ _ => true
  | .pairCtrlWrite _ _ => true
  | .pnlCtrlEnable _ _ => true
  | .bgtConfigWrite _ off _ => offsetWf off
  | .evtHoldoffExpiry _ => true
  | .recWrite => true
  | .signatureSweep _ => true
  | .mortarPacket p => p.wf
  | .handshakeWatchdog _ => true
  | .clockPresenceExpiry _ => true
  | .transitionTimerExpiry _ => true
  | .brickBank _ => true
  | .brickWake _ => true
  | .transitionComplete t => t.wf
  | .classPeriodStart _ => true
  | .markAck _ _ => true
  | .snapshotTimeout _ => true
  | .feederPush => true
  | .engineWake _ => true
  | .stealRequest _ _ _ => true
  | .stealGrant _ => true
  | .unitComplete _ _ => true
  | .resultHash _ => true
  | .stagingCopyDone _ _ => true
  | .engineHung _ => true
  | .engineCheck _ => true
  | .cycleDeadline _ => true
  | .cycleAbandon _ => true
  | .classUnitsStopped _ => true
  | .governorTick _ => true
  | .tempSample _ => true
  | .slowForced => true
  | .solverJobReturn _ _ => true
  | .factorLimit => true
  | .optJobIssue => true
  | .optJobReturn _ => true
  | .estRunStart => true
  | .estRunReturn _ => true
  | .retainWriteDone => true
  | .loopMsTick _ _ => true
  | .loopFeExpiry _ => true
  | .mspFrame _ l => decide (l.length = 8)
  | .meterPortLoss _ => true
  | .zcTimeout _ => true
  | .pulseEdge _ _ => true
  | .tbusRead _ => true
  | .heatStep => true
  | .totalsSave => true
  | .intervalClose => true
  | .inputDataset _ _ => true
  | .tripReq _ _ => true
  | .hsrFrameForward _ _ => true
  | .linkCheckSend _ => true
  | .linkCheckReceive _ => true
  | .linkEcho _ => true
  | .portLinkLoss _ => true
  | .supervisionFrameSend _ => true
  | .nodeForgotten _ _ => true
  | .duplicateEntryExpiry _ _ => true
  | .stationAbsent _ => true
  | .ptpMessage _ _ => true
  | .syncSend _ _ => true
  | .announceSend _ _ => true
  | .ppsEdge => true
  | .todMessage _ => true
  | .domainHoldover _ => true
  | .deviceTimeUpdate => true
  | .domainRevert => true
  | .canFrameReceive _ f => f.wf
  | .canTxComplete _ => true
  | .canTxError _ _ => true
  | .canBusOn _ => true
  | .canIntegrate _ => true
  | .canRxTimeout _ _ => true
  | .canCheck _ _ _ => true
  | .heartbeatSend => true
  | .heartbeatReceive _ => true
  | .heartbeatLost => true
  | .activeNCheck => true
  | .takeUpControl => true
  | .pairLinkDown => true
  | .pairLaneLoss _ => true
  | .mirrorRecord _ _ => true
  | .snapshotFillRequest _ _ => true
  | .snapshotFillTimeout _ => true
  | .selfCheckDone _ => true
  | .slot1ClaimTimeout => true
  | .partnerPresentChange _ => true
  | .join _ => true
  | .roleExchange _ => true
  | .drillStart => true
  | .drillCheckDone _ _ => true
  | .drillAgeHour => true
  | .dramError _ => true
  | .mramError _ _ => true
  | .lockstepDisagreement => true
  | .vstbyApplied _ _ => true
  | .backupPowerUp => true
  | .railSequence => true
  | .railFault _ => true
  | .railRetry => true
  | .vinOvervoltage => true
  | .bootComplete _ => true
  | .mainWatchdog => true
  | .rstNAssert n => decide (0 < n)
  | .rstNRelease => true
  | .pfwFall => true
  | .pfwRise => true
  | .vbatSwitch => true
  | .vbatMeasure _ => true
  | .oscStopDetect => true
  | .rtcSecond => true
  | .rtcAlarm _ => true
  | .pnlFrame => true
  | .pnlBiasCheck _ => true
  | .pnlBiasRetry _ => true
  | .pnlBiasOff => true
  | .pnlCrcCheck _ => true
  | .pairLinkUp _ => true
  | .activeNChange _ => true
  | .delayReqSend _ _ => true
  | .canRxBusError _ => true
  | .oscRestart => true
  | .trialSecondsWrite => true
  | .mainSideColdReset => true

end Sys2Proof
end

