-- ==== Sys2Proof/Tests/Slice0.lean ====
section
/-! SUPPORT. Slice0.lean: the model's own tests, and for every obligation with hypotheses a witness: concrete states and operands
that meet all hypotheses of each of its clauses together. Every test's expected value is the manual's or published with the
algorithm. The commands that are always signed pass only where the signature verifies; the verifier is a free value of Config, so
their witnesses say: where it accepts, these operands meet the hypotheses. -/

namespace Sys2Proof.Tests

open Sys2Proof Sys2Proof.Machine Sys2Proof.Safety

set_option linter.all false
set_option Elab.async false

/-- Little-endian fields, given as (bytes, value). -/
def bytes (l : List (Nat × Nat)) : Bytes := l.flatMap fun e => putLE e.1 e.2
/-- A request from slot 0 of the host. -/
def ask (p : Bytes) : Req := { origin := .slot 0, tag := 1, signed := false, payload := p }
/-- A request over the side-band. -/
def sbAsk (p : Bytes) : Req := { origin := .sideBand, tag := 1, signed := false, payload := p }
/-- A signed request: key slot 0, scheme 1, counter 1, serial number 0, and 96 bytes of signature (R396). -/
def signed (p : Bytes) : Req :=
  { origin := .slot 0, tag := 1, signed := true, payload := p ++ bytes [(2, 0), (2, 1), (4, 1), (8, 0), (96, 0)] }
/-- A module that runs alone on its partner's side: powered, booted, READY, ACTIVE, in the FIELD state. -/
def up : State := { State.reset with
  refNs := 100000000000
  power := { mainUp := true, released := true, booted := true, ready := true }
  host := { linkUp := true }
  time := { dev := clockOfNs 100000000000, neverLocked := true }
  pair := { role := .active }
  rtc := { crystal := true }
  recorder := { ready := true }
  keys := { lc := .field } }
/-- The state in which a request of slot 0 has been accepted and waits. -/
def waits (c : CmdSpec) (r : Req) (s : State) : State :=
  { s with host := { s.host with accepted := [{ opcode := c.opcode, req := r }], slots := [(0, { st := .accepted, status := 1 })] } }
/-- A job descriptor (R200, R237). -/
def jobDesc (kind method deadline reserve factor dpMax : Nat) : Bytes :=
  bytes [(1, kind), (1, method), (1, 0), (1, 0), (2, 100), (2, if kind < 3 then 100 else 0), (1, 10), (1, 0), (2, 10), (4, 1),
    (4, 10), (4, 1), (4, deadline), (4, reserve), (4, factor), (4, dpMax), (24, 0)]
/-- A job of the solver. -/
def job : JobRun :=
  { model := parseModel [], desc := parseDesc [], stamp := 0, req := none, open' := [], ctrl := [], bc := []
    tin := [], amb := 0, p0 := [], q0 := [], t0 := [], partial' := false, island := [], estUsed := false, lin0 := [], issued := 0, limitNs := 100, dtUs := 10000, lateAt := []
    tileRows := 0 }
/-- A loop descriptor with fault time 100 ms. -/
def loopDesc : LoopDesc :=
  { mode := 1, flags := 0, nsets := 1, tripGroup := 0, periodMs := 10, phaseMs := 0, pvPoint := 1
    targetId := 0, svPoint := noPoint, outPoint := noPoint, speffPoint := noPoint, outRoute := 0, fallback := 0, feLimit := 5
    feTimeMs := 100, jerkN := 1, tripState := 0, regionHyst := 0, sets := [], raw := [] }
/-- A payload of CMD_LOOP_CONFIG: channel 0 follows point 1 (R153). -/
def loopBytes : Bytes :=
  bytes [(4, 0), (1, 1), (1, 0), (1, 1), (1, 0), (2, 10), (2, 0), (4, 1), (4, 1), (4, noPoint), (4, 2), (4, noPoint), (4, 0),
    (8, 0), (8, 0), (4, 0), (1, 1), (1, 0), (2, 0), (8, 0), (8, 0), (12, 0), (8, 0), (4, 1), (4, 1), (4, 2), (280, 0)]
/-- A job of the optimiser. -/
def optJob : OptRun :=
  { prob := parseProblem [], stamp := 0, desc := parseDesc [], estimated := false, x0 := [], lo := [], hi := [], cost := []
    conLo := [], conHi := [], issued := 0, limitNs := 0, tileRows := 0 }
/-- A run of the estimator. -/
def estRun (t : EstTrigger) : EstRun :=
  { trig := t, req := none, job := job, used := [], prior := []
    table := { crc := 0, modelId := 0, sigmaZero := 1, sigmaPseudo := 1, badK := 3, rows := [] } }
/-- A packet without errors. -/
def packet (h : W64) (l : List W64) (a : Bool) : MortarPacket :=
  { header := h, payload := l, singleErrors := 0, uncorrectable := false, answered := a }
/-- A brick towards which a request was raised at time 0. -/
def raised : Brick := { ports := [(0, { raisedAt := some 0 })] }
/-- A plan of one output over four steps. -/
def plan : Plan := { t0 := 0, stepS := 60, horizon := 4, values := [[1, 2, 3, 4]], scales := [0], outs := [], estimated := false, crc := 0 }
/-- A module whose estimator has its descriptor, its model and a measurement table for it. -/
def estUp : State := { up with
  solver := { up.solver with model := some (parseModel []) }
  est := { up.est with
    desc := some (parseDesc [])
    table := some { crc := 0, modelId := (parseModel []).modelId, sigmaZero := 1, sigmaPseudo := 1, badK := 3, rows := [] } } }
/-- A metering set. -/
def setRow : SetCfg :=
  { mode := 1, zcPhase := 0, zcTimeout := 20, zcHyst := 0, vLsb := 1, iLsb := 1, tempPoint := noPoint
    pmaxW := 1, pointBase := 0, bands := [] }
/-- A good frame of a metering port: SYNC, FORMAT 1, six samples of 0 and its CRC (R259). -/
def goodFrame : List W32 :=
  let l : List W32 := [0xA5000001, 0, 0, 0, 0, 0, 0]
  l ++ [BitVec.ofNat 32 (crc16 (frameWire l) * 65536)]
/-- Ring 0 released. -/
def ringUp : State := { up with regs := { up.regs with cfg := [(0xD04, 1)] } }
/-- Station 5 of ring 0. -/
def station5 : Station :=
  { cfg := some { ring := 0, enable := true, auth := false, periodUs := 1000, missN := 2, tripPermit := 0xFFFF, mac := 0 } }
/-- Ring 0 with station 5. -/
def stationUp : State := { ringUp with rings := { ringUp.rings with stations := [(5, station5)] } }
/-- An HSR frame. -/
def hsr : HsrFrame := { src := 0x123456, seq := 7, supervision := false, vlan := false, fcsOk := true, ptp := none, residence := 0 }
/-- Ring 0 with one node, that sent frame 7 within the last 400 ms. -/
def nodeUp : State := { ringUp with rings := { ringUp.rings with rings := [(0, { nodes := [(0x123456, { seqs := [(7, 99900000000)] })] })] } }
/-- A Sync message. -/
def ptpMsg (lost : Bool) : PtpMsg :=
  { kind := .sync false, domain := 0, seq := 1, source := 5, correction := 0, timestamp := 0
    timestamp2 := 0, gmIdentity := 0, gmClass := 6, gmPriority1 := 0, gmQuality := 0, gmPriority2 := 0, steps := 0
    utcOffset := 37, utcValid := true, leap61 := false, leap59 := false, stampLost := lost }
/-- A time-of-day message (R329). -/
def todGood : Bytes :=
  let m := bytes [(2, 0x4454), (1, 1), (1, 1), (8, 100), (2, 37)]
  m ++ putLE 2 (crc16 m)
/-- A CAN frame. -/
def canFrame : CanFrame := { ident := 0x55, ide := false, fdf := false, brs := false, esi := false, rtr := false, dlc := 0, data := [] }
/-- A nominal bit timing (R342). -/
def canNbt : Nat := 63 * 2 ^ 8 + 16 * 2 ^ 16 + 16 * 2 ^ 23
/-- A synchronised pair whose classes all run. -/
def pairUp : State := { up with
  pair := { up.pair with joined := true, synced := true, linkUp := true, present := true }
  classes := [(0, { st := .run }), (1, { st := .run }), (2, { st := .run }), (3, { st := .run })] }
/-- An empty copy of the active's state. -/
def joinCopy : JoinCopy :=
  { image := none, model := none, table := none, problem := none, params := none, settings := [], seq := 0
    points := [], states := [], forces := [], trips := 0, channels := [], plan := none, solution := none, keptHyd := none
    keptTherm := none, lastX := none, totSets := [], totHeat := [], resSets := [], resHeat := [], thermSol := none, linSol := none, digestsOk := true, syncMs := 0 }
/-- A manifest without components. -/
def manifest : Manifest := { release := 1, feature := 1, proto := 1, length := 0, crc := 0, comps := [] }
/-- A loopback test of ring port 0. -/
def loop0 : LoopRun := { req := ask [], iface := 0, index := 0, depth := 1, count := 1 }
/-- A work entry of class 4. -/
def entry4 : Entry := { unit := 0, course := 1, cls := 4, role := 0, split := 0, excl1 := 255, excl2 := 255, attempt := 0, ember := 0, stamp := 0 }
/-- A work entry of class 1. -/
def entry1 (role : Nat) : Entry := { entry4 with cls := 1, role := role }
/-- A search for Background work at a distance. -/
def search4 (d : Nat) : Search := { cls := 4, dist := d, barred := [] }
/-- A run of a unit without an upset. -/
def obs0 : RunObs := { spent := 0, upset := 0 }
/-- Results that write nothing. -/
def staged0 : Staged := { engine := 0, hash := 0, writes := [], states := [] }
/-- An image with one unit and no instance. -/
def image1 : Image := { parseImage [] with
  units := [
    { firstInstance := 0, instanceCount := 0, cls := 1, crit := 0, course := 1
      homeEngine := 0, worstClocks := 10, ember := 0, scratchBytes := 0, writeSet := [] }] }
/-- Engine 0 runs an entry of class 1. -/
def runUp (x : Entry) : State := { up with
  engines := [(0, { running := some x, idle := false })]
  classes := [(1, { cycle := some { stamp := 0 }, prog := some image1 })] }
/-- Engine 0 runs an entry of Background. -/
def backUp : State := { up with
  engines := [(0, { running := some entry4, idle := false })]
  classes := [(4, { prog := some image1 })] }
/-- A key update after phase 1 of its journal, due. -/
def keyUpd : KeyOp := { work := .update 1 0 [] [] [] [], stage := .begun, start := 0, due := 0, req := some (ask []) }
/-- A transition to SERVICE after its journal entry, due. -/
def keyTrans : KeyOp := { work := .transition .service [], stage := .begun, start := 0, due := 0, req := some (ask []) }
/-- A boot whose self-test passes. -/
def boot (b : Bool) : BootObs := { bist := { failed := 0, bricks := [], ms := 1 }, runningOk := b, otherOk := false }

/-- A release package without payload: a manifest of eight empty components, and the signature section (R540, R542). -/
def package : Bytes :=
  bytes ([(4, 0x55464756), (2, 1), (2, 0), (4, 752), (4, 0x044C35BE), (4, 1), (4, 0), (4, 64), (4, 640), (4, 0), (4, 640), (24, 0), (4, 0x4D464756),
    (2, 1), (2, 8), (4, 1), (1, 1), (1, 1), (2, 0), (4, 4096), (8, 0), (4, 0xF7820E97)] ++
    ((upto 8).flatMap fun i => [(1, i + 1), (1, b2n (i = 7)), (6, 0), (4, 4096), (52, 0)]) ++ [(32, 0), (2, 0), (2, 1), (108, 0)])
/-- A key for UV. -/
def keyUv : Key :=
  { type := 2, dest := 9, parent := 0, label := [], flags := 0, uses := 0, data := List.replicate 96 0 }
/-- A session that holds the package. -/
def packageSession : Session :=
  { st := .downloading, port := .pcie, slot := 0, tag := 1, kind := 0, total := 752, received := package }
/-- The package waits to be verified, with a key for it in slot 0. -/
def packageUp : State := { up with
  fwu := { up.fwu with session := some packageSession }
  keys := { up.keys with slots := [(0, keyUv)] } }

/-- A CRC register from chunk to chunk of 80 bytes. -/
def crcRun (p : Nat) : Nat → List Nat → Bytes → Bool
  | _, [], l => l.isEmpty
  | c, d :: r, l => decide (crcRefl p c (l.take 80) = d) && crcRun p d r (l.drop 80)

theorem crcRefl_append (p c : Nat) (a b : Bytes) : crcRefl p c (a ++ b) = crcRefl p (crcRefl p c a) b := by
  induction a generalizing c with
  | nil => rfl
  | cons x r ih => exact ih _

theorem crcRun_eq (p c : Nat) (ds : List Nat) (l : Bytes) (h : crcRun p c ds l = true) : crcRefl p c l = ds.getLastD c := by
  induction ds generalizing c l with
  | nil => simp only [crcRun, List.isEmpty_iff] at h; subst h; rfl
  | cons d r ih =>
    simp only [crcRun, Bool.and_eq_true, decide_eq_true_eq] at h
    rw [← List.take_append_drop 80 l, crcRefl_append, h.1, ih d _ h.2]
    cases r <;> rfl

theorem package_crc : crc32c (slice package 16 624) = 0x044C35BE := by
  rw [crc32c, crcRun_eq _ _ [0x8D6DAB30, 0x18F948BE, 0x6E72D10F, 0x4ACEEE19, 0x2B7CCDD8, 0x3F622B06, 0x03E515A9, 0xFBB3CA41] _ (by decide +kernel)]
  rfl

theorem manifest_crc : crc32c (slice (pkgManifest package) 0 28 ++ slice (pkgManifest package) 32 512) = 0xF7820E97 := by
  rw [crc32c, crcRun_eq _ _ [0x6CA0997F, 0xD991E26E, 0x3F40FED1, 0x1D784425, 0xDC959994, 0x30AE84A7, 0x087DF168] _ (by decide +kernel)]
  rfl

theorem manifest_ok : manifestOk (pkgManifest package) = true := by
  unfold manifestOk
  simp only [manifest_crc]
  decide +kernel

/-- Checks 1 to 6 pass for a package whose fields pass, where the signature verifies. -/
theorem packageFault_none (s : State) (x : Session) (k : Key) (hv : ∀ k m x y, Config.ecdsaVerify k m x y = true)
    (h1 : keyFor s (getLE (x.received.drop (pkgSig x.received)) 0 2) destUv = some k)
    (b : getLE x.received 12 4 = crc32c (slice x.received 16 (pkgSig x.received - 16))) (d : manifestOk (pkgManifest x.received) = true)
    (h2 : (pkgLayout x && decide (getLE (x.received.drop (pkgSig x.received)) 2 2 = 1) &&
      !svnLow s (parseManifest (pkgManifest x.received)) && baseOk s x) = true) : packageFault s x = none := by
  simp only [Bool.and_eq_true, Bool.not_eq_true', decide_eq_true_eq] at h2
  obtain ⟨⟨⟨a, c⟩, e⟩, f⟩ := h2
  simp [packageFault, sectionVerify, hv, h1, a, b, c, d, e, f]

/-- KB accepts a signature block whose fields pass, where the signature verifies. -/
theorem signedCause_none (op : Nat) (r : Req) (s : State) (k : Key)
    (hv : ∀ k m x y, Config.ecdsaVerify k m x y = true)
    (h1 : (if inService s idKB then keyFor s (getLE (r.payload.drop (r.payload.length - sigLen)) 0 2) 0 else none) = some k)
    (h2 : lcAdmits s op = true)
    (h3 : getLE (r.payload.drop (r.payload.length - sigLen)) 8 8 = s.keys.serial.toNat)
    (h4 : s.keys.privCnt.toNat < getLE (r.payload.drop (r.payload.length - sigLen)) 4 4)
    (h5 : getLE (r.payload.drop (r.payload.length - sigLen)) 2 2 = 1) : signedCause op r s = none := by
  simp only [signedCause, h1, h2, h3, h5, hv]
  simp [h4]

/-- A signed command is accepted where everything but the signature itself passes and the signature verifies. -/
theorem accepted_signed (c : CmdSpec) (r : Req) (s : State) (k : Key)
    (hv : ∀ k m x y, Config.ecdsaVerify k m x y = true) (h0 : r.signed = true)
    (h1 : (if inService (entered c r s) idKB then
      keyFor (entered c r s) (getLE (r.payload.drop (r.payload.length - sigLen)) 0 2) 0 else none) = some k)
    (h2 : (lcAdmits (entered c r s) c.opcode &&
      decide (getLE (r.payload.drop (r.payload.length - sigLen)) 8 8 = (entered c r s).keys.serial.toNat) &&
      decide ((entered c r s).keys.privCnt.toNat < getLE (r.payload.drop (r.payload.length - sigLen)) 4 4) &&
      decide (getLE (r.payload.drop (r.payload.length - sigLen)) 2 2 = 1) &&
      mayStart c.opcode r s && (signFlagRefusal c.opcode r.signed).isNone && !gated c.opcode (bodyOf r) (entered c r s) &&
      (lengthRefusal c r).isNone && (c.check r (bodyOf r) (afterSignature r (entered c r s))).isNone) = true) :
    accepted c r s = true := by
  simp only [Bool.and_eq_true, decide_eq_true_eq] at h2
  obtain ⟨⟨⟨⟨⟨⟨⟨⟨a1, a2⟩, a3⟩, a4⟩, a5⟩, a6⟩, a7⟩, a8⟩, a9⟩ := h2
  have e : signatureRefusal c.opcode r (entered c r s) = none := by
    simp only [signatureRefusal, h0, if_true]
    exact signedCause_none _ _ _ _ hv h1 a1 a2 a3 a4
  simp only [accepted, a5, a6, a7, a8, a9, e, Option.isNone_none, Bool.and_self]
/-- The key that slot 0 holds at reset. -/
def key0 : Key :=
  { type := 2, dest := 1, parent := 0, label := List.replicate 16 0, flags := 0, uses := 0, data := List.replicate 96 0 }

/-! ### WellFormed: an ill-formed term for each check, refused -/

/-- A request of more than 4 072 payload bytes is ill-formed; one of 4 072 is well formed (R386). -/
theorem test_wf_request : (Instr.cmdEcho (ask (zeros 4073))).wf = false ∧ (Instr.cmdEcho (ask (zeros 4072))).wf = true := by decide +kernel
/-- A register offset that is no doubleword's is ill-formed, and so are an empty burst and one of 33 doublewords (R363). -/
theorem test_wf_register_write : (Instr.registerWrite .pcie 0x902 [(15, 0)]).wf = false ∧
    (Instr.registerWrite .pcie 0x904 []).wf = false ∧
    (Instr.registerWrite .pcie 0x904 (List.replicate 33 (15, 0))).wf = false ∧
    (Instr.registerWrite .pcie 0x904 (List.replicate 32 (15, 0))).wf = true := by decide +kernel
/-- An offset that is no doubleword's is ill-formed in every other command that carries one. -/
theorem test_wf_offsets : (Instr.postedWriteApplied 0x901).wf = false ∧ (Instr.readClearRegister .pcie 0x021 15).wf = false ∧
    (Instr.latchingLoRead .pcie 0x022 15).wf = false ∧ (Instr.lockBitSet .pcie 0xF09 1).wf = false ∧
    (Instr.bgtConfigWrite .pcie 0x905 1).wf = false := by decide +kernel
/-- A BAR2 access outside the BAR or off a doubleword is ill-formed (R389). -/
theorem test_wf_bar2 : (Instr.bar2Access true 0x80000 15 0).wf = false ∧ (Instr.bar2Access true 2 15 0).wf = false := by decide +kernel
/-- A fragment has 1 to 251 bytes (R400). -/
theorem test_wf_fragment : (Instr.fragWrite 0 0 [] true).wf = false ∧ (Instr.fragWrite 0 0 (zeros 252) true).wf = false ∧
    (Instr.fragWrite 0 0 (zeros 251) true).wf = true := by decide +kernel
/-- A packet has as many payload flits as its LEN says, and no more flits in error than flits (R10, R11). -/
theorem test_wf_mortar : (Instr.mortarPacket { header := 0x4000, payload := [1], singleErrors := 3, uncorrectable := false, answered := true }).wf = false ∧
    (Instr.mortarPacket { header := 0x4000, payload := [1, 2], singleErrors := 0, uncorrectable := false, answered := true }).wf = false ∧
    (Instr.mortarPacket { header := 0x4000, payload := [1], singleErrors := 2, uncorrectable := false, answered := true }).wf = true := by
  decide +kernel
/-- A metering frame has eight words (R257). -/
theorem test_wf_msp_frame : (Instr.mspFrame 0 [1]).wf = false ∧ (Instr.mspFrame 0 goodFrame).wf = true := by decide +kernel
/-- CAN: more than 64 bytes, a base identifier of 12 bits, a classic frame of 9 bytes, an FD remote frame (R341). -/
theorem test_wf_can : (Instr.canFrameReceive 0 { canFrame with fdf := true, data := zeros 65 }).wf = false ∧
    (Instr.canFrameReceive 0 { canFrame with ident := 0x800 }).wf = false ∧
    (Instr.canFrameReceive 0 { canFrame with data := zeros 9 }).wf = false ∧
    (Instr.canFrameReceive 0 { canFrame with fdf := true, rtr := true }).wf = false ∧
    (Instr.canFrameReceive 0 canFrame).wf = true := by decide +kernel
/-- A pulse of RST_N lasts some time. -/
theorem test_wf_rst : (Instr.rstNAssert 0).wf = false := by decide +kernel

/-! ### Decode -/

/-- The table gives no row any bits, so a word spells no command, and the queue stays as it is. -/
theorem test_decode_none : decodeTableWord 16 0 = none ∧ (up.withFetchWord 32 5).pending = [] := by decide +kernel

/-! ### Numbers that the manual works out -/

/-- Short time, example after R4: 0x0000_0100 lies 512 ms after 0xFFFF_FF00. -/
theorem test_short_time : wrapDiff 32 0xFFFFFF00 0x00000100 = 512 ∧ later 32 0xFFFFFF00 0x100 = true := by decide +kernel
/-- Replicas of unit 417 with home engine 13 and k = 1, example after R90: A goes to engine 16, B to engine 45. -/
theorem test_replica_placement : placeFrom up { entry1 1 with unit := 417, split := 1, excl1 := noBrick, excl2 := noBrick } 13 = some 16 ∧
    placeFrom up { entry1 2 with unit := 417, split := 1, excl1 := noBrick, excl2 := noBrick } 45 = some 45 := by decide +kernel
/-- The two ticks of the worked example of the ember budget (R104 to R109). -/
theorem test_budget_ticks :
    (let b : Budget := { cap := 30000, hard := 36000, poolMax := 400000, t4 := 404, pool := 60000 }
     tickSum b 14500 300 = { before := 66200, pool := 66200, capEff := 21000, rise := 0 } ∧
     (tickBudget b (tickSum b 14500 300)).state = 2 ∧ (tickBudget b (tickSum b 14500 300)).scale = 128) ∧
    (let b : Budget := { cap := 30000, hard := 36000, poolMax := 400000, t4 := 416, pool := 61400 }
     tickSum b 76900 4000 = { before := 0, pool := 0, capEff := 19500, rise := 3000 } ∧
     (tickBudget b (tickSum b 76900 4000)).state = 3 ∧ (tickBudget b (tickSum b 76900 4000)).scale = 64) := by decide +kernel
/-- T_RETX at 500 kbit/s and 2 Mbit/s is 8 352 µs, at 1 Mbit/s and 8 Mbit/s 2 816 µs, in quanta of 12.5 ns (R342, R354). -/
theorem test_retransmission_bound :
    (let cfg (nbt dbt : Nat) : State := { up with regs := { up.regs with cfg := [(0x4008, BitVec.ofNat 32 nbt), (0x400C, BitVec.ofNat 32 dbt)] } }
     tRetx (cfg (1 + 62 * 2 ^ 8 + 15 * 2 ^ 16) (2 ^ 18 + 3 + 6 * 2 ^ 5 + 1 * 2 ^ 10)) 1 * 25 = 8352000 * 2 ∧
     tRetx (cfg (62 * 2 ^ 8 + 15 * 2 ^ 16) (2 ^ 18 + 6 * 2 ^ 5 + 1 * 2 ^ 10)) 1 * 25 = 2816000 * 2) := by decide +kernel
/-- EVT_ROUTE0x29 (CLASS_SAFE) resets to vector 1 with MSIX_EN and ALERT_EN, 0xC1 (R381). -/
theorem test_route_reset : (readFull .pcie 0x4A4 State.reset).1 = 0xC1 := by decide +kernel
/-- Serial number 0x0123_4567: port 5 has the address 0A-47-09-1A-2B-3D (R519). -/
theorem test_port_mac : portMac { up with keys := { up.keys with serial := 0x01234567 } } 5 = 0x0A47091A2B3D := by decide +kernel
/-- 2100 is no leap year: 29 February 2100 is not possible, and 2100-02-28 23:59:58 is 2 s before 1 March (R481, R482). -/
theorem test_calendar_2100 : possible { month := 2, day := 29, year := 100 } = false ∧
    calTicks { day := 1, month := 3, year := 100 } - calTicks { sec := 58, min := 59, hour := 23, day := 28, month := 2, year := 100 } = 65536 := by
  decide +kernel
/-- The check values of CRC-32, CRC-32C, CRC-16/CCITT-FALSE and CRC-8 over "123456789", as published with the polynomials. -/
theorem test_crc : crc32 [0x31, 0x32, 0x33, 0x34, 0x35, 0x36, 0x37, 0x38, 0x39] = 0xCBF43926 ∧
    crc32c [0x31, 0x32, 0x33, 0x34, 0x35, 0x36, 0x37, 0x38, 0x39] = 0xE3069283 ∧
    crc16 [0x31, 0x32, 0x33, 0x34, 0x35, 0x36, 0x37, 0x38, 0x39] = 0x29B1 ∧
    crc8 [0x31, 0x32, 0x33, 0x34, 0x35, 0x36, 0x37, 0x38, 0x39] = 0xF4 := by decide +kernel

/-! ### The worked small network of chapter 7 -/

/-- A node of the worked network: identifier and kind. -/
def netNode (id k : Nat) : Node :=
  { id := id, kind := k, bcPoint := noPoint, pPoint := noPoint, tPoint := noPoint, tinPoint := noPoint, object := 0, objIndex := 0 }
/-- A pipe of the worked network: K in raw 2^-24 with a friction factor of 1. -/
def netPipe (id a b kg : Nat) : Branch :=
  { id := id, from' := a, to' := b, kind := 0, rough := 0, segs := 1, kg := kg, rePerQ := 0, dpLam := 65, a0 := 0, a1 := 0, a2 := 0
    ctrl := noPoint, lambda := 0, segMass := 0, qPoint := noPoint, group := 0xFFFF }
/-- Its RANGE records: pressures at scale -16, δ at -22, the other vectors at -24. -/
def netRanges : List RangeRec :=
  { job := 1, kind := 0, role := 0, scale := -26, index := 0, rmax := 2147483647 } ::
  { job := 1, kind := 2, role := 0, scale := -40, index := 0, rmax := 2147483647 } ::
  ((upto 10).map fun r => { job := 1, kind := 1, role := r, scale := if r = 1 then -16 else if r = 9 then -22 else -24, index := 0
                            rmax := if r = 1 then 65536000 else 2147483647 }) ++
  (upto 10).map fun r => { job := 1, kind := 3, role := r, scale := 0, index := 0, rmax := 32808 }
/-- The worked network: K = 0.5, 1 and 2; node 0 fixed, nodes 2 and 3 with demands. -/
def net : Model :=
  let nodes := [netNode 1 1, netNode 2 0, netNode 3 2, netNode 4 2]
  let branches := [netPipe 1 0 1 8388608, netPipe 2 1 2 16777216, netPipe 3 1 3 33554432]
  { crc := 1, modelId := 1, ambPoint := noPoint, gMin := 1000, nodes := nodes, branches := branches
    friction := [([0, 1000], [16777216, 16777216])], ranges := netRanges, hydPat := patternOf 3 (hydPairs nodes branches), thermPat := [] }
/-- Its job: PCG with IC(0), DP_MAX 50 kPa, NTOL 0.001, warm at 380, 290 and 310 kPa. -/
def netJob : JobRun :=
  { model := net
    desc := { parseDesc (zeros 64) with kind := 1, precond := 3, cap := 100, newtonMax := 10, tol := 4295, accept := 429497
                                        ntol := 4294967, dpMax := 50 * 65536 }
    stamp := 0, req := none, open' := [true, true, true], ctrl := [65536, 65536, 65536], bc := [500 * 65536, 0, 10 * 65536, 6 * 65536]
    tin := [], amb := 0, p0 := [500 * 65536, 380 * 65536, 290 * 65536, 310 * 65536], q0 := [0, 0, 0], t0 := [], partial' := false
    island := [], estUsed := false, lin0 := [], issued := 0, limitNs := 100000000, dtUs := 100000, lateAt := [], tileRows := 1 }
/-- One lane, full speed. -/
def netEnv : ArrayEnv := { lanes := [0], slow := (1, 1), scales := [], stops := none }
/-- Raw values agree with numbers to a tolerance of 0.0005 at 2^-16. -/
def closeTo (l m : List Int) : Bool := l.length = m.length && (l.zip m).all fun e => decide ((e.1 - e.2).natAbs ≤ 33)
/-- The start of the worked network: flows 15.49193, 9.48683 and 5.91608 kg/s. -/
theorem test_network_flows : closeTo (newtonStart net netJob { job := 1, ranges := netRanges }).q [1015279, 621729, 387716] = true := by
  decide +kernel
/-- One Newton step of the worked network: pressures 372.129, 272.392 and 300.143 kPa, flows 15.99194, 9.98684 and
5.99942 kg/s, in at most 3 inner iterations. -/
theorem test_network_step :
    (let x := newtonRun net netJob netEnv 100000000 1 [] { fmt := { job := 1, ranges := netRanges } }
       (newtonStart net netJob { job := 1, ranges := netRanges })
     closeTo x.2.x [24387846, 17851482, 19670172] && closeTo x.2.q [1048048, 654498, 393178] && decide (x.1.iters ≤ 3)) = true := by
  decide +kernel
/-- The second correction of the worked network brings ‖F‖ below 10^-4 kg/s, and the stage converges near 372, 272 and
300 kPa. -/
theorem test_network_converges :
    (let x := newtonRun net netJob netEnv 100000000 10 [] { fmt := { job := 1, ranges := netRanges } }
       (newtonStart net netJob { job := 1, ranges := netRanges })
     newtonMet net netJob x.2 && closeTo x.2.x [24379392, 17825792, 19660800]) = true := by
  decide +kernel

/-! ### The queue -/

/-- Commands run first in, first out, and a step takes one. -/
theorem test_queue_order : ∃ t, step { up with pending := [.sbStatus, .oscRestart] } = .next t ∧ t.pending = [.oscRestart] := by
  exact ⟨_, rfl, by decide +kernel⟩
/-- On an empty queue one nanosecond passes. -/
theorem test_empty_queue : ∃ t, step up = .next t ∧ t.refNs = up.refNs + 1 ∧ t.pending = [] := by
  exact ⟨_, rfl, by decide +kernel, by decide +kernel⟩

/-! ### Witnesses -/

/-- The hypotheses of Obligations.DeviceCommandsComplete can be met. -/
theorem witness_DeviceCommandsComplete :
    (∃ (r : Req) (s : State), (accepted specEcho r s = true)) ∧
    (∃ (r : Req) (s : State), (accepted specDeviceInfo r s = true)) ∧
    (∃ (r : Req) (s : State), (accepted specRegRead r s = true)) ∧
    (∃ (r : Req) (s : State), (accepted specRegWrite r s = true)) ∧
    (∃ (r : Req) (s : State), (accepted specEventRead r s = true)) ∧
    (∃ (r : Req) (s : State), (accepted specEventClear r s = true) ∧ (r.origin ≠ .sideBand)) ∧
    (∃ (r : Req) (s : State), (accepted specEventClear r s = true) ∧ (r.origin = .sideBand)) :=
  ⟨⟨ask (bytes [(4, 7)]), waits specEcho (ask (bytes [(4, 7)])) up, by decide +kernel⟩,
   ⟨ask [], waits specDeviceInfo (ask []) up, by decide +kernel⟩,
   ⟨ask (bytes [(4, 0x1604), (2, 1), (2, 0)]), waits specRegRead (ask (bytes [(4, 0x1604), (2, 1), (2, 0)])) up,
    by decide +kernel⟩,
   ⟨ask (bytes [(4, 0x104), (2, 1), (2, 0), (4, 5)]), waits specRegWrite (ask (bytes [(4, 0x104), (2, 1), (2, 0), (4, 5)])) up,
    by decide +kernel⟩,
   ⟨ask [], waits specEventRead (ask []) up, by decide +kernel⟩,
   ⟨ask (zeros 32), waits specEventClear (ask (zeros 32)) up, by decide +kernel, by decide +kernel⟩,
   ⟨sbAsk (zeros 32), up, by decide +kernel, by decide +kernel⟩⟩

/-- The hypotheses of Obligations.RestartPowerSettingsCommandsComplete can be met. -/
theorem witness_RestartPowerSettingsCommandsComplete :
    (∃ (r : Req) (s : State), (accepted specRestart r s = true)) ∧
    (∃ (r : Req) (s : State), (accepted specMainPower r s = true) ∧ (getLE (bodyOf r) 0 1 = 0)) ∧
    (∃ (r : Req) (s : State), (accepted specMainPower r s = true) ∧ (getLE (bodyOf r) 0 1 = 1)) ∧
    (∃ (r : Req) (s : State), (accepted specMainPower r s = true) ∧ (getLE (bodyOf r) 0 1 = 2)) ∧
    (∃ (r : Req) (s : State), (accepted (specSettingsStore true) r s = true) ∧
      ((begun (specSettingsStore true) r s).power.pfw = true)) ∧
    (∃ (r : Req) (s : State) (x : SetRecord), (accepted specSettingsRead r s = true) ∧
      (readSource (begun specSettingsRead r s) (getLE (bodyOf r) 0 1) = some x)) ∧
    (∃ (r : Req) (s : State), (accepted specRestartPolicy r s = true)) :=
  ⟨⟨ask (zeros 4), waits specRestart (ask (zeros 4)) up, by decide +kernel⟩,
   ⟨ask (bytes [(4, 0)]), waits specMainPower (ask (bytes [(4, 0)])) up, by decide +kernel, by decide +kernel⟩,
   ⟨ask (bytes [(4, 1)]), waits specMainPower (ask (bytes [(4, 1)])) up, by decide +kernel, by decide +kernel⟩,
   ⟨ask (bytes [(4, 2)]), waits specMainPower (ask (bytes [(4, 2)])) up, by decide +kernel, by decide +kernel⟩,
   ⟨ask [], waits (specSettingsStore true) (ask []) up, by decide +kernel, by decide +kernel⟩,
   ⟨ask (zeros 8), waits specSettingsRead (ask (zeros 8)) up, _, by decide +kernel, (Option.some_get (by decide +kernel)).symm⟩,
   ⟨ask (bytes [(4, 0x0202), (4, 31536000)]), waits specRestartPolicy (ask (bytes [(4, 0x0202), (4, 31536000)])) up,
    by decide +kernel⟩⟩

/-- The hypotheses of Obligations.ClassCommandsComplete can be met. -/
theorem witness_ClassCommandsComplete :
    (∃ (r : Req) (s : State), (accepted specClassConfig r s = true)) ∧
    (∃ (r : Req) (s : State), (accepted specClassStatus r s = true)) ∧
    (∃ (r : Req) (s : State), (accepted specClassRestart r s = true)) ∧
    (∃ (r : Req) (s : State), (accepted specClassHalt r s = true)) ∧
    (∃ (r : Req) (s : State), (accepted specEngineStatus r s = true)) ∧
    (∃ (c : PClass) (s : State), ((cls s c.val).stopping = true) ∧ (unitsRunning s c.val = false)) :=
  ⟨⟨ask (bytes [(4, 0), (4, 10000), (8, 0)]), waits specClassConfig (ask (bytes [(4, 0), (4, 10000), (8, 0)])) up,
    by decide +kernel⟩,
   ⟨ask (bytes [(4, 4)]), waits specClassStatus (ask (bytes [(4, 4)])) up, by decide +kernel⟩,
   ⟨ask (bytes [(4, 3)]), waits specClassRestart (ask (bytes [(4, 3)])) ({ up with classes := [(3, { st := .safe })] }),
    by decide +kernel⟩,
   ⟨ask (bytes [(4, 3)]), waits specClassHalt (ask (bytes [(4, 3)])) up, by decide +kernel⟩,
   ⟨ask [], waits specEngineStatus (ask []) up, by decide +kernel⟩,
   ⟨3, { up with classes := [(3, { stopping := true })] }, by decide +kernel, by decide +kernel⟩⟩

/-- The hypotheses of Obligations.ProgramCommandsComplete can be met. -/
theorem witness_ProgramCommandsComplete :
    (∃ (r : Req) (s : State), (accepted specProgLoad r s = true)) ∧
    (∃ (r : Req) (s : State), (accepted specProgSwitch r s = true)) ∧
    (∃ (c : PClass) (s : State) (w : ProgSwitch) (im : Image), (s.switch = some w) ∧ (switchImage s w = some im) ∧
      (mayChange s w c.val = true)) :=
  ⟨⟨ask (bytes [(4, 0), (4, 0x20000000), (4, 0), (1, 7)]),
    waits specProgLoad (ask (bytes [(4, 0), (4, 0x20000000), (4, 0), (1, 7)])) up, by decide +kernel⟩,
   ⟨ask (bytes [(4, (parseImage []).crc.toNat), (4, 0)]),
    waits specProgSwitch (ask (bytes [(4, (parseImage []).crc.toNat), (4, 0)])) ({ up with progNext := some (parseImage []) }),
    by decide +kernel⟩,
   ⟨1, { up with progNext := some (parseImage []), switch := some { req := ask [], allowInit := false, at' := 0 } },
    { req := ask [], allowInit := false, at' := 0 }, parseImage [], rfl, rfl, by decide +kernel⟩⟩

/-- The hypotheses of Obligations.BudgetCommandsComplete can be met. -/
theorem witness_BudgetCommandsComplete :
    (∃ (r : Req) (s : State), (accepted specBudgetConfig r s = true)) ∧
    (∃ (r : Req) (s : State), (accepted specBudgetStatus r s = true)) ∧
    (∃ (p : Port) (off : W16) (s : State), (0x904 ≤ off.toNat) ∧ (off.toNat ≤ 0x91C) ∧ (writePasses p off.toNat s)) ∧
    (∃ (s : State), (s.power.booted = true) ∧ (inService s idSV = true) ∧ (s.budget.tickAt ≠ devNs s / 1000000)) ∧
    (∃ (s : State) (y : Cycle) (n : Nat), ((cls s 2).cycle = some y) ∧ (y.phase = .course n) ∧ (y.forced = false) ∧
      (admitted s 2 = false) ∧ (reached s (y.releasedAt + (cls s 2).periodUs * 250) = true) ∧
      ((waitingEntries s).any (fun x => decide (x.cls = 2) && decide (x.course = n) && decide (x.role = 0)) = true)) :=
  ⟨⟨ask (bytes [(4, 15000), (4, 40000), (4, 2000000), (4, 0), (4, 0), (4, 2000000), (4, 1000)]),
    waits specBudgetConfig (ask (bytes [(4, 15000), (4, 40000), (4, 2000000), (4, 0), (4, 0), (4, 2000000), (4, 1000)])) up,
    by decide +kernel⟩,
   ⟨ask [], waits specBudgetStatus (ask []) up, by decide +kernel⟩,
   ⟨.pcie, 0x91C, up, by decide +kernel, by decide +kernel, ⟨by decide +kernel, by decide +kernel⟩⟩,
   ⟨up, by decide +kernel, by decide +kernel, by decide +kernel⟩,
   ⟨{ up with budget := { up.budget with admitBits := 0 }, classes := [(2, { cycle := some { stamp := 0, phase := .course 1 } })], work := { up.work with feeder := [{ unit := 0, course := 1, cls := 2, role := 0, split := 0, excl1 := 255, excl2 := 255, attempt := 0, ember := 0, stamp := 0 }] } },
    { stamp := 0, phase := .course 1 }, 1, rfl, by decide +kernel, by decide +kernel, by decide +kernel, by decide +kernel,
    by decide +kernel⟩⟩

/-- The hypotheses of Obligations.PointAndForceCommandsComplete can be met. -/
theorem witness_PointAndForceCommandsComplete :
    (∃ (r : Req) (s : State), (accepted specPointRead r s = true)) ∧
    (∃ (r : Req) (s : State), (accepted specForceSet r s = true)) ∧
    (∃ (r : Req) (s : State), (accepted specForceClear r s = true)) ∧
    (∃ (r : Req) (s : State), (accepted specForceList r s = true)) :=
  ⟨⟨ask (bytes [(4, 0), (2, 254), (2, 0)]), waits specPointRead (ask (bytes [(4, 0), (2, 254), (2, 0)])) up, by decide +kernel⟩,
   ⟨ask (bytes [(4, 1), (4, 0), (8, 5)]),
    waits specForceSet (ask (bytes [(4, 1), (4, 0), (8, 5)])) ({ up with defs := [(1, { id := 1, typeflags := 2, scale := 0, rangeMin := 0, rangeMax := 100, enumSize := 0, unitCode := 0, name := 0 })] }),
    by decide +kernel⟩,
   ⟨ask (bytes [(4, noPoint)]), waits specForceClear (ask (bytes [(4, noPoint)])) up, by decide +kernel⟩,
   ⟨ask (zeros 4), waits specForceList (ask (zeros 4)) up, by decide +kernel⟩⟩

/-- The hypotheses of Obligations.HistorianCommandsComplete can be met. -/
theorem witness_HistorianCommandsComplete :
    (∃ (r : Req) (s : State), (accepted specHistConfig r s = true)) ∧
    (∃ (r : Req) (s : State), (accepted specHistRead r s = true)) ∧
    (∃ (r : Req) (s : State), (accepted specHistStatus r s = true)) :=
  ⟨⟨ask (bytes [(4, 65535), (4, 1), (4, noPoint), (12, 0)]),
    waits specHistConfig (ask (bytes [(4, 65535), (4, 1), (4, noPoint), (12, 0)])) up, by decide +kernel⟩,
   ⟨ask (bytes [(4, 0), (4, 126)]), waits specHistRead (ask (bytes [(4, 0), (4, 126)])) up, by decide +kernel⟩,
   ⟨ask [], waits specHistStatus (ask []) up, by decide +kernel⟩⟩

/-- The hypotheses of Obligations.LoopCommandsComplete can be met. -/
theorem witness_LoopCommandsComplete :
    (∃ (r : Req) (s : State), (accepted specLoopConfig r s = true)) ∧
    (∃ (r : Req) (s : State), (accepted specLoopRead r s = true)) ∧
    (∃ (r : Req) (s : State), (accepted specLoopEnable r s = true)) ∧
    (∃ (r : Req) (s : State), (accepted specLoopAck r s = true)) ∧
    (∃ (r : Req) (s : State), (accepted specLoopStatus r s = true)) ∧
    (∃ (s : State), (s.power.ready = true) ∧ (inService s idLB = true) ∧ (s.loopMs ≠ devNs s / 1000000) ∧ (s.loopLeft = [])) ∧
    (∃ (s : State), (s.power.ready = true) ∧ (inService s idLB = true) ∧ (s.loopMs ≠ devNs s / 1000000) ∧ (s.loopLeft ≠ [])) ∧
    (∃ (ch : Fin 2048) (s : State) (d : LoopDesc), ((chan s ch.val).desc = some d) ∧ (d.mode ≠ 0) ∧ (d.feTimeMs ≠ 0) ∧
      (d.feTimeMs ≤ (chan s ch.val).feMs) ∧ ((chan s ch.val).fault = .none) ∧ ((chan s ch.val).held = false)) :=
  ⟨⟨ask (loopBytes),
    waits specLoopConfig (ask (loopBytes)) ({ up with defs := [(1, { id := 1, typeflags := 2, scale := 0, rangeMin := 0, rangeMax := 100, enumSize := 0, unitCode := 0, name := 0 }), (2, { id := 2, typeflags := 0x300, scale := 0, rangeMin := 0, rangeMax := 1, enumSize := 0, unitCode := 0, name := 0 })] }),
    by decide +kernel⟩,
   ⟨ask (bytes [(2, 2047)]), waits specLoopRead (ask (bytes [(2, 2047)])) up, by decide +kernel⟩,
   ⟨ask (bytes [(2, 0xFFFF), (1, 1)]), waits specLoopEnable (ask (bytes [(2, 0xFFFF), (1, 1)])) up, by decide +kernel⟩,
   ⟨ask (bytes [(2, 2047)]), waits specLoopAck (ask (bytes [(2, 2047)])) up, by decide +kernel⟩,
   ⟨ask (bytes [(2, 2047), (2, 1)]), waits specLoopStatus (ask (bytes [(2, 2047), (2, 1)])) up, by decide +kernel⟩,
   ⟨up, by decide +kernel, by decide +kernel, by decide +kernel, by decide +kernel⟩,
   ⟨{ up with loopLeft := [5] }, by decide +kernel, by decide +kernel, by decide +kernel, by decide +kernel⟩,
   ⟨5, { up with loops := [(5, { desc := some loopDesc, feMs := 100 })] }, loopDesc, rfl, by decide +kernel, by decide +kernel,
    by decide +kernel, by decide +kernel, by decide +kernel⟩⟩

/-- The hypotheses of Obligations.SolverCommandsComplete can be met. -/
theorem witness_SolverCommandsComplete :
    (∃ (r : Req) (s : State), (accepted specModelLoad r s = true)) ∧
    (∃ (r : Req) (s : State), (accepted specModelSwitch r s = true)) ∧
    (∃ (s : State) (r : Req) (n : Nat) (m : Model), (s.solver.switch = some (r, n)) ∧ (s.solver.loaded = some m) ∧
      (reached s n = true)) ∧
    (∃ (r : Req) (s : State), (accepted specSolverConfig r s = true)) ∧
    (∃ (r : Req) (s : State) (m : Model), (accepted specSolverRun r s = true) ∧
      ((begun specSolverRun r s).solver.model = some m)) ∧
    (∃ (r : Req) (s : State), (accepted specSolverStatus r s = true)) ∧
    (∃ (r : Req) (s : State), (accepted specSolverAbort r s = true)) ∧
    (∃ (s : State) (j : JobRun), (s.solver.hostJob = some j)) ∧
    (∃ (s : State) (j : JobRun), (s.solver.mainJob = some j) ∧ (mayReturn s 1 = true)) ∧
    (∃ (s : State) (j : JobRun) (i : JobRun), (s.solver.mainJob = some j) ∧ (noteLimit s j = some i)) ∧
    (∃ (s : State) (j : JobRun) (i : JobRun), (s.solver.mainJob = none) ∧ (s.solver.hostJob = some j) ∧ (noteLimit s j = some i)) ∧
    (∃ (p : Port) (s : State), (writePasses p 0xB04 s)) :=
  ⟨⟨ask (bytes [(4, 0), (4, 1000), (4, 0), (1, 7)]), waits specModelLoad (ask (bytes [(4, 0), (4, 1000), (4, 0), (1, 7)])) up,
    by decide +kernel⟩,
   ⟨ask (bytes [(4, (parseModel []).crc.toNat)]),
    waits specModelSwitch (ask (bytes [(4, (parseModel []).crc.toNat)])) ({ up with solver := { up.solver with loaded := some (parseModel []) } }),
    by decide +kernel⟩,
   ⟨{ up with solver := { up.solver with loaded := some (parseModel []), switch := some (ask [], 0) } }, ask [], 0,
    parseModel [], rfl, rfl, by decide +kernel⟩,
   ⟨ask (jobDesc 0 0 0 10 100 100), waits specSolverConfig (ask (jobDesc 0 0 0 10 100 100)) up, by decide +kernel⟩,
   ⟨ask (jobDesc 0 0 1000 10 100 100),
    waits specSolverRun (ask (jobDesc 0 0 1000 10 100 100)) ({ up with solver := { up.solver with model := some (parseModel []) } }),
    _, by decide +kernel, (Option.some_get (by decide +kernel)).symm⟩,
   ⟨ask [], waits specSolverStatus (ask []) up, by decide +kernel⟩,
   ⟨ask [], waits specSolverAbort (ask []) up, by decide +kernel⟩,
   ⟨{ up with solver := { up.solver with hostJob := some job } }, job, rfl⟩,
   ⟨{ up with solver := { up.solver with mainJob := some job } }, job, rfl, by decide +kernel⟩,
   ⟨{ up with solver := { up.solver with mainJob := some job } }, job, _, rfl, (Option.some_get (by decide +kernel)).symm⟩,
   ⟨{ up with solver := { up.solver with hostJob := some job } }, job, _, by decide +kernel, rfl,
    (Option.some_get (by decide +kernel)).symm⟩,
   ⟨.pcie, up, ⟨by decide +kernel, by decide +kernel⟩⟩⟩

/-- The hypotheses of Obligations.OptimiserAndEstimatorCommandsComplete can be met. -/
theorem witness_OptimiserAndEstimatorCommandsComplete :
    (∃ (r : Req) (s : State), (accepted specOptProblemLoad r s = true)) ∧
    (∃ (r : Req) (s : State), (accepted specOptProblemSwitch r s = true)) ∧
    (∃ (s : State) (r : Req) (n : Nat) (p : Problem), (s.opt.switch = some (r, n)) ∧ (s.opt.loaded = some p) ∧
      (reached s n = true)) ∧
    (∃ (r : Req) (s : State), (accepted specOptConfig r s = true)) ∧
    (∃ (r : Req) (s : State), (accepted specOptStatus r s = true)) ∧
    (∃ (r : Req) (s : State) (q : Plan), (accepted specPlanRead r s = true) ∧ ((begun specPlanRead r s).opt.plan = some q)) ∧
    (∃ (r : Req) (s : State), (accepted specEstLoad r s = true)) ∧
    (∃ (r : Req) (s : State), (accepted specEstConfig r s = true)) ∧
    (∃ (r : Req) (s : State), (accepted specEstRun r s = true)) ∧
    (∃ (r : Req) (s : State), (accepted specEstStatus r s = true)) ∧
    (∃ (s : State) (y : Cycle) (p : Problem) (d : JobDesc), ((cls s 3).cycle = some y) ∧ (s.opt.problem = some p) ∧
      (s.opt.desc = some d) ∧ (s.opt.wanted = true) ∧ (s.opt.job = none) ∧ (admitted s 3 = true) ∧ (optMismatch s p = false)) ∧
    (∃ (s : State) (j : OptRun), (s.opt.job = some j) ∧ (mayReturn s 3 = true)) ∧
    (∃ (s : State) (n : EstTrigger) (r : Option Req), (s.est.run = none) ∧ (estReady s = true) ∧ (s.est.pending = some (n, r))) ∧
    (∃ (s : State) (r : Req), (s.est.run = none) ∧ (estReady s = true) ∧ (s.est.pending = none) ∧ (s.est.testReq = some r)) ∧
    (∃ (s : State) (x : EstRun), (s.est.run = some x) ∧ (x.trig = .test)) ∧
    (∃ (s : State) (x : EstRun), (s.est.run = some x) ∧ (x.trig ≠ .test) ∧ (mayReturn s 4 = true)) :=
  ⟨⟨ask (bytes [(4, 0), (4, 1000), (4, 0), (1, 7)]),
    waits specOptProblemLoad (ask (bytes [(4, 0), (4, 1000), (4, 0), (1, 7)])) up, by decide +kernel⟩,
   ⟨ask (bytes [(4, (parseProblem []).crc.toNat)]),
    waits specOptProblemSwitch (ask (bytes [(4, (parseProblem []).crc.toNat)])) ({ up with opt := { up.opt with loaded := some (parseProblem []) } }),
    by decide +kernel⟩,
   ⟨{ up with opt := { up.opt with loaded := some (parseProblem []), switch := some (ask [], 0) } }, ask [], 0,
    parseProblem [], rfl, rfl, by decide +kernel⟩,
   ⟨ask (jobDesc 3 1 1000 0 0 0), waits specOptConfig (ask (jobDesc 3 1 1000 0 0 0)) up, by decide +kernel⟩,
   ⟨ask [], waits specOptStatus (ask []) up, by decide +kernel⟩,
   ⟨ask (bytes [(2, 0), (1, 3), (1, 1)]),
    waits specPlanRead (ask (bytes [(2, 0), (1, 3), (1, 1)])) ({ up with opt := { up.opt with plan := some plan } }), plan,
    by decide +kernel, rfl⟩,
   ⟨ask (bytes [(4, 0), (4, 1000), (4, 0), (1, 7)]), waits specEstLoad (ask (bytes [(4, 0), (4, 1000), (4, 0), (1, 7)])) up,
    by decide +kernel⟩,
   ⟨ask (jobDesc 4 3 1000 0 0 100), waits specEstConfig (ask (jobDesc 4 3 1000 0 0 100)) up, by decide +kernel⟩,
   ⟨ask (bytes [(4, 1)]), waits specEstRun (ask (bytes [(4, 1)])) estUp, by decide +kernel⟩,
   ⟨ask [], waits specEstStatus (ask []) up, by decide +kernel⟩,
   ⟨{ up with classes := [(3, { cycle := some { stamp := 0 } })], opt := { up.opt with problem := some (parseProblem []), desc := some (parseDesc []), wanted := true } },
    { stamp := 0 }, parseProblem [], parseDesc [], rfl, rfl, rfl, by decide +kernel, by decide +kernel, by decide +kernel,
    by decide +kernel⟩,
   ⟨{ up with opt := { up.opt with job := some optJob } }, optJob, rfl, by decide +kernel⟩,
   ⟨{ estUp with est := { estUp.est with pending := some (.demand, none) } }, .demand, none, by decide +kernel,
    by decide +kernel, rfl⟩,
   ⟨{ estUp with est := { estUp.est with testReq := some (ask []) } }, ask [], by decide +kernel, by decide +kernel,
    by decide +kernel, rfl⟩,
   ⟨{ estUp with est := { estUp.est with run := some (estRun .test) } }, estRun .test, rfl, by decide +kernel⟩,
   ⟨{ estUp with est := { estUp.est with run := some (estRun .coldStart) } }, estRun .coldStart, rfl, by decide +kernel,
    by decide +kernel⟩⟩

/-- The hypotheses of Obligations.MeteringCommandsComplete can be met. -/
theorem witness_MeteringCommandsComplete :
    (∃ (r : Req) (s : State), (accepted specMtrParamLoad r s = true)) ∧
    ((∀ k m x y, Config.ecdsaVerify k m x y = true) → ∃ (r : Req) (s : State) (b : MeterParams × Bytes),
      (accepted specMtrParamSwitch r s = true) ∧ (switchBlock (begun specMtrParamSwitch r s) (bodyOf r) = some b)) ∧
    (∃ (s : State) (w : ParamSwitch), (s.meter.switch = some w) ∧ (reached s w.due = true)) ∧
    (∃ (r : Req) (s : State), (accepted specMtrParamRead r s = true)) ∧
    (∃ (r : Req) (s : State), (accepted specMtrTotals r s = true)) ∧
    (∃ (r : Req) (s : State), (accepted specMtrIntervals r s = true)) ∧
    ((∀ k m x y, Config.ecdsaVerify k m x y = true) → ∃ (r : Req) (s : State), (accepted specMtrEnable r s = true)) ∧
    ((∀ k m x y, Config.ecdsaVerify k m x y = true) → ∃ (r : Req) (s : State), (accepted specMtrAdopt r s = true)) :=
  ⟨⟨ask (bytes [(4, 0), (4, meterLen), (4, 0), (1, 7)]),
    waits specMtrParamLoad (ask (bytes [(4, 0), (4, meterLen), (4, 0), (1, 7)])) up, by decide +kernel⟩,
   fun hv => ⟨signed (bytes [(4, (parseMeter []).crc.toNat)]),
    waits specMtrParamSwitch (signed (bytes [(4, (parseMeter []).crc.toNat)])) ({ up with meter := { up.meter with loaded := some (parseMeter [], []), version := (0xFFFFFFFF : W32) } }),
    _, accepted_signed _ _ _ key0 hv rfl (by decide +kernel) (by decide +kernel), (Option.some_get (by decide +kernel)).symm⟩,
   ⟨{ up with meter := { up.meter with switch := some { req := ask [], params := parseMeter [], raw := [], due := 0 } } },
    { req := ask [], params := parseMeter [], raw := [], due := 0 }, rfl, by decide +kernel⟩,
   ⟨ask [], waits specMtrParamRead (ask []) up, by decide +kernel⟩,
   ⟨ask [], waits specMtrTotals (ask []) up, by decide +kernel⟩,
   ⟨ask (bytes [(1, 0x1F), (1, 42), (6, 0)]), waits specMtrIntervals (ask (bytes [(1, 0x1F), (1, 42), (6, 0)])) up,
    by decide +kernel⟩,
   fun hv => ⟨signed (bytes [(4, 0xFFFF000F), (4, 1)]), waits specMtrEnable (signed (bytes [(4, 0xFFFF000F), (4, 1)])) up,
    accepted_signed _ _ _ key0 hv rfl (by decide +kernel) (by decide +kernel)⟩,
   fun hv => ⟨signed ([]), waits specMtrAdopt (signed ([])) ({ up with pair := { up.pair with role := .active } }),
    accepted_signed _ _ _ key0 hv rfl (by decide +kernel) (by decide +kernel)⟩⟩

/-- The hypotheses of Obligations.MeteringEventsComplete can be met. -/
theorem witness_MeteringEventsComplete :
    (∃ (n : Fin 4) (l : List W32) (s : State), (meterOn s = true) ∧ (portFed s n.val = false) ∧ (frameGood l = true)) ∧
    (∃ (n : Fin 4) (l : List W32) (s : State), (meterOn s = true) ∧ (portFed s n.val = false) ∧ (frameGood l = false)) ∧
    (∃ (n : Fin 4) (s : State), (meterOn s = true) ∧ ((mset s n.val).portLost = false) ∧
      (1000000 ≤ since s (mset s n.val).lastFrame)) ∧
    (∃ (n : Fin 4) (s : State) (c : SetCfg), (setCfg s n.val = some c) ∧ (meterOn s = true) ∧ ((mset s n.val).enabled = true) ∧
      ((mset s n.val).los = false) ∧ (c.zcTimeout * 1000000 ≤ since s (mset s n.val).lastZc)) ∧
    (∃ (s : State), (meterOn s = true)) ∧
    (∃ (s : State), (meterOn s = true) ∧ (later 64 s.meter.stepAt (boundary100 s) = true)) ∧
    (∃ (s : State), (meterOn s = true) ∧ (later 64 (heatStepDue s).meter.readAt (boundary100 (heatStepDue s)) = true)) ∧
    (∃ (s : State), (meterOn s = true) ∧ (later 64 s.meter.savedAt (devNs s / 1000000000 * 1000000000) = true)) ∧
    (∃ (s : State) (p : MeterParams), (s.meter.params = some p) ∧ (meterOn s = true)) :=
  ⟨⟨3, goodFrame, up, by decide +kernel, by decide +kernel, by decide +kernel⟩,
   ⟨3, [], up, by decide +kernel, by decide +kernel, by decide +kernel⟩,
   ⟨3, { up with meter := { up.meter with sets := [(3, { enabled := true })] } }, by decide +kernel, by decide +kernel,
    by decide +kernel⟩,
   ⟨0,
    { up with meter := { up.meter with params := some { parseMeter [] with sets := [setRow] }, sets := [(0, { enabled := true })] } },
    setRow, rfl, by decide +kernel, by decide +kernel, by decide +kernel, by decide +kernel⟩,
   ⟨up, by decide +kernel⟩,
   ⟨up, by decide +kernel, by decide +kernel⟩,
   ⟨up, by decide +kernel, by decide +kernel⟩,
   ⟨up, by decide +kernel, by decide +kernel⟩,
   ⟨{ up with meter := { up.meter with params := some (parseMeter []) } }, parseMeter [], rfl, by decide +kernel⟩⟩

/-- The hypotheses of Obligations.RingCommandsComplete can be met. -/
theorem witness_RingCommandsComplete :
    (∃ (r : Req) (s : State), (accepted specRingConfig r s = true)) ∧
    (∃ (r : Req) (s : State), (accepted specStationConfig r s = true)) ∧
    (∃ (r : Req) (s : State), (accepted specDatasetConfig r s = true)) ∧
    (∃ (r : Req) (s : State), (accepted specLoopRoute r s = true)) ∧
    (∃ (r : Req) (s : State), (accepted specTripConfig r s = true)) ∧
    (∃ (r : Req) (s : State), (accepted specTripReset r s = true)) ∧
    (∃ (r : Req) (s : State), (accepted specRingStatus r s = true)) ∧
    (∃ (r : Req) (s : State), (accepted specStationStatus r s = true)) ∧
    (∃ (s : State), (s.pair.nextCfg = none)) ∧
    (∃ (s : State) (c : PairCfg), (s.pair.nextCfg = some c)) ∧
    (∃ (p : Port) (s : State), (writePasses p 0xD04 s)) ∧
    (∃ (p : Port) (s : State), (writePasses p 0xD08 s)) :=
  ⟨⟨ask (zeros 16), waits specRingConfig (ask (zeros 16)) up, by decide +kernel⟩,
   ⟨ask (bytes [(2, 4095), (1, 3), (1, 1), (4, 500), (1, 255), (11, 0)]),
    waits specStationConfig (ask (bytes [(2, 4095), (1, 3), (1, 1), (4, 500), (1, 255), (11, 0)])) up, by decide +kernel⟩,
   ⟨ask (bytes [(2, 4095), (2, 1), (8, 0)]), waits specDatasetConfig (ask (bytes [(2, 4095), (2, 1), (8, 0)])) up,
    by decide +kernel⟩,
   ⟨ask (bytes [(2, 2047), (2, 4095), (2, 8191), (6, 0)]),
    waits specLoopRoute (ask (bytes [(2, 2047), (2, 4095), (2, 8191), (6, 0)])) up, by decide +kernel⟩,
   ⟨ask (bytes [(1, 16), (23, 0)]), waits specTripConfig (ask (bytes [(1, 16), (23, 0)])) up, by decide +kernel⟩,
   ⟨ask (bytes [(4, 0xFF)]), waits specTripReset (ask (bytes [(4, 0xFF)])) up, by decide +kernel⟩,
   ⟨ask [], waits specRingStatus (ask []) up, by decide +kernel⟩,
   ⟨ask (bytes [(2, 4095), (2, 1)]), waits specStationStatus (ask (bytes [(2, 4095), (2, 1)])) up, by decide +kernel⟩,
   ⟨up, by decide +kernel⟩,
   ⟨{ up with pair := { up.pair with nextCfg := some {} } }, {}, rfl⟩,
   ⟨.pcie, up, ⟨by decide +kernel, by decide +kernel⟩⟩,
   ⟨.pcie, up, ⟨by decide +kernel, by decide +kernel⟩⟩⟩

/-- The hypotheses of Obligations.RingEventsComplete can be met. -/
theorem witness_RingEventsComplete :
    (∃ (n : Fin 4) (b : Bytes) (s : State), (nbOn s = true) ∧ (ringOn s n.val = true) ∧
      (frameOk s n.val (parseKnama b) = true) ∧ ((parseKnama b).kind = 1) ∧ (tagOk s n.val (parseKnama b) = true) ∧
      (seqOk s (parseKnama b) false = true)) ∧
    (∃ (n : Fin 4) (b : Bytes) (s : State), (nbOn s = true) ∧ (ringOn s n.val = true) ∧
      (frameOk s n.val (parseKnama b) = true) ∧ ((parseKnama b).kind = 4) ∧ ((getLE (parseKnama b).body 0 1) ≠ 0) ∧
      ((getLE (parseKnama b).body 0 1) ≤ 16) ∧ (tagOk s n.val (parseKnama b) = true) ∧ (seqOk s (parseKnama b) true = true)) ∧
    (∃ (n : BitVec 12) (s : State), (nbOn s = true) ∧ (supervisionOver s (station s n.toNat) = true) ∧
      ((station s n.toNat).absent = false)) ∧
    (∃ (q : Fin 8) (f : HsrFrame) (s : State), (nbOn s = true) ∧ (ringOn s (q.val / 2) = true) ∧ (loopHolds s 0 q.val = false) ∧
      (f.src ≠ portMac s q.val) ∧ (f.src ≠ portMac s (otherPort q.val)) ∧ (isDuplicate s (q.val / 2) f = false)) ∧
    (∃ (q : Fin 8) (f : HsrFrame) (s : State), (nbOn s = true) ∧ (ringOn s (q.val / 2) = true) ∧ (loopHolds s 0 q.val = false) ∧
      (f.src ≠ portMac s q.val) ∧ (f.src ≠ portMac s (otherPort q.val)) ∧ (isDuplicate s (q.val / 2) f = true)) ∧
    (∃ (n : Fin 4) (a : BitVec 48) (s : State) (x : HsrNode), (ringNode s n.val a = some x)) ∧
    (∃ (n : Fin 4) (a : BitVec 48) (s : State) (x : HsrNode), (ringNode s n.val a = some x) ∧ (60000000000 ≤ since s x.seenAt)) ∧
    (∃ (q : Fin 8) (s : State), (nbOn s = true) ∧ (ringOn s (q.val / 2) = true) ∧ (loopHolds s 0 q.val = false) ∧
      (2000000000 ≤ since s (ringPort s q.val).superAt)) ∧
    (∃ (q : Fin 8) (s : State) (t : Nat), (nbOn s = true) ∧ (ringOn s (q.val / 2) = true) ∧ (loopHolds s 0 q.val = false) ∧
      ((ringPort s q.val).checkAt = some t) ∧ (250000 ≤ since s t)) ∧
    (∃ (q : Fin 8) (s : State), (nbOn s = true) ∧ (ringOn s (q.val / 2) = true) ∧ (loopHolds s 0 q.val = false)) ∧
    (∃ (q : Fin 8) (s : State) (t : Nat), (nbOn s = true) ∧ (ringOn s (q.val / 2) = true) ∧
      ((ringPort s q.val).checkAt = some t) ∧ (since s t ≤ 50000) ∧ ((ringPort s q.val).echoed = false) ∧
      ((ringPort s q.val).failed = false)) ∧
    (∃ (q : Fin 8) (s : State) (t : Nat), (nbOn s = true) ∧ (ringOn s (q.val / 2) = true) ∧
      ((ringPort s q.val).checkAt = some t) ∧ (since s t ≤ 50000) ∧ ((ringPort s q.val).echoed = false) ∧
      ((ringPort s q.val).failed = true) ∧ ((ringPort s q.val).echoes < 7)) ∧
    (∃ (q : Fin 8) (s : State) (t : Nat), (nbOn s = true) ∧ (ringOn s (q.val / 2) = true) ∧
      ((ringPort s q.val).checkAt = some t) ∧ (since s t ≤ 50000) ∧ ((ringPort s q.val).echoed = false) ∧
      ((ringPort s q.val).failed = true) ∧ (7 ≤ (ringPort s q.val).echoes)) ∧
    (∃ (q : Fin 8) (s : State), (nbOn s = true) ∧ (ringOn s (q.val / 2) = true)) :=
  ⟨⟨0, bytes [(1, 1), (1, 1), (2, 5), (28, 0)], stationUp, by decide +kernel, by decide +kernel, by decide +kernel,
    by decide +kernel, by decide +kernel, by decide +kernel⟩,
   ⟨0, bytes [(1, 1), (1, 4), (2, 5), (28, 0), (1, 16), (7, 0)], stationUp, by decide +kernel, by decide +kernel,
    by decide +kernel, by decide +kernel, by decide +kernel, by decide +kernel, by decide +kernel, by decide +kernel⟩,
   ⟨5, { up with rings := { up.rings with stations := [(5, { station5 with acceptedAt := some 0, absent := false })] } },
    by decide +kernel, by decide +kernel, by decide +kernel⟩,
   ⟨0, hsr, ringUp, by decide +kernel, by decide +kernel, by decide +kernel, by decide +kernel, by decide +kernel,
    by decide +kernel⟩,
   ⟨0, hsr, nodeUp, by decide +kernel, by decide +kernel, by decide +kernel, by decide +kernel, by decide +kernel,
    by decide +kernel⟩,
   ⟨0, 0x123456, nodeUp, { seqs := [(7, 99900000000)] }, rfl⟩,
   ⟨0, 0x123456, nodeUp, { seqs := [(7, 99900000000)] }, rfl, by decide +kernel⟩,
   ⟨0, ringUp, by decide +kernel, by decide +kernel, by decide +kernel, by decide +kernel⟩,
   ⟨0, { ringUp with rings := { ringUp.rings with ports := [(0, { checkAt := some 0 })] } }, 0, by decide +kernel,
    by decide +kernel, by decide +kernel, rfl, by decide +kernel⟩,
   ⟨0, ringUp, by decide +kernel, by decide +kernel, by decide +kernel⟩,
   ⟨0, { ringUp with rings := { ringUp.rings with ports := [(0, { checkAt := some 99999960000, echoed := false })] } },
    99999960000, by decide +kernel, by decide +kernel, rfl, by decide +kernel, by decide +kernel, by decide +kernel⟩,
   ⟨0,
    { ringUp with rings := { ringUp.rings with ports := [(0, { checkAt := some 99999960000, echoed := false, failed := true, echoes := 6 })] } },
    99999960000, by decide +kernel, by decide +kernel, rfl, by decide +kernel, by decide +kernel, by decide +kernel,
    by decide +kernel⟩,
   ⟨0,
    { ringUp with rings := { ringUp.rings with ports := [(0, { checkAt := some 99999960000, echoed := false, failed := true, echoes := 7 })] } },
    99999960000, by decide +kernel, by decide +kernel, rfl, by decide +kernel, by decide +kernel, by decide +kernel,
    by decide +kernel⟩,
   ⟨0, ringUp, by decide +kernel, by decide +kernel⟩⟩

/-- The hypotheses of Obligations.TimeCommandsComplete can be met. -/
theorem witness_TimeCommandsComplete :
    (∃ (r : Req) (s : State), (accepted specTimeConfig r s = true)) ∧
    (∃ (r : Req) (s : State), (accepted specTimePort r s = true)) ∧
    (∃ (r : Req) (s : State), (accepted specTimeSelect r s = true)) ∧
    (∃ (r : Req) (s : State), (accepted specTimeStatus r s = true)) ∧
    ((∀ k m x y, Config.ecdsaVerify k m x y = true) → ∃ (r : Req) (s : State), (accepted specTimeSet r s = true)) ∧
    (∃ (p : Port) (s : State), (writePasses p 0xE04 s)) :=
  ⟨⟨ask (bytes [(1, 0), (1, 0), (1, 127), (1, 1), (1, 15), (1, 0), (1, 3), (5, 0), (4, 1000000), (4, 4000000), (8, 0)]),
    waits specTimeConfig (ask (bytes [(1, 0), (1, 0), (1, 127), (1, 1), (1, 15), (1, 0), (1, 3), (5, 0), (4, 1000000), (4, 4000000), (8, 0)])) up,
    by decide +kernel⟩,
   ⟨ask (bytes [(4, 8), (12, 0)]), waits specTimePort (ask (bytes [(4, 8), (12, 0)])) up, by decide +kernel⟩,
   ⟨ask (bytes [(4, 0x102), (4, 0)]), waits specTimeSelect (ask (bytes [(4, 0x102), (4, 0)])) up, by decide +kernel⟩,
   ⟨ask [], waits specTimeStatus (ask []) up, by decide +kernel⟩,
   fun hv => ⟨signed (zeros 16), waits specTimeSet (signed (zeros 16)) up,
    accepted_signed _ _ _ key0 hv rfl (by decide +kernel) (by decide +kernel)⟩,
   ⟨.pcie, up, ⟨by decide +kernel, by decide +kernel⟩⟩⟩

/-- The hypotheses of Obligations.TimeEventsComplete can be met. -/
theorem witness_TimeEventsComplete :
    (∃ (m : PtpMsg) (s : State), (nbOn s = true) ∧ (m.stampLost = true) ∧ (eventMessage m.kind = true)) ∧
    (∃ (m : PtpMsg) (s : State), (nbOn s = true) ∧ (m.stampLost = false ∨ eventMessage m.kind = false)) ∧
    (∃ (i : Fin 2) (q : Fin 8) (s : State), (isMaster s i q.val = true) ∧
      (sampleInterval (dom s i).cfg ≤ since s (ptpPort (dom s i) q.val).syncAt)) ∧
    (∃ (i : Fin 2) (q : Fin 8) (s : State), (isMaster s i q.val = true) ∧ (1000000000 ≤ since s (ptpPort (dom s i) q.val).annAt)) ∧
    (∃ (i : Fin 2) (q : Fin 8) (s : State), (nbOn s = true) ∧ ((dom s i).cfg.source = 1) ∧
      ((domPorts s (dom s i)).contains q.val = true) ∧
      ((ptpPort (dom s i) q.val).st = .slave ∨ (ptpPort (dom s i) q.val).st = .passive)) ∧
    (∃ (s : State) (a : Nat), (nbOn s = true) ∧ (s.time.ppsLast = some a) ∧ (since s a < 900000000)) ∧
    (∃ (s : State), (nbOn s = true) ∧ (∀ a, s.time.ppsLast = some a → 900000000 ≤ since s a)) ∧
    (∃ (m : Bytes) (s : State) (d : Nat) (e0 : Nat) (e1 : Nat) (a : Nat), (s.time.ppsEdge = some (d, e0, e1, a)) ∧
      (nbOn s = true) ∧ (todOk m = true) ∧ (since s a ≤ 900000000)) ∧
    (∃ (i : Fin 2) (s : State), (nbOn s = true) ∧ ((dom s i).st = .locked ∨ (dom s i).st = .acquiring) ∧
      ((dom s i).cfg.lossN * sampleInterval (dom s i).cfg ≤ since s (dom s i).sampleAt)) ∧
    (∃ (s : State), (nbOn s = true) ∧ (1000000 ≤ since s s.time.followAt)) ∧
    (∃ (s : State), (nbOn s = true) ∧ (ptpMode s = 0) ∧ (cfgBit s 0xE04 2 = true) ∧ (s.time.sel = 1) ∧
      (s.time.dom0.st = .locked) ∧ (60000000000 ≤ since s s.time.dom0.lockedAt)) :=
  ⟨⟨ptpMsg true, up, by decide +kernel, by decide +kernel, by decide +kernel⟩,
   ⟨ptpMsg false, up, by decide +kernel, by decide +kernel⟩,
   ⟨0, 1,
    { ringUp with time := { ringUp.time with dom0 := { cfg := { source := 1, ringMask := 1 }, ports := [(1, { st := .master })] } } },
    by decide +kernel, by decide +kernel⟩,
   ⟨0, 1,
    { ringUp with time := { ringUp.time with dom0 := { cfg := { source := 1, ringMask := 1 }, ports := [(1, { st := .master })] } } },
    by decide +kernel, by decide +kernel⟩,
   ⟨0, 1,
    { ringUp with time := { ringUp.time with dom0 := { cfg := { source := 1, ringMask := 1 }, ports := [(1, { st := .slave })] } } },
    by decide +kernel, by decide +kernel, by decide +kernel, by decide +kernel⟩,
   ⟨{ up with time := { up.time with ppsLast := some 99500000000 } }, 99500000000, by decide +kernel, rfl, by decide +kernel⟩,
   ⟨{ up with time := { up.time with ppsLast := some 99000000000 } }, by decide +kernel, fun a h => by cases h; decide +kernel⟩,
   ⟨todGood, { up with time := { up.time with ppsEdge := some (0, 0, 0, 99500000000) } }, 0, 0, 0, 99500000000, rfl,
    by decide +kernel, by decide +kernel, by decide +kernel⟩,
   ⟨0, { ringUp with time := { ringUp.time with dom0 := { st := .locked, cfg := { source := 1 } } } }, by decide +kernel,
    by decide +kernel, by decide +kernel⟩,
   ⟨up, by decide +kernel, by decide +kernel⟩,
   ⟨{ up with regs := { up.regs with cfg := [(0xE04, 4)] }, time := { up.time with sel := 1, dom0 := { st := .locked } } },
    by decide +kernel, by decide +kernel, by decide +kernel, by decide +kernel, by decide +kernel, by decide +kernel⟩⟩

/-- The hypotheses of Obligations.CanCommandsAndWritesComplete can be met. -/
theorem witness_CanCommandsAndWritesComplete :
    (∃ (r : Req) (s : State), (accepted specCanConfig r s = true)) ∧
    (∃ (r : Req) (s : State), (accepted specCanBuffer r s = true)) ∧
    (∃ (r : Req) (s : State), (accepted specCanCancel r s = true)) ∧
    (∃ (r : Req) (s : State), (accepted specCanRecover r s = true)) ∧
    (∃ (r : Req) (s : State), (accepted specCanStatus r s = true)) ∧
    (∃ (p : Port) (n : Fin 4) (s : State), (writePasses p (canBase n.val + 4) s)) ∧
    (∃ (p : Port) (n : Fin 4) (s : State), (writePasses p (canBase n.val + 8) s)) ∧
    (∃ (p : Port) (n : Fin 4) (s : State), (writePasses p (canBase n.val + 12) s)) ∧
    (∃ (p : Port) (n : Fin 4) (hi : Bool) (s : State), (writePasses p (canBase n.val + 0x24 + 4 * b2n hi) s)) ∧
    (∃ (p : Port) (n : Fin 4) (hi : Bool) (s : State), (writePasses p (canBase n.val + 0x2C + 4 * b2n hi) s)) ∧
    (∃ (p : Port) (n : Fin 4) (hi : Bool) (s : State), (writePasses p (canBase n.val + 0x1C + 4 * b2n hi) s)) :=
  ⟨⟨ask (bytes [(1, 3), (3, 0), (4, canNbt), (4, 0), (12, 0)]),
    waits specCanConfig (ask (bytes [(1, 3), (3, 0), (4, canNbt), (4, 0), (12, 0)])) up, by decide +kernel⟩,
   ⟨ask (zeros 24), waits specCanBuffer (ask (zeros 24)) up, by decide +kernel⟩,
   ⟨ask (bytes [(4, 3), (8, 1)]), waits specCanCancel (ask (bytes [(4, 3), (8, 1)])) up, by decide +kernel⟩,
   ⟨ask (bytes [(4, 3)]), waits specCanRecover (ask (bytes [(4, 3)])) ({ up with can := [(3, { conf := .busOff })] }),
    by decide +kernel⟩,
   ⟨ask (bytes [(1, 3), (1, 64), (2, 0)]), waits specCanStatus (ask (bytes [(1, 3), (1, 64), (2, 0)])) up, by decide +kernel⟩,
   ⟨.pcie, 3, up, ⟨by decide +kernel, by decide +kernel⟩⟩,
   ⟨.pcie, 3, up, ⟨by decide +kernel, by decide +kernel⟩⟩,
   ⟨.pcie, 3, up, ⟨by decide +kernel, by decide +kernel⟩⟩,
   ⟨.pcie, 3, true, up, ⟨by decide +kernel, by decide +kernel⟩⟩,
   ⟨.pcie, 3, true, up, ⟨by decide +kernel, by decide +kernel⟩⟩,
   ⟨.pcie, 3, true, up, ⟨by decide +kernel, by decide +kernel⟩⟩⟩

/-- The hypotheses of Obligations.CanEventsComplete can be met. -/
theorem witness_CanEventsComplete :
    (∃ (n : Fin 4) (f : CanFrame) (s : State) (b : Nat), (pbOn s = true) ∧ (onBusMode (canCtl s n.val) = true) ∧
      ((canCtl s n.val).conf ≠ .busOff) ∧ ((canCtl s n.val).conf ≠ .recovering) ∧ (loopHolds s 2 n.val = false) ∧
      (f.rtr = false) ∧ (takingBuffer (canCtl s n.val) f = some b)) ∧
    (∃ (n : Fin 4) (f : CanFrame) (s : State), (pbOn s = true) ∧ (onBusMode (canCtl s n.val) = true) ∧
      ((canCtl s n.val).conf ≠ .busOff) ∧ ((canCtl s n.val).conf ≠ .recovering) ∧ (loopHolds s 2 n.val = false) ∧
      (f.rtr = true ∨ takingBuffer (canCtl s n.val) f = none)) ∧
    (∃ (n : Fin 4) (s : State) (b : Nat), ((canCtl s n.val).sending = some b)) ∧
    (∃ (n : Fin 4) (s : State) (b : Nat), ((canCtl s n.val).sending = some b)) ∧
    (∃ (n : Fin 4) (s : State) (b : Nat), ((canCtl s n.val).sending = some b)) ∧
    (∃ (n : Fin 4) (s : State), ((canCtl s n.val).conf = .recovering)) ∧
    (∃ (n : Fin 4) (s : State), ((canCtl s n.val).integrating = true)) ∧
    (∃ (n : Fin 4) (s : State), (pbOn s = true) ∧ (onBusMode (canCtl s n.val) = true)) ∧
    (∃ (n : Fin 4) (b : Fin 65) (s : State), (pbOn s = true) ∧ ((canBuf (canCtl s n.val) b.val).desc.dir = 1) ∧
      ((canBuf (canCtl s n.val) b.val).timedOut = false) ∧
      ((canBuf (canCtl s n.val) b.val).desc.timeoutMs * 1000000 ≤ since s (canBuf (canCtl s n.val) b.val).rxAt)) ∧
    (∃ (n : Fin 4) (s : State), (pbOn s = true) ∧ ((canCtl s n.val).mode = 2) ∧ ((canCtl s n.val).integrating = false) ∧
      ((canCtl s n.val).sending = none) ∧ (canPending (canCtl s n.val) = false) ∧
      (500000000 ≤ since s (canCtl s n.val).checkAt)) :=
  ⟨⟨3, canFrame,
    { up with can := [(3, { mode := 2, bufs := [(5, { desc := { dir := 1, id := 0x55 <<< 18, mask := 0 } })] })] }, 5,
    by decide +kernel, by decide +kernel, by decide +kernel, by decide +kernel, by decide +kernel, by decide +kernel, rfl⟩,
   ⟨3, canFrame, { up with can := [(3, { mode := 2 })] }, by decide +kernel, by decide +kernel, by decide +kernel,
    by decide +kernel, by decide +kernel, by decide +kernel⟩,
   ⟨3, { up with can := [(3, { mode := 2, sending := some 63 })] }, 63, rfl⟩,
   ⟨3, { up with can := [(3, { mode := 2, sending := some 63 })] }, 63, rfl⟩,
   ⟨3, { up with can := [(3, { mode := 2, sending := some 63 })] }, 63, rfl⟩,
   ⟨3, { up with can := [(3, { conf := .recovering })] }, by decide +kernel⟩,
   ⟨3, { up with can := [(3, { integrating := true })] }, by decide +kernel⟩,
   ⟨3, { up with can := [(3, { mode := 2 })] }, by decide +kernel, by decide +kernel⟩,
   ⟨3, 64, { up with can := [(3, { bufs := [(64, { desc := { dir := 1, timeoutMs := 10 } })] })] }, by decide +kernel,
    by decide +kernel, by decide +kernel, by decide +kernel⟩,
   ⟨3, { up with can := [(3, { mode := 2 })] }, by decide +kernel, by decide +kernel, by decide +kernel, by decide +kernel,
    by decide +kernel, by decide +kernel⟩⟩

/-- The hypotheses of Obligations.FaultDetectionCompletes can be met. -/
theorem witness_FaultDetectionCompletes :
    (∃ (p : MortarPacket) (s : State), (s.power.mainUp = true) ∧ (mortarBad p = true) ∧
      (inService s (mortarSrc (p.header.toNat)) = true) ∧ (mortarClass (p.header.toNat) ≠ 3)) ∧
    (∃ (p : MortarPacket) (s : State), (s.power.mainUp = true) ∧ (mortarBad p = true) ∧
      (inService s (mortarSrc (p.header.toNat)) = true) ∧ (mortarClass (p.header.toNat) = 3)) ∧
    (∃ (p : MortarPacket) (s : State), (s.power.mainUp = true) ∧ (mortarBad p = false) ∧ (heldBack p s = true) ∧
      (inService s (mortarSrc (p.header.toNat)) = true)) ∧
    (∃ (p : MortarPacket) (s : State), (s.power.mainUp = true) ∧ (mortarBad p = false) ∧ (heldBack p s = false) ∧
      (35 ≤ mortarDest (p.header.toNat)) ∧ (inService s (mortarSrc (p.header.toNat)) = true)) ∧
    (∃ (p : MortarPacket) (s : State), (s.power.mainUp = true) ∧ (mortarBad p = false) ∧ (heldBack p s = false) ∧
      (mortarDest (p.header.toNat) < 35) ∧ (inService s (mortarSrc (p.header.toNat)) = true) ∧
      (inService s (mortarDest (p.header.toNat)) = false)) ∧
    (∃ (p : MortarPacket) (s : State), (s.power.mainUp = true) ∧ (mortarBad p = false) ∧ (heldBack p s = false) ∧
      (mortarDest (p.header.toNat) < 35) ∧ (inService s (mortarSrc (p.header.toNat)) = true) ∧
      (inService s (mortarDest (p.header.toNat)) = true)) ∧
    (∃ (b : BrickId) (s : State), (timedBrick s b.val = true) ∧ (handshakeLate s b.val = true) ∧
      (s.pending.contains (.clockPresenceExpiry b) = false)) ∧
    (∃ (b : BrickId) (s : State), (timedBrick s b.val = true) ∧ (handshakeLate s b.val = true) ∧
      (s.pending.contains (.clockPresenceExpiry b) = true)) ∧
    (∃ (b : BrickId) (s : State), (timedBrick s b.val = true) ∧ (5600 ≤ since s (brick s b.val).edgeAt)) ∧
    (∃ (b : BrickId) (s : State), (s.power.mainUp = true) ∧ ((brick s b.val).st = .transition) ∧
      (20000 ≤ since s (brick s b.val).transAt)) ∧
    (∃ (s : State), (s.power.mainUp = true)) ∧
    (∃ (s : State), (s.power.mainUp = true)) ∧
    (∃ (s : State), (s.power.mainUp = true)) ∧
    (∃ (s : State), (s.power.mainUp = true)) ∧
    (∃ (s : State), (s.power.mainUp = true)) ∧
    (∃ (l : List (W16 × W32)) (s : State), (s.power.mainUp = true) ∧ (sigEnabled (upsetRegs l s) = true) ∧
      (4000000 ≤ since (upsetRegs l s) (upsetRegs l s).regs.sweepAt)) ∧
    (∃ (q : Int) (s : State), (s.power.mainUp = true) ∧ (q < 440)) ∧
    (∃ (q : Int) (s : State), (s.power.mainUp = true) ∧ (440 ≤ q) ∧ (s.budget.hotSamples = 2)) :=
  ⟨⟨packet 0x3C000 [] true, up, by decide +kernel, by decide +kernel, by decide +kernel, by decide +kernel⟩,
   ⟨packet 0x3F000 [] true, up, by decide +kernel, by decide +kernel, by decide +kernel, by decide +kernel⟩,
   ⟨packet 0x1C0000 [] true, { up with bricks := [(0, { issued := [.write 0] })] }, by decide +kernel, by decide +kernel,
    by decide +kernel, by decide +kernel⟩,
   ⟨packet 0x3F [] true, up, by decide +kernel, by decide +kernel, by decide +kernel, by decide +kernel, by decide +kernel⟩,
   ⟨packet 0x600 [] true, { up with bricks := [(0, { st := .cinder })] }, by decide +kernel, by decide +kernel,
    by decide +kernel, by decide +kernel, by decide +kernel, by decide +kernel⟩,
   ⟨packet 0x600 [] true, up, by decide +kernel, by decide +kernel, by decide +kernel, by decide +kernel, by decide +kernel,
    by decide +kernel⟩,
   ⟨34, { up with bricks := [(34, raised)] }, by decide +kernel, by decide +kernel, by decide +kernel⟩,
   ⟨34, { up with bricks := [(34, raised)], pending := [.clockPresenceExpiry 34] }, by decide +kernel, by decide +kernel,
    by decide +kernel⟩,
   ⟨34, up, by decide +kernel, by decide +kernel⟩,
   ⟨34, { up with bricks := [(34, { st := .transition })] }, by decide +kernel, by decide +kernel, by decide +kernel⟩,
   ⟨up, by decide +kernel⟩,
   ⟨up, by decide +kernel⟩,
   ⟨up, by decide +kernel⟩,
   ⟨up, by decide +kernel⟩,
   ⟨up, by decide +kernel⟩,
   ⟨[], up, by decide +kernel, by decide +kernel, by decide +kernel⟩,
   ⟨439, up, by decide +kernel, by decide +kernel⟩,
   ⟨440, { up with budget := { up.budget with hotSamples := 2 } }, by decide +kernel, by decide +kernel, by decide +kernel⟩⟩

/-- The hypotheses of Obligations.PairCommandsComplete can be met. -/
theorem witness_PairCommandsComplete :
    (∃ (r : Req) (s : State), (accepted specPairStatus r s = true)) ∧
    (∃ (r : Req) (s : State), (accepted specPairConfig r s = true)) ∧
    (∃ (r : Req) (s : State), (accepted specSwitchover r s = true)) ∧
    (∃ (r : Req) (s : State), (accepted specDrill r s = true)) ∧
    (∃ (r : Req) (s : State), (accepted specPairResync r s = true)) ∧
    (∃ (r : Req) (s : State), (accepted specFaultStatus r s = true)) ∧
    (∃ (p : Port) (s : State), (writePasses p 0x1404 s)) ∧
    (∃ (s : State), (s.power.mainUp = true) ∧ (s.pair.slotId = true) ∧ (highTenSeconds s = true) ∧ (s.power.ready = true) ∧
      (s.pair.role = .undecided) ∧ (s.pair.fault = false) ∧ (s.keys.lc ≠ .retired) ∧ (pairMode s ≠ 1) ∧
      (s.pair.lineLow = false) ∧ (slotConflict s = false)) ∧
    (∃ (s : State), (s.pair.role ≠ .undecided)) ∧
    (∃ (s : State), (s.power.mainUp = true) ∧ (s.power.ready = true) ∧ (s.pair.role = .undecided) ∧ (s.pair.fault = false) ∧
      (s.keys.lc ≠ .retired) ∧ (pairMode s ≠ 1) ∧ (inService s idPL = true)) ∧
    (∃ (s : State), (s.pair.role ≠ .undecided) ∧ (s.pair.role ≠ .active)) ∧
    (∃ (s : State), (plOn s = true)) ∧
    (∃ (n : Fin 2) (s : State), (plOn s = true) ∧ ((if n = 0 then s.pair.lane0 else s.pair.lane1) = true)) ∧
    (∃ (s : State), (plOn s = true) ∧ (s.pair.linkUp = true) ∧ (s.pair.lane0 = false) ∧ (s.pair.lane1 = false) ∧
      (20000 ≤ since s s.pair.laneAt) ∧ (s.pair.role ≠ .active)) ∧
    (∃ (s : State), (plOn s = true) ∧ (s.pair.linkUp = true) ∧ (s.pair.role ≠ .active) ∧ (s.pair.role ≠ .standby)) ∧
    (∃ (s : State) (a : Nat), (s.pair.hbAt = some a) ∧ (plOn s = true) ∧ (s.pair.lostAt = none) ∧ (50000 ≤ since s a) ∧
      (s.pair.role ≠ .active)) ∧
    (∃ (s : State) (a : Nat), (s.pair.lostAt = some a) ∧ (plOn s = true) ∧ (s.pair.role = .standby) ∧ (s.pair.lostEp = false) ∧
      (s.test.test = false) ∧ (s.pair.lineLow = false) ∧ (s.pair.lineAt ≤ a + 200000) ∧ (s.pair.synced = true)) ∧
    (∃ (s : State), (s.pair.takingUp = true) ∧ (s.pair.role = .active) ∧
      (devNs s % (Nat.max (cls s 0).periodUs 1 * 1000) ≤ 2000)) :=
  ⟨⟨ask [], waits specPairStatus (ask []) up, by decide +kernel⟩,
   ⟨ask (bytes [(2, 0x101), (1, 23), (1, 24), (2, 720), (2, 0)]),
    waits specPairConfig (ask (bytes [(2, 0x101), (1, 23), (1, 24), (2, 720), (2, 0)])) up, by decide +kernel⟩,
   ⟨ask [], waits specSwitchover (ask []) pairUp, by decide +kernel⟩,
   ⟨ask [], waits specDrill (ask []) pairUp, by decide +kernel⟩,
   ⟨ask [], waits specPairResync (ask []) pairUp, by decide +kernel⟩,
   ⟨ask [], waits specFaultStatus (ask []) up, by decide +kernel⟩,
   ⟨.pcie, up, ⟨by decide +kernel, by decide +kernel⟩⟩,
   ⟨{ up with pair := { up.pair with slotId := true, role := .undecided } }, by decide +kernel, by decide +kernel,
    by decide +kernel, by decide +kernel, by decide +kernel, by decide +kernel, by decide +kernel, by decide +kernel,
    by decide +kernel, by decide +kernel⟩,
   ⟨up, by decide +kernel⟩,
   ⟨{ up with pair := { up.pair with role := .undecided } }, by decide +kernel, by decide +kernel, by decide +kernel,
    by decide +kernel, by decide +kernel, by decide +kernel, by decide +kernel⟩,
   ⟨{ up with pair := { up.pair with role := .standby } }, by decide +kernel, by decide +kernel⟩,
   ⟨up, by decide +kernel⟩,
   ⟨1, { up with pair := { up.pair with lane1 := true } }, by decide +kernel, by decide +kernel⟩,
   ⟨{ up with pair := { up.pair with role := .standby, linkUp := true } }, by decide +kernel, by decide +kernel,
    by decide +kernel, by decide +kernel, by decide +kernel, by decide +kernel⟩,
   ⟨{ up with pair := { up.pair with role := .solo, linkUp := true } }, by decide +kernel, by decide +kernel,
    by decide +kernel, by decide +kernel⟩,
   ⟨{ up with pair := { up.pair with role := .standby, hbAt := some 0 } }, 0, rfl, by decide +kernel, by decide +kernel,
    by decide +kernel, by decide +kernel⟩,
   ⟨{ up with pair := { up.pair with role := .standby, lostAt := some 0, synced := true } }, 0, rfl, by decide +kernel,
    by decide +kernel, by decide +kernel, by decide +kernel, by decide +kernel, by decide +kernel, by decide +kernel⟩,
   ⟨{ up with pair := { up.pair with takingUp := true } }, by decide +kernel, by decide +kernel, by decide +kernel⟩⟩

/-- The hypotheses of Obligations.PairLinkAndTakeoverEventsComplete can be met. -/
theorem witness_PairLinkAndTakeoverEventsComplete :
    (∃ (s : State), (s.power.mainUp = true) ∧ (s.pair.slotId = true) ∧ (highTenSeconds s = true)) ∧
    (∃ (s : State), (s.power.mainUp = true)) ∧
    (∃ (s : State), (s.power.mainUp = true) ∧ (s.pair.present = false)) ∧
    (∃ (s : State), (s.power.mainUp = true) ∧ (s.pair.present = true)) ∧
    (∃ (s : State), (plOn s = true)) ∧
    (∃ (s : State), (plOn s = true)) ∧
    (∃ (s : State), (plOn s = true) ∧ (s.pair.lane0 = true)) ∧
    (∃ (s : State), (plOn s = true) ∧ (s.pair.lane1 = true)) ∧
    (∃ (s : State), (plOn s = true) ∧ (s.pair.linkUp = true) ∧ (s.pair.lane0 = false) ∧ (s.pair.lane1 = false) ∧
      (20000 ≤ since s s.pair.laneAt)) ∧
    (∃ (s : State), (plOn s = true) ∧ (10000 ≤ since s s.pair.hbSentAt) ∧ (svAlive s = true) ∧ (s.pair.role ≠ .fenced) ∧
      (s.pair.linkUp = true)) ∧
    (∃ (s : State), (plOn s = true) ∧ (s.pair.linkUp = true)) ∧
    (∃ (s : State) (a : Nat), (s.pair.hbAt = some a) ∧ (plOn s = true) ∧ (s.pair.lostAt = none) ∧ (50000 ≤ since s a)) ∧
    (∃ (s : State) (a : Nat), (s.pair.lostAt = some a) ∧ (plOn s = true) ∧ (s.pair.role = .standby) ∧ (s.pair.lostEp = false) ∧
      (s.test.test = false) ∧ (s.pair.lineLow = false) ∧ (s.pair.lineAt ≤ a + 200000) ∧
      (s.pair.synced = true ∨ cfgBit s 0x1404 1 = true)) ∧
    (∃ (s : State) (a : Nat), (s.pair.lostAt = some a) ∧ (plOn s = true) ∧ (s.pair.role = .standby) ∧ (s.pair.lostEp = false) ∧
      (s.test.test = false) ∧ (s.pair.lineLow = false) ∧ (s.pair.lineAt ≤ a + 200000) ∧ (s.pair.synced = false) ∧
      (cfgBit s 0x1404 1 = false)) ∧
    (∃ (s : State) (a : Nat), (s.pair.lostAt = some a) ∧ (plOn s = true) ∧ (s.pair.role = .standby) ∧ (s.pair.lostEp = false) ∧
      (s.test.test = false) ∧ (s.pair.lineLow = true ∨ a + 200000 < s.pair.lineAt) ∧ (200000 ≤ since s a)) ∧
    (∃ (s : State), (s.pair.takingUp = true) ∧ (s.pair.role = .active) ∧
      (devNs s % (Nat.max (cls s 0).periodUs 1 * 1000) ≤ 2000)) :=
  ⟨⟨{ up with pair := { up.pair with slotId := true } }, by decide +kernel, by decide +kernel, by decide +kernel⟩,
   ⟨up, by decide +kernel⟩,
   ⟨up, by decide +kernel, by decide +kernel⟩,
   ⟨{ up with pair := { up.pair with present := true } }, by decide +kernel, by decide +kernel⟩,
   ⟨up, by decide +kernel⟩,
   ⟨up, by decide +kernel⟩,
   ⟨{ up with pair := { up.pair with lane0 := true } }, by decide +kernel, by decide +kernel⟩,
   ⟨{ up with pair := { up.pair with lane1 := true } }, by decide +kernel, by decide +kernel⟩,
   ⟨{ up with pair := { up.pair with linkUp := true } }, by decide +kernel, by decide +kernel, by decide +kernel,
    by decide +kernel, by decide +kernel⟩,
   ⟨{ up with pair := { up.pair with linkUp := true } }, by decide +kernel, by decide +kernel, by decide +kernel,
    by decide +kernel, by decide +kernel⟩,
   ⟨{ up with pair := { up.pair with linkUp := true } }, by decide +kernel, by decide +kernel⟩,
   ⟨{ up with pair := { up.pair with hbAt := some 0 } }, 0, rfl, by decide +kernel, by decide +kernel, by decide +kernel⟩,
   ⟨{ up with pair := { up.pair with lostAt := some 0, role := .standby, synced := true } }, 0, rfl, by decide +kernel,
    by decide +kernel, by decide +kernel, by decide +kernel, by decide +kernel, by decide +kernel, by decide +kernel⟩,
   ⟨{ up with pair := { up.pair with lostAt := some 0, role := .standby } }, 0, rfl, by decide +kernel, by decide +kernel,
    by decide +kernel, by decide +kernel, by decide +kernel, by decide +kernel, by decide +kernel, by decide +kernel⟩,
   ⟨{ up with pair := { up.pair with lostAt := some 0, role := .standby, lineLow := true } }, 0, rfl, by decide +kernel,
    by decide +kernel, by decide +kernel, by decide +kernel, by decide +kernel, by decide +kernel⟩,
   ⟨{ up with pair := { up.pair with takingUp := true } }, by decide +kernel, by decide +kernel, by decide +kernel⟩⟩

/-- The hypotheses of Obligations.PairMirrorJoinAndDrillEventsComplete can be met. -/
theorem witness_PairMirrorJoinAndDrillEventsComplete :
    (∃ (q : Nat) (s : State), (plOn s = true) ∧ (s.pair.linkUp = true) ∧ (s.pair.joined = true) ∧ (pausing s = false) ∧
      (s.pair.role = .standby) ∧ (s.pair.joining = false) ∧ (q ≠ 0) ∧ (q = s.pair.mirrorSeq + 1)) ∧
    (∃ (s : State), (plOn s = true) ∧ (s.pair.linkUp = true) ∧ (s.pair.joined = true) ∧ (pausing s = false) ∧
      (s.pair.role = .active)) ∧
    (∃ (n : BitVec 12) (q : Nat) (s : State) (d : InDataset), (plOn s = true) ∧ (activeJoined s = true) ∧
      (s.pair.linkUp = true) ∧ ((station s n.toNat).datasets.find? (fun d => decide (d.seq = q)) = some d)) ∧
    (∃ (c : PClass) (s : State) (y : Cycle), ((cls s c.val).cycle = some y) ∧
      ((s.pair.fills.filter fun f => decide (f.1 = c.val)) ≠ []) ∧ (2000000 ≤ since s y.markAt)) ∧
    (∃ (x : JoinCopy) (s : State) (u : State), (plOn s = true) ∧ (s.pair.linkUp = true) ∧ (s.pair.joined = true) ∧
      (s.pair.role = .standby) ∧ (pausing s = false) ∧ (s.pair.joining = true) ∧ (keyLacks x s = false) ∧
      (joinLoads x s = some u) ∧ (x.digestsOk = true)) ∧
    (∃ (x : JoinCopy) (s : State), (plOn s = true) ∧ (s.pair.linkUp = true) ∧ (s.pair.joined = true) ∧
      (s.pair.role = .standby) ∧ (pausing s = false) ∧ (s.pair.joining = true) ∧ (keyLacks x s = true)) ∧
    (∃ (x : JoinCopy) (s : State), (plOn s = true) ∧ (s.pair.linkUp = true) ∧ (s.pair.joined = true) ∧
      (s.pair.role = .standby) ∧ (pausing s = false) ∧ (s.pair.joining = false) ∧ (s.pair.resync = true) ∧
      (x.digestsOk = true)) ∧
    (∃ (s : State) (x : Exchange), (s.pair.exchange = some x) ∧ (plOn s = true) ∧ (activeJoined s = true) ∧ (x.handed = false) ∧
      (commitMatched s x = true) ∧ (outputsLeft s = true) ∧ (exchangeRefused s = false)) ∧
    (∃ (s : State), (plOn s = true) ∧ (activeJoined s = true) ∧ (s.pair.cfg.drillAuto = true) ∧ (drillDue s = true) ∧
      (inWindow s = true) ∧ (s.pair.exchange = none) ∧ (exchangeRefused s = false)) ∧
    (∃ (s : State) (x : Exchange), (s.pair.exchange = some x) ∧ (plOn s = true) ∧ (x.drill = true) ∧ (x.handed = true) ∧
      (s.pair.role = .active)) ∧
    (∃ (s : State) (x : Exchange), (s.pair.exchange = some x) ∧ (plOn s = true) ∧ (x.drill = true) ∧ (x.handed = true) ∧
      (s.pair.role = .active)) ∧
    (∃ (s : State) (a : Nat), (s.pair.drillAge = some a) ∧ (plOn s = true) ∧ (s.pair.role = .active) ∧
      (reached s (s.pair.drillHour + 3600000000000) = true) ∧ (a + 1 < s.pair.cfg.interval)) ∧
    (∃ (s : State), (s.power.mainUp = true) ∧ (s.pair.selfCheck = true)) :=
  ⟨⟨1, { up with pair := { up.pair with role := .standby, joined := true, linkUp := true } }, by decide +kernel,
    by decide +kernel, by decide +kernel, by decide +kernel, by decide +kernel, by decide +kernel, by decide +kernel,
    by decide +kernel⟩,
   ⟨pairUp, by decide +kernel, by decide +kernel, by decide +kernel, by decide +kernel, by decide +kernel⟩,
   ⟨5, 9,
    { pairUp with rings := { pairUp.rings with stations := [(5, { datasets := [{ seq := 9, time := 0, entries := [] }] })] } },
    { seq := 9, time := 0, entries := [] }, by decide +kernel, by decide +kernel, by decide +kernel, rfl⟩,
   ⟨1, { pairUp with classes := [(1, { cycle := some { stamp := 0 } })], pair := { pairUp.pair with fills := [(1, 5, 9)] } },
    { stamp := 0 }, rfl, by decide +kernel, by decide +kernel⟩,
   ⟨joinCopy, { up with pair := { up.pair with role := .standby, joined := true, linkUp := true, joining := true } }, _,
    by decide +kernel, by decide +kernel, by decide +kernel, by decide +kernel, by decide +kernel, by decide +kernel,
    by decide +kernel, (Option.some_get (by decide +kernel)).symm, by decide +kernel⟩,
   ⟨{ joinCopy with settings := [(0x0701, bytes [(2, 0), (1, 1), (13, 0)])] },
    { up with pair := { up.pair with role := .standby, joined := true, linkUp := true, joining := true } },
    by decide +kernel, by decide +kernel, by decide +kernel, by decide +kernel, by decide +kernel, by decide +kernel,
    by decide +kernel⟩,
   ⟨joinCopy, { up with pair := { up.pair with role := .standby, joined := true, linkUp := true, resync := true } },
    by decide +kernel, by decide +kernel, by decide +kernel, by decide +kernel, by decide +kernel, by decide +kernel,
    by decide +kernel, by decide +kernel⟩,
   ⟨{ pairUp with pair := { pairUp.pair with exchange := some ({ drill := true, req := none, since' := 0, handed := false, gapUs := 0 }), matched := some (0, 5) } },
    { drill := true, req := none, since' := 0, handed := false, gapUs := 0 }, rfl, by decide +kernel, by decide +kernel,
    by decide +kernel, by decide +kernel, by decide +kernel, by decide +kernel⟩,
   ⟨{ pairUp with pair := { pairUp.pair with cfg := { drillAuto := true } } }, by decide +kernel, by decide +kernel,
    by decide +kernel, by decide +kernel, by decide +kernel, by decide +kernel, by decide +kernel⟩,
   ⟨{ up with pair := { up.pair with exchange := some ({ drill := true, req := none, since' := 0, handed := true, gapUs := 0 }) } },
    { drill := true, req := none, since' := 0, handed := true, gapUs := 0 }, rfl, by decide +kernel, by decide +kernel,
    by decide +kernel, by decide +kernel⟩,
   ⟨{ up with pair := { up.pair with exchange := some ({ drill := true, req := none, since' := 0, handed := true, gapUs := 0 }) } },
    { drill := true, req := none, since' := 0, handed := true, gapUs := 0 }, rfl, by decide +kernel, by decide +kernel,
    by decide +kernel, by decide +kernel⟩,
   ⟨{ up with time := { up.time with dev := clockOfNs 4000000000000 }, pair := { up.pair with drillAge := some 166 } }, 166,
    rfl, by decide +kernel, by decide +kernel, by decide +kernel, by decide +kernel⟩,
   ⟨{ up with pair := { up.pair with selfCheck := true } }, by decide +kernel, by decide +kernel⟩⟩

/-- The hypotheses of Obligations.RecorderCommandsAndEventsComplete can be met. -/
theorem witness_RecorderCommandsAndEventsComplete :
    (∃ (r : Req) (s : State), (accepted specRecRead r s = true)) ∧
    (∃ (r : Req) (s : State), (accepted specRecCursor r s = true)) ∧
    ((∀ k m x y, Config.ecdsaVerify k m x y = true) → ∃ (r : Req) (s : State), (accepted specRecClear r s = true)) ∧
    (∃ (s : State) (r : Req) (lo : Nat) (hi : Nat), (s.recorder.clear = some (r, lo, hi))) ∧
    (∃ (s : State) (e : EventRec), (inService s idMG = true) ∧ (s.power.vstby = true) ∧ (s.recorder.ready = true) ∧
      (nextRecord s = some e)) ∧
    (∃ (p : Port) (s : State), (writePasses p 0x1008 s)) ∧
    (∃ (v : Fin 32) (s : State), (s.evt.deferred.getLsbD v.val = true) ∧ (inHoldoff s v.val = false) ∧ (msgEnabled s = true)) ∧
    (∃ (v : Fin 32) (s : State), (s.evt.deferred.getLsbD v.val = true) ∧ (inHoldoff s v.val = false) ∧ (msgEnabled s = false)) :=
  ⟨⟨ask (bytes [(8, 0), (4, 63)]), waits specRecRead (ask (bytes [(8, 0), (4, 63)])) up, by decide +kernel⟩,
   ⟨ask (bytes [(4, 3), (8, 0)]), waits specRecCursor (ask (bytes [(4, 3), (8, 0)])) up, by decide +kernel⟩,
   fun hv => ⟨signed ([]), waits specRecClear (signed ([])) up,
    accepted_signed _ _ _ key0 hv rfl (by decide +kernel) (by decide +kernel)⟩,
   ⟨{ up with recorder := { up.recorder with clear := some (ask [], 0, 0) } }, ask [], 0, 0, rfl⟩,
   ⟨{ up with recorder := { up.recorder with queue := [{ time := 0, source := 0xC0 }] } }, { time := 0, source := 0xC0 },
    by decide +kernel, by decide +kernel, by decide +kernel, rfl⟩,
   ⟨.pcie, up, ⟨by decide +kernel, by decide +kernel⟩⟩,
   ⟨31, { up with evt := { up.evt with deferred := 0x80000000 }, regs := { up.regs with cfg := [(0x014, 2)] } },
    by decide +kernel, by decide +kernel, by decide +kernel⟩,
   ⟨31, { up with evt := { up.evt with deferred := 0x80000000 }, regs := { up.regs with cfg := [(0x014, 1)] } },
    by decide +kernel, by decide +kernel, by decide +kernel⟩⟩

/-- The hypotheses of Obligations.CalendarCommandsComplete can be met. -/
theorem witness_CalendarCommandsComplete :
    (∃ (r : Req) (s : State), (accepted specRtcRead r s = true)) ∧
    (∃ (r : Req) (s : State), (accepted specRtcSet r s = true)) ∧
    (∃ (r : Req) (s : State), (accepted specRtcAdjust r s = true)) ∧
    (∃ (r : Req) (s : State), (accepted specRtcAlarm r s = true) ∧ (getLE (bodyOf r) 1 1 = 0)) ∧
    (∃ (r : Req) (s : State), (accepted specRtcAlarm r s = true) ∧ (getLE (bodyOf r) 1 1 ≠ 0) ∧
      (possible (calOfWords (getLE (bodyOf r) 4 4) (getLE (bodyOf r) 8 4)) = true) ∧
      ((calOfWords (getLE (bodyOf r) 4 4) (getLE (bodyOf r) 8 4)).subsec = 0) ∧ (badT0 (getLE (bodyOf r) 4 4) = false) ∧
      (badT1 (getLE (bodyOf r) 8 4) = false) ∧
      (calTicks (begun specRtcAlarm r s).rtc.cal < calTicks (calOfWords (getLE (bodyOf r) 4 4) (getLE (bodyOf r) 8 4)))) ∧
    (∃ (p : Port) (s : State), (writePasses p 0xF20 s)) ∧
    (∃ (p : Port) (s : State), (writePasses p 0xF0C s)) :=
  ⟨⟨ask [], waits specRtcRead (ask []) up, by decide +kernel⟩,
   ⟨ask (bytes [(4, 0x3B3B7FFF), (4, 0x18FC1F17)]), waits specRtcSet (ask (bytes [(4, 0x3B3B7FFF), (4, 0x18FC1F17)])) up,
    by decide +kernel⟩,
   ⟨ask (bytes [(4, 86400000)]), waits specRtcAdjust (ask (bytes [(4, 86400000)])) up, by decide +kernel⟩,
   ⟨ask (bytes [(4, 3), (8, 0)]), waits specRtcAlarm (ask (bytes [(4, 3), (8, 0)])) up, by decide +kernel, by decide +kernel⟩,
   ⟨ask (bytes [(4, 0x10103), (4, 0x3B3B0000), (4, 0x18FC1F17)]),
    waits specRtcAlarm (ask (bytes [(4, 0x10103), (4, 0x3B3B0000), (4, 0x18FC1F17)])) up, by decide +kernel,
    by decide +kernel, by decide +kernel, by decide +kernel, by decide +kernel, by decide +kernel, by decide +kernel⟩,
   ⟨.pcie, up, ⟨by decide +kernel, by decide +kernel⟩⟩,
   ⟨.pcie, up, ⟨by decide +kernel, by decide +kernel⟩⟩⟩

/-- The hypotheses of Obligations.CalendarEventsComplete can be met. -/
theorem witness_CalendarEventsComplete :
    (∃ (s : State), (s.rtc.cal.subsec = 0) ∧ (s.power.vstby = true) ∧ (s.rtc.crystal = true) ∧ (disciplined s = false)) ∧
    (∃ (s : State), (s.rtc.cal.subsec = 0) ∧ (s.power.vstby = true) ∧ (s.rtc.crystal = true) ∧ (disciplined s = true) ∧
      (50000000 < (discDelta s).natAbs) ∧ (inCalendar (utcFine s) = true)) ∧
    (∃ (s : State), (s.rtc.cal.subsec = 0) ∧ (s.power.vstby = true) ∧ (s.rtc.crystal = true) ∧ (disciplined s = true) ∧
      ((discDelta s).natAbs ≤ 50000000)) ∧
    (∃ (n : Fin 4) (s : State), ((alarm s n.val).armed = true) ∧ (calTicks (alarm s n.val).time ≤ calTicks s.rtc.cal)) ∧
    (∃ (s : State), (s.power.vstby = true)) ∧
    (∃ (s : State), (s.power.vstby = false)) ∧
    (∃ (mv : Nat) (s : State), (s.power.vstby = true) ∧ (s.rtc.vbatAt = none) ∧ (mv < 2200)) ∧
    (∃ (mv : Nat) (s : State), (s.power.vstby = true) ∧ (s.rtc.vbatAt = none) ∧ (2200 ≤ mv)) ∧
    (∃ (s : State), (s.power.vstby = true)) ∧
    (∃ (p : Port) (s : State) (f : Freeze), (fget s.rtc.freeze (portCode p) = some f) ∧ (2000000 ≤ since s f.at')) :=
  ⟨⟨up, by decide +kernel, by decide +kernel, by decide +kernel, by decide +kernel⟩,
   ⟨{ up with rtc := { up.rtc with cal := { up.rtc.cal with sec := 5 } }, time := { up.time with dev := clockOfNs 946684837000000000, dom0 := { st := .locked } }, regs := { up.regs with cfg := [(0xF04, 1)] } },
    by decide +kernel, by decide +kernel, by decide +kernel, by decide +kernel, by decide +kernel, by decide +kernel⟩,
   ⟨{ up with time := { up.time with dev := clockOfNs 946684837000000000, dom0 := { st := .locked } }, regs := { up.regs with cfg := [(0xF04, 1)] } },
    by decide +kernel, by decide +kernel, by decide +kernel, by decide +kernel, by decide +kernel⟩,
   ⟨3, { up with rtc := { up.rtc with alarms := [(3, { armed := true })] } }, by decide +kernel, by decide +kernel⟩,
   ⟨up, by decide +kernel⟩,
   ⟨{ up with power := { up.power with vstby := false } }, by decide +kernel⟩,
   ⟨2199, up, by decide +kernel, by decide +kernel, by decide +kernel⟩,
   ⟨2200, up, by decide +kernel, by decide +kernel, by decide +kernel⟩,
   ⟨up, by decide +kernel⟩,
   ⟨.sideBand, { up with rtc := { up.rtc with freeze := [(1, { t0 := 0, t1 := 0, at' := 0 })] } },
    { t0 := 0, t1 := 0, at' := 0 }, rfl, by decide +kernel⟩⟩

/-- The hypotheses of Obligations.PanelCommandsAndEventsComplete can be met. -/
theorem witness_PanelCommandsAndEventsComplete :
    (∃ (r : Req) (s : State), (accepted specPnlConfig r s = true)) ∧
    (∃ (r : Req) (s : State), (accepted specPnlWrite r s = true)) ∧
    (∃ (r : Req) (s : State), (accepted specPnlUpdate r s = true)) ∧
    (∃ (r : Req) (s : State), (accepted specPnlStatus r s = true)) ∧
    (∃ (p : Port) (s : State), (writePasses p 0x1104 s)) ∧
    (∃ (s : State), (inService s idPN = true) ∧ (s.panel.biasOn = true) ∧ (s.panel.biasBad = []) ∧ (s.panel.stopped = false) ∧
      (framePeriod s ≤ since s s.panel.frameAt)) ∧
    (∃ (out : List (Fin 8)) (s : State), (s.panel.biasOn = true) ∧ (1000000 ≤ since s s.panel.biasAt) ∧
      ((out.map (·.val)).find? (fun k => s.panel.biasBad.contains k) = none)) ∧
    (∃ (out : List (Fin 8)) (s : State) (k : Nat), (s.panel.biasOn = true) ∧ (1000000 ≤ since s s.panel.biasAt) ∧
      ((out.map (·.val)).find? (fun k => s.panel.biasBad.contains k) = some k)) ∧
    (∃ (s : State) (n : Nat), (s.panel.biasRetry = some n) ∧ (1000000000 ≤ since s s.panel.biasAt)) ∧
    (∃ (s : State) (n : Nat), (s.panel.biasRetry = some n) ∧ (1000000000 ≤ since s s.panel.biasAt) ∧ (n < 2)) ∧
    (∃ (s : State) (n : Nat), (s.panel.biasRetry = some n) ∧ (1000000000 ≤ since s s.panel.biasAt) ∧ (2 ≤ n)) ∧
    (∃ (s : State), (s.panel.biasOn = true) ∧ (flying s = []) ∧ (s.panel.cfg.biasHold * 1000000 ≤ since s s.panel.endedAt)) ∧
    (∃ (s : State), (inService s idPN = true) ∧ (10000000000 ≤ since s s.panel.crcAt)) :=
  ⟨⟨ask (bytes [(2, 400), (2, 300), (1, 50), (1, 0), (4, noPoint), (2, 1), (2, 2), (2, 3), (2, 4), (2, 5), (2, 6), (2, 7), (2, 10000), (2, 0)]),
    waits specPnlConfig (ask (bytes [(2, 400), (2, 300), (1, 50), (1, 0), (4, noPoint), (2, 1), (2, 2), (2, 3), (2, 4), (2, 5), (2, 6), (2, 7), (2, 10000), (2, 0)])) up,
    by decide +kernel⟩,
   ⟨ask (bytes [(2, 396), (2, 299), (2, 4), (2, 1), (4, 0), (1, 255)]),
    waits specPnlWrite (ask (bytes [(2, 396), (2, 299), (2, 4), (2, 1), (4, 0), (1, 255)])) up, by decide +kernel⟩,
   ⟨ask (bytes [(2, 396), (2, 299), (2, 4), (2, 1)]),
    waits specPnlUpdate (ask (bytes [(2, 396), (2, 299), (2, 4), (2, 1)])) up, by decide +kernel⟩,
   ⟨ask [], waits specPnlStatus (ask []) up, by decide +kernel⟩,
   ⟨.pcie, up, ⟨by decide +kernel, by decide +kernel⟩⟩,
   ⟨{ up with panel := { up.panel with biasOn := true } }, by decide +kernel, by decide +kernel, by decide +kernel,
    by decide +kernel, by decide +kernel⟩,
   ⟨[3], { up with panel := { up.panel with biasOn := true } }, by decide +kernel, by decide +kernel, by decide +kernel⟩,
   ⟨[3], { up with panel := { up.panel with biasOn := true, biasBad := [3] } }, 3, by decide +kernel, by decide +kernel, rfl⟩,
   ⟨{ up with panel := { up.panel with biasRetry := some 0 } }, 0, rfl, by decide +kernel⟩,
   ⟨{ up with panel := { up.panel with biasRetry := some 1 } }, 1, rfl, by decide +kernel, by decide +kernel⟩,
   ⟨{ up with panel := { up.panel with biasRetry := some 2 } }, 2, rfl, by decide +kernel, by decide +kernel⟩,
   ⟨{ up with panel := { up.panel with biasOn := true } }, by decide +kernel, by decide +kernel, by decide +kernel⟩,
   ⟨up, by decide +kernel, by decide +kernel⟩⟩

/-- The hypotheses of Obligations.KeyCommandsComplete can be met. -/
theorem witness_KeyCommandsComplete :
    (∃ (r : Req) (s : State), (accepted specKeyUpdate r s = true)) ∧
    (∃ (r : Req) (s : State), (accepted specKeyStatus r s = true)) ∧
    (∃ (r : Req) (s : State), (accepted specIdentity r s = true)) ∧
    ((∀ k m x y, Config.ecdsaVerify k m x y = true) → ∃ (r : Req) (s : State) (target : LcState) (root : Bool),
      (accepted specLcChange r s = true) ∧
      (transitionTo (begun specLcChange r s).keys.lc (getLE (bodyOf r) 0 1) = some (target, root))) ∧
    (∃ (s : State) (o : KeyOp), (s.keys.op = some o) ∧ (s.power.mainUp = true) ∧ (inService s idKB = true) ∧
      (o.req.isSome = true) ∧ (o.due ≤ s.refNs)) ∧
    (∃ (o : KeyOp) (counter : W32) (n : Nat) (slots : List (Nat × Key)) (written : List Nat) (freed : List Nat) (revoked : List (Nat × Nat)),
      (o.work = .update counter n slots written freed revoked) ∧ (o.stage = .begun)) ∧
    (∃ (o : KeyOp) (counter : W32) (n : Nat) (slots : List (Nat × Key)) (written : List Nat) (freed : List Nat) (revoked : List (Nat × Nat)),
      (o.work = .update counter n slots written freed revoked) ∧ (o.stage = .committed)) ∧
    (∃ (o : KeyOp) (target : LcState) (root : Bytes), (o.work = .transition target root) ∧ (o.stage = .begun) ∧
      (target ≠ .retired)) ∧
    (∃ (o : KeyOp) (target : LcState) (root : Bytes), (o.work = .transition target root) ∧ (o.stage = .committed)) :=
  ⟨⟨ask (zeros 72), waits specKeyUpdate (ask (zeros 72)) up, by decide +kernel⟩,
   ⟨ask (bytes [(1, 130), (1, 126), (2, 0)]), waits specKeyStatus (ask (bytes [(1, 130), (1, 126), (2, 0)])) up,
    by decide +kernel⟩,
   ⟨ask [], waits specIdentity (ask []) up, by decide +kernel⟩,
   fun hv => ⟨signed (bytes [(4, 4), (96, 0)]), waits specLcChange (signed (bytes [(4, 4), (96, 0)])) up, .retired, false,
    accepted_signed _ _ _ key0 hv rfl (by decide +kernel) (by decide +kernel), by decide +kernel⟩,
   ⟨{ up with keys := { up.keys with op := some keyUpd } }, keyUpd, rfl, by decide +kernel, by decide +kernel,
    by decide +kernel, by decide +kernel⟩,
   ⟨keyUpd, 1, 0, [], [], [], [], by decide +kernel, by decide +kernel⟩,
   ⟨{ keyUpd with stage := .committed }, 1, 0, [], [], [], [], by decide +kernel, by decide +kernel⟩,
   ⟨keyTrans, .service, [], by decide +kernel, by decide +kernel, by decide +kernel⟩,
   ⟨{ keyTrans with stage := .committed }, .service, [], by decide +kernel, by decide +kernel⟩⟩

/-- The hypotheses of Obligations.FirmwareCommandsComplete can be met. -/
theorem witness_FirmwareCommandsComplete :
    (∃ (r : Req) (s : State), (accepted specFwuOpen r s = true)) ∧
    (∃ (r : Req) (s : State) (x : Session), (accepted specFwuData r s = true) ∧ ((begun specFwuData r s).fwu.session = some x)) ∧
    (∃ (r : Req) (s : State) (x : Session), (accepted specFwuVerify r s = true) ∧
      ((begun specFwuVerify r s).fwu.session = some x)) ∧
    (∃ (r : Req) (s : State), (accepted specFwuActivate r s = true)) ∧
    (∃ (r : Req) (s : State), (accepted specFwuConfirm r s = true)) ∧
    (∃ (r : Req) (s : State), (accepted specFwuClose r s = true)) ∧
    (∃ (r : Req) (s : State), (accepted specFwuStatus r s = true)) :=
  ⟨⟨ask (bytes [(4, 1), (4, 0x04000000)]), waits specFwuOpen (ask (bytes [(4, 1), (4, 0x04000000)])) up, by decide +kernel⟩,
   ⟨ask (bytes [(8, 0), (1, 1)]),
    waits specFwuData (ask (bytes [(8, 0), (1, 1)])) ({ up with fwu := { up.fwu with session := some { st := .downloading, port := .pcie, slot := 0, tag := 1, kind := 0, total := 100000, received := [] } } }),
    _, by decide +kernel, (Option.some_get (by decide +kernel)).symm⟩,
   ⟨ask [],
    waits specFwuVerify (ask []) ({ up with fwu := { up.fwu with session := some { st := .downloading, port := .pcie, slot := 0, tag := 1, kind := 0, total := 100000, received := [] } } }),
    _, by decide +kernel, (Option.some_get (by decide +kernel)).symm⟩,
   ⟨ask (zeros 4),
    waits specFwuActivate (ask (zeros 4)) ({ up with fwu := { up.fwu with session := some { st := .verified, port := .pcie, slot := 0, tag := 1, kind := 0, total := 100000, received := [] }, slotB := { manifest := some manifest } } }),
    by decide +kernel⟩,
   ⟨ask [], waits specFwuConfirm (ask []) ({ up with fwu := { up.fwu with trial := true } }), by decide +kernel⟩,
   ⟨ask [],
    waits specFwuClose (ask []) ({ up with fwu := { up.fwu with session := some { st := .downloading, port := .pcie, slot := 0, tag := 1, kind := 0, total := 100000, received := [] } } }),
    by decide +kernel⟩,
   ⟨ask [], waits specFwuStatus (ask []) up, by decide +kernel⟩⟩

/-- The hypotheses of Obligations.FirmwareEventsComplete can be met. -/
theorem witness_FirmwareEventsComplete :
    (∃ (r : Req) (s : State), (accepted specFwuOpen r s = true)) ∧
    (∃ (r : Req) (s : State) (x : Session), (accepted specFwuData r s = true) ∧ ((begun specFwuData r s).fwu.session = some x)) ∧
    ((∀ k m x y, Config.ecdsaVerify k m x y = true) → ∃ (r : Req) (s : State) (x : Session),
      (accepted specFwuVerify r s = true) ∧ ((begun specFwuVerify r s).fwu.session = some x) ∧
      ((begun specFwuVerify r s).fwu.build = none) ∧ (packageFault (begun specFwuVerify r s) x = none)) ∧
    (∃ (r : Req) (s : State), (accepted specFwuActivate r s = true)) ∧
    (∃ (r : Req) (s : State), (accepted specFwuConfirm r s = true)) ∧
    (∃ (r : Req) (s : State), (accepted specFwuClose r s = true)) ∧
    (∃ (s : State) (a : Activation) (m : Manifest), (s.fwu.activate = some a) ∧ (idleManifest s = some m) ∧
      (s.power.ready = true) ∧ (s.pair.exchange = none) ∧ (devNs s % (Nat.max (cls s 1).periodUs 1 * 1000) ≤ 2000) ∧
      (a.inPlace = true ∨ s.pair.role ≠ .active)) ∧
    (∃ (s : State) (a : Activation) (m : Manifest), (s.fwu.activate = some a) ∧ (idleManifest s = some m) ∧
      (s.power.ready = true) ∧ (s.pair.exchange = none) ∧ (devNs s % (Nat.max (cls s 1).periodUs 1 * 1000) ≤ 2000) ∧
      (a.inPlace = false) ∧ (s.pair.role = .active)) ∧
    (∃ (s : State) (b : Build), (s.fwu.build = some b) ∧ (s.power.ready = true) ∧ (b.active = false)) ∧
    (∃ (s : State) (m : Manifest), (s.power.ready = true) ∧ (s.fwu.trial = true) ∧ (86400 ≤ trialSeconds s) ∧
      (s.fwu.activate = none) ∧ (s.fwu.activating = none) ∧ (idleManifest s = some m) ∧ (activateRefusal m false s = none)) ∧
    (∃ (s : State), (s.power.mainUp = true) ∧ (s.fwu.trial = true) ∧ (s.fwu.trialSecs + 3600 ≤ trialSeconds s)) :=
  ⟨⟨ask (bytes [(4, 1), (4, 0x04000000)]), waits specFwuOpen (ask (bytes [(4, 1), (4, 0x04000000)])) up, by decide +kernel⟩,
   ⟨ask (bytes [(8, 0), (1, 1)]),
    waits specFwuData (ask (bytes [(8, 0), (1, 1)])) ({ up with fwu := { up.fwu with session := some { st := .downloading, port := .pcie, slot := 0, tag := 1, kind := 0, total := 100000, received := [] } } }),
    _, by decide +kernel, (Option.some_get (by decide +kernel)).symm⟩,
   fun hv => ⟨ask [], waits specFwuVerify (ask []) packageUp, packageSession, by decide +kernel, rfl, by decide +kernel,
    packageFault_none _ _ keyUv hv (by decide +kernel) package_crc.symm manifest_ok (by decide +kernel)⟩,
   ⟨ask (zeros 4),
    waits specFwuActivate (ask (zeros 4)) ({ up with fwu := { up.fwu with session := some { st := .verified, port := .pcie, slot := 0, tag := 1, kind := 0, total := 100000, received := [] }, slotB := { manifest := some manifest } } }),
    by decide +kernel⟩,
   ⟨ask [], waits specFwuConfirm (ask []) ({ up with fwu := { up.fwu with trial := true } }), by decide +kernel⟩,
   ⟨ask [],
    waits specFwuClose (ask []) ({ up with fwu := { up.fwu with session := some { st := .downloading, port := .pcie, slot := 0, tag := 1, kind := 0, total := 100000, received := [] } } }),
    by decide +kernel⟩,
   ⟨{ up with fwu := { up.fwu with activate := some { req := none, inPlace := true }, slotB := { manifest := some manifest } } },
    { req := none, inPlace := true }, manifest, rfl, rfl, by decide +kernel, by decide +kernel, by decide +kernel,
    by decide +kernel⟩,
   ⟨{ up with fwu := { up.fwu with activate := some { req := none, inPlace := false }, slotB := { manifest := some manifest } } },
    { req := none, inPlace := false }, manifest, rfl, rfl, by decide +kernel, by decide +kernel, by decide +kernel,
    by decide +kernel, by decide +kernel⟩,
   ⟨{ up with fwu := { up.fwu with build := some { blocks := 1, total := 2, active := false, from' := 0, req := none } } },
    { blocks := 1, total := 2, active := false, from' := 0, req := none }, rfl, by decide +kernel, by decide +kernel⟩,
   ⟨{ up with fwu := { up.fwu with trial := true, trialCount := 86400, slotB := { manifest := some manifest } } }, manifest,
    by decide +kernel, by decide +kernel, by decide +kernel, by decide +kernel, by decide +kernel, rfl, by decide +kernel⟩,
   ⟨{ up with fwu := { up.fwu with trial := true, trialCount := 3600 } }, by decide +kernel, by decide +kernel,
    by decide +kernel⟩⟩

/-- The hypotheses of Obligations.TestCommandsComplete can be met. -/
theorem witness_TestCommandsComplete :
    ((∀ k m x y, Config.ecdsaVerify k m x y = true) → ∃ (r : Req) (s : State), (accepted specTestEnter r s = true)) ∧
    (∃ (r : Req) (s : State), (accepted specTestExit r s = true)) ∧
    (∃ (r : Req) (s : State), (accepted specLoopback r s = true)) ∧
    (∃ (x : LoopResult) (s : State) (l : LoopRun), (s.test.loop = some l) ∧ (loopOver s l x = true) ∧ (loopResult x = 0)) ∧
    (∃ (x : LoopResult) (s : State) (l : LoopRun), (s.test.loop = some l) ∧ (loopOver s l x = true) ∧ (loopResult x ≠ 0)) ∧
    (∃ (r : Req) (o : BistObs) (s : State), (accepted (specBistRun o) r s = true)) ∧
    (∃ (r : Req) (s : State), (accepted specBistStatus r s = true)) :=
  ⟨fun hv => ⟨signed (bytes [(4, 1)]),
    waits specTestEnter (signed (bytes [(4, 1)])) ({ up with pair := { up.pair with role := .solo } }),
    accepted_signed _ _ _ key0 hv rfl (by decide +kernel) (by decide +kernel)⟩,
   ⟨ask [], waits specTestExit (ask []) ({ up with test := { up.test with test := true } }), by decide +kernel⟩,
   ⟨ask (bytes [(1, 0), (1, 0), (2, 1), (4, 65536)]), waits specLoopback (ask (bytes [(1, 0), (1, 0), (2, 1), (4, 65536)])) up,
    by decide +kernel⟩,
   ⟨{ sent := 1, received := 1, errors := 0, maxLatency := 5, noReturn := false },
    { up with test := { up.test with loop := some loop0 } }, loop0, rfl, by decide +kernel, by decide +kernel⟩,
   ⟨{ sent := 1, received := 0, errors := 1, maxLatency := 5, noReturn := false },
    { up with test := { up.test with loop := some loop0 } }, loop0, rfl, by decide +kernel, by decide +kernel⟩,
   ⟨ask (bytes [(4, 0)]), { failed := 0, bricks := [], ms := 0 }, up, by decide +kernel⟩,
   ⟨ask [], waits specBistStatus (ask []) up, by decide +kernel⟩⟩

/-- The hypotheses of Obligations.TransportEventsComplete can be met. -/
theorem witness_TransportEventsComplete :
    (∃ (s : State), (writePasses .pcie 0x030 s)) ∧
    (∃ (s : State), (sbAlive s = true)) ∧
    (∃ (s : State), (sbAlive s = true)) ∧
    (∃ (s : State), (sbAlive s = true)) ∧
    (∃ (s : State), (sbAlive s = true)) ∧
    (∃ (s : State), (s.power.vstby = true) ∧ (inService s idMG = true) ∧ (s.sb.st = .receiving) ∧
      (100000000 ≤ since s s.sb.fragAt)) ∧
    (∃ (s : State), (sbAlive s = true) ∧ (s.evt.alert = true)) ∧
    (∃ (s : State), (portAlive s .pcie = true)) ∧
    (∃ (k : LinkDownKind) (s : State), (portAlive s .pcie = true) ∧ (k ≠ .functionReset)) ∧
    (∃ (s : State), (s.power.mainUp = true) ∧ (inService s idPX = true) ∧ (s.host.linkUp = false)) ∧
    (∃ (s : State), (portAlive s .pcie = true) ∧ (inService s idPX = true)) :=
  ⟨⟨up, ⟨by decide +kernel, by decide +kernel⟩⟩,
   ⟨up, by decide +kernel⟩,
   ⟨up, by decide +kernel⟩,
   ⟨up, by decide +kernel⟩,
   ⟨up, by decide +kernel⟩,
   ⟨{ up with sb := { up.sb with st := .receiving } }, by decide +kernel, by decide +kernel, by decide +kernel,
    by decide +kernel⟩,
   ⟨{ up with evt := { up.evt with alert := true } }, by decide +kernel, by decide +kernel⟩,
   ⟨up, by decide +kernel⟩,
   ⟨.perst, up, by decide +kernel, by decide +kernel⟩,
   ⟨{ up with host := {} }, by decide +kernel, by decide +kernel, by decide +kernel⟩,
   ⟨up, by decide +kernel, by decide +kernel⟩⟩

/-- The hypotheses of Obligations.RegisterReadsComplete can be met. -/
theorem witness_RegisterReadsComplete :
    (∃ (p : Port) (s : State), (portAlive s p = true)) ∧
    (∃ (p : Port) (s : State), (portAlive s p = true)) ∧
    (∃ (p : Port) (s : State), (portAlive s p = true)) ∧
    (∃ (p : Port) (s : State), (portAlive s p = true)) ∧
    (∃ (p : Port) (s : State), (portAlive s p = true)) ∧
    (∃ (p : Port) (s : State), (portAlive s p = true)) ∧
    (∃ (p : Port) (s : State), (portAlive s p = false)) :=
  ⟨⟨.pcie, up, by decide +kernel⟩,
   ⟨.pcie, up, by decide +kernel⟩,
   ⟨.pcie, up, by decide +kernel⟩,
   ⟨.pcie, up, by decide +kernel⟩,
   ⟨.pcie, up, by decide +kernel⟩,
   ⟨.pcie, up, by decide +kernel⟩,
   ⟨.pcie, State.reset, by decide +kernel⟩⟩

/-- The hypotheses of Obligations.RegisterWritesComplete can be met. -/
theorem witness_RegisterWritesComplete :
    (∃ (p : Port) (s : State), (portAlive s p = true)) ∧
    (∃ (b : W16) (s : State) (x : Posted) (rest : List Posted), (takePosted b.toNat s.regs.posted = some (x, rest)) ∧
      (x.ran = false ∨ 200 ≤ since s x.setAt) ∧ (inService s (((blockAt b.toNat).map (·.brick)).getD 0) = true)) ∧
    (∃ (p : Port) (s : State), (writePasses p 0x014 s)) ∧
    (∃ (p : Port) (o : W16) (v : W32) (s : State) (i : RegInfo), (regInfo o.toNat = some i) ∧ (i.acc = .rwl) ∧
      (writePasses p o.toNat s) ∧ ((cfgGet s o.toNat ||| (v &&& i.mask)) = cfgGet s o.toNat)) ∧
    (∃ (p : Port) (o : W16) (v : W32) (s : State) (i : RegInfo), (regInfo o.toNat = some i) ∧ (i.acc = .rwl) ∧
      (writePasses p o.toNat s) ∧ ((cfgGet s o.toNat ||| (v &&& i.mask)) ≠ cfgGet s o.toNat)) ∧
    (∃ (p : Port) (n : Fin 8) (s : State), (writePasses p (0x120 + 4 * n.val) s)) ∧
    (∃ (p : Port) (hi : Bool) (s : State), (writePasses p (0x034 + 4 * b2n hi) s)) ∧
    (∃ (p : Port) (n : Fin 256) (s : State), (writePasses p (0x400 + 4 * n.val) s)) ∧
    (∃ (p : Port) (s : State), (writePasses p 0xA04 s)) :=
  ⟨⟨.pcie, up, by decide +kernel⟩,
   ⟨0x900, { up with regs := { up.regs with posted := [{ base := 0x900, port := .pcie, dws := [(0x904, 20000)] }] } },
    { base := 0x900, port := .pcie, dws := [(0x904, 20000)] }, [], rfl, by decide +kernel, by decide +kernel⟩,
   ⟨.pcie, up, ⟨by decide +kernel, by decide +kernel⟩⟩,
   ⟨.pcie, 0xF08, 0, up, _, (Option.some_get (by decide +kernel)).symm, by decide +kernel, ⟨by decide +kernel,
    by decide +kernel⟩, by decide +kernel⟩,
   ⟨.pcie, 0xF08, 1, up, _, (Option.some_get (by decide +kernel)).symm, by decide +kernel, ⟨by decide +kernel,
    by decide +kernel⟩, by decide +kernel⟩,
   ⟨.pcie, 7, up, ⟨by decide +kernel, by decide +kernel⟩⟩,
   ⟨.pcie, true, up, ⟨by decide +kernel, by decide +kernel⟩⟩,
   ⟨.pcie, 255, up, ⟨by decide +kernel, by decide +kernel⟩⟩,
   ⟨.pcie, up, ⟨by decide +kernel, by decide +kernel⟩⟩⟩

/-- The hypotheses of Obligations.EngineEventsComplete can be met. -/
theorem witness_EngineEventsComplete :
    (∃ (e : EngineId) (s : State), ((engine s e.val).idle = true)) ∧
    (∃ (e : EngineId) (v : Fin 16) (c : Fin 5) (s : State) (q : Search), ((engine s e.val).search = some q) ∧ (q.cls = c.val) ∧
      (Nat.xor (e.val / 4) q.dist = v.val) ∧ ((engine s e.val).grant = none) ∧ (engineUp s e.val = true) ∧
      (inService s v.val = false)) ∧
    (∃ (e : EngineId) (v : Fin 16) (c : Fin 5) (s : State) (q : Search), ((engine s e.val).search = some q) ∧ (q.cls = c.val) ∧
      (Nat.xor (e.val / 4) q.dist = v.val) ∧ ((engine s e.val).grant = none) ∧ (engineUp s e.val = true) ∧
      (inService s v.val = true) ∧ (atPoint (brick (wakeBrick v.val s) v.val) = false)) ∧
    (∃ (e : EngineId) (v : Fin 16) (c : Fin 5) (s : State) (q : Search) (x : Entry), ((engine s e.val).search = some q) ∧
      (q.cls = c.val) ∧ (Nat.xor (e.val / 4) q.dist = v.val) ∧ ((engine s e.val).grant = none) ∧ (engineUp s e.val = true) ∧
      (inService s v.val = true) ∧ (atPoint (brick (wakeBrick v.val s) v.val) = true) ∧
      (topEntry (engine (wakeBrick v.val s) (fullestEngine (wakeBrick v.val s) v.val q.cls)) q.cls (e.val / 4) (q.barred.contains q.cls) = some x)) ∧
    (∃ (e : EngineId) (v : Fin 16) (c : Fin 5) (s : State) (q : Search), ((engine s e.val).search = some q) ∧ (q.cls = c.val) ∧
      (Nat.xor (e.val / 4) q.dist = v.val) ∧ ((engine s e.val).grant = none) ∧ (engineUp s e.val = true) ∧
      (inService s v.val = true) ∧ (atPoint (brick (wakeBrick v.val s) v.val) = true) ∧
      (topEntry (engine (wakeBrick v.val s) (fullestEngine (wakeBrick v.val s) v.val q.cls)) q.cls (e.val / 4) (q.barred.contains q.cls) = none)) ∧
    (∃ (e : EngineId) (s : State) (q : Search) (x : Entry), ((engine s e.val).search = some q) ∧ (engineUp s e.val = true) ∧
      ((engine s e.val).grant = some (some x))) ∧
    (∃ (e : EngineId) (s : State) (q : Search), ((engine s e.val).search = some q) ∧ (engineUp s e.val = true) ∧
      ((engine s e.val).grant = some none) ∧ (q.dist < 15)) ∧
    (∃ (e : EngineId) (s : State) (q : Search), ((engine s e.val).search = some q) ∧ (engineUp s e.val = true) ∧
      ((engine s e.val).grant = some none) ∧ (15 ≤ q.dist)) ∧
    (∃ (e : EngineId) (o : RunObs) (s : State) (x : Entry) (u : UnitOut), ((engine s e.val).running = some x) ∧
      (engineUp s e.val = true) ∧ ((engine s e.val).stopping = false) ∧ (runEntry s x o.upset = some u) ∧ (x.cls ≠ 4) ∧
      (x.role = 0)) ∧
    (∃ (e : EngineId) (o : RunObs) (s : State) (x : Entry) (u : UnitOut), ((engine s e.val).running = some x) ∧
      (engineUp s e.val = true) ∧ ((engine s e.val).stopping = false) ∧ (runEntry s x o.upset = some u) ∧ (x.cls ≠ 4) ∧
      (x.role ≠ 0)) ∧
    (∃ (e : EngineId) (o : RunObs) (s : State) (x : Entry) (u : UnitOut), ((engine s e.val).running = some x) ∧
      (engineUp s e.val = true) ∧ ((engine s e.val).stopping = false) ∧ (runEntry s x o.upset = some u) ∧ (x.cls = 4)) ∧
    (∃ (e : EngineId) (s : State) (x : Entry) (g : Staged) (r : List (Entry × Staged)), ((engine s e.val).hashOut = (x, g) :: r)) ∧
    (∃ (c : PClass) (u : Nat) (s : State) (v : Vote) (g : Staged),
      ((s.work.votes.find? fun v => v.cls = c.val && v.unit = u && v.release.isSome && !v.discard) = some v) ∧
      (v.release = some g)) ∧
    (∃ (e : EngineId) (s : State) (x : Entry), ((engine s e.val).running = some x) ∧ (engineUp s e.val = true) ∧
      ((engine s e.val).startClk + 20 * ((entryUnit s x).map (·.worstClocks)).getD 0 ≤ brickClocks s (e.val / 4))) ∧
    (∃ (e : EngineId) (s : State), (engineUp s e.val = true)) :=
  ⟨⟨63, up, by decide +kernel⟩,
   ⟨0, 1, 4, { up with engines := [(0, { search := some (search4 1) })], bricks := [(1, { st := .cinder })] }, search4 1, rfl,
    by decide +kernel, by decide +kernel, by decide +kernel, by decide +kernel, by decide +kernel⟩,
   ⟨0, 1, 4, { up with engines := [(0, { search := some (search4 1) })], bricks := [(1, { st := .transition })] }, search4 1,
    rfl, by decide +kernel, by decide +kernel, by decide +kernel, by decide +kernel, by decide +kernel, by decide +kernel⟩,
   ⟨0, 1, 4, { up with engines := [(0, { search := some (search4 1) }), (4, { deque := [entry4] })] }, search4 1, entry4, rfl,
    by decide +kernel, by decide +kernel, by decide +kernel, by decide +kernel, by decide +kernel, by decide +kernel, rfl⟩,
   ⟨0, 1, 4, { up with engines := [(0, { search := some (search4 1) })] }, search4 1, rfl, by decide +kernel,
    by decide +kernel, by decide +kernel, by decide +kernel, by decide +kernel, by decide +kernel, by decide +kernel⟩,
   ⟨0, { up with engines := [(0, { search := some (search4 1), grant := some (some entry4) })] }, search4 1, entry4, rfl,
    by decide +kernel, rfl⟩,
   ⟨0, { up with engines := [(0, { search := some (search4 14), grant := some none })] }, search4 14, rfl, by decide +kernel,
    rfl, by decide +kernel⟩,
   ⟨0, { up with engines := [(0, { search := some (search4 15), grant := some none })] }, search4 15, rfl, by decide +kernel,
    rfl, by decide +kernel⟩,
   ⟨0, obs0, runUp (entry1 0), entry1 0, _, rfl, by decide +kernel, by decide +kernel,
    (Option.some_get (by decide +kernel)).symm, by decide +kernel, by decide +kernel⟩,
   ⟨0, obs0, runUp (entry1 1), entry1 1, _, rfl, by decide +kernel, by decide +kernel,
    (Option.some_get (by decide +kernel)).symm, by decide +kernel, by decide +kernel⟩,
   ⟨0, obs0, backUp, entry4, _, rfl, by decide +kernel, by decide +kernel, (Option.some_get (by decide +kernel)).symm,
    by decide +kernel⟩,
   ⟨0, { up with engines := [(0, { hashOut := [(entry4, staged0)] })] }, entry4, staged0, [], rfl⟩,
   ⟨3, 9, { up with work := { up.work with votes := [{ cls := 3, unit := 9, stamp := 0, release := some staged0 }] } },
    { cls := 3, unit := 9, stamp := 0, release := some staged0 }, staged0, rfl, rfl⟩,
   ⟨0, { up with engines := [(0, { running := some entry4 })] }, entry4, rfl, by decide +kernel, by decide +kernel⟩,
   ⟨63, up, by decide +kernel⟩⟩

/-- The hypotheses of Obligations.CycleEventsComplete can be met. -/
theorem witness_CycleEventsComplete :
    (∃ (c : PClass) (s : State), (s.power.ready = true) ∧ (inService s idSV = true) ∧
      (devNs s - (devNs (adoptCfgs (devNs s) (upto (c.val + 1)) s) / (Nat.max (cls (adoptCfgs (devNs s) (upto (c.val + 1)) s) c.val).periodUs 1 * 1000) * (Nat.max (cls (adoptCfgs (devNs s) (upto (c.val + 1)) s) c.val).periodUs 1 * 1000)) ≤ 2000)) ∧
    (∃ (c : PClass) (s : State), (s.power.ready = true) ∧ (inService s idSV = true) ∧
      (2000 < devNs s - (devNs (adoptCfgs (devNs s) (upto (c.val + 1)) s) / (Nat.max (cls (adoptCfgs (devNs s) (upto (c.val + 1)) s) c.val).periodUs 1 * 1000) * (Nat.max (cls (adoptCfgs (devNs s) (upto (c.val + 1)) s) c.val).periodUs 1 * 1000))) ∧
      (later 64 (cls (adoptCfgs (devNs s) (upto (c.val + 1)) s) c.val).lastStart (devNs (adoptCfgs (devNs s) (upto (c.val + 1)) s) / (Nat.max (cls (adoptCfgs (devNs s) (upto (c.val + 1)) s) c.val).periodUs 1 * 1000) * (Nat.max (cls (adoptCfgs (devNs s) (upto (c.val + 1)) s) c.val).periodUs 1 * 1000)) = false) ∧
      ((cls (adoptCfgs (devNs s) (upto (c.val + 1)) s) c.val).zero = false)) ∧
    (∃ (c : PClass) (s : State), (s.power.ready = true) ∧ (inService s idSV = true) ∧
      (2000 < devNs s - (devNs (adoptCfgs (devNs s) (upto (c.val + 1)) s) / (Nat.max (cls (adoptCfgs (devNs s) (upto (c.val + 1)) s) c.val).periodUs 1 * 1000) * (Nat.max (cls (adoptCfgs (devNs s) (upto (c.val + 1)) s) c.val).periodUs 1 * 1000))) ∧
      (later 64 (cls (adoptCfgs (devNs s) (upto (c.val + 1)) s) c.val).lastStart (devNs (adoptCfgs (devNs s) (upto (c.val + 1)) s) / (Nat.max (cls (adoptCfgs (devNs s) (upto (c.val + 1)) s) c.val).periodUs 1 * 1000) * (Nat.max (cls (adoptCfgs (devNs s) (upto (c.val + 1)) s) c.val).periodUs 1 * 1000)) = true ∨ (cls (adoptCfgs (devNs s) (upto (c.val + 1)) s) c.val).zero = true)) ∧
    (∃ (s : State), (s.power.ready = true) ∧ (inService s idSV = true) ∧
      (devNs s - (lastStartOf (adoptClassCfg 0 (devNs s) s) 0) ≤ 2000) ∧
      (lastStartOf (startHelds [0, 1, 2, 3] (beforeMarks (lastStartOf (adoptClassCfg 0 (devNs s) s) 0) (adoptClassCfg 0 (devNs s) s))) 0 = (lastStartOf (adoptClassCfg 0 (devNs s) s) 0)) ∧
      (later 64 (cls (startHelds [0, 1, 2, 3] (beforeMarks (lastStartOf (adoptClassCfg 0 (devNs s) s) 0) (adoptClassCfg 0 (devNs s) s))) 0).lastStart (lastStartOf (adoptClassCfg 0 (devNs s) s) 0) = true ∨ (cls (startHelds [0, 1, 2, 3] (beforeMarks (lastStartOf (adoptClassCfg 0 (devNs s) s) 0) (adoptClassCfg 0 (devNs s) s))) 0).zero = true)) ∧
    (∃ (c : PClass) (b : BrickId) (s : State) (y : Cycle), ((cls s c.val).cycle = some y) ∧ (y.phase = .marking) ∧
      (y.awaiting.contains b.val = true) ∧ (inService s b.val = true) ∧ (since s y.markAt ≤ 20000) ∧ (y.awaiting = [b.val])) ∧
    (∃ (c : PClass) (b : BrickId) (s : State) (y : Cycle), ((cls s c.val).cycle = some y) ∧ (y.phase = .marking) ∧
      (y.awaiting.contains b.val = true) ∧ (inService s b.val = true) ∧ (since s y.markAt ≤ 20000) ∧ (y.awaiting ≠ [b.val])) ∧
    (∃ (c : PClass) (s : State) (y : Cycle), ((cls s c.val).cycle = some y) ∧ (y.phase = .marking) ∧ (y.awaiting ≠ []) ∧
      (20000 ≤ since s y.markAt)) ∧
    (∃ (c : PClass) (s : State) (y : Cycle), ((cls s c.val).cycle = some y) ∧
      (reached s (cycleDeadline y.stamp (cls s c.val).periodUs + 1) = true)) ∧
    (∃ (c : PClass) (s : State) (y : Cycle), ((cls s c.val).cycle = some y) ∧
      (reached s (y.stamp + 2 * (cls s c.val).periodUs * 1000) = true) ∧
      ((cls (if (cls (canCancelClass c.val (stopClass c.val (raise 0x27 [(c.val : Int), (y.count.toNat : Int)] (setCls c.val (fun k => { k with abandons := sat32 (k.abandons + 1), abandonRow := k.abandonRow + 1 }) s)))) c.val).restartSkip = some y.stamp then setCls c.val (fun k => { k with restartSkip := none }) (canCancelClass c.val (stopClass c.val (raise 0x27 [(c.val : Int), (y.count.toNat : Int)] (setCls c.val (fun k => { k with abandons := sat32 (k.abandons + 1), abandonRow := k.abandonRow + 1 }) s)))) else endRestart c.val stTimeout (canCancelClass c.val (stopClass c.val (raise 0x27 [(c.val : Int), (y.count.toNat : Int)] (setCls c.val (fun k => { k with abandons := sat32 (k.abandons + 1), abandonRow := k.abandonRow + 1 }) s))))) c.val).abandonRow < 3)) ∧
    (∃ (c : PClass) (s : State) (y : Cycle), ((cls s c.val).cycle = some y) ∧
      (reached s (y.stamp + 2 * (cls s c.val).periodUs * 1000) = true) ∧
      (3 ≤ (cls (if (cls (canCancelClass c.val (stopClass c.val (raise 0x27 [(c.val : Int), (y.count.toNat : Int)] (setCls c.val (fun k => { k with abandons := sat32 (k.abandons + 1), abandonRow := k.abandonRow + 1 }) s)))) c.val).restartSkip = some y.stamp then setCls c.val (fun k => { k with restartSkip := none }) (canCancelClass c.val (stopClass c.val (raise 0x27 [(c.val : Int), (y.count.toNat : Int)] (setCls c.val (fun k => { k with abandons := sat32 (k.abandons + 1), abandonRow := k.abandonRow + 1 }) s)))) else endRestart c.val stTimeout (canCancelClass c.val (stopClass c.val (raise 0x27 [(c.val : Int), (y.count.toNat : Int)] (setCls c.val (fun k => { k with abandons := sat32 (k.abandons + 1), abandonRow := k.abandonRow + 1 }) s))))) c.val).abandonRow)) ∧
    (∃ (s : State) (n : Nat) (h : RetHalf), (s.power.mainUp = true) ∧ (s.stores.writing = some (n, h)) ∧
      (s.power.shutdown = none)) ∧
    (∃ (s : State) (n : Nat) (h : RetHalf) (r : Req), (s.power.mainUp = true) ∧ (s.stores.writing = some (n, h)) ∧
      (s.power.shutdown = some r) ∧ (h.final = true)) ∧
    (∃ (s : State) (n : Nat) (h : RetHalf) (r : Req), (s.power.mainUp = true) ∧ (s.stores.writing = some (n, h)) ∧
      (s.power.shutdown = some r) ∧ (h.final = false)) :=
  ⟨⟨1, up, by decide +kernel, by decide +kernel, by decide +kernel⟩,
   ⟨1,
    { up with time := { up.time with dev := clockOfNs 100005003000 }, classes := [(1, { zero := false, lastStart := 200000000000 })] },
    by decide +kernel, by decide +kernel, by decide +kernel, by decide +kernel, by decide +kernel⟩,
   ⟨1, { up with time := { up.time with dev := clockOfNs 100005003000 } }, rfl, by decide +kernel, by decide +kernel,
    by decide +kernel⟩,
   ⟨up, by decide +kernel, by decide +kernel, by decide +kernel, by decide +kernel, by decide +kernel⟩,
   ⟨1, 0x1A, { up with classes := [(1, { cycle := some { stamp := 0, markAt := 99999980000, awaiting := [0x1A] } })] },
    { stamp := 0, markAt := 99999980000, awaiting := [0x1A] }, rfl, by decide +kernel, by decide +kernel, by decide +kernel,
    by decide +kernel, by decide +kernel⟩,
   ⟨1, 0x1A, { up with classes := [(1, { cycle := some { stamp := 0, markAt := 99999980000, awaiting := [0x1A, 0x1B] } })] },
    { stamp := 0, markAt := 99999980000, awaiting := [0x1A, 0x1B] }, rfl, by decide +kernel, by decide +kernel,
    by decide +kernel, by decide +kernel, by decide +kernel⟩,
   ⟨1, { up with classes := [(1, { cycle := some { stamp := 0, awaiting := [0x1A] } })] }, { stamp := 0, awaiting := [0x1A] },
    rfl, by decide +kernel, by decide +kernel, by decide +kernel⟩,
   ⟨1, { up with classes := [(1, { cycle := some { stamp := 0 } })] }, { stamp := 0 }, rfl, by decide +kernel⟩,
   ⟨1, { up with classes := [(1, { cycle := some { stamp := 0 }, abandonRow := 1 })] }, { stamp := 0 }, rfl, by decide +kernel,
    by decide +kernel⟩,
   ⟨1, { up with classes := [(1, { cycle := some { stamp := 0 }, abandonRow := 2 })] }, { stamp := 0 }, rfl, by decide +kernel,
    by decide +kernel⟩,
   ⟨{ up with stores := { up.stores with writing := some (1, { final := false, gen := 1, imageCrc := 0, stamp := 0, entries := [], forces := [], trips := 0, loops := [], solution := none }) }, power := { up.power with shutdown := none } },
    1,
    { final := false, gen := 1, imageCrc := 0, stamp := 0, entries := [], forces := [], trips := 0, loops := [], solution := none },
    by decide +kernel, rfl, by decide +kernel⟩,
   ⟨{ up with stores := { up.stores with writing := some (1, { final := true, gen := 1, imageCrc := 0, stamp := 0, entries := [], forces := [], trips := 0, loops := [], solution := none }) }, power := { up.power with shutdown := some (ask []) } },
    1,
    { final := true, gen := 1, imageCrc := 0, stamp := 0, entries := [], forces := [], trips := 0, loops := [], solution := none },
    ask [], by decide +kernel, rfl, rfl, by decide +kernel⟩,
   ⟨{ up with stores := { up.stores with writing := some (1, { final := false, gen := 1, imageCrc := 0, stamp := 0, entries := [], forces := [], trips := 0, loops := [], solution := none }) }, power := { up.power with shutdown := some (ask []) } },
    1,
    { final := false, gen := 1, imageCrc := 0, stamp := 0, entries := [], forces := [], trips := 0, loops := [], solution := none },
    ask [], by decide +kernel, rfl, rfl, by decide +kernel⟩⟩

/-- The hypotheses of Obligations.BrickEventsComplete can be met. -/
theorem witness_BrickEventsComplete :
    (∃ (b : BrickId) (s : State), (s.power.booted = true) ∧ (atPoint (brick s b.val) = true) ∧ (brickQuiet s b.val = true) ∧
      (bankDelay s b.val ≤ since s (brick s b.val).quietFrom)) ∧
    (∃ (s : State), (s.power.released = true)) ∧
    (∃ (v : SwitchTiming) (s : State), ((brick s v.brick.val).st = .transition)) :=
  ⟨⟨15, up, by decide +kernel, by decide +kernel, by decide +kernel, by decide +kernel⟩,
   ⟨up, by decide +kernel⟩,
   ⟨{ brick := 15, switched := 5000, stall := 1000, answered := true }, { up with bricks := [(15, { st := .transition })] },
    by decide +kernel⟩⟩

/-- The hypotheses of Obligations.PowerAndResetEventsComplete can be met. -/
theorem witness_PowerAndResetEventsComplete :
    (∃ (s : State), (railsMayStart s = true) ∧ (s.power.railFails = 0)) ∧
    (∃ (s : State), (railsMayStart s = true) ∧ (s.power.railFails ≠ 0) ∧ (1000000000 ≤ since s s.power.railAt)) ∧
    (∃ (k : Fin 8) (s : State), (s.power.vstby = true) ∧ (k.val ≠ 0) ∧ (s.power.mainUp = true ∨ railsMayStart s = true)) ∧
    (∃ (s : State), (s.power.vstby = true) ∧ (s.power.mainUp = true)) ∧
    (∃ (x : BootObs) (s : State) (t : State), (s.power.mainUp = true) ∧ (s.power.released = true) ∧ (s.power.rstLow = false) ∧
      (s.power.booted = false) ∧ (loadSlot x s = some t)) ∧
    (∃ (x : BootObs) (s : State), (s.power.mainUp = true) ∧ (s.power.released = true) ∧ (s.power.rstLow = false) ∧
      (s.power.booted = false) ∧ (loadSlot x s = none)) ∧
    (∃ (s : State), (s.power.vstby = true) ∧ (s.power.mainUp = true) ∧ (s.power.released = true) ∧ (beatLate s = true) ∧
      ((s.refNs :: s.power.wdAt.filter fun t => decide (since s t < 600000000000)).length < 5)) ∧
    (∃ (s : State), (s.power.vstby = true) ∧ (s.power.mainUp = true) ∧ (s.power.released = true) ∧ (beatLate s = true) ∧
      (5 ≤ (s.refNs :: s.power.wdAt.filter fun t => decide (since s t < 600000000000)).length)) ∧
    (∃ (ns : Nat) (s : State), (s.power.vstby = true) ∧ (s.power.rstLow = false) ∧ (resetTaken ns = true) ∧
      (s.power.mainUp = true)) ∧
    (∃ (ns : Nat) (s : State), (s.power.vstby = true) ∧ (s.power.rstLow = false) ∧ (resetTaken ns = true) ∧
      (s.power.mainUp = false)) ∧
    (∃ (s : State), (s.power.vstby = true) ∧ (s.power.rstLow = true) ∧ (s.power.mainUp = true)) ∧
    (∃ (s : State), (s.power.vstby = true) ∧ (s.power.rstLow = true) ∧ (s.power.mainUp = false)) ∧
    (∃ (s : State) (t : Nat), (s.power.resetDue = some t) ∧ (t ≤ s.refNs)) ∧
    (∃ (s : State), (s.power.vstby = true) ∧ (s.power.pfw = true) ∧
      ((raise 0xC4 [] { s with power := { s.power with pfw := false } }).power.mainUp = false)) ∧
    (∃ (s : State), (s.power.vstby = true) ∧ (s.power.pfw = true) ∧
      ((raise 0xC4 [] { s with power := { s.power with pfw := false } }).power.mainUp = true) ∧
      ((raise 0xC4 [] { s with power := { s.power with pfw := false } }).power.ready = false)) ∧
    (∃ (s : State), (s.power.vstby = true) ∧ (s.power.pfw = true) ∧
      ((raise 0xC4 [] { s with power := { s.power with pfw := false } }).power.mainUp = true) ∧
      ((raise 0xC4 [] { s with power := { s.power with pfw := false } }).power.ready = true)) ∧
    (∃ (s : State), (s.power.vstby = true) ∧ (s.power.pfw = false) ∧ (s.power.mainUp = true)) ∧
    (∃ (s : State), (s.power.vstby = true) ∧ (s.power.pfw = false) ∧ (s.power.mainUp = false)) :=
  ⟨⟨State.reset, by decide +kernel, by decide +kernel⟩,
   ⟨{ State.reset with refNs := 1000000000, power := { State.reset.power with railFails := 3 } }, by decide +kernel,
    by decide +kernel, by decide +kernel⟩,
   ⟨7, up, by decide +kernel, by decide +kernel, by decide +kernel⟩,
   ⟨up, by decide +kernel, by decide +kernel⟩,
   ⟨boot true, { up with power := { up.power with booted := false } }, { up with power := { up.power with booted := false } },
    by decide +kernel, by decide +kernel, by decide +kernel, by decide +kernel, rfl⟩,
   ⟨boot false, { up with power := { up.power with booted := false } }, by decide +kernel, by decide +kernel,
    by decide +kernel, by decide +kernel, by decide +kernel⟩,
   ⟨{ up with power := { up.power with wdAt := [1, 2, 3] } }, by decide +kernel, by decide +kernel, by decide +kernel,
    by decide +kernel, by decide +kernel⟩,
   ⟨{ up with power := { up.power with wdAt := [1, 2, 3, 4] } }, by decide +kernel, by decide +kernel, by decide +kernel,
    by decide +kernel, by decide +kernel⟩,
   ⟨10000, up, by decide +kernel, by decide +kernel, by decide +kernel, by decide +kernel⟩,
   ⟨10000, State.reset, by decide +kernel, by decide +kernel, by decide +kernel, by decide +kernel⟩,
   ⟨{ up with power := { up.power with rstLow := true } }, by decide +kernel, by decide +kernel, by decide +kernel⟩,
   ⟨{ State.reset with power := { State.reset.power with rstLow := true } }, by decide +kernel, by decide +kernel,
    by decide +kernel⟩,
   ⟨{ up with power := { up.power with resetDue := some 100000000000 } }, 100000000000, rfl, by decide +kernel⟩,
   ⟨State.reset, by decide +kernel, by decide +kernel, by decide +kernel⟩,
   ⟨{ up with power := { up.power with ready := false } }, by decide +kernel, by decide +kernel, by decide +kernel,
    by decide +kernel⟩,
   ⟨up, by decide +kernel, by decide +kernel, by decide +kernel, by decide +kernel⟩,
   ⟨{ up with power := { up.power with pfw := false } }, by decide +kernel, by decide +kernel, by decide +kernel⟩,
   ⟨{ State.reset with power := { State.reset.power with pfw := false } }, by decide +kernel, by decide +kernel,
    by decide +kernel⟩⟩

/-- The hypotheses of Obligations.StepRunsFrontCommand can be met. -/
theorem witness_StepRunsFrontCommand :
    (∃ (c : Instr) (rest : List Instr) (s : State), (s.pending = c :: rest)) :=
  ⟨.sbStatus, [.oscRestart], { up with pending := [.sbStatus, .oscRestart] }, rfl⟩

/-- The hypotheses of Obligations.EmptyQueuePassesOneNanosecond can be met. -/
theorem witness_EmptyQueuePassesOneNanosecond :
    (∃ (s : State), (s.pending = [])) :=
  ⟨up, by decide +kernel⟩

/-- The hypotheses of Obligations.SlotMemoryStaysCanonical can be met. -/
theorem witness_SlotMemoryStaysCanonical :
    (∃ (s t : State), s.host.mem ≠ [] ∧ step s = .next t ∧ Memory.wf s.host.mem) :=
  ⟨{ up with pending := [.sbStatus], host := { up.host with mem := [(4, 7), (9, 1)] } }, _, by decide +kernel, rfl,
    by decide +kernel⟩

/-- The hypotheses of Obligations.LifeCycleGoesOnlyForward can be met. -/
theorem witness_LifeCycleGoesOnlyForward :
    (∃ (s t : State), step s = .next t ∧ transitionOk s.keys.op s.keys.lc ∧ s.keys.lc = .retired) ∧
    (∃ (s t : State), step s = .next t ∧ transitionOk s.keys.op s.keys.lc ∧ t.keys.lc = .blank) ∧
    (∃ (s t : State), step s = .next t ∧ transitionOk s.keys.op s.keys.lc ∧ t.keys.lc = .factory) :=
  ⟨⟨{ up with pending := [.sbStatus], keys := { up.keys with lc := .retired } }, _, rfl, (fun _ _ _ e => by cases e), rfl⟩,
   ⟨{ up with pending := [.sbStatus], keys := { up.keys with lc := .blank } }, _, rfl, (fun _ _ _ e => by cases e), rfl⟩,
   ⟨{ up with pending := [.sbStatus], keys := { up.keys with lc := .factory } }, _, rfl, (fun _ _ _ e => by cases e), rfl⟩⟩

/-- The hypotheses of Obligations.MinimumSvnsNeverFall can be met. -/
theorem witness_MinimumSvnsNeverFall :
    (∃ (s t : State), step s = .next t) :=
  ⟨{ up with pending := [.sbStatus, .oscRestart] }, _, rfl⟩

/-- The hypotheses of Obligations.CalendarDateRoundTrip can be met. -/
theorem witness_CalendarDateRoundTrip :
    (∃ (c : CalTime), c.month = 2 ∧ c.day = 29 ∧ possible c = true) :=
  ⟨{ subsec := 32767, sec := 59, min := 59, hour := 23, day := 29, month := 2, year := 396 }, by decide +kernel,
    by decide +kernel, by decide +kernel⟩

/-- The hypotheses of Obligations.ImpossibleCalendarWriteRefusedWhole can be met. -/
theorem witness_ImpossibleCalendarWriteRefusedWhole :
    (∃ (c : CalTime), c.hour = 24) ∧
    (∃ (c : CalTime), c.month = 2 ∧ c.day = 30) ∧
    (∃ (c : CalTime), c.month = 2 ∧ c.day = 29 ∧ leapYear c.year = false) ∧
    (∃ (p : Port) (v : W32) (s : State), writePasses p 0xF20 s ∧ v.getLsbD 0 = true ∧
      possible (calOfWords ((cfgGet s 0xF18).toNat) ((cfgGet s 0xF1C).toNat)) = false) ∧
    (∃ (r : Req) (s : State), accepted specRtcSet r s = true ∧
      possible (calOfWords (getLE (bodyOf r) 0 4) (getLE (bodyOf r) 4 4)) = false) ∧
    (∃ (r : Req) (s : State), accepted specRtcAlarm r s = true ∧ getLE (bodyOf r) 1 1 ≠ 0 ∧
      possible (calOfWords (getLE (bodyOf r) 4 4) (getLE (bodyOf r) 8 4)) = false) :=
  ⟨⟨{ hour := 24 }, rfl⟩,
   ⟨{ month := 2, day := 30 }, rfl, rfl⟩,
   ⟨{ month := 2, day := 29, year := 100 }, rfl, rfl, by decide +kernel⟩,
   ⟨.pcie, 1, { up with regs := { up.regs with cfg := [(0xF1C, 0x20018)] } }, ⟨by decide +kernel, by decide +kernel⟩,
    by decide +kernel, by decide +kernel⟩,
   ⟨ask (bytes [(4, 0), (4, 0x21E00)]), waits specRtcSet (ask (bytes [(4, 0), (4, 0x21E00)])) up, by decide +kernel,
    by decide +kernel⟩,
   ⟨ask (bytes [(4, 0x101), (4, 0), (4, 0x21E00)]), waits specRtcAlarm (ask (bytes [(4, 0x101), (4, 0), (4, 0x21E00)])) up,
    by decide +kernel, by decide +kernel, by decide +kernel⟩⟩

/-- The hypotheses of Obligations.SideBandStatusBytes can be met. -/
theorem witness_SideBandStatusBytes :
    (∃ (s : State), sbAlive s = true) :=
  ⟨up, by decide +kernel⟩

/-- The hypotheses of Obligations.HeartbeatOnlyWhileAlive can be met. -/
theorem witness_HeartbeatOnlyWhileAlive :
    (∃ (s t : State), exec .heartbeatSend s = .next t ∧ t.emitted ≠ s.emitted) ∧
    (∃ (s : State), s.pair.role = .fenced) ∧
    (∃ (s : State), svAlive s = false ∧ 1000000 < since s s.pair.liveAt) :=
  ⟨⟨{ up with pair := { up.pair with linkUp := true } }, _, rfl, by decide +kernel⟩,
   ⟨{ up with pair := { up.pair with role := .fenced } }, rfl⟩,
   ⟨{ up with power := { up.power with booted := false } }, by decide +kernel, by decide +kernel⟩⟩

/-- The hypotheses of Obligations.ConditionCodes can be met. -/
theorem witness_ConditionCodes :
    (∃ (w : W32), wOpc w = 0x21 ∧ 11 ≤ wImm w) ∧
    (∃ (w : W32), wOpc w = 0x22 ∧ 11 ≤ wRd w) :=
  ⟨⟨0x21 + 11 <<< 18, by decide +kernel, by decide +kernel⟩,
   ⟨0x22 + 11 <<< 6, by decide +kernel, by decide +kernel⟩⟩

/-- The hypotheses of Obligations.SolverAbort can be met. -/
theorem witness_SolverAbort :
    (∃ (r : Req) (s : State) (j : JobRun), accepted specSolverAbort r s = true ∧
      (begun specSolverAbort r s).solver.hostJob = some j) ∧
    (∃ (r : Req) (s : State), accepted specSolverAbort r s = true ∧ (begun specSolverAbort r s).solver.hostJob = none) :=
  ⟨⟨ask [], waits specSolverAbort (ask ([])) { up with solver := { up.solver with hostJob := some job } }, job,
    by decide +kernel, rfl⟩,
   ⟨ask [], waits specSolverAbort (ask ([])) up, by decide +kernel, rfl⟩⟩

/-- The hypotheses of Obligations.EveryRequestIsJudgedByTheSameChecks can be met. -/
theorem witness_EveryRequestIsJudgedByTheSameChecks :
    (∃ (c : CmdSpec) (r : Req) (s : State), mayStart c.opcode r s = false) ∧
    (∃ (c : CmdSpec) (r : Req) (s : State) (st d : Nat), mayStart c.opcode r s = true ∧
      signFlagRefusal c.opcode r.signed = some (st, d)) ∧
    (∃ (c : CmdSpec) (r : Req) (s : State), mayStart c.opcode r s = true ∧ signFlagRefusal c.opcode r.signed = none ∧
      gated c.opcode (bodyOf r) (entered c r s) = true) ∧
    (∃ (c : CmdSpec) (r : Req) (s : State) (n : Nat), mayStart c.opcode r s = true ∧ signFlagRefusal c.opcode r.signed = none ∧
      gated c.opcode (bodyOf r) (entered c r s) = false ∧ lengthRefusal c r = some n) ∧
    (∃ (c : CmdSpec) (r : Req) (s : State) (k : Nat), mayStart c.opcode r s = true ∧ signFlagRefusal c.opcode r.signed = none ∧
      gated c.opcode (bodyOf r) (entered c r s) = false ∧ lengthRefusal c r = none ∧
      signatureRefusal c.opcode r (entered c r s) = some k) ∧
    (∃ (c : CmdSpec) (r : Req) (s : State) (st d : Nat), mayStart c.opcode r s = true ∧
      signFlagRefusal c.opcode r.signed = none ∧ gated c.opcode (bodyOf r) (entered c r s) = false ∧
      lengthRefusal c r = none ∧ signatureRefusal c.opcode r (entered c r s) = none ∧
      c.check r (bodyOf r) (afterSignature r (entered c r s)) = some (st, d)) :=
  ⟨⟨specEcho, ask [],
    { up with power := { up.power with ready := false }, host := { up.host with accepted := [⟨specDeviceInfo.opcode, ask []⟩, ⟨specEcho.opcode, ask []⟩] } },
    by decide +kernel⟩,
   ⟨specRecClear, ask [], waits specRecClear (ask ([])) up, stDenied, 1, by decide +kernel, by decide +kernel⟩,
   ⟨specEcho, ask [], waits specEcho (ask ([])) { up with power := { up.power with vstby := false } }, by decide +kernel,
    by decide +kernel, by decide +kernel⟩,
   ⟨specDeviceInfo, ask [0], waits specDeviceInfo (ask ([0])) up, 0, by decide +kernel, by decide +kernel, by decide +kernel,
    by decide +kernel⟩,
   ⟨specRecClear, signed [], waits specRecClear (signed []) { up with keys := { up.keys with serial := 1 } }, 4,
    by decide +kernel, by decide +kernel, by decide +kernel, by decide +kernel, by decide +kernel⟩,
   ⟨specClassStatus, ask (bytes [(4, 5)]), waits specClassStatus (ask (bytes [(4, 5)])) up, stBadParam, 0, by decide +kernel,
    by decide +kernel, by decide +kernel, by decide +kernel, by decide +kernel, by decide +kernel⟩⟩

/-- The hypotheses of Obligations.CompletedCommandFillsItsSlot can be met. -/
theorem witness_CompletedCommandFillsItsSlot :
    (∃ (r : Req) (data : Bytes) (n : Fin 64) (s : State), r.origin = .slot n ∧ (slotOf s n.val).st = .accepted ∧
      s.host.mirrored = [] ∧ Memory.wf s.host.mem ∧ data.length ≤ 4072) :=
  ⟨ask [], zeros 4072, 0, waits specEcho (ask ([])) up, rfl, by decide +kernel, rfl, by decide +kernel, by decide +kernel⟩

/-- The hypotheses of Obligations.EchoAnswersItsPayload can be met. -/
theorem witness_EchoAnswersItsPayload :
    (∃ (r : Req) (n : Fin 64) (rest : List Instr) (s : State), s.pending = .cmdEcho r :: rest ∧ r.origin = .slot n ∧
      accepted specEcho r { s with pending := rest } = true ∧ (slotOf s n.val).st = .accepted ∧ s.host.mirrored = [] ∧
      Memory.wf s.host.mem ∧ r.signed = false ∧ r.payload.length ≤ 4072) :=
  ⟨ask (bytes [(4, 7)]), 0, [],
    { waits specEcho (ask (bytes [(4, 7)])) up with pending := [.cmdEcho (ask (bytes [(4, 7)]))] }, rfl, rfl,
    by decide +kernel, by decide +kernel, rfl, by decide +kernel, rfl, by decide +kernel⟩

/-- The hypotheses of Obligations.SlotWriteReadBack can be met. -/
theorem witness_SlotWriteReadBack :
    (∃ (o : Nat) (s : State), portAlive s .pcie = true ∧ inService s idPX = true ∧ o < 0x40000 ∧
      (slotOf s (o / 4 * 4 / 0x1000)).st = .idle ∧ Memory.wf s.host.mem) ∧
    (∃ (o : Nat) (s : State), portAlive s .pcie = true ∧ inService s idPX = true ∧ o < 0x40000 ∧
      (slotOf s (o / 4 * 4 / 0x1000)).st = .done ∧ Memory.wf s.host.mem) :=
  ⟨⟨0x3FFFD, { up with host := { up.host with slots := [(63, { st := .idle })] } }, by decide +kernel, by decide +kernel,
    by decide +kernel, by decide +kernel, by decide +kernel⟩,
   ⟨0x3FFFD, { up with host := { up.host with slots := [(63, { st := .done })] } }, by decide +kernel, by decide +kernel,
    by decide +kernel, by decide +kernel, by decide +kernel⟩⟩

/-- The hypotheses of Obligations.BusySlotWriteDropped can be met. -/
theorem witness_BusySlotWriteDropped :
    (∃ (o : Nat) (be : BitVec 4) (s : State), portAlive s .pcie = true ∧ inService s idPX = true ∧ o < 0x40000 ∧ be ≠ 0 ∧
      (slotOf s (o / 4 * 4 / 0x1000)).st = .pending ∧ (rcGet s 0x020).toNat < 2 ^ 32 - 1) ∧
    (∃ (o : Nat) (be : BitVec 4) (s : State), portAlive s .pcie = true ∧ inService s idPX = true ∧ o < 0x40000 ∧ be ≠ 0 ∧
      (slotOf s (o / 4 * 4 / 0x1000)).st = .accepted ∧ (rcGet s 0x020).toNat < 2 ^ 32 - 1) :=
  ⟨⟨0x3FFFC, 8, { up with host := { up.host with slots := [(63, { st := .pending })] } }, by decide +kernel, by decide +kernel,
    by decide +kernel, by decide +kernel, by decide +kernel, by decide +kernel⟩,
   ⟨0x3FFFC, 8, { up with host := { up.host with slots := [(63, { st := .accepted })] } }, by decide +kernel,
    by decide +kernel, by decide +kernel, by decide +kernel, by decide +kernel, by decide +kernel⟩⟩

/-- The hypotheses of Obligations.RefusedDoorbellChangesNothing can be met. -/
theorem witness_RefusedDoorbellChangesNothing :
    (∃ (s : State), writePasses .pcie 0x030 s ∧ s.power.ready = false) ∧
    (∃ (v : W32) (s : State), writePasses .pcie 0x030 s ∧ (slotOf s (v.toNat % 64)).st = .pending) ∧
    (∃ (v : W32) (s : State), writePasses .pcie 0x030 s ∧ (slotOf s (v.toNat % 64)).st = .accepted) :=
  ⟨⟨{ up with power := { up.power with ready := false } }, ⟨by decide +kernel, by decide +kernel⟩, rfl⟩,
   ⟨127, { up with host := { up.host with slots := [(63, { st := .pending })] } }, ⟨by decide +kernel, by decide +kernel⟩,
    by decide +kernel⟩,
   ⟨127, { up with host := { up.host with slots := [(63, { st := .accepted })] } }, ⟨by decide +kernel, by decide +kernel⟩,
    by decide +kernel⟩⟩

/-- The hypotheses of Obligations.LockBitsOnlySet can be met. -/
theorem witness_LockBitsOnlySet :
    (∃ (o : W16) (i : RegInfo), regInfo o.toNat = some i ∧ i.acc = .rwl) ∧
    (∃ (p : Port) (o : W16) (v : W32) (s : State) (i : RegInfo), regInfo o.toNat = some i ∧ i.acc = .rwl ∧
      writePasses p o.toNat s ∧ (cfgGet s o.toNat ||| (v &&& i.mask)) = cfgGet s o.toNat) ∧
    (∃ (p : Port) (o : W16) (v : W32) (s : State) (i : RegInfo), regInfo o.toNat = some i ∧ i.acc = .rwl ∧
      writePasses p o.toNat s ∧ i.mask.getLsbD 0 = true ∧ (cfgGet s o.toNat ||| (v &&& i.mask)) ≠ cfgGet s o.toNat) :=
  ⟨⟨0xF08, _, (Option.some_get (by decide +kernel)).symm, by decide +kernel⟩,
   ⟨.pcie, 0xF08, 0, up, _, (Option.some_get (by decide +kernel)).symm, by decide +kernel, ⟨by decide +kernel,
    by decide +kernel⟩, by decide +kernel⟩,
   ⟨.pcie, 0xF08, 1, up, _, (Option.some_get (by decide +kernel)).symm, by decide +kernel, ⟨by decide +kernel,
    by decide +kernel⟩, by decide +kernel, by decide +kernel⟩⟩

/-- The hypotheses of Obligations.EventPendsUntilCleared can be met. -/
theorem witness_EventPendsUntilCleared :
    (∃ (s : State), s.power.mainUp = true ∧ inService s idMG = true) ∧
    (∃ (p : Port) (n : Fin 8) (s : State), writePasses p (0x120 + 4 * n.val) s) :=
  ⟨⟨up, rfl, by decide +kernel⟩,
   ⟨.pcie, 7, up, ⟨by decide +kernel, by decide +kernel⟩⟩⟩

/-- The hypotheses of Obligations.FreezeHoldsRtcWords can be met. -/
theorem witness_FreezeHoldsRtcWords :
    (∃ (p : Port) (s : State), portAlive s p = true ∧ inService s idMG = true) ∧
    (∃ (k : Nat), k ≤ 2000000) ∧
    (∃ (k : Nat), 2000000 < k) :=
  ⟨⟨.sideBand, State.reset, by decide +kernel, by decide +kernel⟩,
   ⟨2000000, by decide +kernel⟩,
   ⟨2000001, by decide +kernel⟩⟩

/-- The hypotheses of Obligations.QueryCommandsChangeOnlyTheirAnswer can be met. -/
theorem witness_QueryCommandsChangeOnlyTheirAnswer :
    (∃ (r : Req), r.signed = false) :=
  ⟨ask [], rfl⟩

end Sys2Proof.Tests
end

section
/-! Proofs of the register accesses and the calendar commands: the obligations of the family of the scope chapter. Each row's
step is first reduced to the shared operation it names (a read request, an own write, a command), then to the branch taken. -/

namespace Sys2Proof.Proofs

open Sys2Proof.Machine Sys2Proof.Safety Sys2Proof.Laws

/-! ### Register reads (R364, R371) -/

section
variable {p : Port} {s : State} (off : Nat) (be : BitVec 4)

/-- A live port is sent the value of the register reader. -/
theorem readRequest_of_portAlive (h : portAlive s p = true) :
    readRequest p off be s = emit (.regRead p off (readDw p off be s).1) (readDw p off be s).2 := by
  simp only [readRequest, h, if_true]

/-- A port that is not alive reads nothing (R21). -/
theorem readRequest_of_not_portAlive (h : portAlive s p = false) : readRequest p off be s = s := by
  simp only [readRequest, h, Bool.false_eq_true, if_false]

end

section
variable (p : Port) (s : State)

theorem exec_readClearRegister (o : W16) (be : BitVec 4) :
    exec (.readClearRegister p o be) s = .next (readRequest p o.toNat be s) := rfl

theorem exec_latchingLoRead (o : W16) (be : BitVec 4) :
    exec (.latchingLoRead p o be) s = .next (readRequest p o.toNat be s) := rfl

theorem exec_ptpTimeLoRead : exec (.ptpTimeLoRead p) s = .next (readRequest p 0xE10 15 s) := rfl

theorem exec_rtcT0Read : exec (.rtcT0Read p) s = .next (readRequest p 0xF10 15 s) := rfl

theorem exec_rtcT1Read : exec (.rtcT1Read p) s = .next (readRequest p 0xF14 15 s) := rfl

theorem exec_recData0Read : exec (.recData0Read p) s = .next (readRequest p 0x1040 15 s) := rfl

theorem exec_recData15Read : exec (.recData15Read p) s = .next (readRequest p 0x107C 15 s) := rfl

end

/-- Settles O32: every row of a read is a read request, and the port decides whether it is served. -/
theorem registerReadsComplete : Obligations.RegisterReadsComplete := by
  refine ⟨fun p o be s h => ⟨?_, ?_⟩, fun p s h => ?_, fun p s h => ?_, fun p s h => ?_, fun p s h => ?_, fun p s h => ?_,
    fun p o be s h => ⟨?_, ?_⟩⟩
  · rw [exec_readClearRegister, readRequest_of_portAlive _ _ h]
  · rw [exec_latchingLoRead, readRequest_of_portAlive _ _ h]
  · rw [exec_ptpTimeLoRead, readRequest_of_portAlive _ _ h]
  · rw [exec_rtcT0Read, readRequest_of_portAlive _ _ h]
  · rw [exec_rtcT1Read, readRequest_of_portAlive _ _ h]
  · rw [exec_recData0Read, readRequest_of_portAlive _ _ h]
  · rw [exec_recData15Read, readRequest_of_portAlive _ _ h]
  · rw [exec_readClearRegister, readRequest_of_not_portAlive _ _ h]
  · rw [exec_latchingLoRead, readRequest_of_not_portAlive _ _ h]

/-! ### Posted writes (R366, R369) -/

section
variable {base : Nat} {s : State} {x : Posted} {rest : List Posted}

/-- BUSY may clear at once for a brick that did not run when it was set, and 0.2 µs later for one that did (R369). -/
theorem busyMayClear_of_takePosted (ht : takePosted base s.regs.posted = some (x, rest))
    (hx : x.ran = false ∨ 200 ≤ since s x.setAt) : busyMayClear base s = true := by
  simpa [busyMayClear, ht] using hx

/-- The owning brick, in service, applies the posted write (R366). -/
theorem settlePosted_of_inService (ht : takePosted base s.regs.posted = some (x, rest))
    (hb : inService s (((blockAt base).map (·.brick)).getD 0) = true) :
    settlePosted base s = applyDws x.port x.dws { s with regs := { s.regs with posted := rest } } := by
  have hb' : inService { s with regs := { s.regs with posted := rest } } (((blockAt base).map (·.brick)).getD 0) = true := hb
  simp only [settlePosted, ht, hb', if_true]

end

theorem exec_postedWriteApplied_of_takePosted {b : W16} {s : State} {x : Posted} {rest : List Posted}
    (ht : takePosted b.toNat s.regs.posted = some (x, rest)) (hx : x.ran = false ∨ 200 ≤ since s x.setAt)
    (hb : inService s (((blockAt b.toNat).map (·.brick)).getD 0) = true) :
    exec (.postedWriteApplied b) s = .next (applyDws x.port x.dws { s with regs := { s.regs with posted := rest } }) := by
  have hrow : exec (.postedWriteApplied b) s =
      .next (if busyMayClear b.toNat s then settlePosted b.toNat s else s) := rfl
  rw [hrow, if_pos (busyMayClear_of_takePosted ht hx), settlePosted_of_inService ht hb]

/-! ### Register writes with a row of their own (R364, R366) -/

/-- A row that is an own write has its register's effect where the write passes. -/
theorem exec_of_ownWrite_passes {i : Instr} {p : Port} {off : Nat} {f : State → State} {s : State}
    (hrow : exec i s = .next (ownWrite p off f s)) (h : writePasses p off s) : exec i s = .next (f s) := by
  rw [hrow, ownWrite_passes h]

/-- REGISTER_WRITE of a live port is judged doubleword by doubleword (R366). -/
theorem exec_registerWrite_of_portAlive {p : Port} {s : State} (o : W16) (l : List (BitVec 4 × W32))
    (h : portAlive s p = true) : exec (.registerWrite p o l) s = .next (writeRequest p (o.toNat / 4 * 4) l s) := by
  have hrow : exec (.registerWrite p o l) s =
      .next (if portAlive s p then writeRequest p (o.toNat / 4 * 4) l s else s) := rfl
  rw [hrow, if_pos h]

/-- A write of a lock register that sets no new bit changes nothing (R372). -/
theorem applyLock_of_eq {off : Nat} {v : W32} {s : State} {i : RegInfo} (hi : regInfo off = some i)
    (h : cfgGet s off ||| (v &&& i.mask) = cfgGet s off) : applyLock off v s = s := by
  simp [applyLock, hi, h]

/-- A write of a lock register that sets a new bit raises LOCK_SET (R372). -/
theorem applyLock_of_ne {off : Nat} {v : W32} {s : State} {i : RegInfo} (hi : regInfo off = some i)
    (h : cfgGet s off ||| (v &&& i.mask) ≠ cfgGet s off) :
    applyLock off v s = raise 0x05 [(off : Int)] (cfgSet off (cfgGet s off ||| (v &&& i.mask)) s) := by
  simp [applyLock, hi, h]

/-- LOCK_BIT_SET of a lock register is an own write (R372). -/
theorem exec_lockBitSet_of_rwl {o : W16} {i : RegInfo} (p : Port) (v : W32) (s : State)
    (hi : regInfo o.toNat = some i) (ha : i.acc = .rwl) :
    exec (.lockBitSet p o v) s = .next (ownWrite p o.toNat (applyLock o.toNat v) s) := by
  change execLockBitSet p o v s = _
  simp only [execLockBitSet, hi, ha, if_true]

/-- Settles O33: an own write that passes is applied; posted writes and lock registers by the lemmas above. -/
theorem registerWritesComplete : Obligations.RegisterWritesComplete := by
  refine ⟨fun p o l s h => exec_registerWrite_of_portAlive o l h,
    fun b s x rest ht hx hb => exec_postedWriteApplied_of_takePosted ht hx hb,
    fun p v s h => ⟨exec_of_ownWrite_passes rfl h, exec_of_ownWrite_passes rfl h, exec_of_ownWrite_passes rfl h⟩,
    fun p o v s i hi ha h => ?_,
    fun p n v s h => exec_of_ownWrite_passes (f := applyEvtPend n.val v) rfl h,
    fun p hi v s h => exec_of_ownWrite_passes (f := applyCmpl hi v) rfl h,
    fun p n v s h => exec_of_ownWrite_passes (f := applyRoute (0x400 + 4 * n.val) v) rfl h,
    fun p v s h => exec_of_ownWrite_passes rfl h⟩
  have hpass := exec_of_ownWrite_passes (exec_lockBitSet_of_rwl p v s hi ha) h
  exact ⟨fun heq => by rw [hpass, applyLock_of_eq hi heq], fun hne => by rw [hpass, applyLock_of_ne hi hne]⟩

/-! ### The calendar (R482, R486, R489, R498) -/

/-- A row that runs a command has the command's own effect where the request is accepted (R387). -/
theorem exec_of_accepted {i : Instr} {c : CmdSpec} {r : Req} {s : State} (hrow : exec i s = .next (runCmd c r s))
    (h : accepted c r s = true) : exec i s = .next (c.run r (bodyOf r) (begun c r s)) := by
  rw [hrow, runCmd_accepted h]

section
variable (r : Req) (p : Bytes) (t : State)

/-- CMD_RTC_SET sets the calendar to a possible time and refuses any other with BADWRITE set (R482). -/
theorem specRtcSet_run : specRtcSet.run r p t =
    if possible (calOfWords (getLE p 0 4) (getLE p 4 4)) then
      finishOk 0x0A11 r [] (adjust 0 (calTicks (calOfWords (getLE p 0 4) (getLE p 4 4)) * 1000000000) t)
    else finish 0x0A11 r stBadParam (if badT0 (getLE p 0 4) then 0 else 4) [] (badWrite (getLE p 0 4) (getLE p 4 4) t) := by
  by_cases h : possible (calOfWords (getLE p 0 4) (getLE p 4 4)) = true
  · simp only [specRtcSet, setCalendar, finePerTick, h, if_true]
  · simp only [specRtcSet, h, Bool.false_eq_true, if_false]

/-- CMD_RTC_ADJUST moves the fine count by DELTA_MS (R485). -/
theorem specRtcAdjust_run : specRtcAdjust.run r p t =
    finishOk 0x0A12 r [] (adjust 1 (calFine t + getSLE p 0 4 * 32768000000).toNat t) := by
  simp only [specRtcAdjust, adjusted]

/-- CMD_RTC_ALARM with ENABLE 0 disarms the alarm (R486). -/
theorem specRtcAlarm_run_disarm (h : getLE p 1 1 = 0) : specRtcAlarm.run r p t =
    finishOk 0x0A13 r [] { t with rtc := { t.rtc with
      alarms := fset t.rtc.alarms (getLE p 0 1) { alarm t (getLE p 0 1) with armed := false } } } := by
  simp only [specRtcAlarm, h, if_true]

/-- CMD_RTC_ALARM arms the alarm for a later time whose words are whole (R486, R498). -/
theorem specRtcAlarm_run_arm (h : getLE p 1 1 ≠ 0) (hpos : possible (calOfWords (getLE p 4 4) (getLE p 8 4)) = true)
    (hsub : (calOfWords (getLE p 4 4) (getLE p 8 4)).subsec = 0) (h0 : badT0 (getLE p 4 4) = false)
    (h1 : badT1 (getLE p 8 4) = false) (hlater : calTicks t.rtc.cal < calTicks (calOfWords (getLE p 4 4) (getLE p 8 4))) :
    specRtcAlarm.run r p t = finishOk 0x0A13 r [] { t with rtc := { t.rtc with
      alarms := fset t.rtc.alarms (getLE p 0 1)
        { armed := true, action := getLE p 2 1, time := calOfWords (getLE p 4 4) (getLE p 8 4) } } } := by
  simp [specRtcAlarm, h, hpos, hsub, h0, h1, Nat.not_le.mpr hlater]

end

/-- Settles O24: each command by its effect, the two register rows as own writes that pass. -/
theorem calendarCommandsComplete : Obligations.CalendarCommandsComplete := by
  refine ⟨fun r s h => exec_of_accepted (c := specRtcRead) rfl h,
    fun r s h => ?_,
    fun r s h => ?_,
    fun r s h => ⟨fun hdis => ?_, fun hen hpos hsub h0 h1 hlater => ?_⟩,
    fun p v s h => exec_of_ownWrite_passes (f := applyRtc v) rfl h,
    fun p v s h => exec_of_ownWrite_passes (f := applyRtcFlags v) rfl h⟩
  · rw [exec_of_accepted (c := specRtcSet) rfl h, specRtcSet_run]
    rfl
  · rw [exec_of_accepted (c := specRtcAdjust) rfl h, specRtcAdjust_run]
  · rw [exec_of_accepted (c := specRtcAlarm) rfl h, specRtcAlarm_run_disarm _ _ _ hdis]
  · rw [exec_of_accepted (c := specRtcAlarm) rfl h, specRtcAlarm_run_arm _ _ _ hen hpos hsub h0 h1 hlater]

end Sys2Proof.Proofs
end

section
/-! Proofs of the fault detection rows: the mortar, its watchdogs, the memories, lockstep, the signature sweep and the die
temperature. Each row's step is first reduced to what it is while the main side is powered, then to the branch taken. -/

namespace Sys2Proof.Proofs

open Sys2Proof.Machine Sys2Proof.Safety Sys2Proof.Laws

/-! ### The mortar (R6, R11, R14, R18, R19) -/

section
variable {p : MortarPacket} {s : State}

/-- What a source in service offers is a discarded packet or one that is routed (R11). -/
theorem exec_mortarPacket_of_offered (hup : s.power.mainUp = true) (hsrc : inService s (mortarSrc p.header.toNat) = true) :
    exec (.mortarPacket p) s = .next (
      if mortarBad p then
        if mortarClass p.header.toNat = 3 then mortarRespond (errorResponse p.header.toNat)
          (raise 0x20 [(mortarSrc p.header.toNat : Int), (mortarDest p.header.toNat : Int)] s)
        else raise 0x20 [(mortarSrc p.header.toNat : Int), (mortarDest p.header.toNat : Int)] s
      else if heldBack p s then
        setBrick (mortarSrc p.header.toNat) (fun x => { x with issued := x.issued ++ [.barrier p] }) s
      else if 35 ≤ mortarDest p.header.toNat then mortarRespond (errorResponse p.header.toNat)
        (raise 0x20 [(mortarSrc p.header.toNat : Int), (mortarDest p.header.toNat : Int)] s)
      else if inService s (mortarDest p.header.toNat) then mortarArrive p (noteSent p s)
      else mortarRespond (errorResponse p.header.toNat) s) := by
  change execMortarPacket p s = _
  simp only [execMortarPacket, hup, hsrc, Bool.not_true, Bool.false_eq_true, if_false]
  cases inService s (mortarDest p.header.toNat) <;> rfl

/-- A packet that is neither discarded nor held back goes to its destination (R6, R14). -/
theorem exec_mortarPacket_of_routed (hup : s.power.mainUp = true) (hsrc : inService s (mortarSrc p.header.toNat) = true)
    (hbad : mortarBad p = false) (hheld : heldBack p s = false) :
    exec (.mortarPacket p) s = .next (
      if 35 ≤ mortarDest p.header.toNat then mortarRespond (errorResponse p.header.toNat)
        (raise 0x20 [(mortarSrc p.header.toNat : Int), (mortarDest p.header.toNat : Int)] s)
      else if inService s (mortarDest p.header.toNat) then mortarArrive p (noteSent p s)
      else mortarRespond (errorResponse p.header.toNat) s) := by
  simp only [exec_mortarPacket_of_offered hup hsrc, hbad, hheld, Bool.false_eq_true, if_false]

end

/-! ### Watchdogs (R16, R17, R19, R20) -/

section
variable {b : BrickId} {s : State}

/-- A timed brick with a late handshake is fenced; the clock-presence detector decides the reason (R16). -/
theorem exec_handshakeWatchdog_of_late (ht : timedBrick s b.val = true) (hl : handshakeLate s b.val = true) :
    exec (.handshakeWatchdog b) s =
      .next (fenceBrick b.val (some (if s.pending.contains (.clockPresenceExpiry b) then 0x21 else 0x22)) s) := by
  change execHandshakeWatchdog b s = _
  simp only [execHandshakeWatchdog, ht, hl, Bool.and_true, if_true]

theorem exec_clockPresenceExpiry_of_silent (ht : timedBrick s b.val = true) (he : 5600 ≤ since s (brick s b.val).edgeAt) :
    exec (.clockPresenceExpiry b) s = .next (fenceBrick b.val (some 0x21) s) := by
  change execClockPresenceExpiry b s = _
  simp only [execClockPresenceExpiry, ht, decide_eq_true he, Bool.and_true, if_true]

theorem exec_transitionTimerExpiry_of_overdue (hup : s.power.mainUp = true) (hst : (brick s b.val).st = .transition)
    (ht : 20000 ≤ since s (brick s b.val).transAt) :
    exec (.transitionTimerExpiry b) s = .next (fenceBrick b.val (some 0x21) s) := by
  change execTransitionTimerExpiry b s = _
  simp only [execTransitionTimerExpiry, hup, decide_eq_true hst, decide_eq_true ht, Bool.and_true, if_true]

end

/-! ### Memories, lockstep and the configuration signature (R375, R458) -/

/-- A register upset is no change of the module's supply. -/
@[simp] theorem cfgPoke_power (off : Nat) (v : W32) (s : State) : (cfgPoke off v s).power = s.power := by
  unfold cfgPoke
  split <;> rfl

@[simp] theorem upsetRegs_power (l : List (W16 × W32)) (s : State) : (upsetRegs l s).power = s.power := by
  induction l generalizing s with
  | nil => rfl
  | cons e r ih => rw [upsetRegs, ih, cfgPoke_power]

section
variable {s : State} (hup : s.power.mainUp = true)
include hup

theorem exec_dramError_corrected : exec (.dramError .corrected) s = .next (raise 0xB3 [] (countFault 1 s)) := by
  change execDramError .corrected s = _
  simp only [execDramError, hup, Bool.not_true, Bool.false_eq_true, if_false]

theorem exec_dramError_uncorrectable : exec (.dramError .uncorrectable) s = .next (rowFault 2 (raise 0xB4 [] s)) := by
  change execDramError .uncorrectable s = _
  simp only [execDramError, hup, Bool.not_true, Bool.false_eq_true, if_false]

theorem exec_mramError_corrected (p : MramPlace) :
    exec (.mramError .corrected p) s = .next (raise 0xB5 [] (countFault 3 s)) := by
  change execMramError .corrected p s = _
  simp only [execMramError, hup, Bool.not_true, Bool.false_eq_true, if_false]

theorem exec_mramError_uncorrectable (p : MramPlace) :
    exec (.mramError .uncorrectable p) s = .next (loseMram p (raise 0xB6 [] (countFault 4 s))) := by
  change execMramError .uncorrectable p s = _
  simp only [execMramError, hup, Bool.not_true, Bool.false_eq_true, if_false]

theorem exec_lockstepDisagreement_of_mainUp : exec .lockstepDisagreement s = .next (rowFault 9 s) := by
  change execLockstepDisagreement s = _
  simp only [execLockstepDisagreement, hup, if_true]

/-- A sweep is judged on the registers as the upsets have left them (R375). -/
theorem exec_signatureSweep_of_due (l : List (W16 × W32)) (hen : sigEnabled (upsetRegs l s) = true)
    (hdue : 4000000 ≤ since (upsetRegs l s) (upsetRegs l s).regs.sweepAt) :
    exec (.signatureSweep l) s = .next (sweepBlocks (blocks.map (·.base)) { upsetRegs l s with
      regs := { (upsetRegs l s).regs with
        sweeps := (upsetRegs l s).regs.sweeps + 1, sweepAt := (upsetRegs l s).regs.sweepAt + 4000000 } }) := by
  change execSignatureSweep l s = _
  simp only [execSignatureSweep, hup, if_true, upsetRegs_power, hen, decide_eq_true hdue, Bool.and_true]

/-- A sample below 110 °C ends the run of hot samples (R105, R106). -/
theorem exec_tempSample_of_cool {q : Int} (hq : q < 440) :
    exec (.tempSample q) s = .next (thermalLimit q { s with budget := { s.budget with
      t4 := q, t4Max := if s.budget.t4Max < q then q else s.budget.t4Max, hotSamples := 0 } }) := by
  change execTempSample q s = _
  simp only [execTempSample, hup, if_true, if_neg (Int.not_le.mpr hq), Nat.reduceEqDiff, if_false]

/-- The third hot sample in a row is fault row 17 (R106). -/
theorem exec_tempSample_of_third_hot {q : Int} (hq : 440 ≤ q) (hn : s.budget.hotSamples = 2) :
    exec (.tempSample q) s = .next (rowFault 17 (raise 0x39 [q] (thermalLimit q { s with budget := { s.budget with
      t4 := q, t4Max := if s.budget.t4Max < q then q else s.budget.t4Max, hotSamples := 3 } }))) := by
  change execTempSample q s = _
  simp only [execTempSample, hup, if_pos hq, hn, Nat.reduceAdd, if_true]

end

/-- Settles O19: the mortar packet by the branches of its way, every other row by its lemma above. -/
theorem faultDetectionCompletes : Obligations.FaultDetectionCompletes := by
  refine ⟨fun p s hup hbad hsrc hcls => ?_, fun p s hup hbad hsrc hcls => ?_, fun p s hup hbad hheld hsrc => ?_,
    fun p s hup hbad hheld hdest hsrc => ?_, fun p s hup hbad hheld hdest hsrc hcl => ?_,
    fun p s hup hbad hheld hdest hsrc hin => ?_, fun b s ht hl hp => ?_, fun b s ht hl hp => ?_,
    fun b s => exec_clockPresenceExpiry_of_silent, fun b s => exec_transitionTimerExpiry_of_overdue,
    fun s => exec_dramError_corrected, fun s => exec_dramError_uncorrectable,
    fun p s hup => exec_mramError_corrected hup p, fun p s hup => exec_mramError_uncorrectable hup p,
    fun s => exec_lockstepDisagreement_of_mainUp, fun l s hup => exec_signatureSweep_of_due hup l,
    fun q s hup => exec_tempSample_of_cool hup, fun q s hup => exec_tempSample_of_third_hot hup⟩
  · rw [exec_mortarPacket_of_offered hup hsrc, if_pos hbad, if_neg hcls]
  · rw [exec_mortarPacket_of_offered hup hsrc, if_pos hbad, if_pos hcls]
  · rw [exec_mortarPacket_of_offered hup hsrc, if_neg (ne_true_of_eq_false hbad), if_pos hheld]
  · rw [exec_mortarPacket_of_routed hup hsrc hbad hheld, if_pos hdest]
  · rw [exec_mortarPacket_of_routed hup hsrc hbad hheld, if_neg (Nat.not_le.mpr hdest), if_neg (ne_true_of_eq_false hcl)]
  · rw [exec_mortarPacket_of_routed hup hsrc hbad hheld, if_neg (Nat.not_le.mpr hdest), if_pos hin]
    rfl
  · rw [exec_handshakeWatchdog_of_late ht hl, if_neg (ne_true_of_eq_false hp)]
  · rw [exec_handshakeWatchdog_of_late ht hl, if_pos hp]

end Sys2Proof.Proofs
end

section
/-! Proofs of the cycle rows: period starts and what a counted start does, marks and snapshots, the deadline, the abandon
and the retentive write. -/

namespace Sys2Proof.Proofs

open Sys2Proof.Machine Sys2Proof.Safety Sys2Proof.Laws

/-! ### Counting period starts (R33, R34) -/

section
variable {c t : Nat} {s : State}

/-- A start that is not later than the last one counted counts nothing. -/
theorem countStart_of_counted (onTime : Bool) (hl : later 64 (cls s c).lastStart t = false) (hz : (cls s c).zero = false) :
    countStart c t onTime s = s := by
  simp only [countStart, hl, hz, Bool.not_false, Bool.and_self, if_true]

section
variable (h : later 64 (cls s c).lastStart t = true ∨ (cls s c).zero = true)
include h

/-- A start that is new is not one that countStart passes over. -/
theorem not_counted_of_new : ¬ (!later 64 (cls s c).lastStart t && !(cls s c).zero) = true := by
  rcases h with h | h <;> simp [h]

/-- A new start whose mark would be late is counted and is itself skipped, with those passed since the last one. -/
theorem countStart_of_new_late : countStart c t false s = noteSwitchCount c t (setCls c (fun x => { x with
      lastStart := t, zero := false
      cycleCount := if x.zero then 0 else x.cycleCount + BitVec.ofNat 32 (startsPassed (cls s c) t)
      overruns := sat32 (x.overruns + if (cls s c).zero then 0 else startsPassed (cls s c) t) }) s) := by
  simp only [countStart, if_neg (not_counted_of_new h), Bool.false_eq_true, if_false]

/-- A new start in time is counted, those passed before it are skipped, and it runs what R34 says. -/
theorem countStart_of_new_inTime : countStart c t true s =
    periodStart c t (noteSwitchCount c t (setCls c (fun x => { x with
      lastStart := t, zero := false
      cycleCount := if x.zero then 0 else x.cycleCount + BitVec.ofNat 32 (startsPassed (cls s c) t)
      overruns := sat32 (x.overruns + if (cls s c).zero then 0 else startsPassed (cls s c) t - 1) }) s)) := by
  simp only [countStart, if_neg (not_counted_of_new h), if_true]

end

end

/-- Only Main's starts concern a program switch (R66). -/
theorem noteSwitchCount_of_ne_main {c : Nat} (h : c ≠ 1) (t : Nat) (s : State) : noteSwitchCount c t s = s := by
  rw [noteSwitchCount, if_neg h]

/-- The classes up to Fast are Fast alone. -/
theorem upto_fast : upto ((0 : PClass).val + 1) = [0] := rfl

section
variable {s : State} (hr : s.power.ready = true) (hsv : inService s idSV = true) (c : PClass)
include hr hsv

/-- CLASS_PERIOD_START with SV in service: configurations are taken, then the marks follow or the start only counts. -/
theorem exec_classPeriodStart_of_ready : exec (.classPeriodStart c) s = .next (
    let a := adoptCfgs (devNs s) (upto (c.val + 1)) s
    let t := lastStartOf a c.val
    if devNs s - t ≤ 2000 then marksAt t (upto (c.val + 1)) (startHelds [0, 1, 2, 3] (beforeMarks t a))
    else countStart c.val t false a) := by
  change execClassPeriodStart c s = _
  simp only [execClassPeriodStart, hr, hsv, Bool.and_self, if_true]

/-- The marks of an instant follow where they come within 2 µs of it (R32, R33). -/
theorem exec_classPeriodStart_of_inTime
    (h : devNs s - lastStartOf (adoptCfgs (devNs s) (upto (c.val + 1)) s) c.val ≤ 2000) :
    exec (.classPeriodStart c) s = .next (
      let a := adoptCfgs (devNs s) (upto (c.val + 1)) s
      let t := lastStartOf a c.val
      marksAt t (upto (c.val + 1)) (startHelds [0, 1, 2, 3] (beforeMarks t a))) := by
  rw [exec_classPeriodStart_of_ready hr hsv]
  exact congrArg _ (if_pos h)

/-- A start whose mark would come later than 2 µs only counts (R33, R34). -/
theorem exec_classPeriodStart_of_late
    (h : 2000 < devNs s - lastStartOf (adoptCfgs (devNs s) (upto (c.val + 1)) s) c.val) :
    exec (.classPeriodStart c) s = .next (
      let a := adoptCfgs (devNs s) (upto (c.val + 1)) s
      countStart c.val (lastStartOf a c.val) false a) := by
  rw [exec_classPeriodStart_of_ready hr hsv]
  exact congrArg _ (if_neg (Nat.not_le.mpr h))

/-- At a start of the Fast class in time, Fast is the one class marked (R32). -/
theorem exec_classPeriodStart_fast {a b : State} {t : Nat} (ha : adoptClassCfg 0 (devNs s) s = a) (ht : lastStartOf a 0 = t)
    (hb : startHelds [0, 1, 2, 3] (beforeMarks t a) = b) (hin : devNs s - t ≤ 2000) (hbt : lastStartOf b 0 = t) :
    exec (.classPeriodStart 0) s = .next (countStart 0 t true b) := by
  have hadopt : adoptCfgs (devNs s) (upto ((0 : PClass).val + 1)) s = a := by
    rw [upto_fast, adoptCfgs, adoptCfgs, ha]
  have hstart : lastStartOf a (0 : PClass).val = t := ht
  rw [exec_classPeriodStart_of_inTime hr hsv 0 (by rwa [hadopt, hstart])]
  simp only [hadopt, hstart]
  rw [hb, upto_fast, marksAt, marksAt, if_pos hbt]

end

/-! ### Marks and snapshots (R22, R35) -/

section
variable {c : PClass} {s : State} {y : Cycle} (hy : (cls s c.val).cycle = some y)
include hy

/-- An acknowledgement in time enters the snapshot, and the last one closes it (R22, R35). -/
theorem exec_markAck_of_awaited {b : BrickId} (hph : y.phase = .marking) (haw : y.awaiting.contains b.val = true)
    (hb : inService s b.val = true) (ht : since s y.markAt ≤ 20000) :
    exec (.markAck c b) s = .next (
      let t := setCycle c.val (fun x => { x with
        awaiting := x.awaiting.filter (fun z => decide (z ≠ b.val)), vector := if b.val = idNB then liveVector s else y.vector
        snap := takePoints s (producerPoints s b.val) x.snap }) s
      if y.awaiting = [b.val] then closeSnapshot c.val t else t) := by
  change execMarkAck c b s = _
  simp only [execMarkAck, hy, decide_eq_true hph, haw, hb, decide_eq_true ht, Bool.and_self, if_true]

theorem exec_snapshotTimeout_of_missing (hph : y.phase = .marking) (haw : y.awaiting ≠ []) (ht : 20000 ≤ since s y.markAt) :
    exec (.snapshotTimeout c) s = .next (closeSnapshot c.val (raisePartial c.val y.awaiting s)) := by
  have hmiss : (!y.awaiting.isEmpty) = true := by simpa using haw
  change execSnapshotTimeout c s = _
  simp only [execSnapshotTimeout, hy, decide_eq_true hph, hmiss, decide_eq_true ht, Bool.and_self, if_true]

/-! ### Deadlines and abandons (R41, R43, R44) -/

theorem exec_cycleDeadline_of_passed (h : reached s (cycleDeadline y.stamp (cls s c.val).periodUs + 1) = true) :
    exec (.cycleDeadline c) s = .next (setCycle c.val (fun y => { y with late := true }) s) := by
  have hpast : pastDeadline s y (cls s c.val).periodUs = true := h
  change execCycleDeadline c s = _
  simp only [execCycleDeadline, hy, hpast, if_true]

/-- A cycle two periods old is abandoned; the run of abandoned cycles decides between HOLD and SAFE (R43, R44). -/
theorem exec_cycleAbandon_of_old (h : reached s (y.stamp + 2 * (cls s c.val).periodUs * 1000) = true) :
    exec (.cycleAbandon c) s = .next (
      let t := setCls c.val (fun k => { k with abandons := sat32 (k.abandons + 1), abandonRow := k.abandonRow + 1 }) s
      let w := canCancelClass c.val (stopClass c.val (raise 0x27 [(c.val : Int), (y.count.toNat : Int)] t))
      let u := if (cls w c.val).restartSkip = some y.stamp then setCls c.val (fun k => { k with restartSkip := none }) w
        else endRestart c.val stTimeout w
      if 3 ≤ (cls u c.val).abandonRow then raise 0x29 [(c.val : Int)] (setCls c.val (fun k => { k with st := .safe }) u)
      else setCls c.val (fun k => { k with st := .hold }) u) := by
  change execCycleAbandon c s = _
  simp only [execCycleAbandon, hy, h, if_true]

end

/-! ### The retentive write (R422, R428) -/

/-- The half that is being written becomes valid (R422). -/
theorem sealHalf_of_writing {s : State} {n : Nat} {h : RetHalf} (hw : s.stores.writing = some (n, h)) :
    sealHalf s = { s with stores := { s.stores with halves := fset s.stores.halves n h, writing := none } } := by
  simp only [sealHalf, hw]

theorem sealHalf_power (s : State) : (sealHalf s).power = s.power := by
  unfold sealHalf
  split <;> rfl

section
variable {s : State} {n : Nat} {h : RetHalf} (hup : s.power.mainUp = true) (hw : s.stores.writing = some (n, h))
include hup hw

theorem exec_retainWriteDone_of_running (hs : s.power.shutdown = none) : exec .retainWriteDone s = .next (sealHalf s) := by
  change execRetainWriteDone s = _
  simp only [execRetainWriteDone, hup, hw, sealHalf_power, hs]

/-- In a shutdown the final half ends it, and an earlier one lets it go on (R428). -/
theorem exec_retainWriteDone_of_shutdown {r : Req} (hs : s.power.shutdown = some r) :
    exec .retainWriteDone s = .next (if h.final then endShutdown r (sealHalf s) else shutdownStopped (sealHalf s)) := by
  change execRetainWriteDone s = _
  simp only [execRetainWriteDone, hup, hw, sealHalf_power, hs]

end

/-- Settles O35: a period start by whether its mark is in time and its start new, the other rows by their lemmas above. -/
theorem cycleEventsComplete : Obligations.CycleEventsComplete := by
  refine ⟨fun c s hr hsv => ⟨?_, fun hlate hl hz => ?_, fun hlate hnew => ?_⟩, fun s hr hsv hin hbt hnew => ?_,
    fun c b s y hy hph haw hb ht => ⟨fun hlast => ?_, fun hmore => ?_⟩,
    fun c s y => exec_snapshotTimeout_of_missing, fun c s y => exec_cycleDeadline_of_passed,
    fun c s y hy hold => ⟨fun hfew => ?_, fun hmany => ?_⟩,
    fun s n h hup hw => ⟨fun hs => ?_, fun r hs hf => ?_, fun r hs hf => ?_⟩⟩
  · exact exec_classPeriodStart_of_inTime hr hsv c
  · rw [exec_classPeriodStart_of_late hr hsv c hlate]
    exact congrArg _ (countStart_of_counted false hl hz)
  · rw [exec_classPeriodStart_of_late hr hsv c hlate]
    exact congrArg _ (countStart_of_new_late hnew)
  · rw [exec_classPeriodStart_fast hr hsv rfl rfl rfl hin hbt, countStart_of_new_inTime hnew,
      noteSwitchCount_of_ne_main Nat.zero_ne_one]
  · rw [exec_markAck_of_awaited hy hph haw hb ht]
    exact congrArg _ (if_pos hlast)
  · rw [exec_markAck_of_awaited hy hph haw hb ht]
    exact congrArg _ (if_neg hmore)
  · rw [exec_cycleAbandon_of_old hy hold]
    exact congrArg _ (if_neg (Nat.not_le.mpr hfew))
  · rw [exec_cycleAbandon_of_old hy hold]
    exact congrArg _ (if_pos hmany)
  · rw [exec_retainWriteDone_of_running hup hw hs, sealHalf_of_writing hw]
  · rw [exec_retainWriteDone_of_shutdown hup hw hs, if_pos hf, sealHalf_of_writing hw]
  · rw [exec_retainWriteDone_of_shutdown hup hw hs, if_neg (ne_true_of_eq_false hf), sealHalf_of_writing hw]

end Sys2Proof.Proofs
end

section
/-! Proofs of the command rows of points and cycles: classes and engines, programs, points with their forces, the historian.
A row that runs a command has the command's own effect (exec_of_accepted); what remains is the effect by its cases, and the
two event rows. -/

namespace Sys2Proof.Proofs

open Sys2Proof.Machine Sys2Proof.Safety Sys2Proof.Laws

/-! ### Halting a class (R96, R97) -/

section
variable (r : Req) (p : Bytes) (t : State)

/-- CMD_CLASS_HALT of a class whose outputs are held already completes at once (R97). -/
theorem specClassHalt_run_of_held (h : (cls t (getLE p 0 1)).st = .hold ∨ (cls t (getLE p 0 1)).st = .safe) :
    specClassHalt.run r p t = finishOk 0x0204 r [] t := by
  simp only [specClassHalt, if_pos h]

/-- CMD_CLASS_HALT of a class that runs waits, and halts it at the mark at which the active halted it (R97, R399). -/
theorem specClassHalt_run_of_running (h : ¬ ((cls t (getLE p 0 1)).st = .hold ∨ (cls t (getLE p 0 1)).st = .safe)) :
    specClassHalt.run r p t =
      let c := getLE p 0 1
      let m := effectTime t (cls t c).started
      let u := holdCmd 0x0204 r (setCls c (fun k => { k with haltReq := some r }) t)
      if 0 ≤ wrapDiff 64 m (cls u c).started then haltClass c u else setCls c (fun k => { k with haltAt := some m }) u := by
  simp only [specClassHalt, if_neg h]

end

/-- CLASS_UNITS_STOPPED of a stopped class none of whose units runs any more answers its halt (R96). -/
theorem exec_classUnitsStopped_of_stopped {c : PClass} {s : State} (hstop : (cls s c.val).stopping = true)
    (hrun : unitsRunning s c.val = false) :
    exec (.classUnitsStopped c) s = .next (shutdownStopped (haltDone c.val s)) := by
  change execClassUnitsStopped c s = _
  simp only [execClassUnitsStopped, hstop, hrun, Bool.not_false, Bool.and_self, if_true]

/-- Settles O3: each command by its effect, the halt by whether the class is held already. -/
theorem classCommandsComplete : Obligations.ClassCommandsComplete := by
  refine ⟨fun r s h => exec_of_accepted (c := specClassConfig) rfl h,
    fun r s h => exec_of_accepted (c := specClassStatus) rfl h,
    fun r s h => exec_of_accepted (c := specClassRestart) rfl h,
    fun r s h => ?_,
    fun r s h => exec_of_accepted (c := specEngineStatus) rfl h,
    fun c s hstop hrun => exec_classUnitsStopped_of_stopped hstop hrun⟩
  intro c t m u
  rw [exec_of_accepted (c := specClassHalt) rfl h]
  by_cases hheld : (cls t c).st = .hold ∨ (cls t c).st = .safe
  · rw [specClassHalt_run_of_held r _ t hheld, if_pos hheld]
  · rw [specClassHalt_run_of_running r _ t hheld, if_neg hheld]

/-! ### Loading a program (R65, R131) -/

section
variable (r : Req) {p : Bytes} {s t : State} (ht : (if getLE p 0 4 = 0 then { s with progNext := none } else s) = t)
include ht

/-- CMD_PROG_LOAD keeps a chunk that does not complete the image (R65). -/
theorem specProgLoad_run_of_more (hmore : chunkDone (chunkNext s.progLoad p) = false) :
    specProgLoad.run r p s = finishOk 0x0210 r [] { t with progLoad := some (chunkNext s.progLoad p) } := by
  simp only [specProgLoad, hmore, Bool.false_eq_true, if_false, ht]

section
variable {c : ChunkLoad} (hc : chunkNext s.progLoad p = c) (hdone : chunkDone c = true)
include hc hdone

/-- A complete image that passes waits for its switch (R65, R131). -/
theorem specProgLoad_run_of_passed (hpass : imageRefusal { t with progLoad := none } c.received = none) :
    specProgLoad.run r p s = finishOk 0x0210 r []
      { afterChecks none c.received (getLE c.received 36 4) { t with progLoad := none } with
        progNext := some (parseImage c.received) } := by
  simp only [specProgLoad, ht, hc, hdone, if_true, hpass, Option.map_none]

/-- A complete image that fails a check is refused with it and raises PROG_REJECTED (R65, R131). -/
theorem specProgLoad_run_of_refused {n st d : Nat}
    (hfail : imageRefusal { t with progLoad := none } c.received = some (n, st, d)) :
    specProgLoad.run r p s = finish 0x0210 r st d [] (raiseC 0x2B [n] n
      (afterChecks (some n) c.received (getLE c.received 36 4) { t with progLoad := none })) := by
  simp only [specProgLoad, ht, hc, hdone, if_true, hfail, Option.map_some]

end

end

/-! ### Switching programs (R59, R66) -/

/-- CMD_PROG_SWITCH waits for the first Main period start at least 10 ms ahead (R59, R66). -/
theorem specProgSwitch_run (r : Req) (p : Bytes) (t : State) : specProgSwitch.run r p t =
    let q := Nat.max (cls t 1).periodUs 1 * 1000
    holdCmd 0x0211 r { t with
      switch := some { req := r, allowInit := bit (getLE p 4 4) 0, at' := effectTime t ((devNs t + 10000000 + q - 1) / q * q) } } := by
  simp only [specProgSwitch, startInstant]

section
variable {c : Nat} {s t u : State} {w x y : ProgSwitch} {im : Image} (hsw : s.switch = some w) (him : switchImage s w = some im)
  (hmay : mayChange s w c = true) (ht : (if w.begun then s else beginSwitch im w s) = t)
include hsw him hmay ht

/-- Where no switch is left after its beginning, no class changes. -/
theorem changeProgram_of_ended (hx : t.switch = none) : changeProgram c s = t := by
  simp only [changeProgram, hsw, him, hmay, if_true, ht, hx]

/-- The class changes programs, and the switch closes with the last periodic class (R59). -/
theorem changeProgram_of_due (hx : t.switch = some x) (hu : changeClass c im x t = u) (hy : u.switch = some y) :
    changeProgram c s = if 4 ≤ y.changed.length then closeSwitch im y u else u := by
  simp only [changeProgram, hsw, him, hmay, if_true, ht, hx, hu, hy]

/-- Where no switch is left after the change of a class, nothing closes. -/
theorem changeProgram_of_changed (hx : t.switch = some x) (hu : changeClass c im x t = u) (hy : u.switch = none) :
    changeProgram c s = u := by
  simp only [changeProgram, hsw, him, hmay, if_true, ht, hx, hu, hy]

end

theorem exec_progSwitchInstant (c : PClass) (s : State) :
    exec (.progSwitchInstant c) s = .next (startHeld c.val (changeProgram c.val s)) := rfl

/-- Settles O4: the load by whether it is complete and its image passes, the switch instant by how far the switch comes. -/
theorem programCommandsComplete : Obligations.ProgramCommandsComplete := by
  refine ⟨fun r s h => ?_, fun r s h => ?_, fun c s w im hsw him hmay => ?_⟩
  · intro p b t c u v
    rw [exec_of_accepted (c := specProgLoad) rfl h]
    cases hdone : chunkDone c with
    | false => rw [specProgLoad_run_of_more (t := t) r rfl hdone, if_neg Bool.false_ne_true]
    | true =>
      rw [if_pos rfl]
      cases hf : imageRefusal u c.received with
      | none =>
        rw [specProgLoad_run_of_passed (t := t) (c := c) r rfl rfl hdone hf]
        simp only [v, hf, Option.map_none, u]
      | some f =>
        obtain ⟨n, st, d⟩ := f
        rw [specProgLoad_run_of_refused (t := t) (c := c) r rfl rfl hdone hf]
        simp only [v, hf, Option.map_some, u]
  · rw [exec_of_accepted (c := specProgSwitch) rfl h, specProgSwitch_run]
  · intro t
    rw [exec_progSwitchInstant]
    cases hx : t.switch with
    | none => rw [changeProgram_of_ended (t := t) hsw him hmay rfl hx]
    | some x =>
      cases hy : (changeClass c.val im x t).switch with
      | none => rw [changeProgram_of_changed (t := t) hsw him hmay rfl hx rfl hy]; simp only [hy]
      | some y => rw [changeProgram_of_due (t := t) hsw him hmay rfl hx rfl hy]; simp only [hy]

/-! ### Points and forces (R48, R67, R68, R69) -/

section
variable (r : Req) (p : Bytes) (t : State)

/-- CMD_FORCE_SET queues its change for the first Fast period start at least 1 ms ahead (R48). -/
theorem specForceSet_run : specForceSet.run r p t =
    holdCmd 0x0310 r { t with forceQ := t.forceQ ++
      [{ req := r, opcode := 0x0310, point := some (getLE p 0 4), value := some (getSLE p 8 8)
         due := effectTime t (effectInstant (devNs t) (cls t 0).periodUs) }] } := by
  simp only [specForceSet, queueForce, forceInstant]

/-- CMD_FORCE_CLEAR queues the removal of one force, or of all with *no point* (R48, R68). -/
theorem specForceClear_run : specForceClear.run r p t =
    holdCmd 0x0311 r { t with forceQ := t.forceQ ++
      [{ req := r, opcode := 0x0311, point := if getLE p 0 4 = noPoint then none else some (getLE p 0 4), value := none
         due := effectTime t (effectInstant (devNs t) (cls t 0).periodUs) }] } := by
  simp only [specForceClear, queueForce, forceInstant]

end

/-- FORCE_EFFECT applies the changes whose instant the device time has reached and leaves the others queued (R48). -/
theorem exec_forceEffect (s : State) :
    exec .forceEffect s = .next (applyForces (s.forceQ.filter fun c => decide (0 ≤ wrapDiff 64 c.due (devNs s)))
      { s with forceQ := s.forceQ.filter fun c => !decide (0 ≤ wrapDiff 64 c.due (devNs s)) }) := by
  change execForceEffect s = _
  simp only [execForceEffect, forcesDue]

/-- Settles O6: each command by its effect, FORCE_EFFECT by the changes that are due. -/
theorem pointAndForceCommandsComplete : Obligations.PointAndForceCommandsComplete := by
  refine ⟨fun r s h => exec_of_accepted (c := specPointRead) rfl h, fun r s h => ?_, fun r s h => ?_, exec_forceEffect,
    fun r s h => exec_of_accepted (c := specForceList) rfl h⟩
  · rw [exec_of_accepted (c := specForceSet) rfl h, specForceSet_run]
  · rw [exec_of_accepted (c := specForceClear) rfl h, specForceClear_run]

/-! ### The historian (R54, R56, R57, R58) -/

/-- Settles O7: each command by its effect. -/
theorem historianCommandsComplete : Obligations.HistorianCommandsComplete :=
  ⟨fun _ _ h => exec_of_accepted (c := specHistConfig) rfl h, fun _ _ h => exec_of_accepted (c := specHistRead) rfl h,
    fun _ _ h => exec_of_accepted (c := specHistStatus) rfl h⟩

end Sys2Proof.Proofs
end

section
/-! Proofs of the engine rows: the feeder queue, the steal and its answer, completed units with their votes, and the fencing
of an engine. Each row's step is first reduced under its guard, then to the branch taken. -/

namespace Sys2Proof.Proofs

open Sys2Proof.Machine Sys2Proof.Safety Sys2Proof.Laws

/-! ### Feeding and selecting (R77, R81) -/

theorem exec_feederPush (s : State) :
    exec .feederPush s = .next (drainFeeder s.work.feeder { s with work := { s.work with feeder := [] } }) := rfl

theorem exec_engineWake_of_idle {e : EngineId} {s : State} (h : (engine s e.val).idle = true) :
    exec (.engineWake e) s = .next (selectWork e.val s) := by
  change execEngineWake e s = _
  simp only [execEngineWake, h, if_true]

/-! ### Stealing (R80) -/

/-- The deque unit of the fullest engine grants its top eligible entry. -/
theorem grantSteal_of_topEntry {e b : Nat} {q : Search} {s : State} {x : Entry}
    (h : topEntry (engine s (fullestEngine s b q.cls)) q.cls (e / 4) (q.barred.contains q.cls) = some x) :
    grantSteal e b q s =
      setEngine e (fun y => { y with grant := some (some x) }) (offDeque (fullestEngine s b q.cls) x s) := by
  simp only [grantSteal, h]

/-- A deque unit with no eligible entry answers none. -/
theorem grantSteal_of_no_topEntry {e b : Nat} {q : Search} {s : State}
    (h : topEntry (engine s (fullestEngine s b q.cls)) q.cls (e / 4) (q.barred.contains q.cls) = none) :
    grantSteal e b q s = setEngine e (fun y => { y with grant := some none }) s := by
  simp only [grantSteal, h]

section
variable {e : EngineId} {s : State} {q : Search} (hq : (engine s e.val).search = some q) (hup : engineUp s e.val = true)
include hq hup

section
variable {v : Fin 16} {c : Fin 5} (hc : q.cls = c.val) (hv : Nat.xor (e.val / 4) q.dist = v.val)
  (hg : (engine s e.val).grant = none)
include hc hv hg

/-- A request that reaches the victim its search asks wakes it, and is answered by a brick that has left TRANSITION (R17). -/
theorem exec_stealRequest_of_searching : exec (.stealRequest e v c) s = .next (
    if inService s v.val then
      if atPoint (brick (wakeBrick v.val s) v.val) then grantSteal e.val v.val q (wakeBrick v.val s) else wakeBrick v.val s
    else setEngine e.val (fun y => { y with grant := some none }) s) := by
  have hpass : ¬ (q.cls ≠ c.val ∨ Nat.xor (e.val / 4) q.dist ≠ v.val ∨ (engine s e.val).grant.isSome ∨
      !engineUp s e.val) := by
    simp only [hc, hv, hg, hup, ne_eq, not_true, Option.isSome_none, Bool.not_true, Bool.false_eq_true,
      or_self, not_false_eq_true]
  change execStealRequest e v c s = _
  simp only [execStealRequest, hq, if_neg hpass]
  cases inService s v.val <;> rfl

theorem exec_stealRequest_of_absent_victim (hin : inService s v.val = false) :
    exec (.stealRequest e v c) s = .next (setEngine e.val (fun y => { y with grant := some none }) s) := by
  rw [exec_stealRequest_of_searching hq hup hc hv hg, if_neg (ne_true_of_eq_false hin)]

theorem exec_stealRequest_of_victim_in_transition (hin : inService s v.val = true)
    (hp : atPoint (brick (wakeBrick v.val s) v.val) = false) :
    exec (.stealRequest e v c) s = .next (wakeBrick v.val s) := by
  rw [exec_stealRequest_of_searching hq hup hc hv hg, if_pos hin, if_neg (ne_true_of_eq_false hp)]

theorem exec_stealRequest_of_victim_at_point (hin : inService s v.val = true)
    (hp : atPoint (brick (wakeBrick v.val s) v.val) = true) :
    exec (.stealRequest e v c) s = .next (grantSteal e.val v.val q (wakeBrick v.val s)) := by
  rw [exec_stealRequest_of_searching hq hup hc hv hg, if_pos hin, if_pos hp]

end

theorem exec_stealGrant_of_entry {x : Entry} (hg : (engine s e.val).grant = some (some x)) :
    exec (.stealGrant e) s = .next (takeEntry e.val x true s) := by
  change execStealGrant e s = _
  simp only [execStealGrant, hq, hg, hup, Bool.not_true, Bool.false_eq_true, if_false]

/-- A thief that is answered none asks the next victim, and after the last one looks for the next class (R80). -/
theorem exec_stealGrant_of_none (hg : (engine s e.val).grant = some none) : exec (.stealGrant e) s = .next (
    let t := setEngine e.val (fun y => { y with search := none, grant := none }) s
    if q.dist < 15 then selectFrom e.val q.barred (q.dist + 1) ((upto 5).filter fun k => decide (q.cls ≤ k)) t
    else selectFrom e.val q.barred 0 ((upto 5).filter fun k => decide (q.cls < k)) t) := by
  change execStealGrant e s = _
  simp only [execStealGrant, hq, hg, hup, Bool.not_true, Bool.false_eq_true, if_false]

end

/-! ### Completed units (R71, R79) -/

section
variable {e : EngineId} {o : RunObs} {s t : State} {x : Entry} {u : UnitOut} (hx : (engine s e.val).running = some x)
  (hup : engineUp s e.val = true) (hs : (engine s e.val).stopping = false) (hu : runEntry s x o.upset = some u)
  (ht : unitEvents x.cls x.unit u (setLine x (fun l => { l with done := true }) (engineDone e.val x u.traps o.spent s)) = t)
include hx hup hs hu ht

/-- A unit that has run is settled, and its result goes where its class and role send it (R71, R88). -/
theorem exec_unitComplete_of_run : exec (.unitComplete e o) s = .next (selectWork e.val (
    if x.cls = 4 then backDone x u t
    else if x.role = 0 then unitDone x.cls x.unit (setCycle x.cls (mergeResult u.writes u.states) t)
    else setEngine e.val (fun y => { y with hashOut := y.hashOut ++
      [(x, { engine := e.val, hash := resultHash u, writes := u.writes, states := u.states })] }) t)) := by
  change execUnitComplete e o s = _
  simp only [execUnitComplete, hx, hup, hs, hu, ht, Bool.not_true, Bool.false_eq_true, if_false,
    apply_ite (selectWork e.val)]

/-- A unit of Background takes effect on the live records at its completion (the model's choice, log entry 49). -/
theorem exec_unitComplete_of_background (hc : x.cls = 4) :
    exec (.unitComplete e o) s = .next (selectWork e.val (backDone x u t)) := by
  rw [exec_unitComplete_of_run hx hup hs hu ht, if_pos hc]

theorem exec_unitComplete_of_unvoted (hc : x.cls ≠ 4) (hr : x.role = 0) : exec (.unitComplete e o) s =
    .next (selectWork e.val (unitDone x.cls x.unit (setCycle x.cls (mergeResult u.writes u.states) t))) := by
  rw [exec_unitComplete_of_run hx hup hs hu ht, if_neg hc, if_pos hr]

/-- The result of a replica is staged for its vote (R88). -/
theorem exec_unitComplete_of_replica (hc : x.cls ≠ 4) (hr : x.role ≠ 0) : exec (.unitComplete e o) s =
    .next (selectWork e.val (setEngine e.val (fun y => { y with hashOut := y.hashOut ++
      [(x, { engine := e.val, hash := resultHash u, writes := u.writes, states := u.states })] }) t)) := by
  rw [exec_unitComplete_of_run hx hup hs hu ht, if_neg hc, if_neg hr]

end

/-! ### Votes (R88, R89) -/

theorem exec_resultHash_of_staged {e : EngineId} {s : State} {x : Entry} {g : Staged} {r : List (Entry × Staged)}
    (h : (engine s e.val).hashOut = (x, g) :: r) :
    exec (.resultHash e) s = .next (takeHash x g (setEngine e.val (fun y => { y with hashOut := r }) s)) := by
  change execResultHash e s = _
  simp only [execResultHash, h]

theorem exec_stagingCopyDone_of_released {c : PClass} {u : Nat} {s : State} {v : Vote} {g : Staged}
    (hv : (s.work.votes.find? fun v => v.cls = c.val && v.unit = u && v.release.isSome && !v.discard) = some v)
    (hg : v.release = some g) : exec (.stagingCopyDone c u) s =
      .next (unitDone c.val u (setCycle c.val (mergeResult g.writes g.states) (dropVote c.val u v.stamp s))) := by
  change execStagingCopyDone c u s = _
  simp only [execStagingCopyDone, hv, hg]

/-! ### Fencing an engine (R74, R92) -/

section
variable {e : EngineId} {s : State} (hup : engineUp s e.val = true)
include hup

theorem exec_engineHung_of_overrun {x : Entry} (hx : (engine s e.val).running = some x)
    (hlate : (engine s e.val).startClk + 20 * ((entryUnit s x).map (·.worstClocks)).getD 0 ≤ brickClocks s (e.val / 4)) :
    exec (.engineHung e) s = .next (fenceEngine e.val .hung (raise 0x30 [(e.val : Int), (x.unit : Int)] s)) := by
  change execEngineHung e s = _
  simp only [execEngineHung, hx, hup, decide_eq_true hlate, Bool.and_self, if_true]

theorem exec_engineCheck_of_engineUp :
    exec (.engineCheck e) s = .next (fenceEngine e.val .check (raise 0x31 [(e.val : Int)] s)) := by
  change execEngineCheck e s = _
  simp only [execEngineCheck, hup, if_true]

end

/-- Settles O34: a steal request by its victim's state and deque, a grant by its answer, a completed unit by its class and
role, every other row by its lemma above. -/
theorem engineEventsComplete : Obligations.EngineEventsComplete := by
  refine ⟨exec_feederPush, fun e s => exec_engineWake_of_idle,
    fun e v c s q hq hc hv hg hup => ⟨exec_stealRequest_of_absent_victim hq hup hc hv hg, fun hin =>
      ⟨exec_stealRequest_of_victim_in_transition hq hup hc hv hg hin, fun x hp htop => ?_, fun hp htop => ?_⟩⟩,
    fun e s q hq hup => ⟨fun x => exec_stealGrant_of_entry hq hup, fun hg => ⟨fun hnear => ?_, fun hfar => ?_⟩⟩,
    fun e o s x u hx hup hs hu => ⟨exec_unitComplete_of_unvoted hx hup hs hu rfl,
      exec_unitComplete_of_replica hx hup hs hu rfl, exec_unitComplete_of_background hx hup hs hu rfl⟩,
    fun e s x g r => exec_resultHash_of_staged, fun c u s v g => exec_stagingCopyDone_of_released,
    fun e s x hx hup => exec_engineHung_of_overrun hup hx, fun e s => exec_engineCheck_of_engineUp⟩
  · rw [exec_stealRequest_of_victim_at_point hq hup hc hv hg hin hp, grantSteal_of_topEntry htop]
  · rw [exec_stealRequest_of_victim_at_point hq hup hc hv hg hin hp, grantSteal_of_no_topEntry htop]
  · rw [exec_stealGrant_of_none hq hup hg]
    exact congrArg _ (if_pos hnear)
  · rw [exec_stealGrant_of_none hq hup hg]
    exact congrArg _ (if_neg (Nat.not_lt.mpr hfar))

end Sys2Proof.Proofs
end

section
/-! Proofs of the ember budget: its commands and registers, the governor tick and the forced Slow course, and the banking,
waking and transitions of bricks. -/

namespace Sys2Proof.Proofs

open Sys2Proof.Machine Sys2Proof.Safety Sys2Proof.Laws

/-! ### The BGT registers (R115) -/

/-- An accepted write of a BGT register stands in it at once, and CFG_ERR follows (R115). -/
theorem exec_bgtConfigWrite_of_passes {p : Port} {off : W16} {s : State} (v : W32) (hlo : 0x904 ≤ off.toNat)
    (hhi : off.toNat ≤ 0x91C) (h : writePasses p off.toNat s) :
    exec (.bgtConfigWrite p off v) s = .next (settleCfgErr (cfgSet off.toNat v s)) := by
  have hrow : exec (.bgtConfigWrite p off v) s =
      .next (ownWrite p off.toNat (fun t => settleCfgErr (cfgSet off.toNat v t)) s) := by
    change execBgtConfigWrite p off v s = _
    simp only [execBgtConfigWrite, if_pos (And.intro hlo hhi)]
  exact exec_of_ownWrite_passes hrow h

/-! ### The governor tick (R107, R108, R109, R110) -/

/-- The first tick of a millisecond adopts the registers, classifies the pool of R107 and orders the points of R109. -/
theorem exec_governorTick_of_new_millisecond {s : State} (n : Nat) (hup : s.power.booted = true)
    (hsv : inService s idSV = true) (hnew : s.budget.tickAt ≠ devNs s / 1000000) :
    exec (.governorTick n) s = .next (
      let a := adoptBudget s
      let x := tickSum a.budget n a.work.settlement
      let b := tickBudget a.budget x
      orderPoints (upto 24) (settleAdmit (tickEvents s.budget.state (unpaid a.budget x) { a with
        budget := { b with tickAt := devNs s / 1000000, spent := (b.spent + n) % 2 ^ 64 }
        work := { a.work with settlement := 0 }
        solver := { a.solver with
          scales := noteScale a.refNs b.scale (if jobRuns a then a.solver.scales else a.solver.scales.take 1) } }))) := by
  change execGovernorTick n s = _
  simp only [execGovernorTick, hup, hsv, decide_eq_true hnew, Bool.and_self, if_true]

/-! ### The forced Slow course (R111) -/

/-- A Slow course whose units wait, unadmitted for a quarter of the period, is forced and reported (R111). -/
theorem exec_slowForced_of_waiting {s : State} {y : Cycle} {n : Nat} (hy : (cls s 2).cycle = some y)
    (hcourse : y.phase = .course n) (hfirst : y.forced = false) (hadm : admitted s 2 = false)
    (hdue : reached s (y.releasedAt + (cls s 2).periodUs * 250) = true)
    (hwait : (waitingEntries s).any (fun x => decide (x.cls = 2) && decide (x.course = n) && decide (x.role = 0)) = true) :
    exec .slowForced s = .next (
      let t := setCls 2 (fun k => { k with cycle := some { y with forced := true } }) s
      raise 0x3C [(n : Int)] { t with budget := { t.budget with slowForced := sat32 (t.budget.slowForced + 1) } }) := by
  change execSlowForced s = _
  simp only [execSlowForced, hy, hcourse, hfirst, hadm, hdue, hwait, Bool.not_false, Bool.and_self, if_true]

/-- Settles O5: each command by its effect, the register write as an own write that passes, the tick and the forced course
by their lemmas above. -/
theorem budgetCommandsComplete : Obligations.BudgetCommandsComplete :=
  ⟨fun _ _ h => exec_of_accepted (c := specBudgetConfig) rfl h, fun _ _ h => exec_of_accepted (c := specBudgetStatus) rfl h,
    fun _ _ v _ => exec_bgtConfigWrite_of_passes v, fun n _ => exec_governorTick_of_new_millisecond n,
    fun _ _ _ => exec_slowForced_of_waiting⟩

/-! ### Banking and waking (R100, R102) -/

section
variable {b : BrickId} {s : State}

/-- A brick that has been quiet for its delay goes into TRANSITION towards BANKED (R102). -/
theorem exec_brickBank_of_quiet (hup : s.power.booted = true) (hpt : atPoint (brick s b.val) = true)
    (hq : brickQuiet s b.val = true) (hdue : bankDelay s b.val ≤ since s (brick s b.val).quietFrom) :
    exec (.brickBank b) s = .next (setBrick b.val (fun y => { intoTransition s.refNs y with toBanked := true }) s) := by
  change execBrickBank b s = _
  simp only [execBrickBank, hup, hpt, hq, decide_eq_true hdue, Bool.and_self, if_true]

theorem exec_brickWake_of_released (h : s.power.released = true) : exec (.brickWake b) s = .next (wakeBrick b.val s) := by
  change execBrickWake b s = _
  simp only [execBrickWake, h, if_true]

end

/-! ### The end of a transition (R17, R101, R102) -/

/-- What a change makes of a brick depends on that brick alone. -/
theorem setBrick_eq_setBrick_const (b : Nat) (f : Brick → Brick) (s : State) :
    setBrick b f s = setBrick b (fun _ => f (brick s b)) s := rfl

/-- After the transition the handshakes held towards the brick are served, or their watchdogs start (R17). -/
theorem exec_transitionComplete_of_transition {v : SwitchTiming} {s : State} (h : (brick s v.brick.val).st = .transition) :
    exec (.transitionComplete v) s = .next (
      let t := setBrick v.brick.val
        (fun _ => afterTransition (brickQuiet s v.brick.val) v s.refNs (brick s v.brick.val)) s
      if v.answered then servePorts v.brick.val (upto (portCount v.brick.val)) t
      else startWatchdogs v.brick.val (upto (portCount v.brick.val)) t) := by
  change execTransitionComplete v s = _
  simp only [execTransitionComplete, h, if_true,
    setBrick_eq_setBrick_const _ (afterTransition (brickQuiet s v.brick.val) v s.refNs)]

/-- Settles O36: banking and waking under their guards; the end of a transition leaves its brick as afterTransition, whose
cases (to be banked, woken, at a new point) the statement spells out. -/
theorem brickEventsComplete : Obligations.BrickEventsComplete := by
  refine ⟨fun b s => exec_brickBank_of_quiet, fun b s => exec_brickWake_of_released, fun v s h => ?_⟩
  intro x y z a
  have ha : afterTransition (brickQuiet s v.brick.val) v s.refNs x = a := rfl
  rw [exec_transitionComplete_of_transition h, ha]

end Sys2Proof.Proofs
end

section
/-! Proofs about programs: the condition codes of the virtual machine and their verification. -/

namespace Sys2Proof.Proofs

open Sys2Proof.Machine Sys2Proof.Safety Sys2Proof.Laws

/-! ### The condition code of a word (R140) -/

section
variable {i : InstEntry} {w : W32}

/-- Verification takes a word only with its immediate in order. -/
theorem wordOk_eq_false_of_immOk (pc : Nat) (h : immOk i w = false) : wordOk i pc w = false := by
  simp only [wordOk, h, Bool.and_false, Bool.false_and]

/-- Operation 0x21 carries its condition code in its immediate (R140). -/
theorem immOk_of_opc_0x21 (hop : wOpc w = 0x21) : immOk i w = decide (wImm w ≤ 10) := by
  simp only [immOk, hop]

/-- Operation 0x22 carries its condition code in its RD field (R140). -/
theorem immOk_of_opc_0x22 (hop : wOpc w = 0x22) : immOk i w = decide (wRd w ≤ 10) := by
  simp only [immOk, hop]

end

/-- Settles O49: each code by its row of vmCond; the two operations by their immediate check, which a code past 10 fails. -/
theorem conditionCodes : Obligations.ConditionCodes := by
  refine ⟨fun m => ⟨rfl, rfl, rfl, rfl, rfl, rfl, rfl, rfl, rfl, rfl, rfl⟩, fun i pc w hop hcode => ?_,
    fun i pc w hop hcode => ?_⟩
  · apply wordOk_eq_false_of_immOk
    rw [immOk_of_opc_0x21 hop, decide_eq_false (Nat.not_le.mpr hcode)]
  · apply wordOk_eq_false_of_immOk
    rw [immOk_of_opc_0x22 hop, decide_eq_false (Nat.not_le.mpr hcode)]

end Sys2Proof.Proofs
end

section
/-! Proofs of the loop engine's rows: the commands on channels, the millisecond with what the one before it left over, and the
fault timer. -/

namespace Sys2Proof.Proofs

open Sys2Proof.Machine Sys2Proof.Safety Sys2Proof.Laws

/-! ### The millisecond (R150, R151) -/

/-- What the millisecond `ms` makes of the state in which the `late` channels left over are evaluated: descriptors of MODE 0 take
effect, and of the channels then due all but the last `left` are evaluated (R150, R166). -/
def afterMillisecond (ms us left late : Nat) (s : State) : State :=
  let t := { s with loops := s.loops.map (adoptOff (ms * 1000000) s) }
  let due := (t.loops.map (·.1)).filter (channelDue t ms)
  let now := due.take (due.length - left)
  let u := evalChannels ms now t
  { u with
    loopMs := ms, loopLeft := due.drop now.length, loopEvals := (u.loopEvals + late + now.length) % 2 ^ 64
    loopMaxLoad := Nat.max u.loopMaxLoad us }

section
variable (us left : Nat) {s : State} (hready : s.power.ready = true) (hlb : inService s idLB = true)
  (hnew : s.loopMs ≠ devNs s / 1000000)
include hready hlb hnew

/-- LOOP_MS_TICK takes the first tick of a millisecond, after what the one before it left unevaluated has led to `l` (R151). -/
theorem exec_loopMsTick_of_new_millisecond {l : State}
    (hlate : (if s.loopLeft.isEmpty then s
      else evalChannels s.loopMs s.loopLeft (raise 0x40 [(s.loopMs : Int)] (rcAdd 0xA10 1 s))) = l) :
    exec (.loopMsTick us left) s = .next (afterMillisecond (devNs s / 1000000) us left s.loopLeft.length l) := by
  change execLoopMsTick us left s = _
  simp only [execLoopMsTick, afterMillisecond, hready, hlb, decide_eq_true hnew, Bool.and_self, if_true, hlate]

/-- A millisecond after one that left nothing evaluates its own channels only. -/
theorem exec_loopMsTick_of_none_left (hnone : s.loopLeft = []) :
    exec (.loopMsTick us left) s = .next (afterMillisecond (devNs s / 1000000) us left 0 s) := by
  rw [exec_loopMsTick_of_new_millisecond us left hready hlb hnew (if_pos (List.isEmpty_iff.mpr hnone)), hnone,
    List.length_nil]

/-- A millisecond evaluates first what the one before it left, raising LOOP_LATE and counting (R151). -/
theorem exec_loopMsTick_of_some_left (hsome : s.loopLeft ≠ []) :
    exec (.loopMsTick us left) s = .next (afterMillisecond (devNs s / 1000000) us left s.loopLeft.length
      (evalChannels s.loopMs s.loopLeft (raise 0x40 [(s.loopMs : Int)] (rcAdd 0xA10 1 s)))) :=
  exec_loopMsTick_of_new_millisecond us left hready hlb hnew (if_neg (mt List.isEmpty_iff.mp hsome))

end

/-! ### The fault timer (R162, R163, R164) -/

/-- A faultless channel in operation whose timer has run out takes its fault action, which governs the output (R162, R164). -/
theorem exec_loopFeExpiry_of_expired {ch : Fin 2048} {s : State} {d : LoopDesc} (hd : (chan s ch.val).desc = some d)
    (hmode : d.mode ≠ 0) (htime : d.feTimeMs ≠ 0) (hfe : d.feTimeMs ≤ (chan s ch.val).feMs)
    (hfault : (chan s ch.val).fault = .none) (hheld : (chan s ch.val).held = false) :
    exec (.loopFeExpiry ch) s = .next (
      let x := takeAction ch.val d (chan s ch.val) s
      loopOutput d (loopQuality (readRec x.2 d.pvPoint).quality x.1.latchedQ x.1) (devNs x.2) x.1
        (setChan ch.val (fun _ => x.1) x.2)) := by
  change execLoopFeExpiry ch s = _
  simp only [execLoopFeExpiry, hd, decide_eq_true hmode, decide_eq_true htime, decide_eq_true hfe, decide_eq_true hfault,
    hheld, Bool.not_false, Bool.and_self, if_true]

/-- Settles O8: each command by its effect, the millisecond by whether the last one left channels unevaluated, the fault timer
under its guard. -/
theorem loopCommandsComplete : Obligations.LoopCommandsComplete :=
  ⟨fun _ _ h => exec_of_accepted (c := specLoopConfig) rfl h, fun _ _ h => exec_of_accepted (c := specLoopRead) rfl h,
    fun _ _ h => exec_of_accepted (c := specLoopEnable) rfl h, fun _ _ h => exec_of_accepted (c := specLoopAck) rfl h,
    fun _ _ h => exec_of_accepted (c := specLoopStatus) rfl h, fun us left _ => exec_loopMsTick_of_none_left us left,
    fun us left _ => exec_loopMsTick_of_some_left us left, fun _ _ _ => exec_loopFeExpiry_of_expired⟩

end Sys2Proof.Proofs
end

section
/-! Proofs of the network solver's rows: loads and switches of models, the jobs with their abort, return and factorisation
limit, and SOL_CTRL. -/

namespace Sys2Proof.Proofs

open Sys2Proof.Machine Sys2Proof.Safety Sys2Proof.Laws

/-! ### Loading a model (R187, R219) -/

section
variable (r : Req) {p : Bytes} {s t : State}
  (ht : (if getLE p 0 4 = 0 then { s with solver := { s.solver with loaded := none } } else s) = t)
include ht

/-- CMD_MODEL_LOAD keeps a chunk that does not complete the model (R219). -/
theorem specModelLoad_run_of_more (hmore : chunkDone (chunkNext s.solver.load p) = false) :
    specModelLoad.run r p s =
      finishOk 0x0501 r [] { t with solver := { t.solver with load := some (chunkNext s.solver.load p) } } := by
  simp only [specModelLoad, hmore, Bool.false_eq_true, if_false, ht]

section
variable {c : ChunkLoad} {u : State} (hc : chunkNext s.solver.load p = c) (hdone : chunkDone c = true)
  (hu : { t with solver := { t.solver with load := none } } = u)
include hc hdone hu

/-- A complete model that passes waits for its switch (R187, R219). -/
theorem specModelLoad_run_of_passed {v : State} (hpass : modelFault u c.received = none)
    (hv : afterChecks none c.received (getLE c.received 44 4) u = v) :
    specModelLoad.run r p s =
      finishOk 0x0501 r [] { v with solver := { v.solver with loaded := some (parseModel c.received) } } := by
  simp only [specModelLoad, ht, hc, hdone, if_true, hu, hpass, Option.map_none, hv]

/-- A complete model that fails a check is refused with it and raises MODEL_REJECTED (R187, R219). -/
theorem specModelLoad_run_of_refused {n st : Nat} (hfail : modelFault u c.received = some (n, st)) :
    specModelLoad.run r p s = finish 0x0501 r st (loadDetail n st) [] (raiseC 0x56 [n] n
      (afterChecks (some n) c.received (getLE c.received 44 4) u)) := by
  simp only [specModelLoad, ht, hc, hdone, if_true, hu, hfail, Option.map_some]

end

end

/-! ### Switching models (R213, R220) -/

/-- A switch whose instant the device time has reached puts the model into force and drops the kept factors (R213, R220). -/
theorem exec_modelSwitchEffect_of_reached {s : State} {r : Req} {n : Nat} {m : Model} (hsw : s.solver.switch = some (r, n))
    (hm : s.solver.loaded = some m) (hdue : reached s n = true) :
    exec .modelSwitchEffect s = .next (finishOk 0x0502 r [] (noteMismatch (raise 0x57 [(m.crc.toNat : Int)] { s with
      solver := { s.solver with
        model := some m, loaded := none, switch := none, switched := true, keptHyd := none, keptTherm := none } }))) := by
  have hpast : 0 ≤ wrapDiff 64 n (devNs s) := of_decide_eq_true hdue
  change execModelSwitchEffect s = _
  simp only [execModelSwitchEffect, modelDue, hsw, hm, if_pos hpast]

/-! ### Host jobs (R217, R222, R224) -/

/-- With a model in force CMD_SOLVER_RUN starts its job (R222). -/
theorem specSolverRun_run_of_model (r : Req) (p : Bytes) {t : State} {m : Model} (hm : t.solver.model = some m) :
    specSolverRun.run r p t =
      let j := startJob t m (parseDesc p) (devNs t) (devNs t + getLE p 24 4 * 1000) (some r) (readRec t)
      holdCmd 0x0510 r (wakeHomes j.tileRows (raiseIslands j { t with solver := { t.solver with hostJob := some j } })) := by
  simp only [specSolverRun, hm]

/-- A host job that is aborted ends with its record, and its lanes rest (R217, R224). -/
theorem abortHost_of_running {s : State} {j : JobRun} (hj : s.solver.hostJob = some j) :
    abortHost s = restLanes (finishOpt 0x0510 j.req stAborted 0 (jobBytes (abortedRecord s j))
      { s with solver := { s.solver with hostJob := none } }) := by
  simp only [abortHost, hj]

theorem abortHost_of_none {s : State} (hnone : s.solver.hostJob = none) : abortHost s = s := by
  simp only [abortHost, hnone]

/-- CMD_SOLVER_ABORT aborts the host job and completes (R224). -/
theorem specSolverAbort_run (r : Req) (p : Bytes) (t : State) :
    specSolverAbort.run r p t = finishOk 0x0512 r [] (abortHost t) := rfl

/-- A command with no payload has the right length only without one. -/
theorem fixedLen_zero_eq_none_iff (p : Bytes) : fixedLen 0 p = none ↔ p = [] := by
  simp [fixedLen]

/-! ### The return of a job (R209, R210, R217) -/

section
variable (v : JobTiming) {s : State} {j : JobRun}

theorem exec_solverJobReturn_of_hostJob (hj : s.solver.hostJob = some j) :
    exec (.solverJobReturn true v) s = .next (returnHost j v s) := by
  change execSolverJobReturn true v s = _
  simp only [execSolverJobReturn, if_true, hj]

/-- The Main job returns with the records of its kinds, which go to the standby in the same step (R210). -/
theorem exec_solverJobReturn_of_mainJob (hj : s.solver.mainJob = some j) (hmay : mayReturn s 1 = true) :
    exec (.solverJobReturn false v) s = .next (
      let e := endJob s (stopsFor s [1, 2]) j v
      jobReturned 1 (returnMain j e (sendStops [1, 2] e.acc.stops (dropStops [1, 2] s)))) := by
  change execSolverJobReturn false v s = _
  simp only [execSolverJobReturn, Bool.false_eq_true, if_false, hj, hmay, if_true]

end

/-! ### The factorisation limit (R202) -/

section
variable {s : State} {j i : JobRun} (hlimit : noteLimit s j = some i)
include hlimit

/-- The limit is noted in the Main job where one runs (R202). -/
theorem exec_factorLimit_of_mainJob (hj : s.solver.mainJob = some j) :
    exec .factorLimit s = .next { s with solver := { s.solver with mainJob := some i } } := by
  change execFactorLimit s = _
  simp only [execFactorLimit, hj, Option.bind_some, hlimit]

/-- With no Main job the limit is noted in the host job (R202). -/
theorem exec_factorLimit_of_hostJob (hnone : s.solver.mainJob = none) (hj : s.solver.hostJob = some j) :
    exec .factorLimit s = .next { s with solver := { s.solver with hostJob := some i } } := by
  change execFactorLimit s = _
  simp only [execFactorLimit, hnone, Option.bind_none, hj, Option.bind_some, hlimit]

end

/-- Settles O9: the load by whether it is complete and its model passes, each other command by its effect, the events by their
lemmas above, SOL_CTRL as an own write that passes. -/
theorem solverCommandsComplete : Obligations.SolverCommandsComplete := by
  refine ⟨fun r s h => ?_, fun r s h => exec_of_accepted (c := specModelSwitch) rfl h,
    fun s r n m => exec_modelSwitchEffect_of_reached, fun r s h => exec_of_accepted (c := specSolverConfig) rfl h,
    fun r s m h => ?_, fun r s h => exec_of_accepted (c := specSolverStatus) rfl h,
    fun r s h => exec_of_accepted (c := specSolverAbort) rfl h, fun v s j => exec_solverJobReturn_of_hostJob v,
    fun v s j => exec_solverJobReturn_of_mainJob v, fun s j i hj hlimit => exec_factorLimit_of_mainJob hlimit hj,
    fun s j i hnone hj hlimit => exec_factorLimit_of_hostJob hlimit hnone hj,
    fun p v s h => exec_of_ownWrite_passes (f := solCtrl v) rfl h⟩
  · intro p b t c u v
    rw [exec_of_accepted (c := specModelLoad) rfl h]
    cases hdone : chunkDone c with
    | false => rw [specModelLoad_run_of_more (t := t) r rfl hdone, if_neg Bool.false_ne_true]
    | true =>
      rw [if_pos rfl]
      cases hf : modelFault u c.received with
      | none =>
        rw [specModelLoad_run_of_passed (t := t) (c := c) (u := u) r rfl rfl hdone rfl hf rfl]
        simp only [v, hf, Option.map_none]
      | some f =>
        obtain ⟨n, st⟩ := f
        rw [specModelLoad_run_of_refused (t := t) (c := c) (u := u) r rfl rfl hdone rfl hf]
        simp only [v, hf, Option.map_some]
  · intro t j hm
    rw [exec_of_accepted (c := specSolverRun) rfl h, specSolverRun_run_of_model r _ hm]

/-- Settles O50: the command aborts the host job, and without one there is nothing to abort. -/
theorem solverAbort : Obligations.SolverAbort := by
  refine ⟨fixedLen_zero_eq_none_iff, fun r s j h => ?_, fun r s h => ?_⟩
  · intro t hj
    rw [exec_of_accepted (c := specSolverAbort) rfl h, specSolverAbort_run, abortHost_of_running hj]
  · intro t hnone
    rw [exec_of_accepted (c := specSolverAbort) rfl h, specSolverAbort_run, abortHost_of_none hnone]

end Sys2Proof.Proofs
end

section
/-! Proofs of the rows of the optimiser and the state estimator: loads and switches of problems, loads of measurement tables,
the optimise job from its issue to its plan, and the estimator's runs. -/

namespace Sys2Proof.Proofs

open Sys2Proof.Machine Sys2Proof.Safety Sys2Proof.Laws

/-! ### Loading a problem (R231, R251) -/

section
variable (r : Req) {p : Bytes} {s t : State}
  (ht : (if getLE p 0 4 = 0 then { s with opt := { s.opt with loaded := none } } else s) = t)
include ht

/-- CMD_OPT_PROBLEM_LOAD keeps a chunk that does not complete the problem (R251). -/
theorem specOptProblemLoad_run_of_more (hmore : chunkDone (chunkNext s.opt.load p) = false) :
    specOptProblemLoad.run r p s =
      finishOk 0x0520 r [] { t with opt := { t.opt with load := some (chunkNext s.opt.load p) } } := by
  simp only [specOptProblemLoad, hmore, Bool.false_eq_true, if_false, ht]

section
variable {c : ChunkLoad} {u : State} (hc : chunkNext s.opt.load p = c) (hdone : chunkDone c = true)
  (hu : { t with opt := { t.opt with load := none } } = u)
include hc hdone hu

/-- A complete problem that passes waits for its switch (R231, R251). -/
theorem specOptProblemLoad_run_of_passed {v : State} (hpass : probFault u c.received = none)
    (hv : afterChecks none c.received (getLE c.received 52 4) u = v) :
    specOptProblemLoad.run r p s =
      finishOk 0x0520 r [] { v with opt := { v.opt with loaded := some (parseProblem c.received) } } := by
  simp only [specOptProblemLoad, ht, hc, hdone, if_true, hu, hpass, Option.map_none, hv]

/-- A complete problem that fails a check is refused with it, and raises an event unless its signature failed (R251). -/
theorem specOptProblemLoad_run_of_refused {n st : Nat} {v : State} (hfail : probFault u c.received = some (n, st))
    (hv : afterChecks (some n) c.received (getLE c.received 52 4) u = v) :
    specOptProblemLoad.run r p s =
      finish 0x0520 r st (loadDetail n st) [] (if st = stDenied then v else raiseC 0x58 [n] n v) := by
  simp only [specOptProblemLoad, ht, hc, hdone, if_true, hu, hfail, Option.map_some, hv]

end

end

/-! ### Switching problems (R244, R251) -/

/-- A switch whose instant the device time has reached puts the problem into force (R244, R251). -/
theorem exec_problemSwitchEffect_of_reached {s : State} {r : Req} {n : Nat} {p : Problem} (hsw : s.opt.switch = some (r, n))
    (hp : s.opt.loaded = some p) (hdue : reached s n = true) :
    exec .problemSwitchEffect s = .next (finishOk 0x0521 r [] (noteMismatch (adoptProblem p s))) := by
  have hpast : 0 ≤ wrapDiff 64 n (devNs s) := of_decide_eq_true hdue
  change execProblemSwitchEffect s = _
  simp only [execProblemSwitchEffect, problemDue, hsw, hp, if_pos hpast]

/-! ### The optimise job (R229, R238, R240, R244) -/

/-- The job wanted of the Optimise cycle is issued with the cycle's snapshot once the class is admitted (R238). -/
theorem exec_optJobIssue_of_admitted {s : State} {y : Cycle} {p : Problem} {d : JobDesc} (hy : (cls s 3).cycle = some y)
    (hp : s.opt.problem = some p) (hd : s.opt.desc = some d) (hw : s.opt.wanted = true) (hidle : s.opt.job = none)
    (hadm : admitted s 3 = true) (hfit : optMismatch s p = false) : exec .optJobIssue s = .next (
      let j := startOpt s p d y.stamp (snapRead s y)
      wakeHomes j.tileRows { s with opt := { s.opt with wanted := false, job := some j } }) := by
  change execOptJobIssue s = _
  simp only [execOptJobIssue, hy, hp, hd, hw, hidle, hadm, hfit, Option.isNone_none, Bool.not_false, Bool.and_self, if_true]

/-- The optimise job returns its plan, and its records go to the standby in the same step (R240, R244). -/
theorem exec_optJobReturn_of_job (v : JobTiming) {s : State} {j : OptRun} (hj : s.opt.job = some j)
    (hmay : mayReturn s 3 = true) : exec (.optJobReturn v) s = .next (
      let w := runOpt (arrayEnv s j.issued (stopsFor s [3])) j v
      jobReturned 3 (returnOpt j w.1 w.2 (sendStops [3] w.1.acc.stops (dropStops [3] s)))) := by
  change execOptJobReturn v s = _
  simp only [execOptJobReturn, hj, hmay, if_true]

/-- With a plan in force CMD_PLAN_READ answers the values it names (R254). -/
theorem specPlanRead_run_of_plan (r : Req) (p : Bytes) {t : State} {q : Plan} (hq : t.opt.plan = some q) :
    specPlanRead.run r p t = finishOk 0x0524 r (putLE 8 q.t0 ++ putLE 4 q.stepS ++ zeros 4 ++
      (upto (getLE p 3 1)).flatMap fun k => putSLE 8 (lget (lget q.values (getLE p 0 2) []) (getLE p 2 1 + k) 0)) t := by
  simp only [specPlanRead, hq]

/-! ### Loading a measurement table (R247, R255) -/

section
variable (r : Req) {p : Bytes} {s : State}

/-- CMD_EST_LOAD keeps a chunk that does not complete the table (R255). -/
theorem specEstLoad_run_of_more (hmore : chunkDone (chunkNext s.est.load p) = false) :
    specEstLoad.run r p s =
      finishOk 0x0530 r [] { s with est := { s.est with load := some (chunkNext s.est.load p) } } := by
  simp only [specEstLoad, hmore, Bool.false_eq_true, if_false]

section
variable {c : ChunkLoad} {u : State} (hc : chunkNext s.est.load p = c) (hdone : chunkDone c = true)
  (hu : { s with est := { s.est with load := none } } = u)
include hc hdone hu

/-- A complete table that passes is in use at once (R247, R255). -/
theorem specEstLoad_run_of_passed {v : State} (hpass : tableFault u c.received = none)
    (hv : afterChecks none c.received (getLE c.received 40 4) u = v) :
    specEstLoad.run r p s =
      finishOk 0x0530 r [] { v with est := { v.est with table := some (parseTable c.received) } } := by
  simp only [specEstLoad, hc, hdone, if_true, hu, hpass, Option.map_none, hv]

/-- A complete table that fails a check is refused with it and raises EST_TABLE_REJECTED (R247, R255). -/
theorem specEstLoad_run_of_refused {n st : Nat} (hfail : tableFault u c.received = some (n, st)) :
    specEstLoad.run r p s = finish 0x0530 r st (loadDetail n st) [] (raiseC 0x5D [n] n
      (afterChecks (some n) c.received (getLE c.received 40 4) u)) := by
  simp only [specEstLoad, hc, hdone, if_true, hu, hfail, Option.map_some]

end

end

/-! ### The estimator's runs (R249, R250, R256) -/

section
variable {s : State} (hnone : s.est.run = none) (hready : estReady s = true)
include hnone hready

/-- A pending run starts, and a waiting test stays where it is (R249). -/
theorem exec_estRunStart_of_pending {n : EstTrigger} {r : Option Req} (hpend : s.est.pending = some (n, r)) :
    exec .estRunStart s = .next (startEst n r { s with est := { s.est with pending := none } }) := by
  change execEstRunStart s = _
  simp only [execEstRunStart, hnone, hready, hpend, Option.isSome_none, Bool.not_true, Bool.false_eq_true, if_false]

/-- With no run pending the waiting test starts (R249). -/
theorem exec_estRunStart_of_waiting_test {r : Req} (hpend : s.est.pending = none) (htest : s.est.testReq = some r) :
    exec .estRunStart s = .next (startEst .test (some r) { s with est := { s.est with testReq := none } }) := by
  change execEstRunStart s = _
  simp only [execEstRunStart, hnone, hready, hpend, htest, Option.isSome_none, Bool.not_true, Bool.false_eq_true, if_false]

end

section
variable (v : JobTiming) {s : State} {x : EstRun} (hx : s.est.run = some x)
include hx

/-- A test runs on the receiving module only: it follows no records and sends none (R249). -/
theorem exec_estRunReturn_of_test (htest : x.trig = .test) :
    exec (.estRunReturn v) s = .next (returnEst x (runEst s none x v) s) := by
  change execEstRunReturn v s = _
  simp only [execEstRunReturn, hx, if_pos htest]

/-- Any other run returns with its records, which go to the standby in the same step (R240, R250). -/
theorem exec_estRunReturn_of_ne_test (htrig : x.trig ≠ .test) (hmay : mayReturn s 4 = true) :
    exec (.estRunReturn v) s = .next (
      let w := runEst s (stopsFor s [4]) x v
      releaseStart x.trig (returnEst x w (sendStops [4] w.acc.stops (dropStops [4] s)))) := by
  change execEstRunReturn v s = _
  simp only [execEstRunReturn, hx, if_neg htrig, hmay, if_true]

end

/-- Settles O10: the loads by whether they are complete and pass, each other command by its effect, the events by their lemmas
above. -/
theorem optimiserAndEstimatorCommandsComplete : Obligations.OptimiserAndEstimatorCommandsComplete := by
  refine ⟨fun r s h => ?_, fun r s h => exec_of_accepted (c := specOptProblemSwitch) rfl h,
    fun s r n p => exec_problemSwitchEffect_of_reached, fun r s h => exec_of_accepted (c := specOptConfig) rfl h,
    fun r s h => exec_of_accepted (c := specOptStatus) rfl h, fun r s q h => ?_, fun r s h => ?_,
    fun r s h => exec_of_accepted (c := specEstConfig) rfl h, fun r s h => exec_of_accepted (c := specEstRun) rfl h,
    fun r s h => exec_of_accepted (c := specEstStatus) rfl h, fun s y p d => exec_optJobIssue_of_admitted,
    fun v s j => exec_optJobReturn_of_job v, fun s n r hnone hready => exec_estRunStart_of_pending hnone hready,
    fun s r hnone hready => exec_estRunStart_of_waiting_test hnone hready, fun v s x => exec_estRunReturn_of_test v,
    fun v s x => exec_estRunReturn_of_ne_test v⟩
  · intro p b t c u v
    rw [exec_of_accepted (c := specOptProblemLoad) rfl h]
    cases hdone : chunkDone c with
    | false => rw [specOptProblemLoad_run_of_more (t := t) r rfl hdone, if_neg Bool.false_ne_true]
    | true =>
      rw [if_pos rfl]
      cases hf : probFault u c.received with
      | none =>
        rw [specOptProblemLoad_run_of_passed (t := t) (c := c) (u := u) r rfl rfl hdone rfl hf rfl]
        simp only [v, hf, Option.map_none]
      | some f =>
        obtain ⟨n, st⟩ := f
        rw [specOptProblemLoad_run_of_refused (t := t) (c := c) (u := u) r rfl rfl hdone rfl hf rfl]
        simp only [v, hf, Option.map_some]
  · intro t p hq
    rw [exec_of_accepted (c := specPlanRead) rfl h, specPlanRead_run_of_plan r _ hq]
  · intro p t c u v
    rw [exec_of_accepted (c := specEstLoad) rfl h]
    cases hdone : chunkDone c with
    | false => rw [specEstLoad_run_of_more r hdone, if_neg Bool.false_ne_true]
    | true =>
      rw [if_pos rfl]
      cases hf : tableFault u c.received with
      | none =>
        rw [specEstLoad_run_of_passed (c := c) (u := u) r rfl hdone rfl hf rfl]
        simp only [v, hf, Option.map_none]
      | some f =>
        obtain ⟨n, st⟩ := f
        rw [specEstLoad_run_of_refused (c := c) (u := u) r rfl hdone rfl hf]
        simp only [v, hf, Option.map_some]

end Sys2Proof.Proofs
end

section
/-! Proofs of the rows of metering: the parameter block from its load to its effect, the reads, and the events of frames,
ports, sets, heat channels, saves and intervals. -/

namespace Sys2Proof.Proofs

open Sys2Proof.Machine Sys2Proof.Safety Sys2Proof.Laws

/-! ### Loading a parameter block (R279, R293) -/

section
variable (r : Req) {p : Bytes} {s : State}

/-- CMD_MTR_PARAM_LOAD keeps a chunk that does not complete the block (R293). -/
theorem specMtrParamLoad_run_of_more (hmore : chunkDone (chunkNext s.meter.load p) = false) :
    specMtrParamLoad.run r p s =
      finishOk 0x0601 r [] { s with meter := { s.meter with load := some (chunkNext s.meter.load p) } } := by
  simp only [specMtrParamLoad, hmore, Bool.false_eq_true, if_false]

section
variable {c : ChunkLoad} {u : State} (hc : chunkNext s.meter.load p = c) (hdone : chunkDone c = true)
  (hu : { s with meter := { s.meter with load := none } } = u)
include hc hdone hu

/-- A complete block that is not valid is refused with ST_BAD_CRC (R279, R293). -/
theorem specMtrParamLoad_run_of_not_valid (hv : meterValid c.received = false) :
    specMtrParamLoad.run r p s = finish 0x0601 r stBadCrc 0 [] u := by
  simp only [specMtrParamLoad, hc, hdone, hu, hv, Bool.not_false, if_true]

/-- A valid block whose signature fails is refused with ST_DENIED (R279, R293). -/
theorem specMtrParamLoad_run_of_not_verified (hv : meterValid c.received = true)
    (hsig : sectionVerify u destUv c.received 20544 = false) :
    specMtrParamLoad.run r p s = finish 0x0601 r stDenied 7 [] u := by
  simp only [specMtrParamLoad, hc, hdone, hu, hv, hsig, Bool.not_true, Bool.not_false, Bool.false_eq_true, if_true, if_false]

/-- A valid block that verifies waits for its switch (R279, R293). -/
theorem specMtrParamLoad_run_of_verified (hv : meterValid c.received = true)
    (hsig : sectionVerify u destUv c.received 20544 = true) :
    specMtrParamLoad.run r p s =
      let v := sectionUsed c.received 20544 u
      finishOk 0x0601 r [] { v with meter := { v.meter with loaded := some (parseMeter c.received, c.received) } } := by
  simp only [specMtrParamLoad, hc, hdone, hu, hv, hsig, Bool.not_true, Bool.false_eq_true, if_true, if_false]

end

end

/-! ### Switching parameters (R279, R284) -/

/-- A switch that names the verified block records the change, writes both copies and waits for the next whole second
(R284). -/
theorem specMtrParamSwitch_run_of_switchBlock (r : Req) {p : Bytes} {t : State} {b : MeterParams × Bytes}
    (hb : switchBlock t p = some b) : specMtrParamSwitch.run r p t =
      let u := writeNewest 0x6A (raise 0x6A [(((t.meter.params.map MeterParams.crc).getD 0).toNat : Int), (b.1.crc.toNat : Int),
        (((t.meter.params.map MeterParams.paramId).getD 0).toNat : Int), (b.1.paramId.toNat : Int)] t)
      holdCmd 0x0602 r { u with
        stores := { u.stores with meterRec := fset (fset u.stores.meterRec 0 b.2) 1 b.2 }
        meter := { u.meter with switch := some {
          req := r, params := b.1, raw := b.2, due := (devNs u / 1000000000 + 1) * 1000000000 } } } := by
  simp only [specMtrParamSwitch, hb]

/-- A switch whose second the device time has reached closes the open intervals short and puts the parameters into force
(R279, R284). -/
theorem exec_mtrParamEffect_of_reached {s : State} {w : ParamSwitch} (hw : s.meter.switch = some w)
    (hdue : reached s w.due = true) : exec .mtrParamEffect s = .next (
      let t := closeAll ivShort w.due s
      finishOk 0x0602 w.req [] (openAll 0 w.due
        { t with meter := { t.meter with params := some w.params, switch := none } })) := by
  change execMtrParamEffect s = _
  simp only [execMtrParamEffect, hw, hdue, if_true]

/-! ### Interval records (R278, R293) -/

/-- CMD_MTR_INTERVALS answers the records from a SEQ on and whether that SEQ was older than the ring (R293). -/
theorem specMtrIntervals_run (r : Req) (p : Bytes) (t : State) : specMtrIntervals.run r p t =
    let x := intervalsFrom (intervalOf t (getLE p 0 1)) (BitVec.ofNat 32 (getLE p 4 4)) (getLE p 1 1)
    finishOk 0x0611 r ([byte x.1.length, byte (b2n x.2)] ++ zeros 6 ++ x.1.flatMap intervalBytes) t := rfl

/-- Settles O11: the load by whether the block is complete, valid and verified, the switch by the block it names, each other
command by its effect, the effect of a switch by its lemma above. -/
theorem meteringCommandsComplete : Obligations.MeteringCommandsComplete := by
  refine ⟨fun r s h => ?_, fun r s b h => ?_, fun s w => exec_mtrParamEffect_of_reached,
    fun r s h => exec_of_accepted (c := specMtrParamRead) rfl h, fun r s h => exec_of_accepted (c := specMtrTotals) rfl h,
    fun r s h => ?_, fun r s h => exec_of_accepted (c := specMtrEnable) rfl h,
    fun r s h => exec_of_accepted (c := specMtrAdopt) rfl h⟩
  · intro t c u
    rw [exec_of_accepted (c := specMtrParamLoad) rfl h]
    cases hdone : chunkDone c with
    | false => rw [specMtrParamLoad_run_of_more r hdone, if_neg Bool.false_ne_true]
    | true =>
      rw [if_pos rfl]
      cases hv : meterValid c.received with
      | false => rw [specMtrParamLoad_run_of_not_valid (u := u) r rfl hdone rfl hv, if_neg Bool.false_ne_true]
      | true =>
        rw [if_pos rfl]
        cases hsig : sectionVerify u destUv c.received 20544 with
        | false => rw [specMtrParamLoad_run_of_not_verified r rfl hdone rfl hv hsig, if_neg Bool.false_ne_true]
        | true => rw [specMtrParamLoad_run_of_verified r rfl hdone rfl hv hsig, if_pos rfl]
  · intro t hb u
    rw [exec_of_accepted (c := specMtrParamSwitch) rfl h, specMtrParamSwitch_run_of_switchBlock r hb]
  · intro t p x
    rw [exec_of_accepted (c := specMtrIntervals) rfl h, specMtrIntervals_run]

/-! ### Frames and ports (R259, R260, R272) -/

/-- A discarded frame is counted, ends the run of good ones and misses one frame's time (R259). -/
theorem discardFrame_eq (n : Nat) (s : State) : discardFrame n s =
    missFrames n 1 (rcAdd 0xC10 1 (setMset n (fun m => { m with lastSeq := m.lastSeq.map (· + 1), okRun := 0 }) s)) := rfl

section
variable {n : Fin 4} {s : State} (hon : meterOn s = true)
include hon

section
variable {l : List W32} (hfed : portFed s n.val = false)
include hfed

/-- A good frame of a port that no loop feeds is accepted (R259). -/
theorem exec_mspFrame_of_good (hgood : frameGood l = true) :
    exec (.mspFrame n l) s = .next (acceptFrame n.val l s) := by
  change execMspFrame n l s = _
  simp only [execMspFrame, hon, hfed, hgood, Bool.not_false, Bool.and_self, if_true]

/-- A bad frame of a port that no loop feeds is discarded (R259). -/
theorem exec_mspFrame_of_bad (hbad : frameGood l = false) :
    exec (.mspFrame n l) s = .next (discardFrame n.val s) := by
  change execMspFrame n l s = _
  simp only [execMspFrame, hon, hfed, hbad, Bool.not_false, Bool.and_self, Bool.false_eq_true, if_true, if_false]

end

/-- A port without a frame for 1 ms is lost, and its enabled set loses its signal (R260). -/
theorem exec_meterPortLoss_of_silent (hlost : (mset s n.val).portLost = false)
    (hsilent : 1000000 ≤ since s (mset s n.val).lastFrame) : exec (.meterPortLoss n) s = .next (
      let t := setMset n.val (fun m => { m with portLost := true, okRun := 0 }) s
      stopIfDisabling n.val (raise 0x60 [(n.val : Int)]
        (if (mset s n.val).los || !(mset s n.val).enabled then t else loseSignal n.val t))) := by
  change execMeterPortLoss n s = _
  simp only [execMeterPortLoss, hon, hlost, decide_eq_true hsilent, Bool.not_false, Bool.and_self, if_true]

/-- A set without a zero crossing for its ZC_TIMEOUT loses its signal (R272). -/
theorem exec_zcTimeout_of_silent {c : SetCfg} (hc : setCfg s n.val = some c) (hen : (mset s n.val).enabled = true)
    (hlos : (mset s n.val).los = false) (hsilent : c.zcTimeout * 1000000 ≤ since s (mset s n.val).lastZc) :
    exec (.zcTimeout n) s = .next (stopIfDisabling n.val (raise 0x62 [(n.val : Int)] (loseSignal n.val s))) := by
  change execZcTimeout n s = _
  simp only [execZcTimeout, hc, hon, hen, hlos, decide_eq_true hsilent, Bool.not_false, Bool.and_self, if_true]

end

/-! ### Pulses, steps, saves and intervals (R261 to R263, R273, R277, R280) -/

/-- Past its 100 ms boundary the step is taken, and the points of sets and channels follow (R273). -/
theorem heatStepDue_of_later {s : State} (hdue : later 64 s.meter.stepAt (boundary100 s) = true) : heatStepDue s =
    let t := boundary100 s
    forEach (heatPoints t) (upto 16) (forEach (setPoints t) (upto 4) (heatStepAt (t - 100000000) t 100 s)) := by
  simp only [heatStepDue, hdue, if_true]

section
variable {s : State} (hon : meterOn s = true)
include hon

/-- An accepted edge is noted with its stamp and levels (R261). -/
theorem exec_pulseEdge_of_meterOn (n : Fin 16) (l : W16) : exec (.pulseEdge n l) s = .next { s with meter := { s.meter with
    edges := s.meter.edges ++ [{ input := n.val, stamp := devNs s, levels := l }] } } := by
  change execPulseEdge n l s = _
  simp only [execPulseEdge, hon, if_true]

theorem exec_heatStep_of_meterOn : exec .heatStep s = .next (heatStepDue s) := by
  change execHeatStep s = _
  simp only [execHeatStep, hon, if_true]

/-- The reads of a new boundary set the temperatures, after the step that ends there (R262, R263, R273). -/
theorem exec_tbusRead_of_later (l : List TbusRead)
    (hdue : later 64 (heatStepDue s).meter.readAt (boundary100 (heatStepDue s)) = true) : exec (.tbusRead l) s = .next (
      let u := forEach (readTemps l) (upto 16) (heatStepDue s)
      { u with meter := { u.meter with readAt := boundary100 (heatStepDue s) } }) := by
  change execTbusRead l s = _
  simp only [execTbusRead, hon, hdue, if_true]

/-- The totals are saved at a whole second that is new (R280). -/
theorem exec_totalsSave_of_later (hdue : later 64 s.meter.savedAt (devNs s / 1000000000 * 1000000000) = true) :
    exec .totalsSave s =
      .next (saveTotals 0 { s with meter := { s.meter with savedAt := devNs s / 1000000000 * 1000000000 } }) := by
  change execTotalsSave s = _
  simp only [execTotalsSave, hon, hdue, Bool.and_self, if_true]

/-- With parameters in force the intervals of the sets turn at the boundary, then those of the heat channels (R277). -/
theorem exec_intervalClose_of_params {p : MeterParams} (hp : s.meter.params = some p) : exec .intervalClose s =
    .next (turnHeats (ivBoundary s p.intervalS) (upto 16) (turnSets (ivBoundary s p.intervalS) (upto 4) s)) := by
  change execIntervalClose s = _
  simp only [execIntervalClose, hp, hon, if_true]

end

/-- Settles O12: each event by its lemma above; a bad frame is discarded, and a heat step is the one that is due. -/
theorem meteringEventsComplete : Obligations.MeteringEventsComplete := by
  refine ⟨fun n l s hon => exec_mspFrame_of_good hon, fun n l s hon hfed hbad => ?_,
    fun n s => exec_meterPortLoss_of_silent, fun n s c hc hon => exec_zcTimeout_of_silent hon hc,
    fun n l s hon => exec_pulseEdge_of_meterOn hon n l, fun s hon hdue => ?_,
    fun l s hon => exec_tbusRead_of_later hon l, fun s => exec_totalsSave_of_later, fun s p hp hon => exec_intervalClose_of_params hon hp⟩
  · rw [exec_mspFrame_of_bad hon hfed hbad, discardFrame_eq]
  · rw [exec_heatStep_of_meterOn hon, heatStepDue_of_later hdue]

end Sys2Proof.Proofs
end

section
/-! Proofs of the field rings: the ring commands and the Main boundary, datasets and trip requests, the supervision of
stations, HSR forwarding with its node table, and the checks of the links. -/

namespace Sys2Proof.Proofs

open Sys2Proof.Machine Sys2Proof.Safety Sys2Proof.Laws

/-! ### The Main boundary (R317, R355, R357) -/

section
variable {s : State}

/-- With no pair configuration waiting, the boundary applies what was accepted, in order (R317). -/
theorem exec_mainBoundaryConfigApply_of_no_nextCfg (h : s.pair.nextCfg = none) : exec .mainBoundaryConfigApply s =
    .next (clearConflict 3 (clearConflict 2 (clearConflict 1 (clearConflict 0
      (applyBoundaries s.boundary { s with boundary := [] }))))) := by
  change execMainBoundaryConfigApply s = _
  simp only [execMainBoundaryConfigApply, h]

/-- A waiting pair configuration is in force before what was accepted is applied (R317). -/
theorem exec_mainBoundaryConfigApply_of_nextCfg {c : PairCfg} (h : s.pair.nextCfg = some c) :
    exec .mainBoundaryConfigApply s = .next (clearConflict 3 (clearConflict 2 (clearConflict 1 (clearConflict 0
      (applyBoundaries s.boundary { s with pair := { s.pair with cfg := c, nextCfg := none }, boundary := [] }))))) := by
  change execMainBoundaryConfigApply s = _
  simp only [execMainBoundaryConfigApply, h]

end

/-- Settles O13: each command by its effect, the boundary by whether a pair configuration waits, the two register rows as own
writes that pass. -/
theorem ringCommandsComplete : Obligations.RingCommandsComplete :=
  ⟨fun _ _ h => exec_of_accepted (c := specRingConfig) rfl h, fun _ _ h => exec_of_accepted (c := specStationConfig) rfl h,
    fun _ _ h => exec_of_accepted (c := specDatasetConfig) rfl h, fun _ _ h => exec_of_accepted (c := specLoopRoute) rfl h,
    fun _ _ h => exec_of_accepted (c := specTripConfig) rfl h, fun _ _ h => exec_of_accepted (c := specTripReset) rfl h,
    fun _ _ h => exec_of_accepted (c := specRingStatus) rfl h, fun _ _ h => exec_of_accepted (c := specStationStatus) rfl h,
    fun _ => exec_mainBoundaryConfigApply_of_no_nextCfg, fun _ _ => exec_mainBoundaryConfigApply_of_nextCfg,
    fun _ v _ h => exec_of_ownWrite_passes (f := cfgSet 0xD04 v) rfl h,
    fun _ v _ h => exec_of_ownWrite_passes (f := cfgSet 0xD08 v) rfl h⟩

/-! ### Datasets and trip requests (R304, R307, R308, R314, R315) -/

section
variable {n : Fin 4} {b : Bytes} {s : State} (hon : nbOn s = true) (hring : ringOn s n.val = true) {k : Knama}
  (hk : parseKnama b = k) (hframe : frameOk s n.val k = true) (htag : tagOk s n.val k = true)
include hon hring hk hframe htag

/-- An INPUT frame that passes the frame, tag and sequence checks is accepted (R307). -/
theorem exec_inputDataset_of_passed (hkind : k.kind = 1) (hseq : seqOk s k false = true) :
    exec (.inputDataset n b) s = .next (acceptDataset k s) := by
  change execInputDataset n b s = _
  simp [execInputDataset, hk, hon, hring, hframe, hkind, htag, hseq]

/-- A TRIP_REQ that passes the checks is noted; RESULT 0 fires its group, a driving module acknowledges it, and RESULT 2 or 3
is reported (R314, R315). -/
theorem exec_tripReq_of_passed (hkind : k.kind = 4) {g : Nat} (hg : getLE k.body 0 1 = g) (hlo : g ≠ 0) (hhi : g ≤ 16)
    (hseq : seqOk s k true = true) : exec (.tripReq n b) s = .next (
      let t := noteAccepted k s
      let res := tripAnswer s k g
      let u := if res = 0 then fireGroup k.station g (getLE k.body 1 1) t else t
      let v := if driving u then sendKnama 5 k.station 0 (devNs u) 0 0 (tripBody g (getLE k.body 1 1) res) u else u
      if res = 2 ∨ res = 3 then raise 0x78 [(k.station : Int), (g : Int), (res : Int)] v else v) := by
  change execTripReq n b s = _
  simp [execTripReq, hk, hg, hon, hring, hframe, hkind, hlo, Nat.not_lt.mpr hhi, htag, hseq]

end

/-! ### Station supervision (R309) -/

/-- A present station silent for its supervision time becomes absent and its points HELD (R309). -/
theorem exec_stationAbsent_of_silent {n : BitVec 12} {s : State} (hon : nbOn s = true)
    (hover : supervisionOver s (station s n.toNat) = true) (hpresent : (station s n.toNat).absent = false) :
    exec (.stationAbsent n) s = .next (raise 0x73 [(n.toNat : Int)] (holdPoints (inputPoints s n.toNat)
      (setStation n.toNat (fun y => { y with absent := true }) s))) := by
  change execStationAbsent n s = _
  simp only [execStationAbsent, hon, hover, hpresent, Bool.not_false, Bool.and_self, if_true]

/-! ### The node table (R296, R297) -/

section
variable {n : Fin 4} {a : BitVec 48} {s : State} {x : HsrNode} (hx : ringNode s n.val a = some x)
include hx

/-- A known node keeps of its entries those of the last 400 ms (R296). -/
theorem exec_duplicateEntryExpiry_of_node : exec (.duplicateEntryExpiry n a) s =
    .next (setNode n.val a { x with seqs := x.seqs.filter fun e => decide (since s e.2 < 400000000) } s) := by
  change execDuplicateEntryExpiry n a s = _
  simp only [execDuplicateEntryExpiry, hx]

/-- A node without supervision frames for 60 s leaves the table (R297). -/
theorem exec_nodeForgotten_of_silent (hsilent : 60000000000 ≤ since s x.seenAt) : exec (.nodeForgotten n a) s =
    .next (setRing n.val (fun r => { r with nodes := ferase r.nodes a.toNat, tableFull := false }) s) := by
  change execNodeForgotten n a s = _
  simp only [execNodeForgotten, hx, if_pos hsilent]

end

/-! ### Ports of an enabled ring (R296 to R300, R326) -/

section
variable {q : Fin 8} {s : State} (hon : nbOn s = true) (hring : ringOn s (q.val / 2) = true)
include hon hring

section
variable (hloop : loopHolds s 0 q.val = false)
include hloop

/-- A frame of another sender is dropped and counted when it is a duplicate; otherwise it is noted if its FCS holds, counted,
and forwarded unless the other port is in loopback (R295, R296, R297, R326). -/
theorem exec_hsrFrameForward_of_foreign {f : HsrFrame} (hown : f.src ≠ portMac s q.val)
    (hother : f.src ≠ portMac s (otherPort q.val)) : exec (.hsrFrameForward q f) s = .next (
      if isDuplicate s (q.val / 2) f then setRing (q.val / 2) (fun r => { r with dups := sat32 (r.dups + 1) }) s
      else
        let t := setRing (q.val / 2) (fun r => { r with forwarded := (r.forwarded + 1) % 2 ^ 64 })
          (if f.fcsOk then noteSource (q.val / 2) f s else s)
        if loopHolds t 0 (otherPort q.val) then t
        else portSend (otherPort q.val) 0 (.hsrForward (otherPort q.val) f.src f.seq (forwardCorrection t q.val f) f.fcsOk) t) := by
  change execHsrFrameForward q f s = _
  simp only [execHsrFrameForward, hon, hring, hloop, hown, hother, Bool.not_true, Bool.or_self, decide_false,
    Bool.false_eq_true, if_false]

/-- A supervision frame leaves a port 2 s after the last (R297). -/
theorem exec_supervisionFrameSend_of_due (hdue : 2000000000 ≤ since s (ringPort s q.val).superAt) :
    exec (.supervisionFrameSend q) s = .next (portSend q.val 5 (.supervision q.val (ringOf s (q.val / 2)).hsrSeq)
      (takeHsrSeq (q.val / 2) (setPort q.val (fun p => { p with superAt := s.refNs }) s))) := by
  change execSupervisionFrameSend q s = _
  simp only [execSupervisionFrameSend, hon, hring, hloop, decide_eq_true hdue, Bool.not_false, Bool.and_self, if_true]

/-- A check leaves a port 250 µs after the last, once that one has been judged (R299). -/
theorem exec_linkCheckSend_of_due {t : Nat} (hat : (ringPort s q.val).checkAt = some t) (hdue : 250000 ≤ since s t) :
    exec (.linkCheckSend q) s = .next (
      let u := judgeCheck q.val s
      portSend q.val 2 (.linkCheck q.val) (setPort q.val (fun y => { y with checkAt := some u.refNs, echoed := false }) u)) := by
  change execLinkCheckSend q s = _
  simp only [execLinkCheckSend, hon, hring, hloop, hat, decide_eq_true hdue, Bool.not_false, Bool.and_self, if_true]

/-- A neighbour's check is answered with an echo (R299). -/
theorem exec_linkCheckReceive_of_ringOn :
    exec (.linkCheckReceive q) s = .next (portSend q.val 2 (.linkEcho q.val) s) := by
  change execLinkCheckReceive q s = _
  simp only [execLinkCheckReceive, hon, hring, hloop, Bool.not_false, Bool.and_self, if_true]

end

/-- A port that loses its link is declared failed (R299). -/
theorem exec_portLinkLoss_of_ringOn :
    exec (.portLinkLoss q) s = .next (failPort q.val (setPort q.val (fun y => { y with linkUp := false }) s)) := by
  change execPortLinkLoss q s = _
  simp only [execPortLinkLoss, hon, hring, Bool.and_self, if_true]

section
variable {t : Nat} (hat : (ringPort s q.val).checkAt = some t) (htime : since s t ≤ 50000)
  (hfirst : (ringPort s q.val).echoed = false)
include hat htime hfirst

/-- An echo in time ends the run of misses of a port that has not failed (R299). -/
theorem exec_linkEcho_of_not_failed (hfailed : (ringPort s q.val).failed = false) : exec (.linkEcho q) s =
    .next (setPort q.val (fun y => { y with echoed := true, misses := 0, echoes := 0 }) s) := by
  change execLinkEcho q s = _
  simp only [execLinkEcho, hon, hring, hat, decide_eq_true htime, hfirst, hfailed, Bool.not_false, Bool.and_self,
    Bool.false_and, Bool.false_eq_true, if_true, if_false]

/-- An echo in time counts for a failed port; the eighth in a row clears the failure and raises RING_PORT_OK (R300). -/
theorem exec_linkEcho_of_failed (hfailed : (ringPort s q.val).failed = true) : exec (.linkEcho q) s = .next (
    let n := (ringPort s q.val).echoes + 1
    let u := setPort q.val (fun y => { y with echoed := true, misses := 0, echoes := n }) s
    if 8 ≤ n then raise 0x71 [(q.val : Int)] (setPort q.val (fun y => { y with failed := false, linkUp := true, echoes := 0 }) u)
    else u) := by
  change execLinkEcho q s = _
  simp only [execLinkEcho, hon, hring, hat, decide_eq_true htime, hfirst, hfailed, Bool.not_false, Bool.and_self,
    Bool.true_and, decide_eq_true_eq, if_true]

end

end

/-- Settles O14: each event by its lemma above; a foreign frame by whether it is a duplicate, an echo by whether its port has
failed and whether it is the eighth. -/
theorem ringEventsComplete : Obligations.RingEventsComplete := by
  refine ⟨fun n b s hon hring hframe hkind htag hseq => exec_inputDataset_of_passed hon hring rfl hframe htag hkind hseq,
    fun n b s hon hring hframe hkind hlo hhi htag hseq =>
      exec_tripReq_of_passed hon hring rfl hframe htag hkind rfl hlo hhi hseq,
    fun n s => exec_stationAbsent_of_silent,
    fun q f s hon hring hloop hown hother hnew => ?_, fun q f s hon hring hloop hown hother hdup => ?_,
    fun n a s x => exec_duplicateEntryExpiry_of_node, fun n a s x => exec_nodeForgotten_of_silent,
    fun q s => exec_supervisionFrameSend_of_due, fun q s t hon hring hloop => exec_linkCheckSend_of_due hon hring hloop,
    fun q s => exec_linkCheckReceive_of_ringOn,
    fun q s t hon hring hat htime hfirst => ⟨exec_linkEcho_of_not_failed hon hring hat htime hfirst,
      fun hfailed hfew => ?_, fun hfailed heighth => ?_⟩,
    fun q s => exec_portLinkLoss_of_ringOn⟩
  · rw [exec_hsrFrameForward_of_foreign hon hring hloop hown hother, if_neg (Bool.eq_false_iff.mp hnew)]
  · rw [exec_hsrFrameForward_of_foreign hon hring hloop hown hother, if_pos hdup]
  · rw [exec_linkEcho_of_failed hon hring hat htime hfirst hfailed]
    exact congrArg _ (if_neg (by omega))
  · rw [exec_linkEcho_of_failed hon hring hat htime hfirst hfailed]
    exact congrArg _ (if_pos (by omega))

end Sys2Proof.Proofs
end

section
/-! Proofs of what every step does: it runs the command at the front of the queue or passes a nanosecond, goes on, and keeps
slot memory, the life cycle and the minimum SVNs. The three invariants are the parts of Keeps (Laws/Keeps.lean), which every
command and the empty queue keep; the clocks of the empty queue need the stages of a key update or transition besides. -/

namespace Sys2Proof.Proofs

open Sys2Proof.Machine Sys2Proof.Safety Sys2Proof.Laws

/-! ### One step -/

/-- A queue that holds a command is served from its front (R393). -/
theorem step_of_pending {c : Instr} {rest : List Instr} {s : State} (h : s.pending = c :: rest) :
    step s = exec c { s with pending := rest } := by
  simp only [step, h]

/-- On an empty queue a nanosecond of reference time passes (R322). -/
theorem step_of_empty {s : State} (h : s.pending = []) : step s = .next (passNano s) := by
  simp only [step, h]

/-- Every step goes on to a state it keeps: a command by keeps_exec, the empty queue by keeps_passNano. -/
theorem step_goes (s : State) : Goes s (step s) := by
  cases h : s.pending with
  | nil => rw [step_of_empty h]; exact goes_next (keeps_passNano s (Keeps.refl s))
  | cons c rest => rw [step_of_pending h]; exact keeps_exec c _ (Keeps.refl s)

/-- What a step answers lies after its state in the sense of Keeps. -/
theorem keeps_of_step {s t : State} (h : step s = .next t) : Keeps s t := by
  obtain ⟨u, hu, hk⟩ := step_goes s
  cases hu.symm.trans h
  exact hk

/-- Settles O38: the definition of a step on a queue that holds a command. -/
theorem stepRunsFrontCommand : Obligations.StepRunsFrontCommand :=
  fun _ _ _ h => step_of_pending h

/-- Settles O41: a step goes on, as part of what it keeps. -/
theorem everyStepGoesOn : Obligations.EveryStepGoesOn := fun s =>
  let ⟨t, ht, _⟩ := step_goes s
  ⟨t, ht⟩

/-- Settles O42: canonical slot memory is the first part of Keeps. -/
theorem slotMemoryStaysCanonical : Obligations.SlotMemoryStaysCanonical :=
  fun _ _ h => (keeps_of_step h).1

/-- Transitions of R521 never leave RETIRED, never lead back to BLANK, and lead to FACTORY from BLANK alone. -/
theorem lcReach_forward {a b : LcState} (h : lcReach a b) :
    (a = .retired → b = .retired) ∧ (b = .blank → a = .blank) ∧ (b = .factory → a = .blank ∨ a = .factory) := by
  rcases h with rfl | ⟨hblank, hretired, hfactory⟩
  · exact ⟨id, id, .inr⟩
  · exact ⟨fun ha => absurd ha hretired, fun hb => absurd hb hblank, fun hb => .inl (hfactory hb)⟩

/-- Settles O43: the second part of Keeps, by what a life cycle that follows R521 can reach. -/
theorem lifeCycleGoesOnlyForward : Obligations.LifeCycleGoesOnlyForward := by
  intro s t h hok
  obtain ⟨hok', hreach⟩ := (keeps_of_step h).2.1 hok
  exact ⟨hok', lcReach_forward hreach⟩

/-- Settles O44: the third part of Keeps. -/
theorem minimumSvnsNeverFall : Obligations.MinimumSvnsNeverFall :=
  fun _ _ i h => (keeps_of_step h).2.2 i

/-- The minimum SVNs of the eight components after reset (R554). -/
theorem reset_minSvn : State.reset.fwu.minSvn = List.replicate 8 0 := rfl

/-- Settles O40: memory, key work and queue are empty after reset, and every minimum SVN is 0. -/
theorem resetMeetsTheInvariants : Obligations.ResetMeetsTheInvariants := by
  have hop : State.reset.keys.op = none := rfl
  refine ⟨⟨rfl, fun c hc => absurd hc List.not_mem_nil⟩, hop, fun o t root ho => ?_, rfl, fun i => ?_⟩
  · rw [hop] at ho
    cases ho
  · rw [lget, reset_minSvn, List.getElem?_replicate]
    split <;> rfl

/-! ### The clocks on an empty queue (R322) -/

/-- Reporting events leaves both clocks as they are. -/
theorem clock_of_reported {a s t : State} (k : Reported s t) (h : SameClock a s) : SameClock a t := by
  rw [k.rest]
  exact ⟨h.1, h.2⟩

theorem clock_writeNewest {a : State} (src : Nat) (s : State) (h : SameClock a s) : SameClock a (writeNewest src s) :=
  clock_of_reported (reported_writeNewest src s) h

theorem clock_sealRevoked {a : State} (l : List (Nat × Nat)) (s : State) (h : SameClock a s) :
    SameClock a (sealRevoked l s) := by
  induction l generalizing s with
  | nil => exact h
  | cons e r ih => exact ih _ (clock_writeNewest _ _ (clock_raise _ _ _ h))

theorem clock_sealUpdate {a : State} (counter : W32) (n : Nat) (written freed : List Nat) (revoked : List (Nat × Nat))
    (s : State) (h : SameClock a s) : SameClock a (sealUpdate counter n written freed revoked s) :=
  clock_sealRevoked _ _ (clock_writeNewest _ _ (clock_raise _ _ _ ⟨h.1, h.2⟩))

theorem clock_resetEpochs {a : State} (written l : List Nat) (s : State) (h : SameClock a s) :
    SameClock a (resetEpochs written l s) := by
  induction l generalizing s with
  | nil => exact h
  | cons n r ih =>
    refine ih _ ?_
    split
    · exact ⟨h.1, h.2⟩
    · exact h

theorem clock_commitSlots {a : State} (slots : FMap Key) (written : List Nat) (revoked : List (Nat × Nat)) (s : State)
    (h : SameClock a s) : SameClock a (commitSlots slots written revoked s) :=
  clock_resetEpochs _ _ _ ⟨h.1, h.2⟩

theorem clock_enterStage {a : State} (o : KeyOp) (st : KeyStage) (s : State) (h : SameClock a s) :
    SameClock a (enterStage o st s) := ⟨h.1, h.2⟩

theorem clock_openDebug {a : State} (s : State) (h : SameClock a s) : SameClock a (openDebug s) := by
  unfold openDebug
  split
  · exact clock_raise _ _ _ ⟨h.1, h.2⟩
  · exact h

theorem clock_enterMode {a : State} (n m : Nat) (s : State) (h : SameClock a s) : SameClock a (enterMode n m s) := by
  unfold enterMode
  dsimp only
  split
  · exact h
  · exact clock_setCan _ _ _ h

theorem clock_refreshModes {a : State} (s : State) (h : SameClock a s) : SameClock a (refreshModes s) :=
  clock_enterMode _ _ _ (clock_enterMode _ _ _ (clock_enterMode _ _ _ (clock_enterMode _ _ _ h)))

theorem clock_restRole {a : State} (r : Role) (s : State) (h : SameClock a s) : SameClock a (restRole r s) := by
  unfold restRole dropPaths
  exact clock_refreshModes _ ⟨h.1, h.2⟩

theorem clock_flushMirrored {a : State} (upTo : Nat) (l : List MirrorWait) (s : State) (h : SameClock a s) :
    SameClock a (flushMirrored upTo l s) := by
  induction l generalizing s with
  | nil => exact h
  | cons m r ih =>
    unfold flushMirrored
    split
    · split
      · exact ih _ (clock_respond _ _ _ _ _ _ h)
      · exact ih _ h
    · exact ih _ ⟨h.1, h.2⟩

theorem clock_dropPartner {a : State} (s : State) (h : SameClock a s) : SameClock a (dropPartner s) := by
  unfold dropPartner ackMirrored
  exact clock_flushMirrored _ _ _ ⟨h.1, h.2⟩

theorem clock_endExchange {a : State} (status : Nat) (s : State) (h : SameClock a s) : SameClock a (endExchange status s) := by
  unfold endExchange
  split
  · exact h
  · exact clock_finishOpt _ _ _ _ _ _ (clock_setPair _ _ h)

/-- A module that fences itself keeps both clocks (R435, R440). -/
theorem clock_fenceSelf {a : State} (s : State) (h : SameClock a s) : SameClock a (fenceSelf s) := by
  unfold fenceSelf
  exact clock_endExchange _ _ (clock_dropPartner _ (clock_restRole _ _ h))

/-- No stage of a key update or transition touches either clock (R522, R533). -/
theorem clock_keyStep {a : State} (o : KeyOp) (s : State) (h : SameClock a s) : SameClock a (keyStep o s) := by
  unfold keyStep
  split
  · exact clock_enterStage _ _ _ h
  · exact clock_enterStage _ _ _ (clock_commitSlots _ _ _ _ h)
  · exact clock_finishOpt _ _ _ _ _ _ (clock_setBrick _ _ _ (clock_sealUpdate _ _ _ _ _ _ h))
  · exact clock_enterStage _ _ _ (clock_writeNewest _ _ (clock_raise _ _ _ h))
  · refine clock_enterStage _ _ _ ?_
    split
    · exact clock_fenceSelf _ ⟨h.1, h.2⟩
    · exact ⟨h.1, h.2⟩
  · exact clock_openDebug _ (clock_finishOpt _ _ _ _ _ _ (clock_setBrick _ _ _ ⟨h.1, h.2⟩))

theorem clock_keyTick {a : State} (s : State) (h : SameClock a s) : SameClock a (keyTick s) := by
  unfold keyTick
  split
  · exact h
  · split
    · exact clock_keyStep _ _ h
    · exact h

/-- Reference time and device time after a nanosecond are what R322 has them advance to, whatever else falls due. -/
theorem clock_passNano (s : State) :
    SameClock { s with refNs := s.refNs + 1, time := { s.time with dev := clockAdvance s.time.dev s.time.yDev } } (passNano s) :=
  clock_optExpiry _ (clock_portsTick _ (clock_samplingTick _ (clock_powerTimeout _ (clock_resyncTimeout _ (clock_buildTick _
    (clock_keyTick _ (clock_calNano _ ⟨rfl, rfl⟩)))))))

/-- Settles O39: a step on an empty queue passes a nanosecond, and nothing it sets off touches the clocks again. -/
theorem emptyQueuePassesOneNanosecond : Obligations.EmptyQueuePassesOneNanosecond := by
  intro s h
  obtain ⟨hns, hdev⟩ := clock_passNano s
  exact ⟨passNano s, step_of_empty h, hns, hdev⟩

end Sys2Proof.Proofs
end

section
/-! Proofs of the register safety statements: lock bits are only ever set, and an event pends until its bit is cleared. A lock
register is clear at a cold reset and is no EVT_ROUTE register, so a value that sets a new bit is read back as it was written. -/

namespace Sys2Proof.Proofs

open Sys2Proof.Machine Sys2Proof.Safety Sys2Proof.Laws

/-! ### Dropped accesses only report (R364, R365) -/

theorem reported_ite {c : Prop} [Decidable c] {s t u : State} (ht : Reported s t) (hu : Reported s u) :
    Reported s (if c then t else u) := by
  split
  · exact ht
  · exact hu

theorem reported_raiseAccess (src : Nat) (ps : List Int) (cause : Nat) (s : State) : Reported s (raiseAccess src ps cause s) := by
  refine reported_ite (reported_recorder s _) (reported_trans ?_ (reported_raiseC _ _ _ _))
  exact reported_ite ⟨rfl, rfl⟩ ⟨rfl, rfl⟩

theorem reported_errInfo (s : State) (w : W32) : Reported s { s with regs := { s.regs with errInfo := w } } := ⟨rfl, rfl⟩

theorem reported_dropAccess (p : Port) (off cause : Nat) (w : Bool) (s : State) : Reported s (dropAccess p off cause w s) := by
  simp only [dropAccess]
  refine reported_trans ?_ (reported_raiseAccess _ _ _ _)
  split
  · exact reported_trans (reported_errInfo s _) (reported_rcAdd _ _ _)
  · exact reported_refl s

/-- A write of a register with a row of its own that does not pass at most reports its drop (R364, R366). -/
theorem reported_ownWrite_of_not_passes {p : Port} {off : Nat} {s : State} (f : State → State) (h : ¬ writePasses p off s) :
    Reported s (ownWrite p off f s) := by
  unfold ownWrite
  split
  · next hp =>
    split
    · exact reported_refl s
    · exact reported_dropAccess _ _ _ _ _
    · next hj => exact absurd ⟨hp, hj⟩ h
  · exact reported_refl s

/-- Reporting leaves every configuration register as it is. -/
theorem cfgGet_of_reported {s t : State} (h : Reported s t) (off : Nat) : cfgGet t off = cfgGet s off := by
  have hcfg : t.regs.cfg = s.regs.cfg := by rw [h.regs]
  simp only [cfgGet, hcfg]

/-! ### Lock registers (R372) -/

/-- An offset of EVT_ROUTE lies in the block of the routes (R363, R381). -/
theorem blockAt_of_isRoute {off : Nat} (h : isRoute off = true) : blockAt off = some ⟨0x0400, 0x400, 0x21, false⟩ := by
  simp only [isRoute, Bool.and_eq_true, decide_eq_true_eq] at h
  have hhif : ¬ off < 256 := by omega
  have hevt : ¬ off < 512 := by omega
  simp [blockAt, blocks, hhif, hevt, h]

/-- A register that is a lock register is clear at a cold reset. -/
def LockClear : Option RegInfo → Bool
  | none => true
  | some i => decide (i.acc ≠ .rwl) || decide (i.reset = 0)

/-- No block of the register map has a lock register with a reset value other than 0. -/
theorem lockClear_regInfo (off : Nat) : LockClear (regInfo off) = true := by
  unfold regInfo
  split
  · rfl
  split
  · rfl
  dsimp only
  split
  · unfold hifReg; split <;> rfl
  · unfold evtReg; split <;> rfl
  · rfl
  · unfold cycReg; split <;> rfl
  · unfold bgtReg; split <;> rfl
  · unfold loopReg; split <;> rfl
  · unfold solReg; split <;> rfl
  · unfold mtrReg; split <;> rfl
  · unfold ringReg; split <;> rfl
  · unfold ptpReg; split <;> rfl
  · unfold rtcReg; split <;> rfl
  · unfold recReg; split; rfl; split <;> rfl
  · unfold pnlReg; split <;> rfl
  · unfold keyReg; split <;> rfl
  · unfold fwuReg; split <;> rfl
  · unfold pairReg; split <;> rfl
  · unfold tstReg; split <;> rfl
  · unfold sbmReg; split <;> rfl
  · unfold msixReg; split <;> rfl
  · rfl
  · unfold canReg; split; split <;> rfl; split <;> rfl

section
variable {off : Nat} {i : RegInfo} (hi : regInfo off = some i)
include hi

/-- A register of the map lies in a block. -/
theorem blockAt_isSome_of_regInfo : ∃ b, blockAt off = some b := by
  unfold regInfo at hi
  split at hi
  · cases hi
  split at hi
  · cases hi
  · next b hb => exact ⟨b, hb⟩

section
variable (ha : i.acc = .rwl)
include ha

theorem reset_eq_zero_of_rwl : i.reset = 0 := by
  have h := lockClear_regInfo off
  rw [hi] at h
  simpa [LockClear, ha] using h

/-- A lock register is no EVT_ROUTE register, whose access is read and write (R381). -/
theorem isRoute_eq_false_of_rwl : isRoute off = false := by
  refine Bool.eq_false_iff.mpr fun hr => ?_
  have hb := blockAt_of_isRoute hr
  unfold regInfo at hi
  split at hi
  · cases hi
  · rw [hb] at hi
    cases hi
    cases ha

/-- A lock register reads as the lock bits of a value that has any (R372, R374). -/
theorem cfgGet_cfgSet_of_rwl {v : W32} (s : State) (hv : v &&& i.mask ≠ 0) : cfgGet (cfgSet off v s) off = v &&& i.mask := by
  obtain ⟨b, hb⟩ := blockAt_isSome_of_regInfo hi
  have hreset : cfgReset off = 0 := by simp [cfgReset, hi, reset_eq_zero_of_rwl hi ha]
  have hpoke : (cfgSet off v s).regs.cfg = fput s.regs.cfg off (v &&& i.mask) 0 := by
    simp [cfgSet, hb, resign, cfgPoke, isRoute_eq_false_of_rwl hi ha, hi, hreset]
  rw [cfgGet, hpoke, hreset, fgetD_fput_listed _ _ hv]

/-- After a write of a lock register each lock bit is what it was or what was written (R372). -/
theorem getLsbD_applyLock (v : W32) (s : State) {b : Nat} (hm : i.mask.getLsbD b = true) :
    (cfgGet (applyLock off v s) off).getLsbD b = ((cfgGet s off).getLsbD b || v.getLsbD b) := by
  by_cases h : cfgGet s off ||| (v &&& i.mask) = cfgGet s off
  · have hb := congrArg (·.getLsbD b) h
    simp only [BitVec.getLsbD_or, BitVec.getLsbD_and, hm, Bool.and_true] at hb
    rw [applyLock_of_eq hi h, hb]
  · have hv : (cfgGet s off ||| (v &&& i.mask)) &&& i.mask ≠ 0 := by
      intro h0
      refine h (BitVec.eq_of_getLsbD_eq fun k hk => ?_)
      have hz := congrArg (·.getLsbD k) h0
      simp only [BitVec.getLsbD_or, BitVec.getLsbD_and] at hz ⊢
      revert hz
      cases (cfgGet s off).getLsbD k <;> cases v.getLsbD k <;> cases i.mask.getLsbD k <;> simp
    rw [applyLock_of_ne hi h, cfgGet_of_reported (reported_raise _ _ _), cfgGet_cfgSet_of_rwl hi ha s hv]
    simp only [BitVec.getLsbD_or, BitVec.getLsbD_and, hm, Bool.and_true]

end

end

/-- Settles O57: a write that does not pass only reports, one that passes sets the bits written 1. -/
theorem lockBitsOnlySet : Obligations.LockBitsOnlySet := by
  intro p o v s i hi ha
  refine ⟨⟨_, exec_lockBitSet_of_rwl p v s hi ha, fun b _ hm hset => ?_⟩, fun hpass =>
    ⟨applyLock o.toNat v s, ?_, fun b _ hm => ?_, ?_, ?_⟩⟩
  · by_cases hpass : writePasses p o.toNat s
    · rw [ownWrite_passes hpass, getLsbD_applyLock hi ha v s hm, hset, Bool.true_or]
    · rw [cfgGet_of_reported (reported_ownWrite_of_not_passes _ hpass), hset]
  · exact exec_of_ownWrite_passes (exec_lockBitSet_of_rwl p v s hi ha) hpass
  · exact getLsbD_applyLock hi ha v s hm
  · exact applyLock_of_eq hi
  · exact applyLock_of_ne hi

/-! ### Events (R379, R380) -/

/-- What a record and its message on their way leave as it is: what pends, the counts, HIF_ERR_INFO and HIF_ERR_CNT. -/
abbrev RecordLeaves (s t : State) : Prop :=
  t.evt.pend = s.evt.pend ∧ t.evt.pendSb = s.evt.pendSb ∧ t.evt.cnt = s.evt.cnt ∧ t.regs.errInfo = s.regs.errInfo ∧
  rcGet t 0x020 = rcGet s 0x020

theorem rcGet_rcAdd_other {off k : Nat} (n : Nat) (s : State) (h : k ≠ off) : rcGet (rcAdd off n s) k = rcGet s k :=
  fgetD_fput_other _ _ _ _ h

theorem recordLeaves_msixSend (v : Nat) (s : State) : RecordLeaves s (msixSend v s) := by
  unfold msixSend
  split
  · exact ⟨rfl, rfl, rfl, rfl, rfl⟩
  · split <;> exact ⟨rfl, rfl, rfl, rfl, rfl⟩

theorem recordLeaves_messageDue (v : Nat) (s : State) : RecordLeaves s (messageDue v s) := by
  unfold messageDue
  split
  · split
    · exact ⟨rfl, rfl, rfl, rfl, rfl⟩
    · exact recordLeaves_msixSend v s
  · exact ⟨rfl, rfl, rfl, rfl, rfl⟩

/-- On its way to the recorder a record leaves them as they are; a dropped one counts in REC_LOST alone (R493). -/
theorem recordLeaves_queueRecord (e : EventRec) (s : State) : RecordLeaves s (queueRecord e s) := by
  unfold queueRecord
  split
  · split <;> exact ⟨rfl, rfl, rfl, rfl, rfl⟩
  · split
    · exact ⟨rfl, rfl, rfl, rfl, rfl⟩
    · have hlost : rcGet (dropRecord e s) 0x020 = rcGet s 0x020 := rcGet_rcAdd_other _ s (by decide)
      dsimp only
      split
      · obtain ⟨hpend, hsb, hcnt, hinfo, herr⟩ := recordLeaves_messageDue _ _
        exact ⟨hpend, hsb, hcnt, hinfo, herr.trans hlost⟩
      · exact ⟨rfl, rfl, rfl, rfl, hlost⟩

/-- What raising a source pends and counts, before its record and message go on their way (R379 step 1). -/
theorem recordLeaves_raiseC {s : State} (src : Nat) (ps : List Int) (code : Nat) (hup : s.power.mainUp = true) :
    RecordLeaves { s with evt := { s.evt with
      cnt := fset s.evt.cnt src (satBits 16 (fgetD s.evt.cnt src 0 + 1))
      pend := s.evt.pend ||| BitVec.twoPow 256 src
      pendSb := if inService s idMG then s.evt.pendSb ||| BitVec.twoPow 256 src else s.evt.pendSb } } (raiseC src ps code s) := by
  unfold raiseC
  simp only [hup, Bool.not_true, Bool.false_and, Bool.false_eq_true, if_false, if_true]
  split
  · exact recordLeaves_queueRecord _ _
  · split
    · exact recordLeaves_messageDue _ _
    · exact ⟨rfl, rfl, rfl, rfl, rfl⟩

/-- BAD_ACCESS leaves HIF_ERR_INFO and HIF_ERR_CNT as they are, recorded or suppressed (R365). -/
theorem raiseAccess_errors {s : State} (src : Nat) (ps : List Int) (cause : Nat) (hup : s.power.mainUp = true) :
    (raiseAccess src ps cause s).regs.errInfo = s.regs.errInfo ∧ rcGet (raiseAccess src ps cause s) 0x020 = rcGet s 0x020 := by
  have hraise : ∀ t : State, t.power.mainUp = true → t.regs.errInfo = s.regs.errInfo → rcGet t 0x020 = rcGet s 0x020 →
      (raiseC src ps cause t).regs.errInfo = s.regs.errInfo ∧ rcGet (raiseC src ps cause t) 0x020 = rcGet s 0x020 := by
    intro t hup' hinfo herr
    obtain ⟨_, _, _, hinfo', herr'⟩ := recordLeaves_raiseC src ps cause hup'
    exact ⟨hinfo'.trans hinfo, herr'.trans herr⟩
  refine iteInduction (motive := fun u : State => u.regs.errInfo = s.regs.errInfo ∧ rcGet u 0x020 = rcGet s 0x020)
    (fun _ => ⟨rfl, rfl⟩) (fun _ => ?_)
  split
  · exact hraise _ hup rfl rfl
  · exact hraise _ hup rfl rfl

/-- Setting the bit of a source sets no other. -/
theorem getLsbD_or_twoPow (x : BitVec 256) (k : Fin 256) (b : Nat) :
    (x ||| BitVec.twoPow 256 k.val).getLsbD b = (x.getLsbD b || decide (b = k.val)) := by
  by_cases h : b = k.val
  · simp [h]
  · simp [BitVec.getLsbD_or, BitVec.getLsbD_twoPow, h, Ne.symm h]

/-- Settles O58: an event by what raising it pends, a clear bit by bit. -/
theorem eventPendsUntilCleared : Obligations.EventPendsUntilCleared := by
  refine ⟨fun k ps code s hup => ?_, fun p n v s h => ⟨_, exec_of_ownWrite_passes (f := applyEvtPend n.val v) rfl h, rfl,
    fun b hb => ?_⟩⟩
  · obtain ⟨hpend, hsb, hcnt, _, _⟩ := recordLeaves_raiseC k.val ps code hup
    refine ⟨fun b _ => ?_, ?_, fun hmg b _ => ?_⟩
    · rw [hpend]
      exact getLsbD_or_twoPow _ _ _
    · rw [hcnt, fgetD, fget_fset_same]
      simp only [satBits, Option.getD_some]
      split <;> omega
    · rw [hsb]
      dsimp only
      rw [if_pos hmg]
      exact getLsbD_or_twoPow _ _ _
  · have hword : (v.zeroExtend 256 <<< (32 * n.val)).getLsbD b = (decide (b / 32 = n.val) && v.getLsbD (b % 32)) := by
      rw [BitVec.getLsbD_shiftLeft, BitVec.zeroExtend, BitVec.getLsbD_setWidth]
      by_cases hn : b / 32 = n.val
      · have hlo : ¬ b < 32 * n.val := by omega
        have hoff : b - 32 * n.val = b % 32 := by omega
        have hlt : b % 32 < 256 := by omega
        simp [hb, hn, hlo, hoff, hlt]
      · by_cases hlo : b < 32 * n.val
        · simp [hn, hlo]
        · simp [hn, BitVec.getLsbD_of_ge v (b - 32 * n.val) (by omega)]
    simp only [applyEvtPend, BitVec.getLsbD_and, BitVec.getLsbD_not, hb, decide_true, Bool.true_and, hword]

end Sys2Proof.Proofs
end

section
/-! Proofs of the transports: slots and doorbells, BAR2, the side-band transport and the PCIe link. Each row is first reduced to
what it is at a live port; what a refused access changes is then a matter of reporting its event. -/

namespace Sys2Proof.Proofs

open Sys2Proof.Machine Sys2Proof.Safety Sys2Proof.Laws

/-! ### Doorbells (R391) -/

/-- A doorbell to a busy slot, or while READY is 0, only raises CMD_REJECTED (R391). -/
theorem ringDoorbell_of_busy {v : W32} {s : State} (h : s.power.ready = false ∨ (slotOf s (v.toNat % 64)).st = .pending ∨
    (slotOf s (v.toNat % 64)).st = .accepted) :
    ringDoorbell v s = raise 0x09 [((v.toNat % 64 : Nat) : Int), 0, (stBusy : Int)] s := by
  have hslot : (Fin.ofNat 64 v.toNat).val = v.toNat % 64 := rfl
  have hrefused : (s.power.ready && (decide ((slotOf s (v.toNat % 64)).st = .idle) ||
      decide ((slotOf s (v.toNat % 64)).st = .done))) = false := by
    rcases h with h | h | h <;> simp [h]
  simp only [ringDoorbell, hslot, hrefused, Bool.false_eq_true, if_false]
  rfl

/-- Settles O56: the refused doorbell is one event, and an event only reports. -/
theorem refusedDoorbellChangesNothing : Obligations.RefusedDoorbellChangesNothing := by
  intro v s hpass n hbusy
  refine ⟨_, ?_, rfl, reported_raise _ _ _⟩
  rw [exec_of_ownWrite_passes (f := ringDoorbell v) rfl hpass, ringDoorbell_of_busy hbusy]

/-! ### BAR2 (R389) -/

section
variable {s : State} (hp : portAlive s .pcie = true) (o : Nat) (be : BitVec 4) (v : W32)
include hp

theorem exec_bar2Access_write : exec (.bar2Access true o be v) s = .next (bar2Write (o / 4 * 4) be v s) := by
  change execBar2Access true o be v s = _
  simp only [execBar2Access, hp, if_true]

theorem exec_bar2Access_read : exec (.bar2Access false o be v) s = .next (bar2Read (o / 4 * 4) be s) := by
  change execBar2Access false o be v s = _
  simp only [execBar2Access, hp, if_true, Bool.false_eq_true, if_false]

end

section
variable (off : Nat) (be : BitVec 4) (v : W32)

/-- Writing the lowest `n` enabled bytes of a doubleword keeps the canonical form (R389). -/
theorem slotWrite_wf {m : List Host.Cell} (h : Memory.wf m) (n : Nat) : Memory.wf (slotWrite off be v n m) := by
  induction n with
  | zero => exact h
  | succ n ih =>
    unfold slotWrite
    split
    · exact memWrite_wf _ _ ih
    · exact ih

/-- A byte outside the bytes written reads as before (R389). -/
theorem memRead_slotWrite_outside (m : List Host.Cell) {n a : Nat} (ha : a < off ∨ off + n ≤ a) :
    memRead (slotWrite off be v n m) a = memRead m a := by
  induction n with
  | zero => rfl
  | succ n ih =>
    unfold slotWrite
    split
    · rw [memRead_memWrite_other _ _ (by omega), ih (by omega)]
    · exact ih (by omega)

/-- An enabled byte reads as written, another byte of the doubleword as before (R389). -/
theorem memRead_slotWrite_inside {m : List Host.Cell} (h : Memory.wf m) {n i : Nat} (hi : i < n) :
    memRead (slotWrite off be v n m) (off + i) =
      if be.getLsbD i then byte (v.toNat / 2 ^ (8 * i)) else memRead m (off + i) := by
  induction n with
  | zero => omega
  | succ n ih =>
    unfold slotWrite
    by_cases hn : i = n
    · subst hn
      split
      · exact memRead_memWrite_same _ _ (slotWrite_wf off be v h i)
      · exact memRead_slotWrite_outside off be v m (by omega)
    · rw [← ih (by omega)]
      split
      · exact memRead_memWrite_other _ _ (by omega)
      · rfl

/-- The four bytes of a word spell it (R2). -/
theorem leNat_bytes_of_word : BitVec.ofNat 32 (leNat [byte v.toNat, byte (v.toNat / 2 ^ 8), byte (v.toNat / 2 ^ 16),
    byte (v.toNat / 2 ^ 24)]) = v := by
  have hv := v.isLt
  apply BitVec.eq_of_toNat_eq
  simp only [leNat, byte, BitVec.toNat_ofNat]
  omega

/-- A doubleword written whole holds the value written (R389). -/
theorem word_slotWrite_whole {m : List Host.Cell} (h : Memory.wf m) :
    let m' := slotWrite off 15 v 4 m
    BitVec.ofNat 32 (leNat [memRead m' off, memRead m' (off + 1), memRead m' (off + 2), memRead m' (off + 3)]) = v := by
  have hbyte : ∀ i, i < 4 → memRead (slotWrite off 15 v 4 m) (off + i) = byte (v.toNat / 2 ^ (8 * i)) := fun i hi => by
    have hen : (15 : BitVec 4).getLsbD i = true := by
      revert i
      decide
    rw [memRead_slotWrite_inside off 15 v h hi, if_pos hen]
  have h0 := hbyte 0 (by omega)
  simp only [Nat.add_zero, Nat.mul_zero, Nat.pow_zero, Nat.div_one] at h0
  simp only [h0, hbyte 1 (by omega), hbyte 2 (by omega), hbyte 3 (by omega)]
  exact leNat_bytes_of_word v

/-- A write into a slot whose command does not run is a write of slot memory (R389). -/
theorem bar2Write_of_free {s : State} (hoff : off < 0x40000)
    (hfree : (slotOf s (off / 0x1000)).st = .idle ∨ (slotOf s (off / 0x1000)).st = .done) :
    bar2Write off be v s = { s with host := { s.host with mem := slotWrite off be v 4 s.host.mem } } := by
  have hbusy : ¬ ((slotOf s (off / 0x1000)).st = .pending ∨ (slotOf s (off / 0x1000)).st = .accepted) := by
    rcases hfree with h | h <;> simp [h]
  by_cases hbe : be = 0
  · subst hbe
    rfl
  · simp only [bar2Write, hbe, hoff, hbusy, if_true, if_false]

/-- A write into a slot whose command runs is dropped, with a free value for its cause (R389; log entry 2). -/
theorem bar2Write_of_busy {s : State} (hbe : be ≠ 0) (hoff : off < 0x40000)
    (hbusy : (slotOf s (off / 0x1000)).st = .pending ∨ (slotOf s (off / 0x1000)).st = .accepted) :
    bar2Write off be v s = dropBar2 off ((Config.freeValue s.free).toNat % 16) true { s with free := s.free + 1 } := by
  simp only [bar2Write, hbe, hoff, hbusy, if_true, if_false]
  rfl

/-- A read of a whole doubleword of slot memory sends what it holds (R389). -/
theorem bar2Read_whole {s : State} (hoff : off < 0x40000) : bar2Read off 15 s =
    emit (.bar2Read off (BitVec.ofNat 32 (leNat [memRead s.host.mem off, memRead s.host.mem (off + 1),
      memRead s.host.mem (off + 2), memRead s.host.mem (off + 3)]))) s := by
  have hbe : (15 : BitVec 4) ≠ 0 := by decide
  have hmask : beMask 15 = BitVec.allOnes 32 := by decide
  simp only [bar2Read, hbe, hoff, if_true, if_false, hmask, BitVec.and_allOnes]
  rfl

end

/-- Settles O54: the write is a write of slot memory, read back byte by byte. -/
theorem slotWriteReadBack : Obligations.SlotWriteReadBack := by
  intro o be v s hp hpx ho hfree hwf
  have hoff : o / 4 * 4 < 0x40000 := by omega
  have hbyte : ∀ i, i < 4 → _ := fun i => memRead_slotWrite_inside (o / 4 * 4) be v hwf (n := 4)
  refine ⟨{ s with host := { s.host with mem := slotWrite (o / 4 * 4) be v 4 s.host.mem } }, ?_, rfl, hbyte,
    fun a => memRead_slotWrite_outside _ _ _ _, fun hbe => ?_⟩
  · rw [exec_bar2Access_write hp, bar2Write_of_free _ _ _ hoff hfree]
  · subst hbe
    rw [exec_bar2Access_read (by exact hp), bar2Read_whole _ hoff, word_slotWrite_whole _ v hwf]

/-- A counter below its last value counts on by one. -/
theorem rcGet_rcAdd_one {off : Nat} {s : State} (h : (rcGet s off).toNat < 2 ^ 32 - 1) :
    rcGet (rcAdd off 1 s) off = rcGet s off + 1 := by
  have hlt : (rcGet s off).toNat + 1 < 2 ^ 32 := by omega
  have hv : BitVec.ofNat 32 ((rcGet s off).toNat + 1) = rcGet s off + 1 := by
    apply BitVec.eq_of_toNat_eq
    simp [BitVec.toNat_add]
  have hne : rcGet s off + 1 ≠ 0 := by
    intro h0
    have hzero := congrArg BitVec.toNat h0
    rw [← hv, BitVec.toNat_ofNat, Nat.mod_eq_of_lt hlt] at hzero
    cases hzero
  have hread : rcAdd off 1 s = { s with regs := { s.regs with rc := fput s.regs.rc off (rcGet s off + 1) 0 } } := by
    simp only [rcAdd, if_pos hlt, hv]
  rw [hread]
  exact fgetD_fput_listed _ _ hne

theorem reported_dropBar2 (off cause : Nat) (w : Bool) (s : State) : Reported s (dropBar2 off cause w s) :=
  reported_trans (reported_rcAdd _ _ s) (reported_raiseAccess _ _ _ _)

/-- A dropped access to BAR2 leaves HIF_ERR_INFO and counts once in HIF_ERR_CNT (R389). -/
theorem dropBar2_errors {s : State} (off cause : Nat) (w : Bool) (hup : s.power.mainUp = true) :
    (dropBar2 off cause w s).regs.errInfo = s.regs.errInfo ∧
    ((rcGet s 0x020).toNat < 2 ^ 32 - 1 → rcGet (dropBar2 off cause w s) 0x020 = rcGet s 0x020 + 1) := by
  obtain ⟨hinfo, herr⟩ := raiseAccess_errors (s := rcAdd 0x020 1 s) 0
    [(off : Int), (cause : Int), (b2n w : Int), (0 : Int)] cause hup
  exact ⟨hinfo, fun h => herr.trans (rcGet_rcAdd_one h)⟩

/-- Settles O55: the dropped write is one count and one report. -/
theorem busySlotWriteDropped : Obligations.BusySlotWriteDropped := by
  intro o be v s hp hpx ho hbe hbusy
  have hoff : o / 4 * 4 < 0x40000 := by omega
  have hup : s.power.mainUp = true := by
    simp only [portAlive, Bool.and_eq_true] at hp
    exact hp.1.1
  have hrep := reported_dropBar2 (o / 4 * 4) ((Config.freeValue s.free).toNat % 16) true { s with free := s.free + 1 }
  obtain ⟨hinfo, hcnt⟩ := dropBar2_errors (s := { s with free := s.free + 1 }) (o / 4 * 4)
    ((Config.freeValue s.free).toNat % 16) true hup
  refine ⟨_, ?_, ?_, hinfo, hcnt, hrep⟩
  · rw [exec_bar2Access_write hp, bar2Write_of_busy _ _ v hbe hoff hbusy]
  · rw [hrep.rest]

/-! ### Answers in slots (R386, R391, R394) -/

/-- An unsigned CMD_ECHO from slot 0. -/
def echoOfSlot0 : Req := { origin := .slot 0, tag := 1, signed := false, payload := [7] }

/-- Slot 0 is ACCEPTED, and a link-down or a function-level reset has orphaned the same request before (R394). -/
def orphanedEcho : State :=
  { power := { vstby := true }, pending := [.cmdEcho echoOfSlot0]
    host := { slots := [(0, { st := .accepted, status := 1 })], orphans := [{ opcode := 0, req := echoOfSlot0 }] } }

/-- Refutes O52: the response of an orphaned request is discarded (R394), so the ACCEPTED slot is not answered. -/
theorem not_completedCommandFillsItsSlot : ¬ Obligations.CompletedCommandFillsItsSlot := by
  intro h
  obtain ⟨hdone, _⟩ := h 0 echoOfSlot0 stOk 0 [] 0 orphanedEcho rfl (by decide +kernel) rfl (by decide +kernel) (by decide)
  exact absurd hdone (by decide +kernel)

/-- Refutes O53: a step runs the echo, and its response is discarded with the orphan (R394). -/
theorem not_echoAnswersItsPayload : ¬ Obligations.EchoAnswersItsPayload := by
  intro h
  obtain ⟨t, hstep, hdone, _⟩ := h echoOfSlot0 0 [] orphanedEcho rfl rfl (by decide +kernel) (by decide +kernel) rfl
    (by decide +kernel) rfl (by decide)
  cases hstep
  exact absurd hdone (by decide +kernel)

end Sys2Proof.Proofs
end

section
/-! Proofs of the transport rows and the device commands: each row is first reduced to what it is at a live port or an answering
MG, each command to its own effect; and the one order of checks that all packet commands run through. -/

namespace Sys2Proof.Proofs

open Sys2Proof.Machine Sys2Proof.Safety Sys2Proof.Laws

/-! ### The side-band transport (R383, R400 to R403) -/

section
variable {s : State} (hmg : sbAlive s = true)
include hmg

theorem exec_fragWrite_of_sbAlive (f : Byte) (o : W16) (d : Bytes) (pec : Bool) : exec (.fragWrite f o d pec) s =
    .next (if pec then fragment f o.toNat d s else emit .sbNack (raise 0x0C [] (rcAdd 0x160C 1 s))) := by
  change execFragWrite f o d pec s = _
  simp only [execFragWrite, hmg, if_true]

theorem exec_fragRead_of_sbAlive (o : W16) (pec : Bool) :
    exec (.fragRead o pec) s = .next (emit (.sbRead (fragBytes s o.toNat)) s) := by
  change execFragRead o pec s = _
  simp only [execFragRead, hmg, if_true]

theorem exec_sbStatus_of_sbAlive : exec .sbStatus s = .next (emit (.sbRead (sbStatusBytes s)) s) := by
  change execSbStatus s = _
  simp only [execSbStatus, hmg, if_true]

/-- MG answers an alert response with its address and releases ALERT_N (R383). -/
theorem exec_alertResponseRead_of_alert (hal : s.evt.alert = true) : exec .alertResponseRead s =
    .next (emit (.alertAddress (0x58 + s.sb.sba.toNat)) { s with evt := { s.evt with alert := false } }) := by
  change execAlertResponseRead s = _
  simp only [execAlertResponseRead, hmg, hal, Bool.and_self, if_true]

end

theorem exec_sbmReassemblyTimeout_of_idle {s : State} (hv : s.power.vstby = true) (hmg : inService s idMG = true)
    (hst : s.sb.st = .receiving) (ht : 100000000 ≤ since s s.sb.fragAt) : exec .sbmReassemblyTimeout s = .next (abandon 5 s) := by
  change execSbmReassemblyTimeout s = _
  simp only [execSbmReassemblyTimeout, hv, hmg, decide_eq_true hst, decide_eq_true ht, Bool.and_self, if_true]

/-- Settles O47: the eight bytes by the state of the reassembly and the three flags. -/
theorem sideBandStatusBytes : Obligations.SideBandStatusBytes := by
  intro s hmg
  have hflags : b2n s.power.mainUp + 2 * b2n (decide (s.evt.pendSb ≠ 0)) + 4 * b2n (cfgBit s 0x1604 1) =
      (if s.power.mainUp then 1 else 0) + (if s.evt.pendSb = 0 then 0 else 2) + (if cfgBit s 0x1604 1 then 4 else 0) := by
    simp only [b2n, decide_eq_true_eq]
    split <;> split <;> split <;> simp_all
  rw [exec_sbStatus_of_sbAlive hmg, sbStatusBytes, hflags]
  cases s.sb.st <;> simp only [sbCode, reduceCtorEq, if_true, if_false] <;> rfl

/-! ### The PCIe link (R384, R394, R562) -/

section
variable {s : State} (hp : portAlive s .pcie = true)
include hp

theorem exec_hostLinkDown_functionReset : exec (.hostLinkDown .functionReset) s = .next (idleSlots s) := by
  change execHostLinkDown .functionReset s = _
  simp only [execHostLinkDown, hp, if_true]

/-- The link goes down but by a function-level reset (R394, R562). -/
theorem exec_hostLinkDown_of_ne_functionReset {k : LinkDownKind} (hk : k ≠ .functionReset) : exec (.hostLinkDown k) s =
    .next (raise 0x07 [] { idleSlots s with host := { (idleSlots s).host with linkUp := false } }) := by
  change execHostLinkDown k s = _
  cases k with
  | functionReset => exact absurd rfl hk
  | linkDown => simp only [execHostLinkDown, hp, if_true]
  | perst => simp only [execHostLinkDown, hp, if_true]

end

theorem exec_hostLinkUp_of_down {s : State} (hup : s.power.mainUp = true) (hpx : inService s idPX = true)
    (hl : s.host.linkUp = false) :
    exec .hostLinkUp s = .next (raise 0x06 [] { s with host := { s.host with linkUp := true } }) := by
  change execHostLinkUp s = _
  simp only [execHostLinkUp, hup, hpx, hl, Bool.not_false, Bool.and_self, if_true]

/-- Settles O31: each row at its live port or answering MG, the doorbell as an own write that passes. -/
theorem transportEventsComplete : Obligations.TransportEventsComplete :=
  ⟨fun v _ h => exec_of_ownWrite_passes (f := ringDoorbell v) rfl h,
    fun f o d _ h => exec_fragWrite_of_sbAlive h f o d true, fun f o d _ h => exec_fragWrite_of_sbAlive h f o d false,
    fun o pec _ h => exec_fragRead_of_sbAlive h o pec, fun _ h => exec_sbStatus_of_sbAlive h,
    fun _ => exec_sbmReassemblyTimeout_of_idle, fun _ => exec_alertResponseRead_of_alert,
    fun _ => exec_hostLinkDown_functionReset, fun _ _ h => exec_hostLinkDown_of_ne_functionReset h,
    fun _ => exec_hostLinkUp_of_down,
    fun o be v _ h _ => ⟨exec_bar2Access_write h o be v, exec_bar2Access_read h o be v⟩⟩

/-! ### The order of checks (R387) -/

section
variable {c : CmdSpec} {r : Req} {s : State} (hmay : mayStart c.opcode r s = true)
include hmay

/-- A request that may start is taken from its slot and judged (R387). -/
theorem runCmd_of_mayStart : runCmd c r s = runStarted c r (entered c r s) := by
  simp only [runCmd, hmay, if_true, entered]

theorem runCmd_of_signFlagRefusal {st d : Nat} (h : signFlagRefusal c.opcode r.signed = some (st, d)) :
    runCmd c r s = finish c.opcode r st d [] (entered c r s) := by
  simp only [runCmd_of_mayStart hmay, runStarted, h]

section
variable (hflag : signFlagRefusal c.opcode r.signed = none)
include hflag

theorem runCmd_of_gated (h : gated c.opcode (bodyOf r) (entered c r s) = true) :
    runCmd c r s = finish c.opcode r stNotActive 0 [] (entered c r s) := by
  simp only [runCmd_of_mayStart hmay, runStarted, hflag, h, if_true]

section
variable (hgate : gated c.opcode (bodyOf r) (entered c r s) = false)
include hgate

theorem runCmd_of_lengthRefusal {n : Nat} (h : lengthRefusal c r = some n) :
    runCmd c r s = finish c.opcode r stBadLength n [] (entered c r s) := by
  simp only [runCmd_of_mayStart hmay, runStarted, hflag, hgate, h, Bool.false_eq_true, if_false]

section
variable (hlen : lengthRefusal c r = none)
include hlen

/-- A signature that KB refuses is answered with its cause and reported (R397). -/
theorem runCmd_of_signatureRefusal {k : Nat} (h : signatureRefusal c.opcode r (entered c r s) = some k) :
    runCmd c r s = finish c.opcode r stDenied k []
      (raiseC 0x0A [(originSlot r.origin : Int), (portCode (originPort r.origin) : Int), (k : Int)] k
        (askKeys r (entered c r s))) := by
  simp only [runCmd_of_mayStart hmay, runStarted, hflag, hgate, hlen, h, Bool.false_eq_true, if_false]

theorem runCmd_of_check {st d : Nat} (hsig : signatureRefusal c.opcode r (entered c r s) = none)
    (h : c.check r (bodyOf r) (afterSignature r (entered c r s)) = some (st, d)) :
    runCmd c r s = finish c.opcode r st d [] (afterSignature r (entered c r s)) := by
  simp only [runCmd_of_mayStart hmay, runStarted, hflag, hgate, hlen, hsig, h, Bool.false_eq_true, if_false]

end

end

end

end

/-- Settles O51: the checks in their order; each row of a packet command runs its command. -/
theorem everyRequestIsJudgedByTheSameChecks : Obligations.EveryRequestIsJudgedByTheSameChecks := by
  refine ⟨fun c r s => runCmd_waits, fun c r s st d hmay => runCmd_of_signFlagRefusal hmay,
    fun c r s hmay hflag => runCmd_of_gated hmay hflag, fun c r s n hmay hflag hgate => runCmd_of_lengthRefusal hmay hflag hgate,
    fun c r s k hmay hflag hgate hlen => runCmd_of_signatureRefusal hmay hflag hgate hlen,
    fun c r s st d hmay hflag hgate hlen => runCmd_of_check hmay hflag hgate hlen, fun r s => ?_⟩
  and_intros <;> intros <;> rfl

/-! ### The device commands (R408) -/

/-- CMD_EVENT_CLEAR clears the set of the port its request came through (R408). -/
theorem specEventClear_run (r : Req) (p : Bytes) (s : State) : specEventClear.run r p s =
    finishOk 0x0021 r [] (clearPending (originPort r.origin) (BitVec.ofNat 256 (getLE p 0 32)) s) := rfl

theorem originPort_of_ne_sideBand {o : Origin} (h : o ≠ .sideBand) : originPort o = .pcie := by
  cases o with
  | slot n => rfl
  | sideBand => exact absurd rfl h
  | mirror => rfl

/-- Settles O1: each command by its effect, the event clear by the port of its origin. -/
theorem deviceCommandsComplete : Obligations.DeviceCommandsComplete := by
  refine ⟨fun r s h => exec_of_accepted (c := specEcho) rfl h,
    fun r s h => exec_of_accepted (c := specDeviceInfo) rfl h,
    fun r s h => exec_of_accepted (c := specRegRead) rfl h,
    fun r s h => exec_of_accepted (c := specRegWrite) rfl h,
    fun r s h => exec_of_accepted (c := specEventRead) rfl h,
    fun r s h ho => ?_, fun r s h ho => ?_⟩
  · rw [exec_of_accepted (c := specEventClear) rfl h, specEventClear_run, originPort_of_ne_sideBand ho]
    rfl
  · rw [exec_of_accepted (c := specEventClear) rfl h, specEventClear_run, ho]
    rfl

end Sys2Proof.Proofs
end

section
/-! Proofs of the network time rows (R322 to R340): each event is first reduced to what it is under its conditions, each command to
its own effect. -/

namespace Sys2Proof.Proofs

open Sys2Proof.Machine Sys2Proof.Safety Sys2Proof.Laws

/-! ### Network time -/

/-- Settles O15: each command by its effect, PTP_CTRL as an own write that passes. -/
theorem timeCommandsComplete : Obligations.TimeCommandsComplete :=
  ⟨fun _ _ h => exec_of_accepted (c := specTimeConfig) rfl h, fun _ _ h => exec_of_accepted (c := specTimePort) rfl h,
    fun _ _ h => exec_of_accepted (c := specTimeSelect) rfl h, fun _ _ h => exec_of_accepted (c := specTimeStatus) rfl h,
    fun _ _ h => exec_of_accepted (c := specTimeSet) rfl h,
    fun _ v _ h => exec_of_ownWrite_passes (f := applyPtpCtrl v) rfl h⟩

section
variable {s : State}

/-! #### Messages of the boundary clock (R324 to R328) -/

section
variable {m : PtpMsg} (hnb : nbOn s = true)
include hnb

/-- An event message without its stamp is counted only (R325). -/
theorem exec_ptpMessage_of_unstamped (q : Fin 8) (hl : m.stampLost = true) (he : eventMessage m.kind = true) :
    exec (.ptpMessage q m) s = .next (rcAdd 0xE30 1 s) := by
  change execPtpMessage q m s = _
  simp only [execPtpMessage, hnb, hl, he, Bool.not_true, Bool.and_self, Bool.false_eq_true, if_true, if_false]

/-- Any other message is taken by the domains it belongs to (R324). -/
theorem exec_ptpMessage_of_stamped (q : Fin 8) (h : m.stampLost = false ∨ eventMessage m.kind = false) :
    let t := if ptpTakes s 0 q.val m then ptpReceive 0 q.val m s else s
    exec (.ptpMessage q m) s = .next (if ptpTakes t 1 q.val m then ptpReceive 1 q.val m t else t) := by
  have hs : (m.stampLost && eventMessage m.kind) = false := by rcases h with h | h <;> simp [h]
  change execPtpMessage q m s = _
  simp only [execPtpMessage, hnb, hs, Bool.not_true, Bool.false_eq_true, if_false]

end

section
variable {i : Fin 2} {q : Fin 8}

/-- A MASTER port whose interval has passed sends its Sync (R327). -/
theorem exec_syncSend_of_due (hm : isMaster s i q.val = true)
    (hd : sampleInterval (dom s i).cfg ≤ since s (ptpPort (dom s i) q.val).syncAt) : exec (.syncSend i q) s =
    .next (portSend q.val 3 (.ptp q.val i.val (.sync false) (ptpPort (dom s i) q.val).syncOut
      (ofSigned 64 (egressStamp s i q.val false)) 0)
      (setPtp i q.val (fun x => { x with syncAt := s.refNs, syncOut := x.syncOut + 1 }) s)) := by
  change execSyncSend i q s = _
  simp only [execSyncSend, hm, decide_eq_true hd, Bool.and_self, if_true]

/-- A MASTER port sends Announce once a second (R327). -/
theorem exec_announceSend_of_due (hm : isMaster s i q.val = true)
    (hd : 1000000000 ≤ since s (ptpPort (dom s i) q.val).annAt) : exec (.announceSend i q) s =
    .next (portSend q.val 3 (.ptp q.val i.val .announce (ptpPort (dom s i) q.val).annOut 0 0)
      (setPtp i q.val (fun x => { x with annAt := s.refNs, annOut := x.annOut + 1 }) s)) := by
  change execAnnounceSend i q s = _
  simp only [execAnnounceSend, hm, decide_eq_true hd, Bool.and_self, if_true]

/-- The SLAVE and the PASSIVE port measure their path delay (R328). -/
theorem exec_delayReqSend_of_follower (hnb : nbOn s = true) (hsrc : (dom s i).cfg.source = 1)
    (hport : (domPorts s (dom s i)).contains q.val = true)
    (hst : (ptpPort (dom s i) q.val).st = .slave ∨ (ptpPort (dom s i) q.val).st = .passive) :
    let t := ofSigned 64 (egressStamp s i q.val true)
    exec (.delayReqSend i q) s = .next (portSend q.val 3 (.ptp q.val i.val
      (if (dom s i).cfg.mech = 1 then .pdelayReq else .delayReq) (ptpPort (dom s i) q.val).reqSeq t 0)
      (setPtp i q.val (fun x => { x with reqOut := some (x.reqSeq, t), reqSeq := x.reqSeq + 1 }) s)) := by
  have hfol : (decide ((ptpPort (dom s i) q.val).st = .slave) || decide ((ptpPort (dom s i) q.val).st = .passive)) = true := by
    simpa only [Bool.or_eq_true, decide_eq_true_eq] using hst
  change execDelayReqSend i q s = _
  simp only [execDelayReqSend, hnb, hsrc, hport, hfol, decide_true, Bool.and_self, if_true]

end

/-! #### PPS and time of day (R329) -/

section
variable (hnb : nbOn s = true)
include hnb

theorem exec_ppsEdge_of_early {a : Nat} (hl : s.time.ppsLast = some a) (he : since s a < 900000000) :
    exec .ppsEdge s = .next { s with time := { s.time with ppsEarly := s.time.ppsEarly + 1 } } := by
  change execPpsEdge s = _
  simp only [execPpsEdge, hnb, hl, decide_eq_true he, Bool.not_true, Bool.false_eq_true, if_true, if_false]

/-- An edge that is not early is stamped in the three clocks. -/
theorem exec_ppsEdge_of_not_early (h : ∀ a, s.time.ppsLast = some a → 900000000 ≤ since s a) : exec .ppsEdge s =
    .next { s with time := { s.time with ppsLast := some s.refNs, ppsEdge := some (devNs s, domNs s 0, domNs s 1, s.refNs) } } := by
  change execPpsEdge s = _
  cases hl : s.time.ppsLast with
  | none => simp only [execPpsEdge, hnb, hl, Bool.not_true, Bool.false_eq_true, if_false]
  | some a =>
    have he : ¬ since s a < 900000000 := Nat.not_lt.mpr (h a hl)
    simp only [execPpsEdge, hnb, hl, decide_eq_false he, Bool.not_true, Bool.false_eq_true, if_false]

/-- A correct time-of-day message within 0.9 s of its edge ends the edge's sample. -/
theorem exec_todMessage_of_ok {m : Bytes} {d e0 e1 a : Nat} (he : s.time.ppsEdge = some (d, e0, e1, a)) (hm : todOk m = true)
    (ha : since s a ≤ 900000000) : exec (.todMessage m) s = .next (ppsSample 1 e1 m (ppsSample 0 e0 m
      { s with time := { s.time with ppsEdge := none, ppsUsed := some a } })) := by
  change execTodMessage m s = _
  simp only [execTodMessage, hnb, he, hm, decide_eq_true ha, Bool.and_self, if_true]

/-! #### Holdover, following and selection (R331 to R333) -/

theorem exec_domainHoldover_of_due {i : Fin 2} (hst : (dom s i).st = .locked ∨ (dom s i).st = .acquiring)
    (hd : (dom s i).cfg.lossN * sampleInterval (dom s i).cfg ≤ since s (dom s i).sampleAt) :
    let t := raise 0x82 [(i.val : Int)] (setDom i (fun d => { d with st := .holdover, y := d.acc, goodRun := 0, badRun := 0 }) s)
    exec (.domainHoldover i) s =
      .next (evalSelection (if (dom s i).cfg.source = 2 then raise 0x86 [(i.val : Int)] t else t)) := by
  have hfol : (decide ((dom s i).st = .locked) || decide ((dom s i).st = .acquiring)) = true := by
    simpa only [Bool.or_eq_true, decide_eq_true_eq] using hst
  change execDomainHoldover i s = _
  simp only [execDomainHoldover, hnb, hfol, decide_eq_true hd, Bool.and_self, if_true]

theorem exec_deviceTimeUpdate_of_due (hd : 1000000 ≤ since s s.time.followAt) :
    let t := ageDomain 1 (ageDomain 0 { s with time := { s.time with followAt := s.refNs } })
    exec .deviceTimeUpdate s = .next (passLeap (if t.time.neverLocked then t else follow (firstLock t))) := by
  change execDeviceTimeUpdate s = _
  simp only [execDeviceTimeUpdate, hnb, decide_eq_true hd, Bool.and_self, if_true]

theorem exec_domainRevert_of_due (hmode : ptpMode s = 0) (hrev : cfgBit s 0xE04 2 = true) (hsel : s.time.sel = 1)
    (hlock : s.time.dom0.st = .locked) (hd : 60000000000 ≤ since s s.time.dom0.lockedAt) :
    exec .domainRevert s = .next (selectDom 0 s) := by
  change execDomainRevert s = _
  simp only [execDomainRevert, hnb, hmode, hrev, hsel, hlock, decide_eq_true hd, decide_true, Bool.and_self, if_true]

end

end

/-- Settles O16: each event by its lemma above. -/
theorem timeEventsComplete : Obligations.TimeEventsComplete :=
  ⟨fun q _ _ hnb => exec_ptpMessage_of_unstamped hnb q, fun q _ _ hnb => exec_ptpMessage_of_stamped hnb q,
    fun _ _ _ => exec_syncSend_of_due, fun _ _ _ => exec_announceSend_of_due,
    fun _ _ _ => exec_delayReqSend_of_follower,
    fun _ _ hnb => exec_ppsEdge_of_early hnb, fun _ hnb => exec_ppsEdge_of_not_early hnb,
    fun _ _ _ _ _ _ he hnb => exec_todMessage_of_ok hnb he,
    fun _ _ hnb => exec_domainHoldover_of_due hnb, fun _ hnb => exec_deviceTimeUpdate_of_due hnb,
    fun _ hnb => exec_domainRevert_of_due hnb⟩

end Sys2Proof.Proofs

end

section
/-! Proofs of the CAN rows (R341 to R362): each event is first reduced to what it is under its conditions, each command to its own
effect, each register row to an own write that passes. -/

namespace Sys2Proof.Proofs

open Sys2Proof.Machine Sys2Proof.Safety Sys2Proof.Laws

/-- Settles O17: each command by its effect, the register rows as own writes that pass. -/
theorem canCommandsAndWritesComplete : Obligations.CanCommandsAndWritesComplete := by
  refine ⟨fun _ _ h => exec_of_accepted (c := specCanConfig) rfl h, fun _ _ h => exec_of_accepted (c := specCanBuffer) rfl h,
    fun r s h => ?_, fun _ _ h => exec_of_accepted (c := specCanRecover) rfl h,
    fun _ _ h => exec_of_accepted (c := specCanStatus) rfl h,
    fun _ n v _ h => exec_of_ownWrite_passes (f := applyCanCtrl n.val v) rfl h,
    fun _ n v _ h => exec_of_ownWrite_passes (f := applyCanTiming n.val (canBase n.val + 8) v) rfl h,
    fun _ n v _ h => exec_of_ownWrite_passes (f := applyCanTiming n.val (canBase n.val + 12) v) rfl h,
    fun _ n hi v _ h => exec_of_ownWrite_passes (f := requestHost n.val (maskBufs (32 * b2n hi) v.toNat)) rfl h,
    fun _ n hi v _ h => exec_of_ownWrite_passes (f := cancelBufs n.val (maskBufs (32 * b2n hi) v.toNat)) rfl h,
    fun _ n hi v _ h => exec_of_ownWrite_passes (f := clearNd n.val (maskBufs (32 * b2n hi) v.toNat)) rfl h⟩
  rw [exec_of_accepted (c := specCanCancel) rfl h]
  rfl

section
variable {n : Fin 4} {s : State}

/-! ### Frames (R341, R344, R345) -/

section
variable {f : CanFrame} (hpb : pbOn s = true) (hbus : onBusMode (canCtl s n.val) = true)
  (hoff : (canCtl s n.val).conf ≠ .busOff) (hrec : (canCtl s n.val).conf ≠ .recovering) (hloop : loopHolds s 2 n.val = false)
include hpb hbus hoff hrec hloop

/-- A controller on the bus counts the good reception and stores a data frame that a buffer takes. -/
theorem exec_canFrameReceive_of_taken {b : Nat} (hrtr : f.rtr = false) (hb : takingBuffer (canCtl s n.val) f = some b) :
    exec (.canFrameReceive n f) s = .next (storeFrame n.val b f (rxGoodCount n.val s)) := by
  change execCanFrameReceive n f s = _
  simp only [execCanFrameReceive, hpb, hbus, decide_eq_false hoff, decide_eq_false hrec, hloop, hrtr, hb, Bool.not_true,
    Bool.or_self, Bool.false_eq_true, if_false]

/-- An RTR frame, or one that no buffer takes, is counted. -/
theorem exec_canFrameReceive_of_not_taken (h : f.rtr = true ∨ takingBuffer (canCtl s n.val) f = none) :
    exec (.canFrameReceive n f) s = .next (rcAdd (canBase n.val + 0x34) 1 (rxGoodCount n.val s)) := by
  change execCanFrameReceive n f s = _
  simp only [execCanFrameReceive, hpb, hbus, decide_eq_false hoff, decide_eq_false hrec, hloop, Bool.not_true, Bool.or_self,
    Bool.false_eq_true, if_false]
  rcases h with h | h
  · simp only [h, if_true]
  · simp only [h, ite_self]

end

/-! ### The frame on the bus (R350, R352, R353) -/

section
variable {b : Nat} (hb : (canCtl s n.val).sending = some b)
include hb

theorem exec_canTxComplete_of_sending : exec (.canTxComplete n) s = .next (startNext n.val (confine n.val (dropOnBus n.val b
    (setCan n.val (fun c => { c with sending := none, tec := c.tec - 1 })
      (setBuf n.val b (fun x => { x with cancelLate := x.cancelLate || (canBuf (canCtl s n.val) b).cancelled }) s))))) := by
  change execCanTxComplete n s = _
  simp only [execCanTxComplete, hb]

theorem exec_canTxError_busError :
    exec (.canTxError n .busError) s = .next (startNext n.val (busError n.val b s)) := by
  change execCanTxError n .busError s = _
  simp only [execCanTxError, hb]

theorem exec_canTxError_arbitration : let t := setCan n.val (fun c => { c with sending := none }) s
    exec (.canTxError n .arbitration) s =
      .next (startNext n.val (if (canBuf (canCtl t n.val) b).cancelled then dropOnBus n.val b t else t)) := by
  change execCanTxError n .arbitration s = _
  simp only [execCanTxError, hb]

end

/-! ### Bus states (R343, R353) -/

theorem exec_canBusOn_of_recovering (h : (canCtl s n.val).conf = .recovering) : exec (.canBusOn n) s =
    .next (startNext n.val (raise 0x93 [(n.val : Int)]
      (setCan n.val (fun c => { c with conf := .active, tec := 0, recCnt := 0 }) s))) := by
  change execCanBusOn n s = _
  simp only [execCanBusOn, h, if_true]

theorem exec_canIntegrate_of_integrating (h : (canCtl s n.val).integrating = true) : exec (.canIntegrate n) s =
    .next (startNext n.val (setCan n.val (fun c => { c with integrating := false }) s)) := by
  change execCanIntegrate n s = _
  simp only [execCanIntegrate, h, if_true]

theorem exec_canRxBusError_of_onBus (hpb : pbOn s = true) (hbus : onBusMode (canCtl s n.val) = true) :
    exec (.canRxBusError n) s = .next (rxErrorCount n.val s) := by
  change execCanRxBusError n s = _
  simp only [execCanRxBusError, hpb, hbus, Bool.and_self, if_true]

/-! ### Supervision (R355, R358) -/

/-- A receive buffer silent for its TIMEOUT_MS (R355). -/
theorem exec_canRxTimeout_of_silent {b : Fin 65} (hpb : pbOn s = true) (hdir : (canBuf (canCtl s n.val) b.val).desc.dir = 1)
    (hto : (canBuf (canCtl s n.val) b.val).timedOut = false)
    (hd : (canBuf (canCtl s n.val) b.val).desc.timeoutMs * 1000000 ≤ since s (canBuf (canCtl s n.val) b.val).rxAt) :
    exec (.canRxTimeout n b) s = .next (raise 0x96 [(n.val : Int), (b.val : Int)]
      (stalePoints (canBuf (canCtl s n.val) b.val).desc.signals
        (setBuf n.val b.val (fun y => { y with timedOut := true }) s))) := by
  change execCanRxTimeout n b s = _
  simp only [execCanRxTimeout, hpb, hdir, hto, decide_eq_true hd, decide_true, Bool.not_false, Bool.and_self, if_true]

/-- The loop check of a controller in NORMAL mode that is due and free (R358). -/
theorem exec_canCheck_of_due (ok : Bool) (k : Nat) (hpb : pbOn s = true) (hmode : (canCtl s n.val).mode = 2)
    (hint : (canCtl s n.val).integrating = false) (hsend : (canCtl s n.val).sending = none)
    (hpend : canPending (canCtl s n.val) = false) (hd : 500000000 ≤ since s (canCtl s n.val).checkAt) :
    let t := setCan n.val (fun x => { x with checkAt := x.checkAt + 500000000 }) s
    let u := if k = 0 then t else rcAdd (canBase n.val + 0x3C) k t
    exec (.canCheck n ok k) s = .next (if ok then u else
      rowFault 14 (raise 0x99 [(n.val : Int)] (setCan n.val (fun x => { x with checkFail := true }) u))) := by
  change execCanCheck n ok k s = _
  simp only [execCanCheck, hpb, hmode, hint, hsend, hpend, decide_eq_true hd, decide_true, Option.isNone_none, Bool.not_false,
    Bool.true_or, Bool.and_self, if_true]

end

/-- Settles O18: each event by its lemma above, a received frame by whether a buffer takes it. -/
theorem canEventsComplete : Obligations.CanEventsComplete :=
  ⟨fun _ _ _ hpb hbus hoff hrec hloop =>
      ⟨fun _ => exec_canFrameReceive_of_taken hpb hbus hoff hrec hloop,
        exec_canFrameReceive_of_not_taken hpb hbus hoff hrec hloop⟩,
    fun _ _ _ => exec_canTxComplete_of_sending, fun _ _ _ => exec_canTxError_busError,
    fun _ _ _ => exec_canTxError_arbitration, fun _ _ => exec_canBusOn_of_recovering,
    fun _ _ => exec_canIntegrate_of_integrating, fun _ _ => exec_canRxBusError_of_onBus,
    fun _ _ _ => exec_canRxTimeout_of_silent, fun _ ok k _ => exec_canCheck_of_due ok k⟩

end Sys2Proof.Proofs

end

section
/-! Proofs of the calendar and the recorder: the days of R481 are counted without gap, a read of the calendar words is a register
read of a block that MG serves, and each event is first reduced to what it is under its conditions. -/

namespace Sys2Proof.Proofs

open Sys2Proof.Machine Sys2Proof.Safety Sys2Proof.Laws

/-! ### The days of the calendar (R481) -/

/-- The days of a year (R481). -/
def yearLen (y : Nat) : Nat := if leapYear y then 366 else 365

/-- Every fourth year is a leap year, of the hundreds only every fourth (R481). -/
theorem yearLen_eq (y : Nat) : yearLen y + (if y % 100 = 0 then 1 else 0) =
    365 + (if y % 4 = 0 then 1 else 0) + (if y % 400 = 0 then 1 else 0) := by
  simp only [yearLen, leapYear, Bool.and_eq_true, Bool.or_eq_true, decide_eq_true_eq]
  split <;> split <;> split <;> split <;> omega

theorem yearDays_succ (y : Nat) : yearDays (y + 1) = yearDays y + yearLen y := by
  have h4 : (y + 1 + 3) / 4 = (y + 3) / 4 + if y % 4 = 0 then 1 else 0 := by split <;> omega
  have h100 : (y + 1 + 99) / 100 = (y + 99) / 100 + if y % 100 = 0 then 1 else 0 := by split <;> omega
  have h400 : (y + 1 + 399) / 400 = (y + 399) / 400 + if y % 400 = 0 then 1 else 0 := by split <;> omega
  have hle : (y + 99) / 100 ≤ y := by omega
  have hlen := yearLen_eq y
  have hcent : (if y % 100 = 0 then 1 else 0) ≤ 1 := by split <;> decide
  simp only [yearDays, h4, h100, h400]
  generalize (if y % 4 = 0 then 1 else 0) = a, (if y % 100 = 0 then 1 else 0) = b, (if y % 400 = 0 then 1 else 0) = c at *
  omega

theorem yearOfDay_eq {y d : Nat} (hy : y < 400) (hlo : yearDays y ≤ d) (hhi : d < yearDays (y + 1)) : yearOfDay d = y := by
  have hest : y ≤ d * 400 / 146097 + 1 ∧ d * 400 / 146097 ≤ y + 1 := by
    simp only [yearDays] at hlo hhi
    omega
  have hstep := yearDays_succ (y - 1)
  simp only [yearOfDay]
  obtain h | h | h : d * 400 / 146097 = y - 1 ∧ 0 < y ∨ d * 400 / 146097 = y ∨ d * 400 / 146097 = y + 1 := by omega
  · obtain ⟨h, h0⟩ := h
    rw [h, if_neg (by rw [Nat.sub_add_cancel h0] at hstep; omega), Nat.sub_add_cancel h0, if_pos hlo]
  · rw [h, if_neg (by omega), if_neg (by omega)]
  · rw [h, if_pos hhi, Nat.add_sub_cancel]

theorem monthDays_succ {y m : Nat} (hm : 0 < m) : monthDays y (m + 1) = monthDays y m + monthLen y m := by
  simp only [monthDays, Nat.pos_iff_ne_zero.mp hm, if_false]

theorem monthDays_mono {y k m : Nat} (h : k ≤ m) : monthDays y k ≤ monthDays y m := by
  induction h with
  | refl => exact Nat.le_refl _
  | step _ ih => exact Nat.le_trans ih (Nat.le_add_right _ _)

/-- From month `k` on, the day `j` days after the beginning of month `m` is day `j + 1` of that month. -/
theorem monthOfDay_eq {y m j : Nat} (hj : j < monthLen y m) : ∀ (n k d : Nat), 0 < k → k ≤ m → m ≤ k + n →
    d + monthDays y k = monthDays y m + j → monthOfDay y d n k = (m, j + 1) := by
  intro n
  induction n with
  | zero =>
    intro k d _ hkm hmk hd
    obtain rfl : k = m := by omega
    obtain rfl : d = j := by omega
    rfl
  | succ n ih =>
    intro k d hk hkm hmk hd
    have hsucc := monthDays_succ (y := y) hk
    rcases Nat.eq_or_lt_of_le hkm with rfl | hlt
    · obtain rfl : d = j := by omega
      simp only [monthOfDay, hj, if_true]
    · have hmono : monthDays y (k + 1) ≤ monthDays y m := monthDays_mono hlt
      simp only [monthOfDay, show ¬ d < monthLen y k by omega, if_false]
      exact ih (k + 1) _ (by omega) hlt (by omega) (by omega)

/-- The twelve months fill the year. -/
theorem monthDays_year (y : Nat) : monthDays y 13 = yearLen y := by
  cases h : leapYear y <;> simp [monthDays, monthLen, yearLen, h]

theorem possible_iff (c : CalTime) : possible c = true ↔ (c.subsec ≤ 32767 ∧ c.sec ≤ 59 ∧ c.min ≤ 59 ∧ c.hour ≤ 23 ∧
    1 ≤ c.month ∧ c.month ≤ 12 ∧ c.year ≤ 399 ∧ 1 ≤ c.day ∧ c.day ≤ monthLen c.year c.month) := by
  simp only [possible, Bool.and_eq_true, decide_eq_true_eq]
  omega

/-- The day of a possible calendar time lies in its year. -/
theorem dayNumber_lt {c : CalTime} (hm : 1 ≤ c.month) (hm' : c.month ≤ 12) (hd : 1 ≤ c.day)
    (hd' : c.day ≤ monthLen c.year c.month) : dayNumber c < yearDays (c.year + 1) := by
  have hmonth := monthDays_succ (y := c.year) hm
  have hyear := monthDays_mono (y := c.year) (show c.month + 1 ≤ 13 by omega)
  rw [monthDays_year] at hyear
  rw [yearDays_succ, dayNumber]
  omega

theorem secs_split {d h m s : Nat} (hh : h ≤ 23) (hm : m ≤ 59) (hs : s ≤ 59) :
    let t := d * 86400 + h * 3600 + m * 60 + s
    t / 86400 = d ∧ t / 3600 % 24 = h ∧ t / 60 % 60 = m ∧ t % 60 = s := by
  refine ⟨?_, ?_, ?_, ?_⟩ <;> omega

/-- Settles O45: the count splits into its ticks, seconds and days, the days into year, month and day. -/
theorem calendarDateRoundTrip : Obligations.CalendarDateRoundTrip := by
  intro c hc
  obtain ⟨hsub, hsec, hmin, hhour, hm, hm', hy, hd, hd'⟩ := (possible_iff c).mp hc
  have hticks : calTicks c / 32768 = calSecs c ∧ calTicks c % 32768 = c.subsec := by
    simp only [calTicks]
    omega
  obtain ⟨hday, hh, hmi, hs⟩ := secs_split (d := dayNumber c) hhour hmin hsec
  have hyear : yearOfDay (dayNumber c) = c.year :=
    yearOfDay_eq (by omega) (by simp only [dayNumber]; omega) (dayNumber_lt hm hm' hd hd')
  have hmonth : monthOfDay c.year (dayNumber c - yearDays c.year) 11 1 = (c.month, c.day) := by
    rw [monthOfDay_eq (j := c.day - 1) (m := c.month) (by omega) 11 1 _ (by omega) hm (by omega)
      (by simp only [dayNumber, show monthDays c.year 1 = 0 from rfl]; omega), Nat.sub_add_cancel hd]
  simp only [calOfTicks, hticks, calSecs, hday, hh, hmi, hs, hyear, hmonth]

/-! ### Impossible calendar writes (R482) -/

theorem rtc_of_reported {s t : State} (h : Reported s t) : t.rtc = s.rtc := by
  have hrest := congrArg State.rtc h.rest
  exact hrest

theorem possible_of_hour_24 {c : CalTime} (h : c.hour = 24) : possible c = false := by
  refine Bool.eq_false_iff.mpr fun hc => ?_
  obtain ⟨-, -, -, hhour, -⟩ := (possible_iff c).mp hc
  omega

/-- A day that its month does not have is not possible. -/
theorem possible_of_monthLen_lt {c : CalTime} (h : monthLen c.year c.month < c.day) : possible c = false := by
  refine Bool.eq_false_iff.mpr fun hc => ?_
  obtain ⟨-, -, -, -, -, -, -, -, hd⟩ := (possible_iff c).mp hc
  omega

theorem monthLen_february (y : Nat) : monthLen y 2 = if leapYear y then 29 else 28 := rfl

theorem setCalendar_of_impossible {t0 t1 : Nat} (s : State) (h : possible (calOfWords t0 t1) = false) :
    setCalendar t0 t1 s = badWrite t0 t1 s := by
  simp only [setCalendar, h, Bool.false_eq_true, if_false]

theorem specRtcAlarm_run_impossible (r : Req) {p : Bytes} (t : State) (hen : getLE p 1 1 ≠ 0)
    (h : possible (calOfWords (getLE p 4 4) (getLE p 8 4)) = false) : specRtcAlarm.run r p t =
    finish 0x0A13 r stBadParam (if badT0 (getLE p 4 4) then 4 else 8) [] (badWrite (getLE p 4 4) (getLE p 8 4) t) := by
  simp only [specRtcAlarm, hen, h, Bool.not_false, if_true, if_false]

/-- Settles O46: the ranges by the definition, February by its length, each write by its branch for an impossible time. -/
theorem impossibleCalendarWriteRefusedWhole : Obligations.ImpossibleCalendarWriteRefusedWhole := by
  refine ⟨possible_iff, fun _ => possible_of_hour_24, fun c hm hd => ?_, fun c hm hd hl => ?_,
    fun t0 t1 s => ⟨rtc_of_reported (reported_raise _ _ _), rfl⟩, fun p v s hw hv => ?_, fun r s h => ?_, fun r s h => ?_⟩
  · refine possible_of_monthLen_lt ?_
    rw [hm, hd, monthLen_february]
    split <;> decide
  · refine possible_of_monthLen_lt ?_
    rw [hm, hd, monthLen_february, hl]
    decide
  · intro t0 t1 himp
    rw [exec_of_ownWrite_passes (f := applyRtc v) rfl hw, applyRtc, hv, if_pos rfl, setCalendar_of_impossible s himp]
  · intro t0 t1 himp
    rw [exec_of_accepted (c := specRtcSet) rfl h, specRtcSet_run, himp]
    rfl
  · intro hen t0 t1 himp
    rw [exec_of_accepted (c := specRtcAlarm) rfl h, specRtcAlarm_run_impossible r _ hen himp]

/-! ### Reads of the calendar words (R488) -/

section
variable {p : Port} {s : State}

theorem beMask_full : beMask 15 = BitVec.allOnes 32 := by decide +kernel

/-- MG serves a full read of a calendar word and needs no waking (R364, R368). -/
theorem readDw_of_rtcWord {off : Nat} {i : RegInfo} (hi : regInfo off = some i) (hb : blockAt off = some ⟨0x0F00, 0x100, 0x1F, true⟩)
    (hmg : inService s idMG = true) : readDw p off 15 s = readFull p off s := by
  have hmg' : inService s 0x1F = true := hmg
  have hgone : brickGone s off = false := by simp [brickGone, hb, hmg', idMG]
  have hjudge : judgeRead s off 15 = .pass := by
    simp only [judgeRead, hi, hgone]
    decide
  have hwake : wakeForRead off s = s := by
    simp only [wakeForRead, hb, reachBrick, show bankable 0x1F = false by decide, Bool.false_eq_true, if_false]
  simp only [readDw, hjudge, hwake, beMask_full, BitVec.and_allOnes]

theorem readFull_rtcT0 : readFull p 0xF10 s = (calT0 s.rtc.cal, startFreeze p s) := by rfl

theorem readFull_rtcT1 : readFull p 0xF14 s =
    (match freezeOf s p with
      | some f => f.t1
      | none => calT1 s.rtc.cal, endFreeze p s) := by rfl

section
variable (hp : portAlive s p = true) (hmg : inService s idMG = true)
include hp hmg

theorem exec_rtcT0Read_of_served : exec (.rtcT0Read p) s =
    .next (emit (.regRead p 0xF10 (calT0 s.rtc.cal)) (startFreeze p s)) := by
  rw [exec_rtcT0Read, readRequest_of_portAlive _ _ hp, readDw_of_rtcWord rfl (by decide +kernel) hmg, readFull_rtcT0]

theorem exec_rtcT1Read_of_served : exec (.rtcT1Read p) s =
    .next (emit (.regRead p 0xF14 (match freezeOf s p with
      | some f => f.t1
      | none => calT1 s.rtc.cal)) (endFreeze p s)) := by
  rw [exec_rtcT1Read, readRequest_of_portAlive _ _ hp, readDw_of_rtcWord rfl (by decide +kernel) hmg, readFull_rtcT1]

end

/-- A freeze is in force for 2 ms (R488). -/
theorem freezeOf_of_fget {f : Freeze} (h : fget s.rtc.freeze (portCode p) = some f) :
    freezeOf s p = if since s f.at' ≤ 2000000 then some f else none := by
  simp only [freezeOf, h]

end

/-- Settles O59: the read of RTC_T0 keeps both words with its instant, the read of RTC_T1 takes the kept word while the freeze is
in force. -/
theorem freezeHoldsRtcWords : Obligations.FreezeHoldsRtcWords := by
  intro p s c k ph hp hmg
  refine ⟨_, exec_rtcT0Read_of_served hp hmg, rfl, ?_⟩
  intro u
  have hfreeze : freezeOf u p = if k ≤ 2000000 then some ⟨calT0 s.rtc.cal, calT1 s.rtc.cal, s.refNs⟩ else none := by
    have hsince : since u s.refNs = k := Nat.add_sub_cancel_left _ _
    rw [freezeOf_of_fget (fget_fset_same _ _ _), hsince]
  refine ⟨_, exec_rtcT1Read_of_served (s := u) hp hmg, fun hk => ?_, fun hk => ?_, rfl⟩
  · rw [hfreeze, if_pos hk]
    rfl
  · rw [hfreeze, if_neg (Nat.not_le.mpr hk)]
    rfl

/-! ### The calendar's events (R478 to R488) -/

section
variable {s : State}

section
variable (hsub : s.rtc.cal.subsec = 0) (hv : s.power.vstby = true) (hx : s.rtc.crystal = true)
include hsub hv hx

theorem exec_rtcSecond_of_undisciplined (hd : disciplined s = false) :
    exec .rtcSecond s = .next { s with rtc := { s.rtc with disc := false } } := by
  change execRtcSecond s = _
  simp only [execRtcSecond, secondBegun, hsub, hv, hx, hd, decide_true, Bool.true_or, Bool.and_self, Bool.false_eq_true, if_true,
    if_false]

/-- A disciplined calendar is compared with device time, and stepped when it is more than 50 ms apart (R483). -/
theorem exec_rtcSecond_of_disciplined (hd : disciplined s = true) : let d := discDelta s
    let t := { s with rtc := { s.rtc with lastD := d, disc := withinTick d } }
    exec .rtcSecond s = .next (if decide (50000000 < d.natAbs) && inCalendar (utcFine s) then adjust 2 (utcFine s).toNat t else t) := by
  change execRtcSecond s = _
  simp only [execRtcSecond, secondBegun, hsub, hv, hx, hd, decide_true, Bool.true_or, Bool.and_self, if_true]

end

theorem exec_rtcAlarm_of_reached {n : Fin 4} (ha : (alarm s n.val).armed = true)
    (ht : calTicks (alarm s n.val).time ≤ calTicks s.rtc.cal) : exec (.rtcAlarm n) s = .next (fireAlarm n.val 0 s) := by
  change execRtcAlarm n s = _
  simp only [execRtcAlarm, ha, decide_eq_true ht, Bool.and_self, if_true]

/-- The stopped crystal is reported now when MG runs, else at its next start (R479). -/
theorem exec_oscStopDetect : exec .oscStopDetect s = .next
    (if s.power.vstby then raise 0xC8 [] { s with rtc := { s.rtc with crystal := false, oscStop := true } }
      else { s with rtc := { s.rtc with crystal := false, oscStop := true, oscEvent := true } }) := rfl

/-- The battery is measured at a standby power-up (R480). -/
theorem exec_vbatMeasure_of_first (mv : Nat) (hv : s.power.vstby = true) (hat : s.rtc.vbatAt = none) :
    let t := { s with rtc := { s.rtc with vbatAt := some s.refNs, vbatLow := decide (mv < 2200) } }
    exec (.vbatMeasure mv) s = .next (if mv < 2200 then raise 0xC7 [] t else t) := by
  change execVbatMeasure mv s = _
  simp only [execVbatMeasure, hv, hat, Bool.and_self, if_true]

theorem exec_vbatSwitch_of_vstby (hv : s.power.vstby = true) : let t := railsOff s
    exec .vbatSwitch s = .next { t with
      power := { t.power with vstby := false, onReq := none }, host := {}, sb := { sba := t.sb.sba }, regs := {}
      evt := { t.evt with alert := false }, recorder := { slots := t.recorder.slots, topSeq := t.recorder.topSeq }
      rtc := { t.rtc with onVbat := true, vbatEvent := true, vbatSeen := true
                          vbatTs0 := if t.rtc.vbatSeen then t.rtc.vbatTs0 else calT0 t.rtc.cal
                          vbatTs1 := if t.rtc.vbatSeen then t.rtc.vbatTs1 else calT1 t.rtc.cal } } := by
  change execVbatSwitch s = _
  simp only [execVbatSwitch, hv, if_true]

theorem exec_rtcFreezeTimeout_of_due {p : Port} {f : Freeze} (hf : fget s.rtc.freeze (portCode p) = some f)
    (hd : 2000000 ≤ since s f.at') : exec (.rtcFreezeTimeout p) s = .next (endFreeze p s) := by
  change execRtcFreezeTimeout p s = _
  simp only [execRtcFreezeTimeout, hf, hd, if_true]

end

/-- Settles O25: a second by whether the calendar is disciplined and how far it is off, each other event by its lemma above. -/
theorem calendarEventsComplete : Obligations.CalendarEventsComplete := by
  refine ⟨fun s hsub hv hx => ⟨exec_rtcSecond_of_undisciplined hsub hv hx, fun hd => ⟨fun hfar hin => ?_, fun hnear => ?_⟩⟩,
    fun _ _ => exec_rtcAlarm_of_reached, fun s hv => ?_, fun s hv => ?_, fun _ => rfl, fun _ => rfl,
    fun mv s hv hat => ⟨fun hlow => ?_, fun hok => ?_⟩, fun _ => exec_vbatSwitch_of_vstby, fun _ _ _ => exec_rtcFreezeTimeout_of_due⟩
  · rw [exec_rtcSecond_of_disciplined hsub hv hx hd, decide_eq_true hfar, hin]
    rfl
  · rw [exec_rtcSecond_of_disciplined hsub hv hx hd, decide_eq_false (Nat.not_lt.mpr hnear)]
    rfl
  · rw [exec_oscStopDetect, if_pos hv]
  · rw [exec_oscStopDetect, hv]
    rfl
  · rw [exec_vbatMeasure_of_first mv hv hat, if_pos hlow]
  · rw [exec_vbatMeasure_of_first mv hv hat, if_neg (Nat.not_lt.mpr hok)]

/-! ### The recorder (R382, R490 to R498) -/

section
variable {s : State}

theorem exec_recClearDone_of_clear {r : Req} {lo hi : Nat} (h : s.recorder.clear = some (r, lo, hi)) :
    exec .recClearDone s = .next (finishOk 0x0A03 r [] (writeNewest 0xCC (raise 0xCC [(lo : Int), (hi : Int)]
      { s with recorder := { s.recorder with
        slots := s.recorder.slots.filter fun e => decide (e.1 < 8192) || decide (hi < e.2.seq.toNat)
        next := 8192, wrapped := false, clear := none } }))) := by
  change execRecClearDone s = _
  simp only [execRecClearDone, h]

theorem exec_recWrite_of_next {e : EventRec} (hmg : inService s idMG = true) (hv : s.power.vstby = true)
    (hr : s.recorder.ready = true) (he : nextRecord s = some e) : exec .recWrite s =
    .next (writeRecord e (admitHeld { s with recorder := { s.recorder with queue := removeFirst e s.recorder.queue } })) := by
  change execRecWrite s = _
  simp only [execRecWrite, hmg, hv, hr, he, Bool.and_self, if_true]

/-- A deferred message whose holdoff has ended leaves, or is withheld (R382). -/
theorem exec_evtHoldoffExpiry_of_deferred {v : Fin 32} (hd : s.evt.deferred.getLsbD v.val = true)
    (hh : inHoldoff s v.val = false) : exec (.evtHoldoffExpiry v) s = .next (if msgEnabled s then sendVector v.val s
      else { s with evt := { s.evt with deferred := s.evt.deferred &&& ~~~(BitVec.twoPow 32 v.val) } }) := by
  change execEvtHoldoffExpiry v s = _
  simp only [execEvtHoldoffExpiry, hd, hh, Bool.not_false, Bool.and_self, if_true]

end

/-- Settles O23: each command by its effect, REC_SEEK as an own write that passes, each event by its lemma above. -/
theorem recorderCommandsAndEventsComplete : Obligations.RecorderCommandsAndEventsComplete := by
  refine ⟨fun r s h => ?_, fun r s h => ?_, fun _ _ h => exec_of_accepted (c := specRecClear) rfl h,
    fun _ _ _ _ => exec_recClearDone_of_clear, fun _ _ => exec_recWrite_of_next,
    fun p v _ h => exec_of_ownWrite_passes (f := applyRecSeek p v) rfl h,
    fun v s hd hh => ⟨fun hm => ?_, fun hm => ?_⟩⟩
  · rw [exec_of_accepted (c := specRecRead) rfl h]
    rfl
  · rw [exec_of_accepted (c := specRecCursor) rfl h]
    rfl
  · rw [exec_evtHoldoffExpiry_of_deferred hd hh, if_pos hm]
  · rw [exec_evtHoldoffExpiry_of_deferred hd hh, hm]
    rfl

end Sys2Proof.Proofs

end

section
/-! Proofs of the pair's rows (R434 to R466): the role decision by the conditions of R436, each event of the pair link by what it is
under its conditions, each command by its own effect. -/

namespace Sys2Proof.Proofs

open Sys2Proof.Machine Sys2Proof.Safety Sys2Proof.Laws

theorem pair_of_reported {s t : State} (h : Reported s t) : t.pair = s.pair := by
  have hrest := congrArg State.pair h.rest
  exact hrest

theorem pair_raise (src : Nat) (l : List Int) (s : State) : (raise src l s).pair = s.pair :=
  pair_of_reported (reported_raise src l s)

section
variable {s : State}

/-! ### The role decision (R436) -/

theorem decideRole_of_decided (h : s.pair.role ≠ .undecided) : decideRole s = s := by
  simp only [decideRole, decide_eq_true h, Bool.or_true, if_true]

section
variable (hready : s.power.ready = true) (hrole : s.pair.role = .undecided) (hfault : s.pair.fault = false)
  (hlc : s.keys.lc ≠ .retired) (hmode : pairMode s ≠ 1)
include hready hrole hfault hlc hmode

theorem decideRole_of_lineLow (hlow : s.pair.lineLow = true) (hpl : inService s idPL = true) :
    decideRole s = restRole .standby (setPair (fun p => { p with synced := false }) s) := by
  simp [decideRole, hready, hrole, hfault, hlc, hmode, hlow, hpl]

theorem decideRole_of_highTenSeconds (hlow : s.pair.lineLow = false) (hslot : slotConflict s = false)
    (hten : highTenSeconds s = true) : decideRole s = claimRole .active s := by
  simp [decideRole, hready, hrole, hfault, hlc, hmode, hlow, hslot, hten]

end

theorem exec_slot1ClaimTimeout_of_high (hup : s.power.mainUp = true) (hslot : s.pair.slotId = true)
    (hten : highTenSeconds s = true) : exec .slot1ClaimTimeout s = .next (decideRole s) := by
  change execSlot1ClaimTimeout s = _
  simp only [execSlot1ClaimTimeout, hup, hslot, hten, Bool.and_self, if_true]

theorem exec_activeNChange (low : Bool) : let t := setPair (fun p => { p with
      lineLow := low, lineAt := if p.lineLow = low then p.lineAt else s.refNs }) s
    exec (.activeNChange low) s = .next (if s.power.mainUp then decideRole t else t) := rfl

/-- Taking a role that does not drive leaves the pair's other state. -/
theorem restRole_pair (r : Role) (s : State) : (restRole r s).pair = { s.pair with role := r } := by
  have hmode : ∀ (n : Nat) (t : State), (refreshMode n t).pair = t.pair := by
    intro n t
    simp only [refreshMode, enterMode]
    split <;> rfl
  simp only [restRole, dropPaths, refreshModes, hmode]
  rfl

theorem exec_partnerPresentChange (p : Bool) : let t := setPair (fun x => { x with present := p }) s
    exec (.partnerPresentChange p) s = .next (if !s.power.mainUp || s.pair.present == p then t else if p then t
      else if (raise 0xA4 [] t).pair.role = .active then endExchange stAborted (dropPartner (raise 0xA4 [] t))
        else decideRole (raise 0xA4 [] t)) := rfl

/-- A module that is neither undecided nor ACTIVE notes the change, and the withdrawal of its partner is reported. -/
theorem exec_partnerPresentChange_of_inactive (p : Bool) (hrole : s.pair.role ≠ .undecided) (hact : s.pair.role ≠ .active) :
    let t := setPair (fun x => { x with present := p }) s
    exec (.partnerPresentChange p) s =
      .next (if !s.power.mainUp || s.pair.present == p then t else if p then t else raise 0xA4 [] t) := by
  intro t
  have hpair : (raise 0xA4 [] t).pair.role = s.pair.role := by
    rw [pair_raise]
    rfl
  rw [exec_partnerPresentChange, decideRole_of_decided (s := raise 0xA4 [] t) (by rw [hpair]; exact hrole),
    if_neg (c := (raise 0xA4 [] t).pair.role = .active) (by rw [hpair]; exact hact)]

/-- A heartbeat is kept as the last one, and the intervals missed before it are counted (R439). -/
def keptHeartbeat (h : Heartbeat) (s : State) : State :=
  setPair (fun p => { p with lastHb := some h, hbAt := some s.refNs, lostAt := none, lostEp := false, missed := 0 })
    (rcAdd 0x140C (missedNow s) s)

/-- The first heartbeat of a partner in the same slot is reported (R436). -/
def notedConflict (s t : State) : State := if s.pair.lastHb.isNone && slotConflict t then raise 0xB8 [] t else t

/-- A heartbeat is heard by the role of the module (R442, R465). -/
def hears (old : Option Heartbeat) (h : Heartbeat) (s : State) : State :=
  match s.pair.role with
  | .active => activeHears old h s
  | .standby => standbyHears old h s
  | _ => s

theorem hears_of_other {old : Option Heartbeat} {h : Heartbeat} (hact : s.pair.role ≠ .active) (hstby : s.pair.role ≠ .standby) :
    hears old h s = s := by
  unfold hears
  split
  · contradiction
  · contradiction
  · rfl

theorem notedConflict_pair (s t : State) : (notedConflict s t).pair = t.pair := by
  unfold notedConflict
  split
  · exact pair_raise _ _ _
  · rfl

/-! ### The link (R438) -/

section
variable (hpl : plOn s = true)
include hpl

theorem exec_pairLinkUp_of_plOn (n : Fin 2) : exec (.pairLinkUp n) s = .next (raise 0xA0 [] (setPair (fun p => { p with linkUp := true })
    (setPair (fun p => if n.val = 0 then { p with lane0 := true } else { p with lane1 := true }) s))) := by
  change execPairLinkUp n s = _
  simp only [execPairLinkUp, hpl, if_true]

theorem exec_pairLaneLoss_of_lane {n : Fin 2} (hl : (if n.val = 0 then s.pair.lane0 else s.pair.lane1) = true) :
    exec (.pairLaneLoss n) s = .next (rcAdd 0x1420 1 (setPair (fun p => { p with
      lane0 := p.lane0 && decide (n.val ≠ 0), lane1 := p.lane1 && decide (n.val ≠ 1), laneAt := s.refNs }) s)) := by
  change execPairLaneLoss n s = _
  simp only [execPairLaneLoss, hpl, hl, Bool.and_self, if_true]

theorem exec_pairLinkDown_of_dark (hup : s.pair.linkUp = true) (h0 : s.pair.lane0 = false) (h1 : s.pair.lane1 = false)
    (hd : 20000 ≤ since s s.pair.laneAt) : let t := raise 0xA1 [] (setPair (fun p => { p with linkUp := false }) s)
    exec .pairLinkDown s =
      .next (if t.pair.role = .active then countFault 15 (endExchange stAborted (dropPartner t)) else t) := by
  change execPairLinkDown s = _
  simp only [execPairLinkDown, hpl, hup, h0, h1, decide_eq_true hd, Bool.not_false, Bool.and_self, if_true]

/-! ### The heartbeat (R439 to R441) -/

theorem exec_heartbeatSend_of_due (hd : 10000 ≤ since s s.pair.hbSentAt) (halive : svAlive s = true)
    (hrole : s.pair.role ≠ .fenced) (hlink : s.pair.linkUp = true) : let t := setPair (fun p => { p with liveAt := s.refNs }) s
    exec .heartbeatSend s = .next (emit (.heartbeat (heartbeatNow t))
      (setPair (fun p => { p with hbSentAt := t.refNs, hbSeq := p.hbSeq + 1 }) t)) := by
  obtain ⟨hboot, -⟩ := Bool.and_eq_true_iff.mp halive
  intro t
  have hbeat : (t.power.booted && decide (since t t.pair.liveAt ≤ 1000000) && decide (t.pair.role ≠ .fenced) && t.pair.linkUp) =
      true := by
    simp [t, setPair, since, hboot, hrole, hlink]
  change execHeartbeatSend s = _
  simp only [execHeartbeatSend, hpl, decide_eq_true hd, halive, Bool.and_self, if_true]
  exact congrArg Host.Outcome.next (if_pos hbeat)

/-- A valid heartbeat counts what was missed before it and is kept as the last one; its role decides who hears it. -/
theorem exec_heartbeatReceive_of_linkUp (hlink : s.pair.linkUp = true) (h : Heartbeat) : exec (.heartbeatReceive h) s =
    .next (hears s.pair.lastHb h (notedConflict s (keptHeartbeat h s))) := by
  change execHeartbeatReceive h s = _
  simp only [execHeartbeatReceive, hpl, hlink, Bool.and_self, if_true]
  rfl

theorem exec_heartbeatLost_of_late {a : Nat} (ha : s.pair.hbAt = some a) (hl : s.pair.lostAt = none) (hd : 50000 ≤ since s a) :
    let t := rcAdd 0x140C (5 - s.pair.missed) s
    let u := raise 0xA5 [] (setPair (fun p => { p with lostAt := some t.refNs, missed := 5 }) t)
    exec .heartbeatLost s =
      .next (if u.pair.role = .active then raise 0xA4 [] (endExchange stAborted (dropPartner u)) else u) := by
  change execHeartbeatLost s = _
  simp only [execHeartbeatLost, ha, hpl, hl, decide_eq_true hd, Option.isNone_none, Bool.and_self, if_true]

/-! ### The takeover (R441, R452) -/

section
variable {a : Nat} (ha : s.pair.lostAt = some a) (hrole : s.pair.role = .standby) (hep : s.pair.lostEp = false)
  (htest : s.test.test = false)
include ha hrole hep htest

theorem exec_activeNCheck_of_released (hlow : s.pair.lineLow = false) (hat : s.pair.lineAt ≤ a + 200000) :
    exec .activeNCheck s = .next (if s.pair.synced || cfgBit s 0x1404 1 then takeUp false s
      else setPair (fun p => { p with lostEp := true }) s) := by
  change execActiveNCheck s = _
  simp only [execActiveNCheck, ha, hpl, hrole, hep, htest, hlow, decide_eq_true hat, decide_true, Bool.and_self, Bool.not_true,
    Bool.not_false, Bool.or_self, Bool.false_eq_true, if_true, if_false]

/-- ACTIVE_N low, or released too late: after 200 µs the standby goes on alone. -/
theorem exec_activeNCheck_of_held (hline : s.pair.lineLow = true ∨ a + 200000 < s.pair.lineAt) (hd : 200000 ≤ since s a) :
    exec .activeNCheck s = .next (countFault 15 (raise 0xA1 [] (setPair (fun p => { p with
      lostEp := true, synced := false, joined := false, joining := false, resync := false }) s))) := by
  have hheld : (!s.pair.lineLow && decide (s.pair.lineAt ≤ a + 200000)) = false := by
    rcases hline with h | h
    · rw [h]; rfl
    · rw [decide_eq_false (Nat.not_le.mpr h), Bool.and_false]
  change execActiveNCheck s = _
  simp only [execActiveNCheck, ha, hpl, hrole, hep, htest, hheld, hd, decide_true, Bool.and_self, Bool.not_true, Bool.or_self,
    Bool.false_eq_true, if_true, if_false]

end

end

theorem exec_takeUpControl_of_due (ht : s.pair.takingUp = true) (hrole : s.pair.role = .active)
    (hd : devNs s % (Nat.max (cls s 0).periodUs 1 * 1000) ≤ 2000) : exec .takeUpControl s =
    .next (canRepeat 3 (canRepeat 2 (canRepeat 1 (canRepeat 0
      (refreshModes (setPair (fun p => { p with takingUp := false }) s)))))) := by
  change execTakeUpControl s = _
  simp only [execTakeUpControl, ht, hrole, decide_eq_true hd, decide_true, Bool.and_self, if_true]

end

/-- Settles O21: each event by its lemma above, a lost partner by the line it holds. -/
theorem pairLinkAndTakeoverEventsComplete : Obligations.PairLinkAndTakeoverEventsComplete := by
  refine ⟨fun _ => exec_slot1ClaimTimeout_of_high, fun low s hup => ?_, fun s hup hpres => ?_, fun s hup hpres => ?_,
    fun _ hpl => exec_pairLinkUp_of_plOn hpl 0, fun _ hpl => exec_pairLinkUp_of_plOn hpl 1, fun s hpl hl => ?_, fun s hpl hl => ?_,
    fun _ => exec_pairLinkDown_of_dark, fun _ => exec_heartbeatSend_of_due,
    fun h _ hpl hlink => exec_heartbeatReceive_of_linkUp hpl hlink h, fun _ _ ha hpl => exec_heartbeatLost_of_late hpl ha,
    fun s a ha hpl hrole hep htest => ⟨fun hlow hat hsync => ?_, fun hlow hat hsync hcfg => ?_,
      exec_activeNCheck_of_held hpl ha hrole hep htest⟩,
    fun _ => exec_takeUpControl_of_due⟩
  · rw [exec_activeNChange, if_pos hup]
  · rw [exec_partnerPresentChange, hup, hpres]
    rfl
  · rw [exec_partnerPresentChange, hup, hpres]
    rfl
  · rw [exec_pairLaneLoss_of_lane hpl (n := 0) hl]
    simp [setPair]
  · rw [exec_pairLaneLoss_of_lane hpl (n := 1) hl]
    simp [setPair]
  · rw [exec_activeNCheck_of_released hpl ha hrole hep htest hlow hat, if_pos (by simpa using hsync)]
  · rw [exec_activeNCheck_of_released hpl ha hrole hep htest hlow hat, hsync, hcfg]
    rfl

/-- SV's refresh of PL's liveness register (R440). -/
def refreshLive (s : State) : State := if svAlive s then setPair (fun p => { p with liveAt := s.refNs }) s else s

/-- The heartbeat leaves, or nothing does (R439, R440). -/
def beat (s : State) : State :=
  if s.power.booted && decide (since s s.pair.liveAt ≤ 1000000) && decide (s.pair.role ≠ .fenced) && s.pair.linkUp then
    emit (.heartbeat (heartbeatNow s)) (setPair (fun p => { p with hbSentAt := s.refNs, hbSeq := p.hbSeq + 1 }) s)
  else s

theorem exec_heartbeatSend (s : State) : exec .heartbeatSend s =
    .next (if plOn s && decide (10000 ≤ since s s.pair.hbSentAt) then beat (refreshLive s) else s) := rfl

theorem refreshLive_role_emitted (s : State) : (refreshLive s).pair.role = s.pair.role ∧ (refreshLive s).emitted = s.emitted := by
  unfold refreshLive
  split <;> exact ⟨rfl, rfl⟩

theorem beat_emitted (s : State) : (beat s).emitted = s.emitted ∨
    s.pair.role ≠ .fenced ∧ since (beat s) (beat s).pair.liveAt ≤ 1000000 := by
  unfold beat
  split
  next hbeat =>
    simp only [Bool.and_eq_true, decide_eq_true_eq] at hbeat
    obtain ⟨⟨⟨-, hlive⟩, hrole⟩, -⟩ := hbeat
    exact Or.inr ⟨hrole, hlive⟩
  next => exact Or.inl rfl

/-- A heartbeat leaves only where SV's last refresh is no older than 1 ms and the module is not FENCED (R440). -/
theorem emitted_heartbeatSend {s t : State} (h : exec .heartbeatSend s = .next t) :
    t.emitted = s.emitted ∨ s.pair.role ≠ .fenced ∧ since t t.pair.liveAt ≤ 1000000 := by
  rw [exec_heartbeatSend, Host.Outcome.next.injEq] at h
  obtain ⟨hrole, hemitted⟩ := refreshLive_role_emitted s
  split at h
  · subst h
    rw [← hrole, ← hemitted]
    exact beat_emitted _
  · exact Or.inl (congrArg State.emitted h.symm)

theorem exec_heartbeatSend_of_not_alive {s : State} (halive : svAlive s = false) (hlate : 1000000 < since s s.pair.liveAt) :
    exec .heartbeatSend s = .next s := by
  change execHeartbeatSend s = _
  simp only [execHeartbeatSend, halive, decide_eq_false (Nat.not_le.mpr hlate), Bool.and_false, Bool.false_and,
    Bool.false_eq_true, if_false, ite_self]

/-- Settles O48: a heartbeat leaves in one branch only, which checks the refresh and the role. -/
theorem heartbeatOnlyWhileAlive : Obligations.HeartbeatOnlyWhileAlive := by
  refine ⟨fun s t h hne => (emitted_heartbeatSend h).resolve_left hne, fun s hrole => ?_,
    fun s => exec_heartbeatSend_of_not_alive⟩
  obtain ⟨t, ht⟩ : ∃ t, exec .heartbeatSend s = .next t := ⟨_, rfl⟩
  exact ⟨t, ht, (emitted_heartbeatSend ht).resolve_right fun h => h.1 hrole⟩

/-! ### The pair commands (R462 to R466) -/

/-- Settles O20: each command by its effect; each event of the link by its lemma above, reporting leaving the pair's state. -/
theorem pairCommandsComplete : Obligations.PairCommandsComplete := by
  refine ⟨fun _ _ h => exec_of_accepted (c := specPairStatus) rfl h, fun _ _ h => exec_of_accepted (c := specPairConfig) rfl h,
    fun _ _ h => exec_of_accepted (c := specSwitchover) rfl h, fun _ _ h => exec_of_accepted (c := specDrill) rfl h,
    fun _ _ h => exec_of_accepted (c := specPairResync) rfl h, fun _ _ h => exec_of_accepted (c := specFaultStatus) rfl h,
    fun _ v _ h => exec_of_ownWrite_passes (f := applyPairCtrl v) rfl h, ?_, ?_, ?_, ?_, ?_, ?_, ?_, ?_, ?_, ?_,
    fun _ => exec_takeUpControl_of_due⟩
  case refine_1 =>
    intro s hup hslot hten hready hrole hfault hlc hmode hlow hconf
    rw [exec_slot1ClaimTimeout_of_high hup hslot hten, decideRole_of_highTenSeconds hready hrole hfault hlc hmode hlow hconf hten]
  case refine_2 =>
    intro low s hrole
    rw [exec_activeNChange, decideRole_of_decided (by exact hrole), ite_self]
    rfl
  case refine_3 =>
    intro s hup hready hrole hfault hlc hmode hpl
    refine ⟨_, exec_activeNChange true, ?_⟩
    rw [if_pos hup, decideRole_of_lineLow (by exact hready) (by exact hrole) (by exact hfault) (by exact hlc) (by exact hmode) rfl
      (by exact hpl), restRole_pair]
  case refine_4 =>
    intro p s hrole hact
    refine ⟨_, exec_partnerPresentChange_of_inactive p hrole hact, ?_⟩
    split
    · rfl
    · split
      · rfl
      · exact pair_raise _ _ _
  case refine_5 =>
    intro n s hpl
    refine ⟨_, exec_pairLinkUp_of_plOn hpl n, ?_⟩
    rw [pair_raise]
    obtain rfl | rfl : n = 0 ∨ n = 1 := by omega
    · simp only [setPair, Fin.val_zero, if_true, decide_true, Bool.or_true, show ((0 : Fin 2) = 1) = False by decide,
        decide_false, Bool.or_false]
    · simp only [setPair, Fin.val_one, Nat.one_ne_zero, if_false, decide_true, Bool.or_true,
        show ((1 : Fin 2) = 0) = False by decide, decide_false, Bool.or_false]
  case refine_6 =>
    intro n s hpl hl
    obtain rfl | rfl : n = 0 ∨ n = 1 := by omega
    · exact ⟨_, exec_pairLaneLoss_of_lane hpl (n := 0) hl, rfl⟩
    · exact ⟨_, exec_pairLaneLoss_of_lane hpl (n := 1) hl, rfl⟩
  case refine_7 =>
    intro s hpl hup h0 h1 hd hact
    refine ⟨_, exec_pairLinkDown_of_dark hpl hup h0 h1 hd, ?_⟩
    rw [if_neg (by rw [pair_raise]; exact hact), pair_raise]
    rfl
  case refine_8 =>
    intro h s hpl hlink hact hstby
    have hpair : (notedConflict s (keptHeartbeat h s)).pair = (keptHeartbeat h s).pair := notedConflict_pair _ _
    have hother : ∀ r, s.pair.role ≠ r → (notedConflict s (keptHeartbeat h s)).pair.role ≠ r := by
      rw [hpair]
      exact fun _ hr => hr
    refine ⟨_, exec_heartbeatReceive_of_linkUp hpl hlink h, ?_⟩
    rw [hears_of_other (hother _ hact) (hother _ hstby), hpair]
    rfl
  case refine_9 =>
    intro s a ha hpl hl hd hact
    refine ⟨_, exec_heartbeatLost_of_late hpl ha hl hd, ?_⟩
    rw [if_neg (by rw [pair_raise]; exact hact), pair_raise]
    rfl
  case refine_10 =>
    intro s a ha hpl hrole hep htest hlow hat hsync
    rw [exec_activeNCheck_of_released hpl ha hrole hep htest hlow hat, hsync]
    rfl

end Sys2Proof.Proofs

end

section
/-! Proofs of the mirror, join, exchange and drill rows (R443 to R464): each event is reduced to what it is under its conditions. -/

namespace Sys2Proof.Proofs

open Sys2Proof.Machine Sys2Proof.Safety Sys2Proof.Laws

section
variable {s : State} (hpl : plOn s = true)
include hpl

/-! ### Mirror records and fills (R444, R445) -/

section
variable (hlink : s.pair.linkUp = true) (hjoined : s.pair.joined = true) (hpause : pausing s = false)
include hlink hjoined hpause

/-- The standby applies the record that follows the last one. -/
theorem exec_mirrorRecord_of_standby {q : Nat} (b : MirrorBody) (hrole : s.pair.role = .standby) (hjoining : s.pair.joining = false)
    (hq : q ≠ 0) (hnext : q = s.pair.mirrorSeq + 1) : exec (.mirrorRecord q b) s =
    .next (applyRecord b (setPair (fun p => { p with mirrorSeq := q, mirrorCnt := (p.mirrorCnt + 1) % 2 ^ 64 }) s)) := by
  change execMirrorRecord q b s = _
  simp only [execMirrorRecord, hpl, hlink, hjoined, hpause, hrole, hjoining, hq, ← hnext, Bool.and_self, Bool.not_true,
    Bool.or_self, Bool.false_eq_true, if_true, if_false]

/-- The active takes what the standby returns. -/
theorem exec_mirrorRecord_of_active (b : MirrorBody) (hrole : s.pair.role = .active) :
    exec (.mirrorRecord 0 b) s = .next (takeReturn b s) := by
  change execMirrorRecord 0 b s = _
  simp only [execMirrorRecord, hpl, hlink, hjoined, hpause, hrole, Bool.and_self, Bool.not_true, Bool.or_self, Bool.false_eq_true,
    if_true, if_false]

/-! ### The join (R442, R443) -/

section
variable (hrole : s.pair.role = .standby)
include hrole

section
variable (hjoining : s.pair.joining = true)
include hjoining

theorem exec_join_of_matched {x : JoinCopy} {u : State} (hkey : keyLacks x s = false) (hload : joinLoads x s = some u)
    (hok : x.digestsOk = true) : exec (.join x) s = .next (joinDone true x.syncMs (joinState x (raise 0xAC [] u))) := by
  change execJoin x s = _
  simp only [execJoin, hpl, hlink, hjoined, hpause, hrole, hjoining, hkey, hload, hok, decide_true, Bool.true_or, Bool.and_self,
    Bool.not_true, Bool.or_self, Bool.false_eq_true, if_true, if_false]

theorem exec_join_of_keyLacks {x : JoinCopy} (hkey : keyLacks x s = true) : exec (.join x) s = .next (refuseJoin 3 s) := by
  change execJoin x s = _
  simp only [execJoin, hpl, hlink, hjoined, hpause, hrole, hjoining, hkey, decide_true, Bool.true_or, Bool.and_self, Bool.not_true,
    Bool.or_self, Bool.false_eq_true, if_true, if_false]

end

theorem exec_join_of_resync {x : JoinCopy} (hjoining : s.pair.joining = false) (hresync : s.pair.resync = true)
    (hok : x.digestsOk = true) : exec (.join x) s = .next (joinDone false x.syncMs (joinState x s)) := by
  change execJoin x s = _
  simp only [execJoin, hpl, hlink, hjoined, hpause, hrole, hjoining, hresync, hok, decide_true, Bool.or_true, Bool.and_self,
    Bool.not_true, Bool.or_self, Bool.false_eq_true, if_true, if_false]

end

end

/-- The active answers with a dataset that NB still keeps. -/
theorem exec_snapshotFillRequest_of_kept {n : BitVec 12} {q : Nat} {d : InDataset} (hact : activeJoined s = true)
    (hlink : s.pair.linkUp = true) (hd : (station s n.toNat).datasets.find? (fun d => decide (d.seq = q)) = some d) :
    exec (.snapshotFillRequest n q) s = .next (emit (.mirror 0 (.fill n.toNat q (fillPoints d))) s) := by
  change execSnapshotFillRequest n q s = _
  simp only [execSnapshotFillRequest, hpl, hact, hlink, hd, Bool.and_self, if_true]

/-! ### Exchanges and drills (R453, R456, R457) -/

theorem exec_roleExchange_of_matched (g : Nat) {x : Exchange} (hx : s.pair.exchange = some x) (hact : activeJoined s = true)
    (hhanded : x.handed = false) (hmatch : commitMatched s x = true) (hleft : outputsLeft s = true)
    (href : exchangeRefused s = false) : exec (.roleExchange g) s = .next (handOver x g s) := by
  change execRoleExchange g s = _
  simp only [execRoleExchange, hx, hpl, hact, hhanded, hmatch, hleft, href, Bool.not_false, Bool.and_self, Bool.false_eq_true,
    if_true, if_false]

theorem exec_drillStart_of_due (hact : activeJoined s = true) (hauto : s.pair.cfg.drillAuto = true) (hdue : drillDue s = true)
    (hwin : inWindow s = true) (hx : s.pair.exchange = none) (href : exchangeRefused s = false) :
    exec .drillStart s = .next (askExchange true none s) := by
  change execDrillStart s = _
  simp only [execDrillStart, hpl, hact, hauto, hdue, hwin, hx, href, Option.isNone_none, Bool.not_false, Bool.and_self, if_true]

section
variable {x : Exchange} (ms : Nat) (hx : s.pair.exchange = some x) (hdrill : x.drill = true) (hhanded : x.handed = true)
  (hrole : s.pair.role = .active)
include hx hdrill hhanded hrole

theorem exec_drillCheckDone_passed : exec (.drillCheckDone .passed ms) s =
    .next (finishOpt 0x0904 x.req stOk 0 (drillResult .passed x.gapUs ms) (passDrill (raise 0xA8 [0] s))) := by
  change execDrillCheckDone .passed ms s = _
  simp only [execDrillCheckDone, hx, hpl, hdrill, hhanded, hrole, decide_true, Bool.and_self, Bool.not_true, Bool.false_eq_true,
    if_true, if_false]

/-- A new active whose path has failed fences itself. -/
theorem exec_drillCheckDone_failed (p : Nat) (i : Nat) : exec (.drillCheckDone (.failed p i) ms) s =
    .next (finishOpt 0x0904 x.req stOk 0 (drillResult (.failed p i) x.gapUs ms)
      (fenceSelf (countFault 16 (raise 0xA8 [1, (p : Int), (i : Int)] (setPair (fun p => { p with exchange := none }) s))))) := by
  change execDrillCheckDone (.failed p i) ms s = _
  simp only [execDrillCheckDone, hx, hpl, hdrill, hhanded, hrole, decide_true, Bool.and_self, Bool.not_true, Bool.false_eq_true,
    if_true, if_false]

end

theorem exec_drillAgeHour_of_young {a : Nat} (ha : s.pair.drillAge = some a) (hrole : s.pair.role = .active)
    (hhour : reached s (s.pair.drillHour + 3600000000000) = true) (hyoung : a + 1 < s.pair.cfg.interval) :
    exec .drillAgeHour s = .next (setPair (fun p => { p with
      drillAge := some (satBits 16 (a + 1)), drillHour := (p.drillHour + 3600000000000) % 2 ^ 64 }) s) := by
  change execDrillAgeHour s = _
  simp only [execDrillAgeHour, ha, hpl, hrole, hhour, decide_true, Bool.and_self, if_true, setPair,
    decide_eq_false (Nat.not_le.mpr hyoung), Bool.false_and, Bool.false_eq_true, if_false]

end

section
variable {s : State}

/-- Two milliseconds after the mark the standby goes on with its newest datasets (R445). -/
theorem exec_snapshotFillTimeout_of_late {c : PClass} {y : Cycle} (hy : (cls s c.val).cycle = some y)
    (hmine : (s.pair.fills.filter fun f => decide (f.1 = c.val)) ≠ []) (hd : 2000000 ≤ since s y.markAt) :
    exec (.snapshotFillTimeout c) s = .next (closeSnapshot c.val (setPair (fun p => { p with
      fills := p.fills.filter fun f => decide (f.1 ≠ c.val) })
      (setCycle c.val (fun z => { z with
        snap := snapNewest s (s.pair.fills.filter fun f => decide (f.1 = c.val)) z.snap, notCompared := true }) s))) := by
  change execSnapshotFillTimeout c s = _
  simp only [execSnapshotFillTimeout, hy, List.isEmpty_eq_false_iff.mpr hmine, decide_eq_true hd, Bool.not_false, Bool.and_self,
    if_true]

theorem exec_selfCheckDone_fault (k : Nat) (hup : s.power.mainUp = true) (hsc : s.pair.selfCheck = true) :
    exec (.selfCheckDone (.fault k)) s =
      .next (fenceSelf (raise 0xAE [(k : Int)] (endBistReq (setPair (fun p => { p with selfCheck := false }) s)))) := by
  change execSelfCheckDone (.fault k) s = _
  simp only [execSelfCheckDone, hup, hsc, Bool.and_self, if_true]

end

/-- Settles O22: each event by its lemma above. -/
theorem pairMirrorJoinAndDrillEventsComplete : Obligations.PairMirrorJoinAndDrillEventsComplete :=
  ⟨fun _ b _ hpl hlink hjoined hpause => exec_mirrorRecord_of_standby hpl hlink hjoined hpause b,
    fun b _ hpl hlink hjoined hpause => exec_mirrorRecord_of_active hpl hlink hjoined hpause b,
    fun _ _ _ _ hpl hact => exec_snapshotFillRequest_of_kept hpl hact, fun _ _ _ hy => exec_snapshotFillTimeout_of_late hy,
    fun _ _ _ hpl hlink hjoined hrole hpause hjoining => exec_join_of_matched hpl hlink hjoined hpause hrole hjoining,
    fun _ _ hpl hlink hjoined hrole hpause hjoining => exec_join_of_keyLacks hpl hlink hjoined hpause hrole hjoining,
    fun _ _ hpl hlink hjoined hrole hpause => exec_join_of_resync hpl hlink hjoined hpause hrole,
    fun g _ _ hx hpl => exec_roleExchange_of_matched hpl g hx, fun _ => exec_drillStart_of_due,
    fun ms _ _ hx hpl => exec_drillCheckDone_passed hpl ms hx,
    fun p i ms _ _ hx hpl hdrill hhanded hrole => exec_drillCheckDone_failed hpl ms hx hdrill hhanded hrole p i,
    fun _ _ ha hpl => exec_drillAgeHour_of_young hpl ha, fun k _ => exec_selfCheckDone_fault k⟩

end Sys2Proof.Proofs

end

section
/-! Proofs of the panel's rows (R501 to R517): each command by its own effect, each event by what it is under its conditions. -/

namespace Sys2Proof.Proofs

open Sys2Proof.Machine Sys2Proof.Safety Sys2Proof.Laws

section
variable {s : State}

/-- A frame boundary with the bias within limits (R502). -/
theorem exec_pnlFrame_of_due (hpn : inService s idPN = true) (hon : s.panel.biasOn = true) (hbad : s.panel.biasBad = [])
    (hstop : s.panel.stopped = false) (hd : framePeriod s ≤ since s s.panel.frameAt) : let t := updateBand s
    exec .pnlFrame s = .next (framesOf (flying t) { t with panel := { t.panel with frameAt := t.refNs } }) := by
  change execPnlFrame s = _
  simp only [execPnlFrame, hpn, hon, hbad, hstop, decide_eq_true hd, List.isEmpty_nil, Bool.not_false, Bool.and_self, if_true]

/-! ### The bias (R501) -/

section
variable {out : List (Fin 8)} (hon : s.panel.biasOn = true) (hd : 1000000 ≤ since s s.panel.biasAt)
include hon hd

/-- No rail is outside its limits for the second time. -/
theorem exec_pnlBiasCheck_of_none (h : (out.map (·.val)).find? (fun k => s.panel.biasBad.contains k) = none) :
    exec (.pnlBiasCheck out) s = .next { s with panel := { s.panel with biasBad := out.map (·.val), biasAt := s.refNs } } := by
  change execPnlBiasCheck out s = _
  simp only [execPnlBiasCheck, hon, decide_eq_true hd, h, Bool.and_self, if_true]

/-- A rail outside its limits at two checks in a row switches the bias off. -/
theorem exec_pnlBiasCheck_of_some {k : Nat} (h : (out.map (·.val)).find? (fun k => s.panel.biasBad.contains k) = some k) :
    let t := interruptUpdates s
    exec (.pnlBiasCheck out) s = .next (raise 0xD4 [(k : Int)] { t with panel := { t.panel with
      biasOn := false, biasBad := [], biasRetry := some 0, biasAt := t.refNs } }) := by
  change execPnlBiasCheck out s = _
  simp only [execPnlBiasCheck, hon, decide_eq_true hd, h, Bool.and_self, if_true]

end

/-- One second after a bias fault the bias is tried again: success repairs, the third failure ends the retries. -/
theorem exec_pnlBiasRetry_of_due {n : Nat} (ok : Bool) (hn : s.panel.biasRetry = some n) (hd : 1000000000 ≤ since s s.panel.biasAt) :
    let t := interruptUpdates s
    exec (.pnlBiasRetry ok) s = .next (if ok then pnlRepair { s with panel := { s.panel with
        biasOn := true, biasBad := [], biasRetry := none, biasAt := s.refNs } }
      else if 2 ≤ n then { t with panel := { t.panel with biasRetry := none, biasFault := true, biasAt := t.refNs } }
      else { s with panel := { s.panel with biasRetry := some (n + 1), biasAt := s.refNs } }) := by
  change execPnlBiasRetry ok s = _
  simp only [execPnlBiasRetry, hn, Nat.not_lt.mpr hd, if_false]

theorem exec_pnlBiasOff_of_idle (hon : s.panel.biasOn = true) (hf : flying s = [])
    (hd : s.panel.cfg.biasHold * 1000000 ≤ since s s.panel.endedAt) :
    exec .pnlBiasOff s = .next { s with panel := { s.panel with biasOn := false, biasBad := [] } } := by
  change execPnlBiasOff s = _
  simp only [execPnlBiasOff, hon, hf, decide_eq_true hd, List.isEmpty_nil, Bool.and_self, if_true]

/-! ### The frame memory (R508) -/

theorem exec_pnlCrcCheck_of_due (l : List (Nat × Byte)) (hpn : inService s idPN = true)
    (hd : 10000000000 ≤ since s s.panel.crcAt) : let w := s.panel.cfg.width
    exec (.pnlCrcCheck l) s = .next (updateBand (compareFrame (frameExpected s) { s with panel := { s.panel with
      crcAt := s.refNs
      frameMem := upsetBytes w (l.filter fun u => u.1 < w * s.panel.cfg.height / 4) s.panel.frameMem } })) := by
  change execPnlCrcCheck l s = _
  simp only [execPnlCrcCheck, hpn, decide_eq_true hd, Bool.and_self, if_true]

end

/-- Settles O26: each command by its effect, PNL_CTRL as an own write that passes, each event by its lemma above. -/
theorem panelCommandsAndEventsComplete : Obligations.PanelCommandsAndEventsComplete := by
  refine ⟨fun _ _ h => exec_of_accepted (c := specPnlConfig) rfl h, fun _ _ h => exec_of_accepted (c := specPnlWrite) rfl h,
    fun r s h => ?_, fun _ _ h => exec_of_accepted (c := specPnlStatus) rfl h,
    fun _ v _ h => exec_of_ownWrite_passes (f := cfgSet 0x1104 v) rfl h, fun _ => exec_pnlFrame_of_due,
    fun out s hon hd => ⟨exec_pnlBiasCheck_of_none hon hd, fun _ => exec_pnlBiasCheck_of_some hon hd⟩,
    fun s n hn hd => ⟨exec_pnlBiasRetry_of_due true hn hd, fun hlt => ?_, fun hge => ?_⟩,
    fun _ => exec_pnlBiasOff_of_idle, fun l _ => exec_pnlCrcCheck_of_due l⟩
  · rw [exec_of_accepted (c := specPnlUpdate) rfl h]
    rfl
  · rw [exec_pnlBiasRetry_of_due false hn hd, if_neg (Nat.not_le.mpr hlt)]
    rfl
  · rw [exec_pnlBiasRetry_of_due false hn hd, if_pos hge]
    rfl

end Sys2Proof.Proofs

end

section
/-! Proofs of the key rows (R518 to R538): the commands by their own effect, the stages of a key update and of a life-cycle
transition by what they leave in KB's store. -/

namespace Sys2Proof.Proofs

open Sys2Proof.Machine Sys2Proof.Safety Sys2Proof.Laws

/-- CMD_LC_CHANGE starts the transition that R521 has to the target (R522). -/
theorem specLcChange_run_of_transition (r : Req) {p : Bytes} {t : State} {target : LcState} {root : Bool}
    (h : transitionTo t.keys.lc (getLE p 0 1) = some (target, root)) :
    specLcChange.run r p t = startKeyOp (.transition target (slice p 4 96)) 0x0C10 r t := by
  simp only [specLcChange, h]

/-- A stage that KB enters is noted in its journal and nowhere else in its store. -/
theorem enterStage_keys (o : KeyOp) (st : KeyStage) (s : State) :
    ∃ op, (enterStage o st s).keys = { s.keys with op := op } := ⟨_, rfl⟩

theorem resetEpochs_slots (written : List Nat) (l : List Nat) (s : State) :
    (resetEpochs written l s).keys.slots = s.keys.slots := by
  induction l generalizing s with
  | nil => rfl
  | cons n l ih =>
    rw [resetEpochs, ih]
    split <;> rfl

/-- From the commit instant on KB serves the new key set (R533). -/
theorem commitSlots_slots (slots : FMap Key) (written : List Nat) (revoked : List (Nat × Nat)) (s : State) :
    (commitSlots slots written revoked s).keys.slots = slots := by
  rw [commitSlots, resetEpochs_slots]
  rfl

section
variable {o : KeyOp} (s : State)

section
variable {counter : W32} {n : Nat} {slots : FMap Key} {written freed : List Nat} {revoked : List (Nat × Nat)}
  (hw : o.work = .update counter n slots written freed revoked)
include hw

theorem keyStep_update_begun (hst : o.stage = .begun) :
    keyStep o s = enterStage o .committed (commitSlots slots written revoked s) := by
  simp only [keyStep, hw, hst]

theorem keyStep_update_committed (hst : o.stage = .committed) : keyStep o s =
    finishOpt 0x0C01 o.req stOk 0 (putLE 4 counter.toNat ++ putLE 2 written.length ++ putLE 2 freed.length)
      (restBrick idKB (sealUpdate counter n written freed revoked s)) := by
  simp only [keyStep, hw, hst]

end

section
variable {target : LcState} {root : Bytes} (hw : o.work = .transition target root)
include hw

theorem keyStep_transition_begun (hst : o.stage = .begun) (hret : target ≠ .retired) :
    keyStep o s = enterStage o .committed (enterState target root s) := by
  simp only [keyStep, hw, hst, hret, if_false]

theorem keyStep_transition_committed (hst : o.stage = .committed) : keyStep o s =
    openDebug (finishOpt 0x0C10 o.req stOk 0 [] (restBrick idKB { s with
      keys := { s.keys with op := none }
      power := { s.power with resetDue := some (s.refNs + 10000000), restartKind := 0 } })) := by
  simp only [keyStep, hw, hst]

end

end

/-- A stage that is due comes (R522, R533). -/
theorem keyTick_of_due {s : State} {o : KeyOp} (ho : s.keys.op = some o) (hup : s.power.mainUp = true)
    (hkb : inService s idKB = true) (hreq : o.req.isSome = true) (hd : o.due ≤ s.refNs) : keyTick s = keyStep o s := by
  simp only [keyTick, ho, hup, hkb, hreq, decide_eq_true hd, Bool.and_self, if_true]

/-- Settles O27: each command by its effect, each stage by its lemma above; entering a stage leaves the new store. -/
theorem keyCommandsComplete : Obligations.KeyCommandsComplete := by
  refine ⟨fun r s h => ?_, fun _ _ h => exec_of_accepted (c := specKeyStatus) rfl h,
    fun _ _ h => exec_of_accepted (c := specIdentity) rfl h, fun r s target root h => ?_, fun _ _ => keyTick_of_due,
    fun o s counter n slots written freed revoked hw => ⟨fun hst => ⟨keyStep_update_begun s hw hst, ?_⟩,
      keyStep_update_committed s hw⟩,
    fun o s target root hw hst hret => ?_, fun o s target root hw hst => keyStep_transition_committed s hw hst⟩
  · rw [exec_of_accepted (c := specKeyUpdate) rfl h]
    rfl
  · intro p t htr
    rw [exec_of_accepted (c := specLcChange) rfl h, specLcChange_run_of_transition r htr]
  · obtain ⟨op, hkeys⟩ := enterStage_keys o .committed (commitSlots slots written revoked s)
    rw [keyStep_update_begun s hw hst, hkeys]
    exact commitSlots_slots slots written revoked s
  · obtain ⟨op, hkeys⟩ := enterStage_keys o .committed (enterState target root s)
    rw [keyStep_transition_begun s hw hst hret, hkeys]
    exact ⟨rfl, rfl, rfl, rfl, rfl⟩

end Sys2Proof.Proofs

end

section
/-! Proofs of the test rows (R467 to R477): each command by its own effect, the end of a loop by its result. -/

namespace Sys2Proof.Proofs

open Sys2Proof.Machine Sys2Proof.Safety Sys2Proof.Laws

section
variable {s : State} {l : LoopRun} {x : LoopResult} (hl : s.test.loop = some l) (hover : loopOver s l x = true)
include hl hover

/-- A loop that is over is counted, its interface goes on, and its command completes with the counts (R471). -/
theorem exec_loopbackEnd_of_over : let t := rcAdd 0x1514 1 { s with test := { s.test with loop := none } }
    let u := if l.iface = 2 then startNext (l.index % 4) t else t
    exec (.loopbackEnd x) s = .next (finishOk 0x0E10 l.req
      (putLE 4 x.sent ++ putLE 4 x.received ++ putLE 4 x.errors ++ putLE 4 x.maxLatency ++ [byte (loopResult x), 0, 0, 0])
      (if loopResult x = 0 then raise 0xF4 [] u
        else raise 0xF5 (loopParams l ++ [(x.errors : Int)]) (rcAdd 0x1518 1 u))) := by
  change execLoopbackEnd x s = _
  simp only [execLoopbackEnd, hl, hover, Bool.not_true, Bool.false_eq_true, if_false]

end

/-- Settles O30: each command by its effect, the end of a loop by whether its result is good. -/
theorem testCommandsComplete : Obligations.TestCommandsComplete := by
  refine ⟨fun _ _ h => exec_of_accepted (c := specTestEnter) rfl h, fun _ _ h => exec_of_accepted (c := specTestExit) rfl h,
    fun _ _ h => exec_of_accepted (c := specLoopback) rfl h, fun x s l hl hover => ⟨fun hgood => ?_, fun hbad => ?_⟩,
    fun _ o _ h => exec_of_accepted (c := specBistRun o) rfl h, fun _ _ h => exec_of_accepted (c := specBistStatus) rfl h⟩
  · rw [exec_loopbackEnd_of_over hl hover, if_pos hgood]
  · rw [exec_loopbackEnd_of_over hl hover, if_neg hbad]

end Sys2Proof.Proofs

end

section
/-! Proofs of the firmware rows (R543 to R558): each command by its own effect; what reporting and answering leave of the firmware
update's state; each event by what it is under its conditions. -/

namespace Sys2Proof.Proofs

open Sys2Proof.Machine Sys2Proof.Safety Sys2Proof.Laws

/-! ### What leaves the firmware update's state -/

theorem fwu_of_reported {s t : State} (h : Reported s t) : t.fwu = s.fwu := by
  have hrest := congrArg State.fwu h.rest
  exact hrest

theorem fwu_of_answered {s t : State} (h : Answered s t) : t.fwu = s.fwu := by
  have hrest := congrArg State.fwu h.rest
  exact hrest

theorem fwu_raise (src : Nat) (l : List Int) (s : State) : (raise src l s).fwu = s.fwu :=
  fwu_of_reported (reported_raise src l s)

theorem fwu_writeNewest (src : Nat) (s : State) : (writeNewest src s).fwu = s.fwu :=
  fwu_of_reported (reported_writeNewest src s)

theorem fwu_finish (op : Nat) (r : Req) {st : Nat} (d : Nat) (data : Bytes) (s : State) (hst : st ≠ stTimeout)
    (hop : settingsOps.contains op = false) : (finish op r st d data s).fwu = s.fwu :=
  fwu_of_answered (answered_finish op r st d data s hst hop)

theorem fwu_finishOk {op : Nat} (r : Req) (data : Bytes) (s : State) (hop : settingsOps.contains op = false) :
    (finishOk op r data s).fwu = s.fwu :=
  fwu_finish op r 0 data s (by decide) hop

theorem fwu_revokeKey (k c : Nat) (s : State) : (revokeKey k c s).fwu = s.fwu := by
  rw [revokeKey, fwu_of_reported (reported_raiseC _ _ _ _)]
  rfl

theorem fwu_useLegacy (k : Nat) (s : State) : (useLegacy k s).fwu = s.fwu := by
  dsimp only [useLegacy]
  split
  · rfl
  · split
    · split
      · exact fwu_revokeKey _ _ _
      · rfl
    · rfl

theorem fwu_afterChecks (f : Option Nat) (b : Bytes) (o : Nat) (s : State) : (afterChecks f b o s).fwu = s.fwu := by
  unfold afterChecks
  split
  · split
    · rfl
    · exact fwu_useLegacy _ _
  · exact fwu_useLegacy _ _

theorem fwu_sealRaised (l : List (Nat × Nat × Nat)) (s : State) : (sealRaised l s).fwu = s.fwu := by
  induction l generalizing s with
  | nil => rfl
  | cons e l ih =>
    obtain ⟨i, a, b⟩ := e
    rw [sealRaised, ih, fwu_writeNewest, fwu_raise]

/-- A build that stops is gone and leaves the session (R544, R558). -/
theorem stopBuild_fwu (s : State) : (stopBuild s).fwu = { s.fwu with build := none } := by
  unfold stopBuild
  split
  next h => rw [← h]
  next b _ =>
    cases hb : b.req with
    | none => rfl
    | some r => exact fwu_finish 0x0D03 r 0 [] _ (by decide) (by decide)

/-! ### The session's commands (R543 to R547) -/

section
variable (r : Req) {p : Bytes} {t : State} {x : Session} (hx : t.fwu.session = some x)
include hx

theorem specFwuData_run_of_session : specFwuData.run r p t = finishOk 0x0D02 r (putLE 4 (x.received ++ p.drop 8).length)
    (setFwu (fun w => { w with session := some { x with received := x.received ++ p.drop 8 } }) t) := by
  simp only [specFwuData, setSession, setFwu, hx, Option.map_some, Option.getD_some]

/-- A build that runs already gets the command (R547). -/
theorem specFwuVerify_run_of_build {b : Build} (hb : t.fwu.build = some b) : specFwuVerify.run r p t =
    holdCmd 0x0D03 r (setFwu (fun w => { w with build := some { b with req := some r } }) t) := by
  simp only [specFwuVerify, hx, hb]

section
variable (hb : t.fwu.build = none)
include hb

/-- The first check that does not pass fails the package (R546). -/
theorem specFwuVerify_run_of_fault {k : Nat} (hk : packageFault t x = some k) : specFwuVerify.run r p t =
    failVerify k (some r) (afterChecks (packageFault t x) x.received (pkgSig x.received) t) := by
  simp only [specFwuVerify, hx, hb, hk]

/-- A package that passes its checks is built from block 0 (R547). -/
theorem specFwuVerify_run_of_passed (hk : packageFault t x = none) :
    let n := blocksOf (parseManifest (pkgManifest x.received))
    let u := setSession (fun x => { x with st := .building })
      (putIdle {} .incomplete (afterChecks (packageFault t x) x.received (pkgSig x.received) t))
    specFwuVerify.run r p t = holdCmd 0x0D03 r (setFwu (fun w => { w with
      build := some { blocks := 0, total := n, active := true, from' := u.refNs, req := some r }, progress := (0, n) }) u) := by
  simp only [specFwuVerify, hx, hb, hk]

end

end

/-- The answer of CMD_FWU_STATUS has 32 bytes (R558). -/
theorem specFwuStatus_run (r : Req) (p : Bytes) (t : State) :
    ∃ d, specFwuStatus.run r p t = finishOk 0x0D07 r d t ∧ d.length = 32 := by
  refine ⟨_, rfl, ?_⟩
  cases t.fwu.session <;> simp [zeros]

/-- Settles O28: each command by its effect, CMD_FWU_VERIFY by whether a build runs and its package passes. -/
theorem firmwareCommandsComplete : Obligations.FirmwareCommandsComplete := by
  refine ⟨fun _ _ h => exec_of_accepted (c := specFwuOpen) rfl h, fun r s x h => ?_, fun r s x h => ?_,
    fun _ _ h => exec_of_accepted (c := specFwuActivate) rfl h, fun _ _ h => exec_of_accepted (c := specFwuConfirm) rfl h,
    fun _ _ h => exec_of_accepted (c := specFwuClose) rfl h, fun r s h => ?_⟩
  · intro p t hx
    rw [exec_of_accepted (c := specFwuData) rfl h, specFwuData_run_of_session r hx]
  · intro t hx n v u
    rw [exec_of_accepted (c := specFwuVerify) rfl h]
    cases hb : t.fwu.build with
    | some b => rw [specFwuVerify_run_of_build r hx hb]
    | none =>
      cases hk : packageFault t x with
      | some k => rw [specFwuVerify_run_of_fault r hx hb hk]
      | none => rw [specFwuVerify_run_of_passed r hx hb hk]
  · obtain ⟨d, hd, hlen⟩ := specFwuStatus_run r (bodyOf r) (begun specFwuStatus r s)
    exact ⟨d, by rw [exec_of_accepted (c := specFwuStatus) rfl h, hd], hlen⟩

/-! ### What a command leaves (R543 to R554) -/

/-- The new build of a package that passes its checks, and its session. -/
theorem specFwuVerify_run_fwu {r : Req} {p : Bytes} {t : State} {x : Session} (hx : t.fwu.session = some x)
    (hb : t.fwu.build = none) (hk : packageFault t x = none) :
    let u := specFwuVerify.run r p t
    (∃ b, u.fwu.build = some b ∧ b.req = some r ∧ b.active = true ∧ b.blocks = 0 ∧
      b.total = blocksOf (parseManifest (pkgManifest x.received))) ∧ u.fwu.session = some { x with st := .building } := by
  have hkept : ∀ (y : FwSlot) (st : SlotState) (s : State), (putIdle y st s).fwu.session = s.fwu.session := by
    intro y st s
    simp only [putIdle, setFwu]
    split <;> rfl
  intro u
  refine ⟨⟨_, congrArg (·.fwu.build) (specFwuVerify_run_of_passed r hx hb hk), rfl, rfl, rfl, rfl⟩, ?_⟩
  refine (congrArg (·.fwu.session) (specFwuVerify_run_of_passed r hx hb hk)).trans ?_
  change ((putIdle {} .incomplete _).fwu.session).map _ = _
  rw [hkept, fwu_afterChecks, hx]
  rfl

/-- The activation that is asked for. -/
theorem askActivation_activate (req : Option Req) (s : State) :
    (askActivation req s).fwu.activate = some { req := req, inPlace := !activeSynced s } := by
  simp only [askActivation]
  split <;> rfl

/-- A confirmation ends the trial and raises the minimum SVNs (R554). -/
theorem specFwuConfirm_run_fwu (r : Req) (p : Bytes) (t : State) : (specFwuConfirm.run r p t).fwu = { t.fwu with
    trial := false, trialBoots := 0, trialSecs := 0, trialCount := 0, minSvn := confirmedSvns t, bootGen := t.fwu.bootGen + 1 } := by
  simp only [specFwuConfirm]
  rw [fwu_finishOk _ _ _ (by decide), fwu_sealRaised, fwu_writeNewest, fwu_raise]
  rfl

theorem specFwuOpen_run_session (r : Req) (p : Bytes) (t : State) : (specFwuOpen.run r p t).fwu.session = some {
    st := .downloading, port := originPort r.origin, slot := originSlot r.origin, tag := r.tag, kind := getLE p 0 1
    total := getLE p 4 4, received := [] } := by
  simp only [specFwuOpen]
  rw [fwu_finishOk _ _ _ (by decide), fwu_raise]
  rfl

theorem specFwuClose_run_fwu (r : Req) (p : Bytes) (t : State) :
    (specFwuClose.run r p t).fwu = { t.fwu with session := none, build := none } := by
  simp only [specFwuClose]
  rw [fwu_finishOk _ _ _ (by decide), setFwu_fwu, stopBuild_fwu]

/-! ### Activation, build and trial (R547 to R553) -/

section
variable {s : State}

section
variable (us : Nat) {a : Activation} {m : Manifest} (ha : s.fwu.activate = some a) (hm : idleManifest s = some m)
  (hready : s.power.ready = true) (hx : s.pair.exchange = none)
  (hd : devNs s % (Nat.max (cls s 1).periodUs 1 * 1000) ≤ 2000)
include ha hm hready hx hd

/-- At a Main period start after any role exchange the activation is done, or dropped where the exchange did not come about. -/
theorem exec_fwuLiveActivation_of_boundary : exec (.fwuLiveActivation us) s =
    .next (if !a.inPlace && decide (s.pair.role = .active) then dropActivation a s else liveActivation a m us s) := by
  change execFwuLiveActivation us s = _
  simp only [execFwuLiveActivation, ha, hm, hready, hx, decide_eq_false (Nat.not_lt.mpr hd), Option.isSome_none, Bool.not_true,
    Bool.or_self, Bool.false_eq_true, if_false]

end

theorem exec_fwuBuildResume_of_interrupted {b : Build} (hb : s.fwu.build = some b) (hready : s.power.ready = true)
    (hact : b.active = false) : exec .fwuBuildResume s =
    .next (raise 0xEC [(b.blocks : Int)] (setFwu (fun w => { w with
      build := some { b with active := true, from' := s.refNs }, progress := (b.blocks, b.total) }) s)) := by
  change execFwuBuildResume s = _
  simp only [execFwuBuildResume, hb, hready, hact, Bool.not_false, Bool.and_self, if_true]

theorem exec_fwuTrialTimeout_of_late {m : Manifest} (hready : s.power.ready = true) (htrial : s.fwu.trial = true)
    (hd : 86400 ≤ trialSeconds s) (hact : s.fwu.activate = none) (hing : s.fwu.activating = none)
    (hm : idleManifest s = some m) (href : activateRefusal m false s = none) :
    exec .fwuTrialTimeout s = .next (askActivation none s) := by
  change execFwuTrialTimeout s = _
  simp only [execFwuTrialTimeout, hready, htrial, decide_eq_true hd, hact, hing, hm, href, Option.isNone_none, Bool.and_self,
    if_true]

theorem exec_trialSecondsWrite_of_due (hup : s.power.mainUp = true) (htrial : s.fwu.trial = true)
    (hd : s.fwu.trialSecs + 3600 ≤ trialSeconds s) : exec .trialSecondsWrite s =
    .next (setFwu (fun w => { w with trialSecs := trialSeconds s, bootGen := w.bootGen + 1 }) s) := by
  change execTrialSecondsWrite s = _
  simp only [execTrialSecondsWrite, hup, htrial, decide_eq_true hd, Bool.and_self, if_true]

end

/-- Settles O29: each command by what it leaves of the firmware update's state, each event by its lemma above. -/
theorem firmwareEventsComplete : Obligations.FirmwareEventsComplete := by
  refine ⟨fun r s h => ?_, fun r s x h hx => ?_, fun r s x h hx hb hk => ?_, fun r s h => ?_, fun r s h => ?_, fun r s h => ?_,
    fun us s a m ha hm hready hx hd => ⟨fun hgo => ?_, fun hin hact => ?_⟩, fun _ _ => exec_fwuBuildResume_of_interrupted,
    fun _ _ => exec_fwuTrialTimeout_of_late, fun _ => exec_trialSecondsWrite_of_due⟩
  · exact ⟨_, _, exec_of_accepted (c := specFwuOpen) rfl h, specFwuOpen_run_session _ _ _, rfl, rfl, rfl, rfl⟩
  · refine ⟨_, exec_of_accepted (c := specFwuData) rfl h, ?_⟩
    rw [specFwuData_run_of_session r hx, fwu_finishOk _ _ _ (by decide)]
    rfl
  · obtain ⟨⟨b, hbuild, hreq, hactive, hblocks, htotal⟩, hsession⟩ := specFwuVerify_run_fwu (r := r) (p := bodyOf r) hx hb hk
    exact ⟨_, b, exec_of_accepted (c := specFwuVerify) rfl h, hbuild, hreq, hactive, hblocks, htotal, hsession⟩
  · exact ⟨_, exec_of_accepted (c := specFwuActivate) rfl h, askActivation_activate _ _⟩
  · refine ⟨_, exec_of_accepted (c := specFwuConfirm) rfl h, ?_⟩
    rw [specFwuConfirm_run_fwu]
    exact ⟨rfl, rfl⟩
  · refine ⟨_, exec_of_accepted (c := specFwuClose) rfl h, ?_⟩
    rw [specFwuClose_run_fwu]
    exact ⟨rfl, rfl⟩
  · have hstay : (!a.inPlace && decide (s.pair.role = .active)) = false := by
      rcases hgo with h | h
      · rw [h]; rfl
      · rw [decide_eq_false h, Bool.and_false]
    rw [exec_fwuLiveActivation_of_boundary us ha hm hready hx hd, hstay]
    rfl
  · rw [exec_fwuLiveActivation_of_boundary us ha hm hready hx hd, hin, decide_eq_true hact]
    rfl

end Sys2Proof.Proofs

end

section
/-! Proofs of restart, main power and settings (R424 to R433) and of the power and reset rows (R410 to R413, R429, R571): each
command by its own effect, each event by what it is under its conditions. -/

namespace Sys2Proof.Proofs

open Sys2Proof.Machine Sys2Proof.Safety Sys2Proof.Laws

/-! ### Main power and settings (R424, R431, R432) -/

section
variable (r : Req) {p : Bytes} (t : State)

theorem specMainPower_run_off (h : getLE p 0 1 = 0) : specMainPower.run r p t = orderlyOff r t := by
  simp only [specMainPower, h]

theorem specMainPower_run_on (h : getLE p 0 1 = 1) : specMainPower.run r p t = powerOn r t := by
  simp only [specMainPower, h]

theorem specMainPower_run_immediate (h : getLE p 0 1 = 2) : specMainPower.run r p t = immediateOff r t := by
  simp only [specMainPower, h]

/-- A store whose read-back is right writes the older copy (R424). -/
theorem specSettingsStore_run_ok (hpfw : t.power.pfw = true) : let n := olderCopy t
    let x := recordNow t (nextCopyGen t)
    (specSettingsStore true).run r p t = finishOk 0x0101 r (putLE 8 x.gen.toNat ++ [byte n, 0, 0, 0] ++ putLE 4 (settingsBytes x).length)
      (raise 0xCE [(x.gen.toNat : Int), (n : Int)] { t with stores := { t.stores with copies := fset t.stores.copies n x } }) := by
  simp only [specSettingsStore, putCopy, hpfw, Bool.not_true, Bool.false_eq_true, if_false]

theorem specSettingsRead_run_of_source {x : SetRecord} (hx : readSource t (getLE p 0 1) = some x) :
    specSettingsRead.run r p t = finishOk 0x0102 r
      (putLE 4 (getLE p 4 4) ++ putLE 4 (settingsBytes x).length ++ slice (settingsBytes x) (getLE p 4 4) 4064) t := by
  simp only [specSettingsRead, hx]

end

/-- Settles O2: each command by its effect, CMD_MAIN_POWER by its ACTION. -/
theorem restartPowerSettingsCommandsComplete : Obligations.RestartPowerSettingsCommandsComplete := by
  refine ⟨fun _ _ h => exec_of_accepted (c := specRestart) rfl h, fun r s h hact => ?_, fun r s h hact => ?_,
    fun r s h hact => ?_, fun r s h => ?_, fun r s x h => ?_, fun _ _ h => exec_of_accepted (c := specRestartPolicy) rfl h⟩
  · rw [exec_of_accepted (c := specMainPower) rfl h, specMainPower_run_off r _ hact]
    rfl
  · rw [exec_of_accepted (c := specMainPower) rfl h, specMainPower_run_on r _ hact]
    rfl
  · rw [exec_of_accepted (c := specMainPower) rfl h, specMainPower_run_immediate r _ hact]
    rfl
  · intro t hpfw
    rw [exec_of_accepted (c := specSettingsStore true) rfl h, specSettingsStore_run_ok r t hpfw]
  · intro t p hx
    rw [exec_of_accepted (c := specSettingsRead) rfl h, specSettingsRead_run_of_source r t hx]

section
variable {s : State}

/-! ### The rails (R411, R567) -/

theorem exec_railSequence_of_mayStart (hs : railsMayStart s = true) (hf : s.power.railFails = 0) :
    exec .railSequence s = .next (railsUp s) := by
  change execRailSequence s = _
  simp only [execRailSequence, hs, hf, decide_true, Bool.and_self, if_true]

theorem exec_railRetry_of_due (hs : railsMayStart s = true) (hf : s.power.railFails ≠ 0)
    (hd : 1000000000 ≤ since s s.power.railAt) : exec .railRetry s = .next (railsUp s) := by
  change execRailRetry s = _
  simp only [execRailRetry, hs, decide_eq_true hf, decide_eq_true hd, Bool.and_self, if_true]

theorem exec_railFault_of_monitored {k : Fin 8} (hv : s.power.vstby = true) (hk : k.val ≠ 0)
    (hon : s.power.mainUp = true ∨ railsMayStart s = true) : let t := railsOff (raise 0xC2 [(k.val : Int)] s)
    exec (.railFault k) s = .next { t with power := { t.power with
      railFails := s.power.railFails + 1, railAt := t.refNs
      heldOff := t.power.heldOff || decide (4 ≤ s.power.railFails + 1) } } := by
  have hon' : (s.power.mainUp || railsMayStart s) = true := by simpa only [Bool.or_eq_true] using hon
  change execRailFault k s = _
  simp only [execRailFault, hv, decide_eq_true hk, hon', Bool.and_self, if_true]

theorem exec_vinOvervoltage_of_up (hv : s.power.vstby = true) (hup : s.power.mainUp = true) :
    exec .vinOvervoltage s = .next (railsOff (raise 0xC2 [0x10] s)) := by
  change execVinOvervoltage s = _
  simp only [execVinOvervoltage, hv, hup, Bool.and_self, if_true]

/-! ### Boot and main watchdog (R412, R413) -/

section
variable {x : BootObs} (hup : s.power.mainUp = true) (hrel : s.power.released = true) (hrst : s.power.rstLow = false)
  (hboot : s.power.booted = false)
include hup hrel hrst hboot

theorem exec_bootComplete_of_slot {t : State} (h : loadSlot x s = some t) : exec (.bootComplete x) s = .next (bootWith x t) := by
  change execBootComplete x s = _
  simp only [execBootComplete, hup, hrel, hrst, hboot, h, Bool.not_false, Bool.and_self, if_true]

/-- Without a slot that passes, MG holds the main side off. -/
theorem exec_bootComplete_of_no_slot (h : loadSlot x s = none) : let t := railsOff (raise 0xE8 [0] s)
    exec (.bootComplete x) s = .next { t with power := { t.power with heldOff := true } } := by
  change execBootComplete x s = _
  simp only [execBootComplete, hup, hrel, hrst, hboot, h, Bool.not_false, Bool.and_self, if_true]

end

/-- SV's heartbeat is late: the main side is reset, or held off after five expiries in 600 s. -/
theorem exec_mainWatchdog_of_late (hv : s.power.vstby = true) (hup : s.power.mainUp = true) (hrel : s.power.released = true)
    (hlate : beatLate s = true) : let l := s.refNs :: s.power.wdAt.filter fun t => decide (since s t < 600000000000)
    let t := raise 0xC3 [] { s with power := { s.power with wdAt := l } }
    let u := raise 0xC2 [0xFF] t
    exec .mainWatchdog s = .next (if 5 ≤ l.length then
        railsOff { u with power := { u.power with heldOff := true, wdAt := [] } }
      else releaseReset (coldReset 0 false t)) := by
  change execMainWatchdog s = _
  simp only [execMainWatchdog, hv, hup, hrel, hlate, Bool.and_self, if_true]

/-! ### RST_N and the ordered reset (R410, R430, R571) -/

theorem exec_rstNAssert_of_taken {ns : Nat} (hv : s.power.vstby = true) (hrst : s.power.rstLow = false)
    (ht : resetTaken ns = true) : let t := { s with power := { s.power with rstLow := true } }
    exec (.rstNAssert ns) s = .next (if s.power.mainUp then coldReset 0 false t else t) := by
  change execRstNAssert ns s = _
  simp only [execRstNAssert, hv, hrst, ht, Bool.not_false, Bool.and_self, if_true]

theorem exec_rstNRelease_of_low (hv : s.power.vstby = true) (hrst : s.power.rstLow = true) :
    let t := { s with power := { s.power with rstLow := false } }
    exec .rstNRelease s = .next (if s.power.mainUp then releaseReset t else t) := by
  change execRstNRelease s = _
  simp only [execRstNRelease, hv, hrst, Bool.and_self, if_true]

theorem exec_mainSideColdReset_of_due {t : Nat} (ht : s.power.resetDue = some t) (hd : t ≤ s.refNs) :
    exec .mainSideColdReset s = .next (releaseReset (coldReset s.power.restartKind false s)) := by
  change execMainSideColdReset s = _
  simp only [execMainSideColdReset, ht, hd, if_true]

/-! ### PFW_N (R429, R572) -/

theorem exec_pfwFall_of_high (hv : s.power.vstby = true) (hpfw : s.power.pfw = true) :
    let t := raise 0xC4 [] { s with power := { s.power with pfw := false } }
    let u := interruptUpdates (flushMeter t)
    exec .pfwFall s = .next (if !t.power.mainUp then t else if !t.power.ready then railsOff t
      else { u with panel := { u.panel with stopped := true } }) := by
  change execPfwFall s = _
  simp only [execPfwFall, hv, hpfw, Bool.and_self, if_true]

theorem exec_pfwRise_of_low (hv : s.power.vstby = true) (hpfw : s.power.pfw = false) :
    let t := { s with power := { s.power with pfw := true } }
    let u := resumeMeter (raise 0xC5 [] t)
    exec .pfwRise s = .next (if s.power.mainUp then pnlRepair { u with panel := { u.panel with stopped := false } } else t) := by
  change execPfwRise s = _
  simp only [execPfwRise, hv, hpfw, Bool.not_false, Bool.and_self, if_true]

end

/-- Settles O37: each event by its lemma above, in the branch that its conditions leave. -/
theorem powerAndResetEventsComplete : Obligations.PowerAndResetEventsComplete := by
  refine ⟨fun _ _ _ => rfl, fun _ => exec_railSequence_of_mayStart, fun _ => exec_railRetry_of_due,
    fun _ _ => exec_railFault_of_monitored, fun _ => exec_vinOvervoltage_of_up,
    fun x s hup hrel hrst hboot => ⟨fun _ => exec_bootComplete_of_slot hup hrel hrst hboot,
      exec_bootComplete_of_no_slot hup hrel hrst hboot⟩,
    fun s hv hup hrel hlate => ⟨fun hfew => ?_, fun hmany => ?_⟩,
    fun ns s hv hrst ht => ⟨fun hup => ?_, fun hdown => ?_⟩, fun s hv hrst => ⟨fun hup => ?_, fun hdown => ?_⟩,
    fun _ _ => exec_mainSideColdReset_of_due,
    fun s hv hpfw => ⟨fun hdown => ?_, fun hup hready => ?_, fun hup hready => ?_⟩,
    fun s hv hpfw => ⟨fun hup => ?_, fun hdown => ?_⟩⟩
  · rw [exec_mainWatchdog_of_late hv hup hrel hlate, if_neg (Nat.not_le.mpr hfew)]
  · rw [exec_mainWatchdog_of_late hv hup hrel hlate, if_pos hmany]
  · rw [exec_rstNAssert_of_taken hv hrst ht, if_pos hup]
  · rw [exec_rstNAssert_of_taken hv hrst ht, hdown]
    rfl
  · rw [exec_rstNRelease_of_low hv hrst, if_pos hup]
  · rw [exec_rstNRelease_of_low hv hrst, hdown]
    rfl
  · rw [exec_pfwFall_of_high hv hpfw, hdown]
    rfl
  · rw [exec_pfwFall_of_high hv hpfw, hup, hready]
    rfl
  · rw [exec_pfwFall_of_high hv hpfw, hup, hready]
    rfl
  · rw [exec_pfwRise_of_low hv hpfw, if_pos hup]
  · rw [exec_pfwRise_of_low hv hpfw, hdown]
    rfl

end Sys2Proof.Proofs

end
